-- ==== Sys2Proof/Word.lean ====
section
/-! DEFINITION. The words of the GT4 and the shape of a sparse store: the plainest types every other file uses. -/

namespace Sys2Proof

/-- A byte of a memory, a packet or a stored record. -/
abbrev Byte := BitVec 8
/-- A 32-bit register or vector lane. -/
abbrev W32 := BitVec 32
/-- A 64-bit register, a command word or an Onaile scalar. -/
abbrev W64 := BitVec 64

/-- A sparse store: the cells that differ from what an unlisted key reads as, in rising order of key. A memory is an
`SMap Byte`, which is a list of `Host.Cell`. -/
abbrev SMap (α : Type) := List (Nat × α)

end Sys2Proof
end

