-- ==== Sys2Proof/Syntax.lean ====
section
/-! DEFINITION. The commands the block takes, one constructor for each row of spec/opcode_table.json, and the types of
their operands. -/

namespace Sys2Proof

/-- Completion status codes (R9). -/
inductive Status where
  | ok | busError | protection | illegal | level | timeout | poison | veto | epoch | aborted | checksum | saturated
  deriving DecidableEq, Repr

/-- The BAR through which a register access comes: the operator's (R15), a partition's physical function (R16), or one
of its virtual functions (R17), numbered 1 to 16 as `v + 1`; `ide`: the access travels in the selective IDE stream of the
tenant's session (R371). -/
inductive Bar where
  | operator
  | tenant (p : Fin 8) (ide : Bool)
  | virtual (p : Fin 8) (v : Fin 16) (ide : Bool)
  deriving DecidableEq, Repr

/-- One Onaile instruction met by a program state: the engine and state that issue it, its LVL field and its operand bits
(R244). The opcode is the row's. -/
structure Issue where
  part : Fin 8
  engine : Fin 48
  ps : Fin 8
  lvl : BitVec 4
  op : BitVec 52
  deriving DecidableEq, Repr

/-- A hardware queue of a partition. -/
structure QueueId where
  part : Fin 8
  q : Fin 8192
  deriving DecidableEq, Repr

/-- A context of a partition. -/
structure CtxId where
  part : Fin 8
  ctx : Fin 64
  deriving DecidableEq, Repr

/-- An engine of a partition. -/
structure EngineId where
  part : Fin 8
  engine : Fin 48
  deriving DecidableEq, Repr

/-- A transaction packet as it arrives (R177): on a weft or selvage port, or from the device itself (`none`); whether its
tag verifies, whether it does so only under the key generation before the last rotation (R367), whether its SRC is a member of the job, which
R179 checks and no rule says how a device learns, its header words, and its payload in clear. -/
structure Packet where
  port : Option (Fin 16)
  tagOk : Bool
  oldKey : Bool
  srcMember : Bool
  w0 : W64
  w1 : W64
  w2 : W64
  w3 : W64
  w4 : W64
  w5 : W64
  w6 : W64
  w7 : W64
  payload : List Byte
  deriving DecidableEq, Repr

/-- The units whose instructions UNIT_INSTRUCTION_COMPLETE completes (R250). -/
inductive EngUnit where
  | forward | backward | converter | vector
  deriving DecidableEq, Repr

/-- How UNIT_INSTRUCTION_COMPLETE ends an instruction or a part of it (R76, R243): a tile of a converter instruction, the instruction, or
the instruction with an uncorrectable error. -/
inductive UnitEnd where
  | tile | done | error
  deriving DecidableEq, Repr

/-- A requester of HBM (R315, HBM_ERR_LAST.REQ of R318). -/
inductive Agent where
  | program (c : CtxId)
  | batten (c : CtxId)
  | reduction (job : BitVec 16)
  | host (c : CtxId)
  | selvage (job : BitVec 16)
  | scrubber
  | treadle (c : CtxId)
  deriving DecidableEq, Repr

/-- What happened to one stored block of HBM since it was written: the bits that turned, data and side-band (R300). -/
structure Damage where
  data : List Byte
  side : List Byte
  deriving DecidableEq, Repr

/-- A TIME message as received (R172): the sender's stamps, what it reports, and when it crossed the FEC boundary. -/
structure TimeMsg where
  t1 : W64
  t4 : Option W64
  t2 : W64
  t3 : W64
  hops : BitVec 3
  lock : Bool
  epoch : W64
  deriving DecidableEq, Repr

/-- How a lane training or retraining ended (R164, R167). -/
inductive TrainEnd where
  | done (good : BitVec 8)
  | failed
  deriving DecidableEq, Repr

/-- A bit that a traffic generator read inverted (R299): in which pass of its run, where, and on which lane and beat. -/
structure Flip where
  pass : Nat
  row : BitVec 14
  bank : BitVec 6
  pc : Bool
  block : BitVec 4
  lane : Fin 74
  beat : Fin 16
  deriving DecidableEq, Repr

/-- A block of on-chip SRAM (R305, R306): of a bobbin, of the addressed beam store, of a beam-store line that caches HBM, of a slot's
accumulators or their side store, of the n-th held packet, or of an engine's instruction cache. -/
inductive SramPlace where
  | bobbin
  | addressedBeam
  | beamLine (line : W32)
  | accumulator (slot : Fin 4096)
  | sideStore (slot : Fin 4096)
  | held (n : Nat)
  | icache (e : Fin 48)
  deriving DecidableEq, Repr

/-- What a read of on-chip SRAM met: where, and the row and column checks that fail (R305). -/
structure SramError where
  place : SramPlace
  rows : BitVec 16
  cols : BitVec 16
  deriving DecidableEq, Repr

/-- How a board-tier port's training ended (R324): up at a rate with one or two expanders and their capacities in GiB, a
partner that is refused, or failed. -/
inductive CxlEnd where
  | up (rate : Fin 3) (cap0 : BitVec 16) (cap1 : Option (BitVec 16))
  | refused
  | failed
  deriving DecidableEq, Repr

/-- Where an SPDM request comes from (R370): the mailbox of physical function 0 or of a partition's function, or MCTP over I3C. -/
inductive SpdmFunc where
  | operator
  | partition (p : Fin 8)
  | mctp
  deriving DecidableEq, Repr

/-- What the partner sends at a pair admission (R336): its identifier, its OVERRIDE, and the role and feed tags of its descriptor
where that is valid. -/
structure PairMsg where
  id : BitVec 16
  override : Bool
  desc : Option (Bool × List W64)
  deriving DecidableEq, Repr

/-- The failing lanes that training found in one channel (R294). -/
structure LaneFail where
  stack : Fin 16
  ch : Fin 32
  lanes : List (Fin 74)
  deriving DecidableEq, Repr

/-- What a stack's identification reports (R292): its dies, Gbit a die, Mbit/s a lane. -/
structure StackId where
  stack : Fin 16
  height : Nat
  density : Nat
  rate : Nat
  deriving DecidableEq, Repr

/-- What training finds (R292, R294): failing lanes, and what stacks report that are not as R292 has them. -/
structure Training where
  lanes : List LaneFail := []
  ids : List StackId := []
  deriving DecidableEq, Repr

/-- What a boot meets (R425, R431): whether the flash responds, the regulators reach regulation, the creel dies, the loom dies and the
management firmware come up and the lifecycle fuses are consistent; what training finds; the repair entries, as stack and index, whose
hard repair a stack refuses (R310); and the step that the boot has reached, 7 when it is complete. -/
structure BootEnv where
  flash : Bool
  regulators : Bool
  creel : Bool
  loom : Bool
  firmware : Bool
  fuses : Bool
  pg : Bool
  training : Training
  refused : List (Fin 16 × Fin 256)
  reached : Fin 8
  deriving DecidableEq, Repr

/-- The commands of the block, one for each row of the table, in its order. The docstring of a constructor cites its rule. -/
inductive Instr where
  /-- REGISTER_WRITE (R8) -/
  | registerWrite (bar : Bar) (off : BitVec 23) (wide : Bool) (v : W64)
  /-- SPLIT_WRITE_LOW (R12) -/
  | splitWriteLow (bar : Bar) (off : BitVec 23) (v : W32)
  /-- SPLIT_WRITE_HIGH (R12) -/
  | splitWriteHigh (bar : Bar) (off : BitVec 23) (v : W32)
  /-- SPLIT_READ_LOW (R12) -/
  | splitReadLow (bar : Bar) (off : BitVec 23)
  /-- PROFILE_REQUEST (R36) -/
  | profileRequest (v : W32)
  /-- ROLE_WRITE (R36) -/
  | roleWrite (p : Fin 8) (v : W32)
  /-- CLOCK_LIMIT_WRITE (R40) -/
  | clockLimitWrite (p : Fin 8) (v : W32)
  /-- PICK_BOUNDARY (R283) -/
  | pickBoundary
  /-- CLOCK_CHANGE_COMPLETE (R36) -/
  | clockChangeComplete (p : Fin 8)
  /-- THERMAL_FORCE (R39) -/
  | thermalForce
  /-- PACK_ACT (R74) -/
  | packAct (x : Issue)
  /-- PACK_WGT_INIT (R83) -/
  | packWgtInit (x : Issue)
  /-- PACK_WGT (R83) -/
  | packWgt (x : Issue)
  /-- UNPACK (R92) -/
  | unpack (x : Issue)
  /-- ROTATE (R93) -/
  | rotate (x : Issue)
  /-- ROUND (R93) -/
  | round (x : Issue)
  /-- CNV_COUNTER_CLEAR (R100) -/
  | cnvCounterClear (bar : Bar) (v : W32)
  /-- CNV_FAULT_CLEAR (R97) -/
  | cnvFaultClear (bar : Bar) (v : W32)
  /-- FMUL (R105) -/
  | fmul (x : Issue)
  /-- DGRAD (R133) -/
  | dgrad (x : Issue)
  /-- WGRAD (R133) -/
  | wgrad (x : Issue)
  /-- MATMUL_BF16 (R133) -/
  | matmulBf16 (x : Issue)
  /-- UNIT_INSTRUCTION_COMPLETE (R243) -/
  | unitInstructionComplete (e : EngineId) (u : EngUnit) (r : UnitEnd)
  /-- WIDEN_COPY_COMPLETE (R123) -/
  | widenCopyComplete (p : Fin 8) (layer : Fin 4096)
  /-- TEN_REFERENCE_WRITE (R130) -/
  | tenReferenceWrite (bar : Bar) (layer : Fin 4096) (grad : Bool) (v : W32)
  /-- TEN_FWD_COUNTER_CLEAR (R132) -/
  | tenFwdCounterClear (bar : Bar) (v : W32)
  /-- TEN_BWD_COUNTER_CLEAR (R162) -/
  | tenBwdCounterClear (bar : Bar) (v : W32)
  /-- PORT_ENABLE (R175) -/
  | portEnable (port : Fin 16) (v : W32)
  /-- PARTNER_SIGNAL_DETECT (R168) -/
  | partnerSignalDetect (port : Fin 17)
  /-- TRAINING_COMPLETE (R164) -/
  | trainingComplete (port : Fin 17) (r : TrainEnd)
  /-- TRAINING_TIMEOUT (R168) -/
  | trainingTimeout (port : Fin 17)
  /-- NEGOTIATE_SEND (R168) -/
  | negotiateSend (port : Fin 17)
  /-- NEGOTIATE (R168) -/
  | negotiate (port : Fin 17) (level : BitVec 4) (partner : BitVec 16) (isSwitch : Bool) (lanes : BitVec 8)
  /-- NEGOTIATE_TIMEOUT (R163) -/
  | negotiateTimeout (port : Fin 17)
  /-- FLIT_RECEIVE (R166) -/
  | flitReceive (port : Fin 17) (hdr : W64) (payload : List Byte) (check : W64) (uncorr : Nat)
  /-- RETRY_REQ (R166) -/
  | retryReq (port : Fin 17) (seq : BitVec 12)
  /-- RETRAIN (R167) -/
  | retrain (port : Fin 17)
  /-- RETRAIN_COMPLETE (R167) -/
  | retrainComplete (port : Fin 17) (r : TrainEnd)
  /-- TIME_SEND (R172) -/
  | timeSend (port : Fin 16)
  /-- TIME (R172) -/
  | timeMsg (port : Fin 16) (m : TimeMsg)
  /-- UPSTREAM_LOSS (R173) -/
  | upstreamLoss
  /-- FABRIC_LOCK_LOSS (R173) -/
  | fabricLockLoss
  /-- STATUS (R178) -/
  | statusPacket (pk : Packet)
  /-- REDUCE (R189) -/
  | reduce (pk : Packet)
  /-- DROP (R193) -/
  | drop (pk : Packet)
  /-- CALIB (R185) -/
  | calib (pk : Packet)
  /-- EXPMAX (R184) -/
  | expmax (pk : Packet)
  /-- EXPSET (R185) -/
  | expset (pk : Packet)
  /-- GATHER (R195) -/
  | gather (pk : Packet)
  /-- REMOTE_KNOT_ADD (R278) -/
  | remoteKnotAdd (pk : Packet)
  /-- SIGNAL (R222) -/
  | signal (pk : Packet)
  /-- VETO (R222) -/
  | veto (pk : Packet)
  /-- OUTCOME (R224) -/
  | outcome (pk : Packet)
  /-- QUERY (R223) -/
  | query (pk : Packet)
  /-- ANSWER (R223) -/
  | answer (pk : Packet)
  /-- SLOT_OPEN (R182) -/
  | slotOpen (bar : Bar) (slot : Fin 4096) (v : W32)
  /-- SLOT_CLEAR_COMPLETE (R182) -/
  | slotClearComplete (slot : Fin 4096)
  /-- SLOT_RELEASE (R186) -/
  | slotRelease (bar : Bar) (slot : Fin 4096) (v : W32)
  /-- SUM_CHECK_COMPLETE (R183) -/
  | sumCheckComplete (slot : Fin 4096)
  /-- HOLD_RELEASE (R190) -/
  | holdRelease
  /-- HOLD_TIMEOUT (R190) -/
  | holdTimeout (n : Nat)
  /-- REPLY_WINDOW_EXPIRY (R263) -/
  | replyWindowExpiry (seq : W64)
  /-- RED_COUNTER_CLEAR (R200) -/
  | redCounterClear (bar : Bar) (v : W32)
  /-- WINDOW_CLOSE_WRITE (R286) -/
  | windowCloseWrite (bar : Bar) (w : Fin 4096) (v : W64)
  /-- VALIDATE (R205) -/
  | validate (bar : Bar) (v : W32)
  /-- INVALIDATE (R205) -/
  | invalidate (bar : Bar) (v : W32)
  /-- STEP_OPEN (R220) -/
  | stepOpen (bar : Bar) (c : Fin 64) (v : W32)
  /-- STEP_COMMIT (R221) -/
  | stepCommit (bar : Bar) (c : Fin 64) (v : W32)
  /-- STEP_VETO (R226) -/
  | stepVeto (bar : Bar) (c : Fin 64) (v : W32)
  /-- SHARD_UPDATE (R207) -/
  | shardUpdate (p : Fin 8) (entry : Fin 4096)
  /-- COMMIT_SIGNAL (R221) -/
  | commitSignal (c : CtxId)
  /-- COMMIT_DEADLINE (R223) -/
  | commitDeadline (c : CtxId)
  /-- QUERY_DEADLINE (R223) -/
  | queryDeadline (c : CtxId)
  /-- COMMIT_VETO (R235) -/
  | commitVeto (p : Fin 8) (v : W32)
  /-- BAT_COUNTER_CLEAR (R234) -/
  | batCounterClear (bar : Bar) (v : W32)
  /-- NOP (R250) -/
  | nopInstr (x : Issue)
  /-- BR (R250) -/
  | br (x : Issue)
  /-- JMPA (R250) -/
  | jmpa (x : Issue)
  /-- CALL (R250) -/
  | call (x : Issue)
  /-- LOOP (R250) -/
  | loop (x : Issue)
  /-- WAITU (R250) -/
  | waitu (x : Issue)
  /-- YIELD (R250) -/
  | yield (x : Issue)
  /-- END (R250) -/
  | endProgram (x : Issue)
  /-- SOP (R251) -/
  | sop (x : Issue)
  /-- SOPI (R251) -/
  | sopi (x : Issue)
  /-- SLI (R251) -/
  | sli (x : Issue)
  /-- SLD (R251) -/
  | sld (x : Issue)
  /-- SST (R251) -/
  | sst (x : Issue)
  /-- SCMP (R251) -/
  | scmp (x : Issue)
  /-- AOP (R251) -/
  | aop (x : Issue)
  /-- AGET (R251) -/
  | aget (x : Issue)
  /-- TLD (R251) -/
  | tld (x : Issue)
  /-- TST (R251) -/
  | tst (x : Issue)
  /-- TADJ (R251) -/
  | tadj (x : Issue)
  /-- SYSR (R249) -/
  | sysr (x : Issue)
  /-- SYSW (R248) -/
  | sysw (x : Issue)
  /-- COPY (R252) -/
  | copy (x : Issue)
  /-- COPYOBJ (R333) -/
  | copyobj (x : Issue)
  /-- FILL (R252) -/
  | fillInstr (x : Issue)
  /-- WAITS (R252) -/
  | waits (x : Issue)
  /-- SHUTTLE_COMPLETE (R253) -/
  | shuttleComplete (op : Nat) (err : Bool)
  /-- VOP (R258) -/
  | vop (x : Issue)
  /-- VFMA (R258) -/
  | vfma (x : Issue)
  /-- VLD (R258) -/
  | vld (x : Issue)
  /-- VST (R258) -/
  | vst (x : Issue)
  /-- VRED (R260) -/
  | vred (x : Issue)
  /-- VCVT (R260) -/
  | vcvt (x : Issue)
  /-- VCMP (R258) -/
  | vcmp (x : Issue)
  /-- VSEL (R258) -/
  | vsel (x : Issue)
  /-- VBCAST (R258) -/
  | vbcast (x : Issue)
  /-- VRAND (R261) -/
  | vrand (x : Issue)
  /-- KSIG_LOCAL (R262) -/
  | ksigLocal (x : Issue)
  /-- KSIG_REMOTE (R262) -/
  | ksigRemote (x : Issue)
  /-- KSIG_REMOTE_COMPLETE (R262) -/
  | ksigRemoteComplete (op : Nat)
  /-- KWAIT (R262) -/
  | kwait (x : Issue)
  /-- KREAD (R262) -/
  | kread (x : Issue)
  /-- RSEND (R263) -/
  | rsend (x : Issue)
  /-- SEND_COMPLETE (R263) -/
  | sendComplete (op : Nat)
  /-- RSCAN (R192) -/
  | rscan (x : Issue)
  /-- SCAN_COMPLETE (R192) -/
  | scanComplete (op : Nat)
  /-- RCALIB (R185) -/
  | rcalib (x : Issue)
  /-- RSLOT_OPEN (R264) -/
  | rslotOpen (x : Issue)
  /-- RSLOT_RELEASE (R264) -/
  | rslotRelease (x : Issue)
  /-- BSTEP_OPEN (R220) -/
  | bstepOpen (x : Issue)
  /-- BSTEP_COMMIT (R221) -/
  | bstepCommit (x : Issue)
  /-- BSTEP_VETO (R226) -/
  | bstepVeto (x : Issue)
  /-- BSTAT (R262) -/
  | bstat (x : Issue)
  /-- BCURSOR_READ_COMMITTED (R262) -/
  | bcursorReadCommitted (x : Issue)
  /-- BCURSOR_READ_PROVISIONAL (R262) -/
  | bcursorReadProvisional (x : Issue)
  /-- BCURSOR_WRITE (R262) -/
  | bcursorWrite (x : Issue)
  /-- TNOW (R262) -/
  | tnow (x : Issue)
  /-- TWAITP (R262) -/
  | twaitp (x : Issue)
  /-- TSCHED (R262) -/
  | tsched (x : Issue)
  /-- DOORBELL (R268) -/
  | doorbell (bar : Bar) (q : Fin 8192) (v : W32)
  /-- CPL_ACK (R268) -/
  | cplAck (bar : Bar) (q : Fin 8192) (v : W32)
  /-- QUEUE_ENABLE (R266) -/
  | queueEnable (bar : Bar) (q : Fin 8192) (v : W32)
  /-- QUEUE_DISABLE (R268) -/
  | queueDisable (bar : Bar) (q : Fin 8192) (v : W32)
  /-- HOST_LEVEL_WRITE (R269) -/
  | hostLevelWrite (bar : Bar) (vf : Fin 17) (v : W32)
  /-- COMMAND_FETCH (R268) -/
  | commandFetch (q : QueueId) (err : Bool)
  /-- NOP_COMMAND (R271) -/
  | nopCommand (q : QueueId)
  /-- LAUNCH (R272) -/
  | launch (q : QueueId)
  /-- LAUNCH_COMPLETE (R272) -/
  | launchComplete (q : QueueId)
  /-- KWAIT_COMMAND (R271) -/
  | kwaitCommand (q : QueueId)
  /-- KSIG_COMMAND (R271) -/
  | ksigCommand (q : QueueId)
  /-- TSIG (R271) -/
  | tsig (q : QueueId)
  /-- PASS_OPEN (R285) -/
  | passOpen (q : QueueId)
  /-- PASS_CLOSE (R285) -/
  | passClose (q : QueueId)
  /-- MSTEP_CLOSE (R285) -/
  | mstepClose (q : QueueId)
  /-- KNOT_WRITE (R277) -/
  | knotWrite (bar : Bar) (k : Fin 2048) (v : W32)
  /-- KNOT_ADD (R277) -/
  | knotAdd (bar : Bar) (k : Fin 2048) (v : W32)
  /-- HBM_READ (R302) -/
  | hbmRead (a : Agent) (addr : BitVec 40) (n : Fin 65) (d : Damage)
  /-- HBM_WRITE (R303) -/
  | hbmWrite (a : Agent) (addr : BitVec 40) (bytes : List Byte) (poisoned : Bool) (d : Damage)
  /-- LANE_REPAIR (R295) -/
  | laneRepair (stack : Fin 16) (ch : Fin 32) (lane : Fin 74)
  /-- SOFT_REPAIR_COMPLETE (R309) -/
  | softRepairComplete (stack : Fin 16)
  /-- TEMP_READOUT (R292) -/
  | tempReadout (stack : Fin 16) (t : BitVec 8)
  /-- SCRUB_READ (R307) -/
  | scrubRead (stack : Fin 16) (ch : Fin 32) (d0 d1 : Damage)
  /-- TG_START (R297) -/
  | tgStart (stack : Fin 16) (ch : Fin 32) (v : W32)
  /-- TG_STOP (R299) -/
  | tgStop (stack : Fin 16) (ch : Fin 32) (v : W32)
  /-- TG_RUN_COMPLETE (R297) -/
  | tgRunComplete (stack : Fin 16) (ch : Fin 32) (flips : List Flip)
  /-- HBM_COUNTER_CLEAR (R318) -/
  | hbmCounterClear (stack : Fin 16) (v : W32)
  /-- CE_RATE_CHECK (R319) -/
  | ceRateCheck (stack : Fin 16)
  /-- SRAM_SWEEP (R306) -/
  | sramSweep (p : Fin 8) (e : SramError)
  /-- CARD_FILL (R317) -/
  | cardFill (p : Fin 8) (v : W32)
  /-- COPY_ACTIVE (R317) -/
  | copyActive (p : Fin 8) (v : W32)
  /-- CARD_COMMAND_COMPLETE (R317) -/
  | cardCommandComplete (p : Fin 8)
  /-- BTIER_PORT_TRAINING (R324) -/
  | btierPortTraining (n : Fin 4) (r : CxlEnd)
  /-- MAP_BUILD (R326) -/
  | mapBuild (v : W32)
  /-- MAP_DISABLE (R326) -/
  | mapDisable (v : W32)
  /-- BTIER_CARD_WRITE (R327) -/
  | btierCardWrite (i : Fin 4096) (v : W32)
  /-- BTIER_READ_TIMEOUT (R328) -/
  | btierReadTimeout (op : Nat) (n : Fin 4)
  /-- BTIER_PORT_FAIL (R326) -/
  | btierPortFail (n : Fin 4)
  /-- PAIR_ADMIT (R336) -/
  | pairAdmit (v : W32) (msg : Option PairMsg)
  /-- HEARTBEAT_SEND (R341) -/
  | heartbeatSend
  /-- HEARTBEAT (R341) -/
  | heartbeat (pk : Packet)
  /-- TWIN_LOSS (R342) -/
  | twinLoss
  /-- MIRROR (R345) -/
  | mirror (pk : Packet)
  /-- DELTA (R345) -/
  | delta (pk : Packet)
  /-- RECORD (R345) -/
  | record (pk : Packet)
  /-- POINT (R340) -/
  | point (pk : Packet)
  /-- DECISION (R222) -/
  | decision (pk : Packet)
  /-- ACK (R340) -/
  | ack (pk : Packet)
  /-- FLUSH (R349) -/
  | flush (pk : Packet)
  /-- FOLD (R347) -/
  | fold (c : CtxId)
  /-- RISK_DECAY (R348) -/
  | riskDecay
  /-- TWIN_ELEVATED (R348) -/
  | twinElevated
  /-- RESOLVE_COMMIT (R356) -/
  | resolveCommit (bar : Bar) (c : Fin 64) (v : W32)
  /-- RESOLVE_ABORT (R356) -/
  | resolveAbort (bar : Bar) (c : Fin 64) (v : W32)
  /-- ROLLBACK (R357) -/
  | rollback (bar : Bar) (c : Fin 64) (v : W32)
  /-- PROMOTE (R358) -/
  | promote (bar : Bar) (c : Fin 64) (v : W32)
  /-- PROMOTE_COMPLETE (R358) -/
  | promoteComplete (c : CtxId)
  /-- RESTORE (R355) -/
  | restore (bar : Bar) (c : Fin 64) (v : W32)
  /-- GET_VERSION (R370) -/
  | getVersion (f : SpdmFunc)
  /-- GET_CAPABILITIES (R370) -/
  | getCapabilities (f : SpdmFunc)
  /-- NEGOTIATE_ALGORITHMS (R370) -/
  | negotiateAlgorithms (f : SpdmFunc) (ecdsa sha dhe aead : Bool)
  /-- GET_DIGESTS (R370) -/
  | getDigests (f : SpdmFunc)
  /-- GET_CERTIFICATE (R370) -/
  | getCertificate (f : SpdmFunc) (slot : BitVec 4)
  /-- CHALLENGE (R370) -/
  | challenge (f : SpdmFunc) (nonce : List Byte)
  /-- GET_MEASUREMENTS (R370) -/
  | getMeasurements (f : SpdmFunc) (index : BitVec 8)
  /-- KEY_EXCHANGE (R371) -/
  | keyExchange (f : SpdmFunc) (sid : W32) (key : Option (List Byte))
  /-- FINISH (R370) -/
  | finish (f : SpdmFunc) (sid : W32) (ok : Bool)
  /-- KEY_UPDATE (R370) -/
  | keyUpdate (f : SpdmFunc) (sid : W32)
  /-- END_SESSION (R370) -/
  | endSession (f : SpdmFunc) (sid : W32)
  /-- JOB_KEYS_SET (R372) -/
  | jobKeysSet (f : SpdmFunc) (sid : W32) (body : List Byte)
  /-- JOB_KEYS_ROTATE (R367) -/
  | jobKeysRotate (f : SpdmFunc) (sid : W32) (body : List Byte)
  /-- JOB_END (R366) -/
  | jobEnd (f : SpdmFunc) (sid : W32) (body : List Byte)
  /-- POLICY_SET (R371) -/
  | policySet (f : SpdmFunc) (sid : W32) (body : List Byte)
  /-- CUSTODY_STATUS (R372) -/
  | custodyStatus (f : SpdmFunc) (sid : W32) (body : List Byte)
  /-- RETIRED_KEY_RELEASE (R367) -/
  | retiredKeyRelease (job : BitVec 16) (gen : BitVec 8)
  /-- LIFECYCLE_ADVANCE (R369) -/
  | lifecycleAdvance (v : W32) (cert : Bool)
  /-- PART_ASSIGN (R373) -/
  | partAssign (p : Fin 8) (v : W32)
  /-- ZEROISE (R377) -/
  | zeroise (p : Fin 8) (v : W32)
  /-- ZERO_ALL (R377) -/
  | zeroAll (v : W32)
  /-- ZEROISATION_COMPLETE (R377) -/
  | zeroisationComplete (p : Fin 8)
  /-- ADMIT (R375) -/
  | admission (c : CtxId) (v : W32)
  /-- LEAVE (R375) -/
  | leave (c : CtxId) (v : W32)
  /-- LEAVE_COMPLETE (R375) -/
  | leaveComplete (c : CtxId)
  /-- JOB_TEARDOWN (R376) -/
  | jobTeardown (index : Fin 512)
  /-- EXPORT (R382) -/
  | exportSnap (bar : Bar) (c : Fin 64) (v : W32)
  /-- IMPORT (R382) -/
  | importSnap (bar : Bar) (c : Fin 64) (v : W32)
  /-- SNAP_COMMAND_COMPLETE (R382) -/
  | snapCommandComplete (c : CtxId)
  /-- CONSENT (R383) -/
  | consent (v : W32)
  /-- DEBUG_TOKEN (R383) -/
  | debugToken (v : W32)
  /-- CONSENT_EXPIRY (R383) -/
  | consentExpiry
  /-- CONTEXT_WATCHDOG (R386) -/
  | contextWatchdog (c : CtxId)
  /-- DRAIN_EXPIRY (R386) -/
  | drainExpiry (c : CtxId)
  /-- UNIT_WATCHDOG (R387) -/
  | unitWatchdog (e : EngineId)
  /-- ENGINE_RESET_COMPLETE (R395) -/
  | engineResetComplete (e : EngineId)
  /-- ENGINE_RESET_TIMEOUT (R389) -/
  | engineResetTimeout (e : EngineId)
  /-- PROGRESS_WATCHDOG (R390) -/
  | progressWatchdog (p : Fin 8)
  /-- PARTITION_RESET_COMPLETE (R389) -/
  | partitionResetComplete (p : Fin 8) (t : Training)
  /-- PARTITION_RESET_TIMEOUT (R389) -/
  | partitionResetTimeout (p : Fin 8)
  /-- MGMT_WATCHDOG (R388) -/
  | mgmtWatchdog
  /-- CONTEXT_STOP_REQUEST (R392) -/
  | contextStopRequest (v : W32)
  /-- ENGINE_RESET_REQUEST (R392) -/
  | engineResetRequest (v : W32)
  /-- PARTITION_RESET_REQUEST (R392) -/
  | partitionResetRequest (v : W32)
  /-- CHIP_RESET_REQUEST (R392) -/
  | chipResetRequest (v : W32)
  /-- POWER_CYCLE_REQUEST (R392) -/
  | powerCycleRequest (v : W32) (ack : Bool)
  /-- REPLAY_CLEAR (R395) -/
  | replayClear (e : EngineId)
  /-- ALARM_CLEAR (R399) -/
  | alarmClear (cls : Fin 64) (v : W32)
  /-- RECORD_WRITE_OUT (R404) -/
  | recordWriteOut (ring : Fin 9)
  /-- LOG_RD_WRITE (R406) -/
  | logRdWrite (bar : Bar) (v : W64)
  /-- LOG_ENABLE (R406) -/
  | logEnable (bar : Bar) (v : W32)
  /-- COALESCE_FLUSH (R408) -/
  | coalesceFlush (n : Nat)
  /-- INCIDENT_EXIT (R408) -/
  | incidentExit
  /-- ENTRY_ATTEMPT (R413) -/
  | entryAttempt (v : W32)
  /-- HOST_VOTE (R412) -/
  | hostVote (v : W32)
  /-- POWER_ENTRY (R414) -/
  | powerEntry (point : Fin 5) (kind : Fin 6) (dom : Fin 4) (c : CtxId)
  /-- POWER_EXIT (R410) -/
  | powerExit
  /-- WAKE_LAND (R416) -/
  | wakeLand
  /-- I3C_WAKE (R416) -/
  | i3cWake
  /-- EXCURSION_START (R420) -/
  | excursionStart (rail : Fin 16) (mv : BitVec 16)
  /-- EXCURSION_END (R420) -/
  | excursionEnd (rail : Fin 16) (minMv mv : BitVec 16) (us : W32)
  /-- RESET_LEVEL_CROSSING (R422) -/
  | resetLevelCrossing (rail : Fin 16) (mv : BitVec 16)
  /-- SUPPLY_CHIP_RESET (R422) -/
  | supplyChipReset
  /-- DIP_CLEAR (R423) -/
  | dipClear (v : W32)
  /-- REFCLK_LOSS (R424) -/
  | refclkLoss
  /-- REFCLK_HOLDOVER_EXPIRY (R424) -/
  | refclkHoldoverExpiry
  /-- REFCLK_RETURN (R424) -/
  | refclkReturn
  /-- BOOT_START (R425) -/
  | bootStart (env : BootEnv)
  /-- BOOT_TIMEOUT (R429) -/
  | bootTimeout (ack : Bool)
  /-- RETRY (R432) -/
  | retry (v : W32)
  /-- FLASH_ERASE (R432) -/
  | flashErase (v : W32)
  /-- FLASH_PROGRAM (R432) -/
  | flashProgram (v : W32)
  /-- FLASH_READ (R432) -/
  | flashRead (v : W32)
  /-- FLASH_COMMAND_COMPLETE (R432) -/
  | flashCommandComplete
  /-- SMBUS_READ_BYTE (R430) -/
  | smbusReadByte (cmd : BitVec 8)
  /-- OTP_PROGRAM (R435) -/
  | otpProgram (v : W32) (vendor : Bool)
  /-- OTP_PROGRAM_COMPLETE (R435) -/
  | otpProgramComplete
  /-- THERMAL_TRIP (R441) -/
  | thermalTrip
  /-- RESET_N (R447) -/
  | resetN (us : Nat)
  /-- PCIE_PERST (R447) -/
  | pciePerst
  /-- PCIE_PERST_RELEASE (R447) -/
  | pciePerstRelease
  /-- POWER_ON_RESET (R418) -/
  | powerOnReset
  /-- VAON_UP (R445) -/
  | vaonUp
  /-- PPS_IN (R444) -/
  | ppsIn (d : Int)
  /-- PPS_OUT (R444) -/
  | ppsOut
  /-- HBM_PG (R446) -/
  | hbmPg (level : Bool) (t : Training)
  /-- LANE_REPAIR_COMPLETE (R295) -/
  | laneRepairComplete (stack : Fin 16) (ch : Fin 32)
  /-- IEEE_1588_MESSAGE (R282) -/
  | ieee1588Message (locked : Bool) (sec : W64) (sub : BitVec 33)
  /-- FUNCTION_RESET (R269) -/
  | functionReset (p : Fin 8) (vf : Fin 17)
  /-- JUNCTION_TEMPERATURE (R348) -/
  | junctionTemperature (t : BitVec 8)
  deriving DecidableEq, Repr

end Sys2Proof
end

