-- ==== Sys2Proof/Decode.lean ====
section
/-! DEFINITION. The commands that a word spells. The opcode table gives the bits of no row (a command is a register access, a packet, a
message or an event, each with operands of its own), so no word spells a command; an Onaile instruction's word is decoded by the meaning
that fetches it (R244). -/

namespace Sys2Proof

/-- The command that a word of `nbits` bits spells by the table: none, since the table gives no row any bits. -/
def decodeTableWord (_nbits _w : Nat) : Option Instr := none

end Sys2Proof
end

