-- ==== Sys2Proof/Machine/Sparse.lean ====
section
/-! DEFINITION. Reading and writing a sparse store in its one canonical form, bit fields of a number, and runs of bytes
in little-endian order (R11). -/

namespace Sys2Proof.Machine
open Sys2Proof

/-! ### Sparse stores -/

/-- What key `k` reads as, where an unlisted key reads as `d`. -/
def SMap.get {α : Type} (d : α) : SMap α → Nat → α
  | [], _ => d
  | (k', v) :: t, k => if k' = k then v else SMap.get d t k

/-- The cells at other keys than `k`. -/
def SMap.erase {α : Type} (m : SMap α) (k : Nat) : SMap α := m.filter (fun c => c.1 ≠ k)

/-- `m` with a cell put before the first greater key. -/
def SMap.insert {α : Type} (k : Nat) (v : α) : SMap α → SMap α
  | [] => [(k, v)]
  | (k', v') :: t => if k < k' then (k, v) :: (k', v') :: t else (k', v') :: SMap.insert k v t

/-- `m` with key `k` reading as `v`. Writing what an unlisted key reads as removes the cell. -/
def SMap.set {α : Type} [DecidableEq α] (d : α) (m : SMap α) (k : Nat) (v : α) : SMap α :=
  if v = d then SMap.erase m k else SMap.insert k v (SMap.erase m k)

/-- Keys strictly rise. -/
abbrev SMap.Rising {α : Type} (m : SMap α) : Prop := m.Pairwise (fun a b => a.1 < b.1)

/-- The canonical form: keys strictly rise, and no cell holds what its key would read as unlisted. -/
abbrev SMap.Wf {α : Type} (d : Nat → α) (m : SMap α) : Prop :=
  SMap.Rising m ∧ ∀ c ∈ m, c.2 ≠ d c.1

/-- An element of a store that need not be there. -/
def SMap.find {α : Type} (m : SMap α) (k : Nat) : Option α := SMap.get none (m.map (fun c => (c.1, some c.2))) k

/-- `m` with `v` at key `k`, whatever stood there. -/
def SMap.put {α : Type} (m : SMap α) (k : Nat) (v : α) : SMap α := SMap.insert k v (SMap.erase m k)

/-! ### Bit fields -/

/-- Bits `[lo + len - 1 : lo]` of a number. -/
def bits (x lo len : Nat) : Nat := x / 2 ^ lo % 2 ^ len

/-- One bit. -/
def bit (x i : Nat) : Bool := x / 2 ^ i % 2 = 1

/-- A `Bool` as a bit. -/
def b2n (b : Bool) : Nat := if b then 1 else 0

/-- `x` with bits `[lo + len - 1 : lo]` replaced by `v`. -/
def setBits (x lo len v : Nat) : Nat :=
  x % 2 ^ lo + (v % 2 ^ len) * 2 ^ lo + x / 2 ^ (lo + len) * 2 ^ (lo + len)

/-- The value of an unsigned `n`-bit number read as two's complement. -/
def signed (n x : Nat) : Int := if x % 2 ^ n < 2 ^ (n - 1) then ((x % 2 ^ n : Nat) : Int) else ((x % 2 ^ n : Nat) : Int) - 2 ^ n

/-- The `n`-bit two's-complement code of an integer. -/
def unsigned (n : Nat) (x : Int) : Nat := (x % (2 ^ n : Int)).toNat

/-- Ceiling division. -/
def ceilDiv (a b : Nat) : Nat := (a + b - 1) / b

/-! ### Bytes, little-endian -/

/-- `n` bytes of a store from `a`, ascending. -/
def readBytes (m : SMap Byte) (a n : Nat) : List Byte := (List.range n).map (fun i => SMap.get (0 : Byte) m (a + i))

/-- Bytes stored from `a`, ascending. -/
def writeBytes (m : SMap Byte) : Nat → List Byte → SMap Byte
  | _, [] => m
  | a, b :: bs => writeBytes (SMap.set (0 : Byte) m a b) (a + 1) bs

/-- The number that bytes spell, the first least significant (R11). -/
def leNat : List Byte → Nat
  | [] => 0
  | b :: bs => b.toNat + 256 * leNat bs

/-- The `n` bytes that spell a number, the first least significant (R11). -/
def leBytes : Nat → Nat → List Byte
  | 0, _ => []
  | n + 1, x => BitVec.ofNat 8 x :: leBytes n (x / 256)

/-- A number of `n` bytes read from a store. -/
def readLE (m : SMap Byte) (a n : Nat) : Nat := leNat (readBytes m a n)

/-- A number of `n` bytes written to a store. -/
def writeLE (m : SMap Byte) (a n x : Nat) : SMap Byte := writeBytes m a (leBytes n x)

/-- Every key from `a` to `a + n - 1` reads as unlisted again: the range is zeroed. -/
def SMap.clearRange {α : Type} (m : SMap α) (a n : Nat) : SMap α := m.filter (fun c => ¬ (a ≤ c.1 ∧ c.1 < a + n))

/-- Fill `n` bytes from `a` by a function of the offset. -/
def fillBytes (m : SMap Byte) (a n : Nat) (f : Nat → Byte) : SMap Byte := writeBytes m a ((List.range n).map f)

end Sys2Proof.Machine
end

