-- ==== Sys2Proof/Config.lean ====
section
/-! DEFINITION. The free values of the model: constants with no body, so that no proof can see what they are. Each stands
for a value the spec leaves open or for a standard the spec names and does not write out (the assumption log says which). -/

namespace Sys2Proof.Config
open Sys2Proof

/-- The device's own 16-bit identifier; the spec says it has one and not where it comes from. -/
opaque deviceId : BitVec 16
/-- The n-th unspecified byte. -/
opaque freeByte : Nat → Byte
/-- The n-th unspecified number: a time within a pick, a cycle count, a random challenge. -/
opaque freeNat : Nat → Nat
/-- Whether tininess is detected after rounding, which IEEE 754-2019 leaves to the implementation (DESIGN CHOICE, log entry 12). -/
opaque tinyAfterRounding : Bool
/-- SHA-384, of FIPS 180-4. -/
opaque sha384 : List Byte → List Byte
/-- Whether an ECDSA P-384 signature verifies: public key, message, signature. -/
opaque ecdsaOk : List Byte → List Byte → List Byte → Bool
/-- An ECDSA P-384 signature by the alias key derived from a hash, whose secret nothing outside the security engine sees (R364). -/
opaque aliasSign : List Byte → List Byte → List Byte
/-- The slot 0 certificate chain that ends in the alias certificate of a hash, and the chain of any other slot. -/
opaque certChain : Nat → List Byte → List Byte
/-- The identity public key, and the vendor debug key hash in the fixed region of OTP (R383, R433). -/
opaque identityKey : List Byte
opaque debugKeyHash : List Byte
/-- The AES-256-GCM tag of a nonce, additional data and ciphertext under a key. -/
opaque gcmTag : List Byte → List Byte → List Byte → List Byte → List Byte
/-- The body of an SPDM response, which the SPDM standard lays out. -/
opaque spdmBody : Nat → Nat → List Byte
/-- The SHA-384 of the boot ROM, measurement 1 (R370). -/
opaque romHash : List Byte
/-- Byte `i` of a flit's payload that the spec does not place: of a control message given as numbers, or after a packet's bytes (R165). -/
opaque flitByte : List Nat → Nat → Byte
/-- The port on which packets of a class for a destination go, by the generation of the weft route table, whose entries the spec does not
lay out (R170). -/
opaque route : Nat → Nat → Nat → Fin 16
/-- The set of a line in a cache of so many sets (R323). -/
opaque cacheSet : Nat → Nat → Nat
/-- What the spec leaves open of a traffic generator's patterns (R298): the phase of the checkerboard and of the walk, by pattern; the first
31 bits of a lane's sequence, by seed and lane; a bit of the address pattern, by block, lane and beat; one of the crosstalk
pattern, by lane and beat; and what a spare lane holds that is not in use. -/
opaque tgPhase : Nat → Nat
opaque tgSeed : Nat → Nat → BitVec 31
opaque tgAddress : Nat → Nat → Nat → Bool
opaque tgCrosstalk : Nat → Nat → Bool
opaque tgSpare : Nat → Nat → Nat → Bool
/-- The SHA-384 of the firmware signing key, in the fixed region of OTP (R433). -/
opaque firmwareKeyHash : List Byte

/-- Whether LT, LE, GT and GE of VCMP raise INVALID on a quiet not-a-number: IEEE 754-2019 has comparisons of both kinds (DESIGN CHOICE,
log entry 32). -/
opaque compareSignals : Bool

end Sys2Proof.Config
end

