-- ==== Sys2Proof/Machine/Num.lean ====
section
/-! DEFINITION. Exact numbers and the floating-point formats of the chapter "Tensor Number Formats": dyadic numbers, IEEE 754
values with their special cases, rounding to a format to nearest, directed or stochastically (R63 to R65, R70, R71). -/

namespace Sys2Proof.Machine
open Sys2Proof

/-- The dyadic number `m × 2^e`. Every finite value of the GT4's formats is one, and so is every exact sum or product. -/
structure Dy where
  m : Int
  e : Int
  deriving DecidableEq, Repr

/-- The integer `n`. -/
def Dy.ofInt (n : Int) : Dy := ⟨n, 0⟩
/-- The exact negation. -/
def Dy.neg (a : Dy) : Dy := ⟨-a.m, a.e⟩
/-- The significand of `a` over the exponent `e`, for `e ≤ a.e`. -/
def Dy.at (a : Dy) (e : Int) : Int := a.m * 2 ^ (a.e - e).toNat
/-- The exact sum. -/
def Dy.add (a b : Dy) : Dy := let e := min a.e b.e; ⟨a.at e + b.at e, e⟩
/-- The exact difference. -/
def Dy.sub (a b : Dy) : Dy := a.add b.neg
/-- The exact product. -/
def Dy.mul (a b : Dy) : Dy := ⟨a.m * b.m, a.e + b.e⟩
/-- The magnitude. -/
def Dy.abs (a : Dy) : Dy := ⟨a.m.natAbs, a.e⟩
/-- `a < b`, exactly. -/
def Dy.lt (a b : Dy) : Bool := let e := min a.e b.e; a.at e < b.at e
/-- `a ≤ b`, exactly. -/
def Dy.le (a b : Dy) : Bool := !b.lt a
/-- `a = b` as numbers. -/
def Dy.eq (a b : Dy) : Bool := a.le b && b.le a
/-- `⌊a / 2^l⌋`: truncation towards −∞ to a multiple of 2^l (R106, R144). -/
def Dy.floorAt (a : Dy) (l : Int) : Int :=
  if l ≤ a.e then a.m * 2 ^ (a.e - l).toNat else Int.fdiv a.m (2 ^ (l - a.e).toNat)
/-- The exact sum of a list. -/
def Dy.sum (l : List Dy) : Dy := l.foldl Dy.add ⟨0, 0⟩
/-- The larger of two. -/
def Dy.max (a b : Dy) : Dy := if a.lt b then b else a

/-- `⌊log2 |a|⌋` of a non-zero dyadic. -/
def Dy.log2 (a : Dy) : Int := (Nat.log2 a.m.natAbs : Int) + a.e
/-- `⌈log2 |a|⌉` of a non-zero dyadic. -/
def Dy.clog2 (a : Dy) : Int := if a.m.natAbs = 2 ^ Nat.log2 a.m.natAbs then a.log2 else a.log2 + 1

/-- A value as IEEE 754 has it: not-a-number (`sig`: signalling), an infinity, or a finite number, whose zero has a sign. -/
inductive FVal where
  | nan (sig : Bool)
  | inf (neg : Bool)
  | fin (neg : Bool) (d : Dy)
  deriving DecidableEq, Repr

/-- Not-a-number or infinite. -/
def FVal.nonFinite : FVal → Bool
  | .fin _ _ => false
  | _ => true
/-- Not-a-number. -/
def FVal.isNaN : FVal → Bool
  | .nan _ => true
  | _ => false
/-- The dyadic a finite value is; 0 for the rest. -/
def FVal.dy : FVal → Dy
  | .fin _ d => d
  | _ => ⟨0, 0⟩
/-- A finite zero. -/
def FVal.isZero : FVal → Bool
  | .fin _ d => d.m = 0
  | _ => false
/-- The sign bit. -/
def FVal.sign : FVal → Bool
  | .nan _ => false
  | .inf n => n
  | .fin n _ => n
/-- A finite value of a dyadic; its zero is +0. -/
def FVal.ofDy (d : Dy) : FVal := .fin (d.m < 0) d

/-- A binary format with a sign bit, `eb` exponent bits with bias 2^(eb−1) − 1 and `fb` fraction bits, with infinities and
not-a-number at the highest exponent. -/
structure Fmt where
  eb : Nat
  fb : Nat
  deriving DecidableEq, Repr

/-- FP32 (R63). -/
def Fmt.fp32 : Fmt := ⟨8, 23⟩
/-- FP64 (R63). -/
def Fmt.fp64 : Fmt := ⟨11, 52⟩
/-- BF16 (R64). -/
def Fmt.bf16 : Fmt := ⟨8, 7⟩
/-- A24 (R70). -/
def Fmt.a24 : Fmt := ⟨8, 15⟩
/-- The exponent bias. -/
def Fmt.bias (f : Fmt) : Int := 2 ^ (f.eb - 1) - 1
/-- The exponent of the least normal number. -/
def Fmt.emin (f : Fmt) : Int := 1 - f.bias
/-- The code of +∞. -/
def Fmt.infCode (f : Fmt) : Nat := (2 ^ f.eb - 1) * 2 ^ f.fb
/-- The weight of the sign bit. -/
def Fmt.signBit (f : Fmt) : Nat := 2 ^ (f.eb + f.fb)
/-- The canonical not-a-number: 0x7FC0 in BF16, 0x7FC0_0000 in FP32 (R64), 0x7F_C000 in A24 (R70). -/
def Fmt.nanCode (f : Fmt) : Nat := f.infCode + 2 ^ (f.fb - 1)

/-- The value of a code. -/
def Fmt.decode (f : Fmt) (c : Nat) : FVal :=
  let neg := bit c (f.eb + f.fb)
  let e := bits c f.fb f.eb
  let m := bits c 0 f.fb
  if e = 2 ^ f.eb - 1 then
    if m = 0 then .inf neg else .nan (!bit m (f.fb - 1))
  else
    let sig : Int := if e = 0 then (m : Int) else ((2 ^ f.fb + m : Nat) : Int)
    let x : Int := (if e = 0 then 1 else (e : Int)) - f.bias - f.fb
    .fin neg ⟨if neg then -sig else sig, x⟩

/-- The IEEE 754 rounding-direction attributes, in the order of FPCR.RM (R248). -/
inductive RM where
  | tiesToEven | towardPositive | towardNegative | towardZero | tiesToAway
  deriving DecidableEq, Repr

/-- The attribute a value of FPCR.RM names; the reserved values never stand in FPCR (R248). -/
def RM.ofCode : Nat → RM
  | 1 => .towardPositive
  | 2 => .towardNegative
  | 3 => .towardZero
  | 4 => .tiesToAway
  | _ => .tiesToEven

/-- The IEEE 754 flags an operation raises. -/
structure FFlags where
  invalid : Bool := false
  divZero : Bool := false
  overflow : Bool := false
  underflow : Bool := false
  inexact : Bool := false
  deriving DecidableEq, Repr

/-- Flags of two operations together. -/
def FFlags.or (a b : FFlags) : FFlags :=
  ⟨a.invalid || b.invalid, a.divZero || b.divZero, a.overflow || b.overflow, a.underflow || b.underflow,
   a.inexact || b.inexact⟩

/-- The flag bits as FLAGS holds them (R248). -/
def FFlags.toNat (f : FFlags) : Nat :=
  b2n f.invalid + 2 * b2n f.divZero + 4 * b2n f.overflow + 8 * b2n f.underflow + 16 * b2n f.inexact

/-- A positive real known exactly enough to round: `⌊log2 x⌋`, and for each `k` the floor of `x / 2^k` with whether it is
exact. A dyadic, a quotient, a root, a power of two and a logarithm all give one. -/
structure Mag where
  top : Int
  floor : Int → Nat × Bool

/-- A positive dyadic. -/
def Mag.ofDy (d : Dy) : Mag :=
  ⟨d.log2, fun k => let q := d.abs.floorAt k; (q.toNat, (Dy.eq ⟨q, k⟩ d.abs))⟩

/-- The positive quotient of two dyadics. -/
def Mag.ofDiv (a b : Dy) : Mag :=
  let x := a.m.natAbs
  let y := b.m.natAbs
  let s := a.e - b.e
  let fl : Int → Nat × Bool := fun k =>
    let n := if k ≤ s then x * 2 ^ (s - k).toNat else x
    let d := if k ≤ s then y else y * 2 ^ (k - s).toNat
    (n / d, n % d = 0)
  let t := (Nat.log2 x : Int) - (Nat.log2 y : Int) + s
  ⟨if (fl t).1 = 0 then t - 1 else t, fl⟩

/-- The square root of a positive dyadic. -/
def Mag.ofSqrt (a : Dy) : Mag :=
  let fl : Int → Nat × Bool := fun k =>
    -- ⌊√(m·2^e) / 2^k⌋ = ⌊√⌊m·2^(e − 2k)⌋⌋
    let q := (a.abs.floorAt (2 * k)).toNat
    (Nat.sqrt q, Nat.sqrt q * Nat.sqrt q = q && Dy.eq ⟨q, 2 * k⟩ a.abs)
  ⟨Int.fdiv a.log2 2, fl⟩

/-- 1 over the square root of a positive dyadic. -/
def Mag.ofRsqrt (a : Dy) : Mag :=
  let fl : Int → Nat × Bool := fun k =>
    -- the largest n with n²·a·2^(2k) ≤ 1
    let d := Mag.ofDiv ⟨1, 0⟩ a
    let (q, ex) := d.floor (2 * k)
    (Nat.sqrt q, ex && Nat.sqrt q * Nat.sqrt q = q)
  let t := Int.fdiv (-a.log2) 2
  ⟨if (fl t).1 = 0 then t - 1 else t, fl⟩

/-- The largest `n < 2^w` with `n^p ≤ x`, by bisection from the top bit. -/
def rootFloor (p x : Nat) : Nat → Nat → Nat
  | 0, acc => acc
  | w + 1, acc => let c := acc + 2 ^ w; rootFloor p x w (if c ^ p ≤ x then c else acc)

/-- 2 to the power of a dyadic `y` that is no integer or is one: the floor of 2^(y − k) is the largest n with
n^(2^t) ≤ 2^(2^t·(y − k)), where t is the number of fraction bits of y. -/
def Mag.ofExp2 (y : Dy) : Mag :=
  let t := (-y.e).toNat
  let num : Int := if y.e ≥ 0 then y.m * 2 ^ y.e.toNat else y.m
  let top := Int.fdiv num (2 ^ t)
  let fl : Int → Nat × Bool := fun k =>
    let ex : Int := num - k * 2 ^ t
    if ex < 0 then (0, false)
    else (rootFloor (2 ^ t) (2 ^ ex.toNat) ((top - k).toNat + 1) 0, Int.emod num (2 ^ t) = 0)
  ⟨top, fl⟩

/-- The magnitude of the base-2 logarithm of a positive dyadic `x` other than 1: `⌊|log2 x| / 2^k⌋`, from the floor of
log2 (x^(2^(−k))), exactly. -/
def Mag.ofLog2 (x : Dy) : Mag :=
  let exact := x.m.natAbs = 2 ^ Nat.log2 x.m.natAbs
  let lg : Nat → Int := fun j =>  -- ⌊2^j · log2 x⌋
    (Nat.log2 (x.m.natAbs ^ (2 ^ j)) : Int) + x.e * 2 ^ j
  let mag : Nat → Nat := fun j =>   -- ⌊2^j · |log2 x|⌋
    let l := lg j
    if x.lt ⟨1, 0⟩ then (if exact then (-l).toNat else (-l - 1).toNat) else l.toNat
  let fl : Int → Nat × Bool := fun k =>
    if k ≤ 0 then (mag (-k).toNat, exact)
    else let l := mag 0; (l / 2 ^ k.toNat, exact && l % 2 ^ k.toNat = 0)
  -- |log2 x| ≥ 2^(-fbits-1) for every FP32 x ≠ 1: 64 halvings reach the top bit
  let t := (List.range 64).find? (fun j => 0 < mag j)
  ⟨match t with
   | some 0 => (Nat.log2 (mag 0) : Int)
   | some j => -(j : Int)
   | none => -64, fl⟩

/-- Whether a magnitude between `n` and `n + 1` units rounds up. `half` and `sticky` are the bit below the unit and
whether anything lies below that. -/
def RM.up (rm : RM) (neg : Bool) (n : Nat) (half sticky : Bool) : Bool :=
  match rm with
  | .tiesToEven => half && (sticky || n % 2 = 1)
  | .tiesToAway => half
  | .towardZero => false
  | .towardPositive => !neg && (half || sticky)
  | .towardNegative => neg && (half || sticky)

/-- The unit in the last place a magnitude of top bit `top` has in a format. -/
def Fmt.ulp (f : Fmt) (top : Int) : Int := max top f.emin - f.fb

/-- The code of the magnitude `n × 2^q`, where `q` is its unit, unless it overflows. -/
def Fmt.magCode (f : Fmt) (n : Nat) (q : Int) : Nat := ((q + f.fb + f.bias - 1) * 2 ^ f.fb).toNat + n

/-- Round a signed magnitude to a format; the flags are those of IEEE 754. `tinyAfter` says whether tininess is
detected after rounding, which IEEE 754 leaves open. -/
def Fmt.roundMag (f : Fmt) (tinyAfter : Bool) (rm : RM) (neg : Bool) (x : Mag) : Nat × FFlags :=
  let q := f.ulp x.top
  let (n, ex) := x.floor q
  let (n2, ex2) := x.floor (q - 1)
  let up := !ex && rm.up neg n (n2 % 2 = 1) (!ex2)
  let r := if up then n + 1 else n
  let c := f.magCode r q
  let s := if neg then f.signBit else 0
  let tiny :=
    if tinyAfter then
      -- tiny after rounding with unbounded exponent: rounding at the magnitude's own unit stays below the least normal
      let q' := x.top - f.fb
      let (m, mex) := x.floor q'
      let (m2, mex2) := x.floor (q' - 1)
      let m' := if !mex && rm.up neg m (m2 % 2 = 1) (!mex2) then m + 1 else m
      x.top < f.emin && (Dy.lt ⟨m', q'⟩ ⟨1, f.emin⟩)
    else x.top < f.emin
  if f.infCode ≤ c then
    let toInf := match rm with
      | .tiesToEven | .tiesToAway => true
      | .towardZero => false
      | .towardPositive => !neg
      | .towardNegative => neg
    (s + (if toInf then f.infCode else f.infCode - 1), { overflow := true, inexact := true })
  else (s + c, { underflow := tiny && !ex, inexact := !ex })

/-- Round a dyadic to a format; a zero keeps the sign given. -/
def Fmt.roundDy (f : Fmt) (tinyAfter : Bool) (rm : RM) (zeroNeg : Bool) (d : Dy) : Nat × FFlags :=
  if d.m = 0 then (if zeroNeg then f.signBit else 0, {}) else f.roundMag tinyAfter rm (d.m < 0) (Mag.ofDy d)

/-- A dyadic to nearest, ties to even, as the converter, the arrays and the batten round; no flags (R91, R109, R210). -/
def Fmt.rne (f : Fmt) (d : Dy) : Nat := (f.roundDy true .tiesToEven false d).1

/-- A value to nearest, ties to even, with the canonical not-a-number (R64). -/
def Fmt.rneVal (f : Fmt) : FVal → Nat
  | .nan _ => f.nanCode
  | .inf n => (if n then f.signBit else 0) + f.infCode
  | .fin n d => if d.m = 0 then (if n then f.signBit else 0) else f.rne d

/-- The magnitude code that stochastic rounding of a dyadic with the 16-bit draw `u` gives in a format taken without special values
(R65). -/
def Fmt.stochasticMag (f : Fmt) (u : Nat) (d : Dy) : Nat :=
  if d.m = 0 then 0 else
    let neg := d.m < 0
    let x := d.abs
    let q := f.ulp x.log2
    let n := (x.floorAt q).toNat
    let fx : Nat :=
      if neg then ((n + 1) * 65536) - (if Dy.eq ⟨x.floorAt (q - 16), q - 16⟩ x then (x.floorAt (q - 16)).toNat
                                      else (x.floorAt (q - 16)).toNat + 1)
      else (x.floorAt (q - 16)).toNat - n * 65536
    let r := if Dy.eq ⟨n, q⟩ x then n else if neg then (if u < fx then n else n + 1) else (if u < fx then n + 1 else n)
    f.magCode r q

/-- Stochastic rounding of a dyadic to a format with the 16-bit draw `u` (R65). Beyond the largest finite value the missing neighbour is
2^(emax + 1), and a result equal to it is an infinity. A negative value that comes to zero is -0 (DESIGN CHOICE, log entry 108). -/
def Fmt.stochastic (f : Fmt) (u : Nat) (d : Dy) : Nat :=
  (if d.m < 0 then f.signBit else 0) + min (f.stochasticMag u d) f.infCode

/-- Whether a value is an exact member of a format (then it takes no rounding). -/
def Fmt.isExact (f : Fmt) (d : Dy) : Bool := d.m = 0 || Dy.eq ⟨d.abs.floorAt (f.ulp d.log2), f.ulp d.log2⟩ d.abs

/-- Stochastic rounding of a dyadic to an integer (R65, R68). -/
def stochasticInt (u : Nat) (d : Dy) : Int :=
  let a := d.floorAt 0
  let f := d.floorAt (-16) - a * 65536
  if Dy.eq ⟨a, 0⟩ d then a else if (u : Int) < f then a + 1 else a

/-! ### IEEE 754 operations on decoded values, for the vector unit (R63, R258) and the batten (R210) -/

/-- The result of an operation before it is rounded. -/
inductive Exact where
  | val (v : FVal) (fl : FFlags)          -- a special value, or an exact zero with its sign
  | mag (neg : Bool) (m : Mag)            -- a non-zero finite result still to be rounded

/-- An invalid operation. -/
def Exact.invalid : Exact := .val (.nan false) { invalid := true }

/-- Not-a-number passed on: a signalling one also raises INVALID. -/
def Exact.passNaN (l : List FVal) : Exact := .val (.nan false) { invalid := l.any (fun v => v = .nan true) }

/-- A non-zero dyadic, or a zero of the sign given. -/
def Exact.dy (zeroNeg : Bool) (d : Dy) : Exact :=
  if d.m = 0 then .val (.fin zeroNeg ⟨0, 0⟩) {} else .mag (d.m < 0) (Mag.ofDy d)

/-- Round an exact result to a format. -/
def Exact.round (f : Fmt) (tinyAfter : Bool) (rm : RM) : Exact → Nat × FFlags
  | .val v fl => (f.rneVal v, fl)
  | .mag neg m => f.roundMag tinyAfter rm neg m

/-- a × b + c with one rounding. A plain product or sum is this with c or a factor trivial. 0 × infinity raises INVALID beside a quiet NaN
addend too, which IEEE 754-2019 leaves open (DESIGN CHOICE, log entry 107). -/
def fmaExact (rm : RM) (a b c : FVal) : Exact :=
  let pneg := xor a.sign b.sign
  if (a.nonFinite && !a.isNaN && b.isZero) || (b.nonFinite && !b.isNaN && a.isZero) then Exact.invalid
  else if a.isNaN || b.isNaN || c.isNaN then Exact.passNaN [a, b, c]
  else match a, b, c with
    | .fin _ x, .fin _ y, .fin cn z =>
      let s := (x.mul y).add z
      if s.m = 0 then
        .val (.fin (if (x.m = 0 || y.m = 0) && z.m = 0 && pneg = cn then cn
                    else decide (rm = RM.towardNegative)) ⟨0, 0⟩) {}
      else .mag (s.m < 0) (Mag.ofDy s)
    | .fin _ _, .fin _ _, _ => .val c {}
    | _, _, .inf cn => if cn = pneg then .val (.inf cn) {} else Exact.invalid
    | _, _, _ => .val (.inf pneg) {}

/-- a + b. -/
def addExact (rm : RM) (a b : FVal) : Exact :=
  if a.isNaN || b.isNaN then Exact.passNaN [a, b]
  else match a, b with
    | .fin an x, .fin bn y =>
      let s := x.add y
      if s.m = 0 then .val (.fin (if x.m = 0 && y.m = 0 && an = bn then an else decide (rm = RM.towardNegative)) ⟨0, 0⟩) {}
      else .mag (s.m < 0) (Mag.ofDy s)
    | .inf an, .inf bn => if an = bn then .val (.inf an) {} else Exact.invalid
    | .inf an, _ => .val (.inf an) {}
    | _, _ => .val b {}

/-- The value with its sign turned. -/
def FVal.negate : FVal → FVal
  | .nan s => .nan s
  | .inf n => .inf (!n)
  | .fin n d => .fin (!n) d.neg

/-- a × b. -/
def mulExact (a b : FVal) : Exact :=
  let neg := xor a.sign b.sign
  if a.isNaN || b.isNaN then Exact.passNaN [a, b]
  else match a, b with
    | .fin _ x, .fin _ y => Exact.dy neg (x.mul y)
    | _, _ => if a.isZero || b.isZero then Exact.invalid else .val (.inf neg) {}

/-- a / b. -/
def divExact (a b : FVal) : Exact :=
  let neg := xor a.sign b.sign
  if a.isNaN || b.isNaN then Exact.passNaN [a, b]
  else match a, b with
    | .inf _, .inf _ => Exact.invalid
    | .inf _, _ => .val (.inf neg) {}
    | _, .inf _ => .val (.fin neg ⟨0, 0⟩) {}
    | .fin _ x, .fin _ y =>
      if y.m = 0 then (if x.m = 0 then Exact.invalid else .val (.inf neg) { divZero := true })
      else if x.m = 0 then .val (.fin neg ⟨0, 0⟩) {}
      else .mag neg (Mag.ofDiv x y)
    | _, _ => Exact.invalid

/-- √a. -/
def sqrtExact (a : FVal) : Exact :=
  match a with
  | .nan _ => Exact.passNaN [a]
  | .inf n => if n then Exact.invalid else .val a {}
  | .fin n d => if d.m = 0 then .val (.fin n ⟨0, 0⟩) {} else if n then Exact.invalid else .mag false (Mag.ofSqrt d)

/-- 1 / a. -/
def rcpExact (a : FVal) : Exact := divExact (.fin false ⟨1, 0⟩) a

/-- 1 / √a, with the special cases of IEEE 754-2019's rSqrt. -/
def rsqrtExact (a : FVal) : Exact :=
  match a with
  | .nan _ => Exact.passNaN [a]
  | .inf n => if n then Exact.invalid else .val (.fin false ⟨0, 0⟩) {}
  | .fin n d =>
    if d.m = 0 then .val (.inf n) { divZero := true } else if n then Exact.invalid else .mag false (Mag.ofRsqrt d)

/-- 2^a, with the special cases of IEEE 754-2019's exp2. Beyond ±2^12 every result of FP32 overflows or lies below half its
least subnormal, so the argument is taken no further. -/
def exp2Exact (a : FVal) : Exact :=
  match a with
  | .nan _ => Exact.passNaN [a]
  | .inf n => if n then .val (.fin false ⟨0, 0⟩) {} else .val (.inf false) {}
  | .fin _ d =>
    let c : Dy := if Dy.lt ⟨4096, 0⟩ d then ⟨4096, 0⟩ else if d.lt ⟨-4096, 0⟩ then ⟨-4096, 0⟩ else d
    .mag false (Mag.ofExp2 c)

/-- log2 a, with the special cases of IEEE 754-2019's log2. -/
def log2Exact (a : FVal) : Exact :=
  match a with
  | .nan _ => Exact.passNaN [a]
  | .inf n => if n then Exact.invalid else .val (.inf false) {}
  | .fin n d =>
    if d.m = 0 then .val (.inf true) { divZero := true }
    else if n then Exact.invalid
    else if d.eq ⟨1, 0⟩ then .val (.fin false ⟨0, 0⟩) {}
    else .mag (d.lt ⟨1, 0⟩) (Mag.ofLog2 d)

/-- `a < b` of IEEE 754 on values that are numbers; −0 and +0 compare equal. -/
def FVal.ltNum : FVal → FVal → Bool
  | .inf n, .inf m => n && !m
  | .inf n, .fin _ _ => n
  | .fin _ _, .inf m => !m
  | .fin _ x, .fin _ y => x.lt y
  | _, _ => false

/-- minimum and maximum of IEEE 754-2019: not-a-number passes on, and −0 lies below +0. -/
def minExact (isMax : Bool) (a b : FVal) : Exact :=
  if a.isNaN || b.isNaN then Exact.passNaN [a, b]
  else
    let aLess := a.ltNum b || (!b.ltNum a && a.sign && !b.sign)
    let v := if aLess = isMax then b else a
    match v with
    | .fin n d => if d.m = 0 then .val (.fin n d) {} else .mag n (Mag.ofDy d)
    | _ => .val v {}

end Sys2Proof.Machine
end

