-- ==== Sys2Proof/Machine/Reg.lean ====
section
/-! DEFINITION. The register map of the GT4: the name of every register of the spec's chapters 00 to 15, its
width, access mask and reset value, its offset in its BAR (R15, R16), and a named accessor for every field.

Every line follows the field table of the rule named at its right. `RW` fields make the write mask, `W1C` fields
the clear mask; `RO` and `WO` fields are in neither (R13). Reserved bits are in no mask, so they read zero (R6) and a
write discards them (R8). A reset the spec gives as "Kept" or "From OTP" stands here as zero (DESIGN CHOICE, log entry 3). -/

namespace Sys2Proof.Machine

/-- Every register the spec names. A register array is one name; its elements are told apart by two indices. -/
inductive RegName where
  | DEV_IF_LEVEL | DEV_PROFILE | DEV_PROFILE_STATUS | DEV_CREEL_SRAM_CE | DEV_CREEL_SRAM_UE | PWR_TARGET 
  | PWR_STATE | PWR_VOTE_HOST | PWR_VOTE_MGMT | PWR_LAST_EVENT | PWR_REFUSED_K | PWR_ABORTED_K | PWR_RESIDENCY_S 
  | PWR_ENERGY | PWR_RAIL_I | PWR_RAIL_COUNT | PWR_DIP_LAST | PWR_DIP_DURATION | PWR_DIP_TIME | BOOT_STATUS 
  | BOOT_FAIL_CAUSE | BOOT_CTRL | BOOT_FLASH_ADDR | BOOT_FLASH_CMD | OTP_GEN_STATUS | OTP_CMD | BOOT_FLASH_DATA 
  | OTP_STAGE | OTP_GEN_DATA | TIME_CFG | TIME_STATUS | TIME_FABRIC | TIME_PICK | TIME_EPOCH | TIME_LOCK_LOSS 
  | ALM_SUMMARY | ALM_COUNT | ALM_FIRST | ALM_LAST | ALM_CTRL | LOG_OP_BASE | SCHED_LOG_BASE | LOG_OP_CFG 
  | SCHED_LOG_CFG | LOG_OP_WR | SCHED_LOG_WR | LOG_OP_RD | SCHED_LOG_RD | LOG_OP_LOSS | SCHED_LOG_LOSS 
  | LOG_OP_TRACE_DROPS | SCHED_LOG_TRACE_DROPS | LOG_OP_REC_STATUS | LOG_OP_REC | LOG_INCIDENT | RST_REQ 
  | RST_STATUS | RST_CAUSE | HANG_CFG | HANG_CTX_CFG | HANG_CTX_STATUS | HANG_CTX_PROGRESS | HANG_PART_HELD 
  | HANG_PART_ENGINE_RESETS | PART_ROLE | PART_CLOCK_LIMIT | PART_COMMIT_VETO | PART_ASSIGN | PART_CTX_QUEUES 
  | PART_CTX_KNOTS | PART_CTX_GATHER | TBL_SWITCH_PICK | TBL_SWITCH_CTRL | TBL_SWITCH_STATUS | TBL_SWITCH_GEN 
  | TBL_SWITCH_HELD | PART_CARD_FIRST | PART_CARD_COUNT | PART_CARD_VALUE | PART_CARD_CMD | PART_CARD_PROBE 
  | PART_CARD_PROBE_CARD | PART_BEAM_SPLIT | PART_SRAM_CE | PART_SRAM_UE | PART_CTX_PLACE | PART_CTX_OBJECTS 
  | PART_CTX_TABLE | PART_CTX_ADMIT | PART_CTX_JOB | PART_CTX_ENGINES | PART_CTX_LAYERS | PART_CTX_REGS 
  | PART_CTX_SLOTS | PART_CTX_RESV | PART_CTX_ACC | PART_CTX_ACC_LEN | PART_CTX_RESV_ADDR | HBM_STACK_STATUS 
  | HBM_CH_UP | HBM_SCRUB_CFG | HBM_SCRUB_POS | HBM_REPAIR_CFG | HBM_ERR_LAST | HBM_ERR_ROW | HBM_ERR_TIME 
  | HBM_CE | HBM_UE | HBM_POISON_READS | HBM_SCRUB_PASSES | HBM_SOFT_REPAIRS | HBM_HARD_REPAIRS | HBM_LANE_REPAIRS 
  | HBM_RETIRED_HITS | HBM_COUNTER_CLEAR | HBM_CH_STATUS | HBM_REPAIR_A | HBM_REPAIR_B | HBM_REMAP | HBM_TG_CTRL 
  | HBM_TG_RANGE | HBM_TG_SEED | HBM_TG_STATUS | HBM_TG_FAIL_LO | HBM_TG_FAIL_HI | HBM_TG_ERRORS | HBM_TG_FIRST 
  | BTIER_MAP | BTIER_MAP_SIZE | BTIER_CARD_REFUSED | BTIER_PORT_CTRL | BTIER_PORT_STATUS | BTIER_PORT_CAP 
  | BTIER_PORT_RD_BYTES | BTIER_PORT_WR_BYTES | BTIER_PORT_UE | BTIER_PORT_RETRAINS | BTIER_CARD | WEFT_TC_WEIGHT 
  | WEFT_PORT_STATUS | WEFT_PORT_TIME | WEFT_PORT_CTRL | WEFT_PORT_REPLAYS | WEFT_PORT_RETRAINS 
  | WEFT_PORT_FEC_UNCORR | WEFT_PORT_AUTH_FAIL | SELV_PAIR_CTRL | SELV_RISK | SELV_RISK_W | SELV_RISK_CFG 
  | SELV_FLUSH_CFG | SELV_LOSSES | SELV_FORCED_FLUSHES | SELV_TX_BYTES | SELV_RX_BYTES | SEC_LIFECYCLE | SEC_DEBUG 
  | SEC_ZERO_ALL | SEC_SESSION_REFUSED | SEC_IDE_REFUSED | SEC_DEBUG_NONCE | SEC_DEBUG_TOKEN | SEC_JOB | Q_TAIL 
  | Q_CPL_ACK | Q_FETCHED | Q_STATUS | Q_CFG_CTRL | Q_CFG_RING | Q_CFG_CPL | Q_VF_CMDS | Q_VF_FAULTS 
  | Q_HOST_LEVEL | KNOT_COUNT | KNOT_ADD | KNOT_CFG | KNOT_IRQ_AT | CNV_KAPPA | CNV_OVF_LIMIT | CNV_LAST_FAULT 
  | CNV_COUNTER_CLEAR | CNV_TILES_PACKED | CNV_TILES_UNPACKED | CNV_OUTLIERS | CNV_OUTLIER_OVF | CNV_OVF_TILES 
  | CNV_SATURATE | CNV_NONFINITE | CNV_ZERO_BLOCKS | CNV_FLUSH | CNV_ILLEGAL | CNV_BUSY_CYCLES | TEN_FWD_NONFINITE 
  | TEN_FWD_JUMPS | TEN_FWD_WIDEN | TEN_FWD_VETOES | TEN_FWD_LOCK_BREAKS | TEN_FWD_WIDE_BYPASS | TEN_BWD_NONFINITE 
  | TEN_BWD_JUMPS | TEN_BWD_VETOES | TEN_BWD_WGRAD_SKIPPED | TEN_A24_OVF | TEN_MX_RANGE | TEN_BWD_RT_ILLEGAL 
  | TEN_FWD_COUNTER_CLEAR | TEN_BWD_COUNTER_CLEAR | TEN_CTX_LOCK | TEN_CTX_LAYERS | TEN_CTX_RESV_SIZE 
  | TEN_CTX_RESV_USED | TEN_LAYER_CFG | TEN_LAYER_STATE | TEN_LAYER_FNORM | TEN_LAYER_FREF | TEN_LAYER_GCFG 
  | TEN_LAYER_GSTATE | TEN_LAYER_GNORM | TEN_LAYER_GREF | BAT_STEP_CMD | BAT_STEP_STATUS | BAT_STEP_NUM 
  | BAT_HANDOVER | BAT_COMMIT_COUNT | BAT_CURSOR_COMMITTED | BAT_CURSOR_PROV | BAT_COMMIT_HOME | BAT_COMMIT_CFG 
  | BAT_SNAP_HOLD | BAT_SNAP_COMMIT | BAT_REG_CMD | BAT_REG_ERR | BAT_ELEMENTS_UPDATED | BAT_COMMITS | BAT_VETOES 
  | BAT_ABORTS | BAT_CLIPPED | BAT_NONFINITE | BAT_SCALE_MOVES | BAT_VETO_LATE | BAT_FLIP_LATE 
  | BAT_HANDOVER_WAITS | BAT_COUNTER_CLEAR | BAT_SEQ | BAT_NOISE_CONTRIB | BAT_NOISE_REDUCED | BAT_NOISE_BLOCKS 
  | BAT_PSET_SCHED | BAT_PSET_BETA1 | BAT_PSET_BETA2 | BAT_PSET_EPS | BAT_PSET_DECAY | BAT_PSET_BIAS1 
  | BAT_PSET_BIAS2 | BAT_PSET_CLIP_NORM | BAT_PSET_SCALE_LR | BAT_PSET_W9 | BAT_PSET_W10 | BAT_PSET_W11 
  | BAT_PSET_W12 | BAT_PSET_W13 | BAT_PSET_W14 | BAT_PSET_W15 | BAT_REG_CTRL | BAT_REG_ID | BAT_REG_BASE 
  | BAT_REG_LEN | BAT_REG_AREA | BAT_REG_STRIDE | BAT_REG_LR | BAT_REG_CLIP | BAT_REG_SLOTS | BAT_REG_GRAD 
  | RED_POLICY | RED_RX_PACKETS | RED_RX_BLOCKS | RED_CHECK_FAIL | RED_SUM_FAIL | RED_HELD | RED_BOUNCE_EPOCH 
  | RED_LATE | RED_DISCARD | RED_POISON_CODES | RED_DROPS | RED_SEND_SATURATED | RED_MAX127 | RED_GATHER_BYTES 
  | RED_COUNTER_CLEAR | RED_FAULT_SRC | RED_FAULT_ID | RED_FAULT_BLOCK | RED_FAULT_STEP | RED_PEER_TABLE 
  | RED_PEER_LIST | RED_PLANE | RED_PLANE_CFG | RED_SLOT_CTRL | RED_SLOT_ID | RED_SLOT_STEP | RED_SLOT_BASE 
  | RED_SLOT_LEN | RED_SLOT_CONTRIB | RED_SLOT_ACC | RED_SLOT_WINDOW | SNAP_CTX_CFG | SNAP_CTX_CMD 
  | SNAP_CTX_STATUS | SNAP_TX_POINT | SNAP_RX_POINT | SNAP_RX_BASE | SNAP_RX_SLOT | SNAP_DELTA_SIZE 
  | SNAP_DELTA_BASE | SNAP_BOARD_BASE | SNAP_PREV_CURSOR | SNAP_RST_ADDR | SNAP_RST_COUNT | SNAP_AUTO 
  | SNAP_MIR_WAITS | SNAP_FOLDS | SNAP_UNRECORDED | SNAP_RX_SIDE | SNAP_STREAM_ID | SNAP_STREAM_DRAWS 
  | SNAP_STREAM_POS | SNAP_ENTRY | SNAP_EXP_CMD | SNAP_EXP_DEST | SNAP_EXP_LIMIT | SNAP_EXP_TARGET 
  | SCHED_PICK_NOW | SCHED_PICK_CFG | SCHED_CTX_SEND_DL | SCHED_CTX_SEND_POL | SCHED_WIN_CLOSE | SCHED_WIN_STATUS 
  | SCHED_WIN_LATE | OWN_ID | OWN_FIRST | OWN_COUNT | OWN_CTRL 
  deriving DecidableEq, Repr

/-- What the spec's field tables say of one register. -/
structure RegInfo where
  /-- 32 or 64 bits (R11). -/
  width : Nat
  /-- Bits of its RW fields. -/
  rw : Nat
  /-- Bits of its W1C fields. -/
  w1c : Nat
  /-- Its value at reset. -/
  reset : Nat
  /-- Bits kept in the always-on domain or in fuses, which a chip reset leaves as they are. -/
  kept : Nat
  deriving DecidableEq, Repr

/-- Width, write mask, write-1-to-clear mask, reset value and kept bits of each register. -/
def RegName.info : RegName → RegInfo
  | .DEV_IF_LEVEL => ⟨32, 0x0, 0x0, 0x111111, 0x0⟩ -- R2
  | .DEV_PROFILE => ⟨32, 0x7, 0x0, 0x3, 0x0⟩ -- R31
  | .DEV_PROFILE_STATUS => ⟨32, 0x0, 0x0, 0x3, 0x0⟩ -- R33
  | .DEV_CREEL_SRAM_CE => ⟨64, 0x0, 0x0, 0x0, 0x0⟩ -- R306
  | .DEV_CREEL_SRAM_UE => ⟨64, 0x0, 0x0, 0x0, 0x0⟩ -- R306
  | .PWR_TARGET => ⟨32, 0x1F7, 0x0, 0xA0, 0x0⟩ -- R417
  | .PWR_STATE => ⟨32, 0x0, 0x0, 0xF0, 0x0⟩ -- R417
  | .PWR_VOTE_HOST => ⟨32, 0xF, 0x0, 0xF, 0x0⟩ -- R417
  | .PWR_VOTE_MGMT => ⟨32, 0x0, 0x0, 0xF, 0x0⟩ -- R417
  | .PWR_LAST_EVENT => ⟨32, 0x0, 0x0, 0x0, 0x0⟩ -- R417
  | .PWR_REFUSED_K => ⟨64, 0x0, 0x0, 0x0, 0x0⟩ -- R417
  | .PWR_ABORTED_K => ⟨64, 0x0, 0x0, 0x0, 0x0⟩ -- R417
  | .PWR_RESIDENCY_S => ⟨64, 0x0, 0x0, 0x0, 0x0⟩ -- R417
  | .PWR_ENERGY => ⟨64, 0x0, 0x0, 0x0, 0x0⟩ -- R417
  | .PWR_RAIL_I => ⟨32, 0x0, 0x0, 0x0, 0x1FFFF⟩ -- R423
  | .PWR_RAIL_COUNT => ⟨32, 0x0, 0x0, 0x0, 0xFFFFFFFF⟩ -- R423
  | .PWR_DIP_LAST => ⟨32, 0x0, 0x10, 0x0, 0xFFFF001F⟩ -- R423
  | .PWR_DIP_DURATION => ⟨32, 0x0, 0x0, 0x0, 0xFFFFFFFF⟩ -- R423
  | .PWR_DIP_TIME => ⟨64, 0x0, 0x0, 0x0, 0xFFFFFFFFFFFFFFFF⟩ -- R423
  | .BOOT_STATUS => ⟨32, 0x0, 0x0, 0x0, 0xF000⟩ -- R432
  | .BOOT_FAIL_CAUSE => ⟨32, 0x0, 0x0, 0x0, 0xFF⟩ -- R432
  | .BOOT_CTRL => ⟨32, 0x3, 0x0, 0x0, 0x3⟩ -- R432
  | .BOOT_FLASH_ADDR => ⟨32, 0x1FFFFFFF, 0x0, 0x0, 0x0⟩ -- R432
  | .BOOT_FLASH_CMD => ⟨32, 0x0, 0x0, 0x0, 0x0⟩ -- R432
  | .OTP_GEN_STATUS => ⟨32, 0x0, 0x0, 0x0, 0x7FF⟩ -- R436
  | .OTP_CMD => ⟨32, 0x0, 0x0, 0x0, 0x0⟩ -- R436
  | .BOOT_FLASH_DATA => ⟨32, 0xFFFFFFFF, 0x0, 0x0, 0x0⟩ -- R432
  | .OTP_STAGE => ⟨32, 0xFFFFFFFF, 0x0, 0x0, 0x0⟩ -- R436
  | .OTP_GEN_DATA => ⟨32, 0x0, 0x0, 0x0, 0xFFFFFFFF⟩ -- R436
  | .TIME_CFG => ⟨32, 0xFF1F01, 0x0, 0x1000, 0x0⟩ -- R281
  | .TIME_STATUS => ⟨32, 0x0, 0x0, 0x70, 0x0⟩ -- R281
  | .TIME_FABRIC => ⟨64, 0x0, 0x0, 0x0, 0x0⟩ -- R281
  | .TIME_PICK => ⟨64, 0x0, 0x0, 0x0, 0x0⟩ -- R281
  | .TIME_EPOCH => ⟨64, 0xFFFFFFFFFFFFFFFF, 0x0, 0x0, 0x0⟩ -- R281
  | .TIME_LOCK_LOSS => ⟨64, 0x0, 0x0, 0x0, 0x0⟩ -- R281
  | .ALM_SUMMARY => ⟨64, 0x0, 0x0, 0x0, 0xFFFFFFFFFFFFFFFF⟩ -- R401
  | .ALM_COUNT => ⟨64, 0x0, 0x0, 0x0, 0xFFFFFFFFFFFFFFFF⟩ -- R401
  | .ALM_FIRST => ⟨64, 0x0, 0x0, 0x0, 0xFFFFFFFFFFFFFFFF⟩ -- R401
  | .ALM_LAST => ⟨64, 0x0, 0x0, 0x0, 0xFFFFFFFFFFFFFFFF⟩ -- R401
  | .ALM_CTRL => ⟨32, 0x0, 0x0, 0x0, 0x0⟩ -- R401
  | .LOG_OP_BASE => ⟨64, 0xFFFFFFFFFFFFFFFF, 0x0, 0x0, 0x0⟩ -- R406
  | .SCHED_LOG_BASE => ⟨64, 0xFFFFFFFFFFFFFFFF, 0x0, 0x0, 0x0⟩ -- R406
  | .LOG_OP_CFG => ⟨32, 0x1FFF1F01, 0x0, 0xA000B00, 0x0⟩ -- R406
  | .SCHED_LOG_CFG => ⟨32, 0x1FFF1F01, 0x0, 0xA000B00, 0x0⟩ -- R406
  | .LOG_OP_WR => ⟨64, 0x0, 0x0, 0x0, 0x0⟩ -- R406
  | .SCHED_LOG_WR => ⟨64, 0x0, 0x0, 0x0, 0x0⟩ -- R406
  | .LOG_OP_RD => ⟨64, 0xFFFFFFFFFFFFFFFF, 0x0, 0x0, 0x0⟩ -- R406
  | .SCHED_LOG_RD => ⟨64, 0xFFFFFFFFFFFFFFFF, 0x0, 0x0, 0x0⟩ -- R406
  | .LOG_OP_LOSS => ⟨64, 0x0, 0x0, 0x0, 0x0⟩ -- R406
  | .SCHED_LOG_LOSS => ⟨64, 0x0, 0x0, 0x0, 0x0⟩ -- R406
  | .LOG_OP_TRACE_DROPS => ⟨64, 0x0, 0x0, 0x0, 0x0⟩ -- R406
  | .SCHED_LOG_TRACE_DROPS => ⟨64, 0x0, 0x0, 0x0, 0x0⟩ -- R406
  | .LOG_OP_REC_STATUS => ⟨32, 0x0, 0x0, 0x0, 0x0⟩ -- R406
  | .LOG_OP_REC => ⟨32, 0x0, 0x0, 0x0, 0x0⟩ -- R406
  | .LOG_INCIDENT => ⟨32, 0xFFFF, 0x0, 0x100, 0x0⟩ -- R408
  | .RST_REQ => ⟨32, 0x0, 0x0, 0x0, 0x0⟩ -- R397
  | .RST_STATUS => ⟨32, 0x0, 0x0, 0x0, 0x0⟩ -- R397
  | .RST_CAUSE => ⟨32, 0x0, 0x0, 0x0, 0xFF07⟩ -- R397
  | .HANG_CFG => ⟨32, 0x1FF7, 0x0, 0x743, 0x0⟩ -- R397
  | .HANG_CTX_CFG => ⟨32, 0x1F1, 0x0, 0xA1, 0x0⟩ -- R398
  | .HANG_CTX_STATUS => ⟨32, 0x0, 0x0, 0x0, 0x0⟩ -- R398
  | .HANG_CTX_PROGRESS => ⟨64, 0x0, 0x0, 0x0, 0x0⟩ -- R398
  | .HANG_PART_HELD => ⟨64, 0x0, 0x0, 0x0, 0x0⟩ -- R398
  | .HANG_PART_ENGINE_RESETS => ⟨64, 0x0, 0x0, 0x0, 0x0⟩ -- R398
  | .PART_ROLE => ⟨32, 0x1, 0x0, 0x6400200, 0x0⟩ -- R35
  | .PART_CLOCK_LIMIT => ⟨32, 0xFFF, 0x0, 0x898, 0x0⟩ -- R40
  | .PART_COMMIT_VETO => ⟨32, 0x0, 0x0, 0x0, 0x0⟩ -- R235
  | .PART_ASSIGN => ⟨32, 0xFFFF, 0x0, 0x0, 0x0⟩ -- R373
  | .PART_CTX_QUEUES => ⟨32, 0xFF1FFF, 0x0, 0x0, 0x0⟩ -- R265
  | .PART_CTX_KNOTS => ⟨32, 0xFFF07FF, 0x0, 0x0, 0x0⟩ -- R265
  | .PART_CTX_GATHER => ⟨32, 0x7FF, 0x0, 0x0, 0x0⟩ -- R265
  | .TBL_SWITCH_PICK => ⟨64, 0xFFFFFFFFFFFFFFFF, 0x0, 0x0, 0x0⟩ -- R289
  | .TBL_SWITCH_CTRL => ⟨32, 0x8000FFFF, 0x0, 0x0, 0x0⟩ -- R289
  | .TBL_SWITCH_STATUS => ⟨32, 0x0, 0x0, 0x0, 0x0⟩ -- R289
  | .TBL_SWITCH_GEN => ⟨32, 0x0, 0x0, 0x0, 0x0⟩ -- R289
  | .TBL_SWITCH_HELD => ⟨64, 0x0, 0x0, 0x0, 0x0⟩ -- R289
  | .PART_CARD_FIRST => ⟨32, 0x1FFFFF, 0x0, 0x0, 0x0⟩ -- R317
  | .PART_CARD_COUNT => ⟨32, 0x3FFFFF, 0x0, 0x0, 0x0⟩ -- R317
  | .PART_CARD_VALUE => ⟨32, 0xFFFF, 0x0, 0x0, 0x0⟩ -- R317
  | .PART_CARD_CMD => ⟨32, 0x0, 0x0, 0x0, 0x0⟩ -- R317
  | .PART_CARD_PROBE => ⟨32, 0x1FFFFF, 0x0, 0x0, 0x0⟩ -- R317
  | .PART_CARD_PROBE_CARD => ⟨32, 0x0, 0x0, 0x0, 0x0⟩ -- R317
  | .PART_BEAM_SPLIT => ⟨32, 0x7F, 0x0, 0x0, 0x0⟩ -- R322
  | .PART_SRAM_CE => ⟨64, 0x0, 0x0, 0x0, 0x0⟩ -- R306
  | .PART_SRAM_UE => ⟨64, 0x0, 0x0, 0x0, 0x0⟩ -- R306
  | .PART_CTX_PLACE => ⟨32, 0x7F3F01, 0x0, 0x0, 0x0⟩ -- R334
  | .PART_CTX_OBJECTS => ⟨32, 0x1FFFF, 0x0, 0x0, 0x0⟩ -- R334
  | .PART_CTX_TABLE => ⟨64, 0xFFFFFFFFFFFFFFFF, 0x0, 0x0, 0x0⟩ -- R334
  | .PART_CTX_ADMIT => ⟨32, 0xC, 0x0, 0x0, 0x0⟩ -- R374
  | .PART_CTX_JOB => ⟨32, 0x7F7FFFFF, 0x0, 0x0, 0x0⟩ -- R374
  | .PART_CTX_ENGINES => ⟨64, 0xFFFFFFFFFFFF, 0x0, 0x0, 0x0⟩ -- R374
  | .PART_CTX_LAYERS => ⟨32, 0x1FFF0FFF, 0x0, 0x0, 0x0⟩ -- R374
  | .PART_CTX_REGS => ⟨32, 0x1FFF0FFF, 0x0, 0x0, 0x0⟩ -- R374
  | .PART_CTX_SLOTS => ⟨32, 0x1FFF0FFF, 0x0, 0x0, 0x0⟩ -- R374
  | .PART_CTX_RESV => ⟨32, 0xFFFFFFFF, 0x0, 0x0, 0x0⟩ -- R374
  | .PART_CTX_ACC => ⟨32, 0x1FFFFF, 0x0, 0x0, 0x0⟩ -- R374
  | .PART_CTX_ACC_LEN => ⟨32, 0x1FFFFF, 0x0, 0x0, 0x0⟩ -- R374
  | .PART_CTX_RESV_ADDR => ⟨64, 0xFFFFFFFFFFFFFFFF, 0x0, 0x0, 0x0⟩ -- R374
  | .HBM_STACK_STATUS => ⟨32, 0x0, 0x0, 0x0, 0x0⟩ -- R318
  | .HBM_CH_UP => ⟨32, 0x0, 0x0, 0x0, 0x0⟩ -- R318
  | .HBM_SCRUB_CFG => ⟨32, 0xFF01, 0x0, 0x1801, 0x0⟩ -- R308
  | .HBM_SCRUB_POS => ⟨64, 0x0, 0x0, 0x0, 0x0⟩ -- R308
  | .HBM_REPAIR_CFG => ⟨32, 0xFFFFFF0F, 0x0, 0x3E81002, 0x0⟩ -- R318
  | .HBM_ERR_LAST => ⟨32, 0x0, 0x80000000, 0x1FC00000, 0x0⟩ -- R318
  | .HBM_ERR_ROW => ⟨32, 0x0, 0x0, 0x0, 0x0⟩ -- R318
  | .HBM_ERR_TIME => ⟨64, 0x0, 0x0, 0x0, 0x0⟩ -- R318
  | .HBM_CE => ⟨64, 0x0, 0x0, 0x0, 0x0⟩ -- R318
  | .HBM_UE => ⟨64, 0x0, 0x0, 0x0, 0x0⟩ -- R318
  | .HBM_POISON_READS => ⟨64, 0x0, 0x0, 0x0, 0x0⟩ -- R318
  | .HBM_SCRUB_PASSES => ⟨64, 0x0, 0x0, 0x0, 0x0⟩ -- R318
  | .HBM_SOFT_REPAIRS => ⟨64, 0x0, 0x0, 0x0, 0x0⟩ -- R318
  | .HBM_HARD_REPAIRS => ⟨64, 0x0, 0x0, 0x0, 0x0⟩ -- R318
  | .HBM_LANE_REPAIRS => ⟨64, 0x0, 0x0, 0x0, 0x0⟩ -- R318
  | .HBM_RETIRED_HITS => ⟨64, 0x0, 0x0, 0x0, 0x0⟩ -- R318
  | .HBM_COUNTER_CLEAR => ⟨32, 0x0, 0x0, 0x0, 0x0⟩ -- R318
  | .HBM_CH_STATUS => ⟨32, 0x0, 0x0, 0x3FFF0, 0x0⟩ -- R296
  | .HBM_REPAIR_A => ⟨32, 0x0, 0x0, 0x0, 0x3F3F07⟩ -- R310
  | .HBM_REPAIR_B => ⟨32, 0x0, 0x0, 0x0, 0x3FFF⟩ -- R310
  | .HBM_REMAP => ⟨64, 0xFFFFFFFFF03, 0x0, 0x0, 0x0⟩ -- R313
  | .HBM_TG_CTRL => ⟨32, 0xFF07F6, 0x0, 0x10354, 0x0⟩ -- R299
  | .HBM_TG_RANGE => ⟨32, 0x3FFF3FFF, 0x0, 0x3FFF0000, 0x0⟩ -- R299
  | .HBM_TG_SEED => ⟨32, 0x7FFFFFFF, 0x0, 0x1, 0x0⟩ -- R299
  | .HBM_TG_STATUS => ⟨32, 0x0, 0x0, 0x0, 0x0⟩ -- R299
  | .HBM_TG_FAIL_LO => ⟨64, 0x0, 0x0, 0x0, 0x0⟩ -- R299
  | .HBM_TG_FAIL_HI => ⟨64, 0x0, 0x0, 0x0, 0x0⟩ -- R299
  | .HBM_TG_ERRORS => ⟨64, 0x0, 0x0, 0x0, 0x0⟩ -- R299
  | .HBM_TG_FIRST => ⟨32, 0x0, 0x0, 0x0, 0x0⟩ -- R299
  | .BTIER_MAP => ⟨32, 0x1, 0x0, 0x0, 0x0⟩ -- R329
  | .BTIER_MAP_SIZE => ⟨32, 0x0, 0x0, 0x0, 0x0⟩ -- R329
  | .BTIER_CARD_REFUSED => ⟨64, 0x0, 0x0, 0x0, 0x0⟩ -- R329
  | .BTIER_PORT_CTRL => ⟨32, 0x3, 0x0, 0x1, 0x0⟩ -- R330
  | .BTIER_PORT_STATUS => ⟨32, 0x0, 0x0, 0x0, 0x0⟩ -- R330
  | .BTIER_PORT_CAP => ⟨32, 0x0, 0x0, 0x0, 0x0⟩ -- R330
  | .BTIER_PORT_RD_BYTES => ⟨64, 0x0, 0x0, 0x0, 0x0⟩ -- R330
  | .BTIER_PORT_WR_BYTES => ⟨64, 0x0, 0x0, 0x0, 0x0⟩ -- R330
  | .BTIER_PORT_UE => ⟨64, 0x0, 0x0, 0x0, 0x0⟩ -- R330
  | .BTIER_PORT_RETRAINS => ⟨64, 0x0, 0x0, 0x0, 0x0⟩ -- R330
  | .BTIER_CARD => ⟨32, 0x0FFF0FFF, 0x0, 0x0, 0x0⟩ -- R329
  | .WEFT_TC_WEIGHT => ⟨32, 0xFFFFFF, 0x0, 0x206060, 0x0⟩ -- R175
  | .WEFT_PORT_STATUS => ⟨32, 0x0, 0x0, 0x0, 0x0⟩ -- R175
  | .WEFT_PORT_TIME => ⟨32, 0x0, 0x0, 0x1C, 0x0⟩ -- R175
  | .WEFT_PORT_CTRL => ⟨32, 0x1, 0x0, 0x1, 0x0⟩ -- R175
  | .WEFT_PORT_REPLAYS => ⟨64, 0x0, 0x0, 0x0, 0x0⟩ -- R175
  | .WEFT_PORT_RETRAINS => ⟨64, 0x0, 0x0, 0x0, 0x0⟩ -- R175
  | .WEFT_PORT_FEC_UNCORR => ⟨64, 0x0, 0x0, 0x0, 0x0⟩ -- R175
  | .WEFT_PORT_AUTH_FAIL => ⟨64, 0x0, 0x0, 0x0, 0x0⟩ -- R175
  | .SELV_PAIR_CTRL => ⟨32, 0x2, 0x0, 0x0, 0x80⟩ -- R360
  | .SELV_RISK => ⟨32, 0x0, 0x0, 0x4000, 0x0⟩ -- R360
  | .SELV_RISK_W => ⟨32, 0xFFFFFFFF, 0x0, 0x20081040, 0x0⟩ -- R360
  | .SELV_RISK_CFG => ⟨32, 0xFFFFFF0F, 0x0, 0xC080400A, 0x0⟩ -- R360
  | .SELV_FLUSH_CFG => ⟨32, 0xFFFF, 0x0, 0x40, 0x0⟩ -- R360
  | .SELV_LOSSES => ⟨64, 0x0, 0x0, 0x0, 0x0⟩ -- R360
  | .SELV_FORCED_FLUSHES => ⟨64, 0x0, 0x0, 0x0, 0x0⟩ -- R360
  | .SELV_TX_BYTES => ⟨64, 0x0, 0x0, 0x0, 0x0⟩ -- R360
  | .SELV_RX_BYTES => ⟨64, 0x0, 0x0, 0x0, 0x0⟩ -- R360
  | .SEC_LIFECYCLE => ⟨32, 0x0, 0x0, 0x0, 0x3⟩ -- R384
  | .SEC_DEBUG => ⟨32, 0x0, 0x0, 0x0, 0x0⟩ -- R384
  | .SEC_ZERO_ALL => ⟨32, 0x0, 0x0, 0x0, 0x0⟩ -- R384
  | .SEC_SESSION_REFUSED => ⟨64, 0x0, 0x0, 0x0, 0x0⟩ -- R384
  | .SEC_IDE_REFUSED => ⟨64, 0x0, 0x0, 0x0, 0x0⟩ -- R384
  | .SEC_DEBUG_NONCE => ⟨32, 0x0, 0x0, 0x0, 0x0⟩ -- R384
  | .SEC_DEBUG_TOKEN => ⟨32, 0x0, 0x0, 0x0, 0x0⟩ -- R384
  | .SEC_JOB => ⟨64, 0x0, 0x0, 0x0, 0x0⟩ -- R384
  | .Q_TAIL => ⟨32, 0xFFFFFFFF, 0x0, 0x0, 0x0⟩ -- R267
  | .Q_CPL_ACK => ⟨32, 0xFFFFFFFF, 0x0, 0x0, 0x0⟩ -- R267
  | .Q_FETCHED => ⟨32, 0x0, 0x0, 0x0, 0x0⟩ -- R267
  | .Q_STATUS => ⟨32, 0x0, 0x0, 0x0, 0x0⟩ -- R267
  | .Q_CFG_CTRL => ⟨32, 0x3FFFFF, 0x0, 0x40, 0x0⟩ -- R266
  | .Q_CFG_RING => ⟨64, 0xFFFFFFFFFFFFFFFF, 0x0, 0x0, 0x0⟩ -- R266
  | .Q_CFG_CPL => ⟨64, 0xFFFFFFFFFFFFFFFF, 0x0, 0x0, 0x0⟩ -- R266
  | .Q_VF_CMDS => ⟨64, 0x0, 0x0, 0x0, 0x0⟩ -- R268
  | .Q_VF_FAULTS => ⟨64, 0x0, 0x0, 0x0, 0x0⟩ -- R268
  | .Q_HOST_LEVEL => ⟨32, 0xF, 0x0, 0x0, 0x0⟩ -- R269
  | .KNOT_COUNT => ⟨32, 0xFFFFFFFF, 0x0, 0x0, 0x0⟩ -- R276
  | .KNOT_ADD => ⟨32, 0x0, 0x0, 0x0, 0x0⟩ -- R276
  | .KNOT_CFG => ⟨32, 0xFF007F, 0x8000, 0x0, 0x0⟩ -- R276
  | .KNOT_IRQ_AT => ⟨32, 0xFFFFFFFF, 0x0, 0x0, 0x0⟩ -- R276
  | .CNV_KAPPA => ⟨32, 0xFFF, 0x0, 0x80, 0x0⟩ -- R95
  | .CNV_OVF_LIMIT => ⟨32, 0xFF, 0x0, 0x10, 0x0⟩ -- R96
  | .CNV_LAST_FAULT => ⟨32, 0x0, 0x80000000, 0x0, 0x0⟩ -- R97
  | .CNV_COUNTER_CLEAR => ⟨32, 0x0, 0x0, 0x0, 0x0⟩ -- R100
  | .CNV_TILES_PACKED => ⟨64, 0x0, 0x0, 0x0, 0x0⟩ -- R99
  | .CNV_TILES_UNPACKED => ⟨64, 0x0, 0x0, 0x0, 0x0⟩ -- R99
  | .CNV_OUTLIERS => ⟨64, 0x0, 0x0, 0x0, 0x0⟩ -- R99
  | .CNV_OUTLIER_OVF => ⟨64, 0x0, 0x0, 0x0, 0x0⟩ -- R99
  | .CNV_OVF_TILES => ⟨64, 0x0, 0x0, 0x0, 0x0⟩ -- R99
  | .CNV_SATURATE => ⟨64, 0x0, 0x0, 0x0, 0x0⟩ -- R99
  | .CNV_NONFINITE => ⟨64, 0x0, 0x0, 0x0, 0x0⟩ -- R99
  | .CNV_ZERO_BLOCKS => ⟨64, 0x0, 0x0, 0x0, 0x0⟩ -- R99
  | .CNV_FLUSH => ⟨64, 0x0, 0x0, 0x0, 0x0⟩ -- R99
  | .CNV_ILLEGAL => ⟨64, 0x0, 0x0, 0x0, 0x0⟩ -- R99
  | .CNV_BUSY_CYCLES => ⟨64, 0x0, 0x0, 0x0, 0x0⟩ -- R99
  | .TEN_FWD_NONFINITE => ⟨64, 0x0, 0x0, 0x0, 0x0⟩ -- R131
  | .TEN_FWD_JUMPS => ⟨64, 0x0, 0x0, 0x0, 0x0⟩ -- R131
  | .TEN_FWD_WIDEN => ⟨64, 0x0, 0x0, 0x0, 0x0⟩ -- R131
  | .TEN_FWD_VETOES => ⟨64, 0x0, 0x0, 0x0, 0x0⟩ -- R131
  | .TEN_FWD_LOCK_BREAKS => ⟨64, 0x0, 0x0, 0x0, 0x0⟩ -- R131
  | .TEN_FWD_WIDE_BYPASS => ⟨64, 0x0, 0x0, 0x0, 0x0⟩ -- R131
  | .TEN_BWD_NONFINITE => ⟨64, 0x0, 0x0, 0x0, 0x0⟩ -- R161
  | .TEN_BWD_JUMPS => ⟨64, 0x0, 0x0, 0x0, 0x0⟩ -- R161
  | .TEN_BWD_VETOES => ⟨64, 0x0, 0x0, 0x0, 0x0⟩ -- R161
  | .TEN_BWD_WGRAD_SKIPPED => ⟨64, 0x0, 0x0, 0x0, 0x0⟩ -- R161
  | .TEN_A24_OVF => ⟨64, 0x0, 0x0, 0x0, 0x0⟩ -- R161
  | .TEN_MX_RANGE => ⟨64, 0x0, 0x0, 0x0, 0x0⟩ -- R161
  | .TEN_BWD_RT_ILLEGAL => ⟨64, 0x0, 0x0, 0x0, 0x0⟩ -- R161
  | .TEN_FWD_COUNTER_CLEAR => ⟨32, 0x0, 0x0, 0x0, 0x0⟩ -- R132
  | .TEN_BWD_COUNTER_CLEAR => ⟨32, 0x0, 0x0, 0x0, 0x0⟩ -- R162
  | .TEN_CTX_LOCK => ⟨32, 0x1, 0x0, 0x0, 0x0⟩ -- R126
  | .TEN_CTX_LAYERS => ⟨32, 0x0, 0x0, 0x0, 0x0⟩ -- R127
  | .TEN_CTX_RESV_SIZE => ⟨32, 0x0, 0x0, 0x0, 0x0⟩ -- R127
  | .TEN_CTX_RESV_USED => ⟨32, 0x0, 0x0, 0x0, 0x0⟩ -- R127
  | .TEN_LAYER_CFG => ⟨32, 0x7FFF01FF, 0x0, 0x40000, 0x0⟩ -- R128
  | .TEN_LAYER_STATE => ⟨32, 0x0, 0xC, 0x0, 0x0⟩ -- R129
  | .TEN_LAYER_FNORM => ⟨32, 0x0, 0x0, 0x0, 0x0⟩ -- R130
  | .TEN_LAYER_FREF => ⟨32, 0xFFFFFFFF, 0x0, 0x0, 0x0⟩ -- R130
  | .TEN_LAYER_GCFG => ⟨32, 0x3F3F03FF, 0x0, 0x0, 0x0⟩ -- R158
  | .TEN_LAYER_GSTATE => ⟨32, 0x0, 0x0, 0x0, 0x0⟩ -- R159
  | .TEN_LAYER_GNORM => ⟨32, 0x0, 0x0, 0x0, 0x0⟩ -- R160
  | .TEN_LAYER_GREF => ⟨32, 0xFFFFFFFF, 0x0, 0x0, 0x0⟩ -- R160
  | .BAT_STEP_CMD => ⟨32, 0x0, 0x0, 0x0, 0x0⟩ -- R231
  | .BAT_STEP_STATUS => ⟨32, 0x0, 0x0, 0x0, 0x0⟩ -- R231
  | .BAT_STEP_NUM => ⟨32, 0x0, 0x0, 0x0, 0x0⟩ -- R231
  | .BAT_HANDOVER => ⟨32, 0x173F, 0x0, 0x0, 0x0⟩ -- R231
  | .BAT_COMMIT_COUNT => ⟨64, 0x0, 0x0, 0x0, 0x0⟩ -- R231
  | .BAT_CURSOR_COMMITTED => ⟨64, 0x0, 0x0, 0x0, 0x0⟩ -- R231
  | .BAT_CURSOR_PROV => ⟨64, 0xFFFFFFFFFFFFFFFF, 0x0, 0x0, 0x0⟩ -- R231
  | .BAT_COMMIT_HOME => ⟨32, 0xFFFFFFFF, 0x0, 0x0, 0x0⟩ -- R231
  | .BAT_COMMIT_CFG => ⟨32, 0xFFFFFFFF, 0x0, 0x10200001, 0x0⟩ -- R231
  | .BAT_SNAP_HOLD => ⟨32, 0x1, 0x0, 0x0, 0x0⟩ -- R231
  | .BAT_SNAP_COMMIT => ⟨64, 0x0, 0x0, 0x0, 0x0⟩ -- R231
  | .BAT_REG_CMD => ⟨32, 0x0, 0x0, 0x0, 0x0⟩ -- R233
  | .BAT_REG_ERR => ⟨32, 0x0, 0xFF, 0x0, 0x0⟩ -- R233
  | .BAT_ELEMENTS_UPDATED => ⟨64, 0x0, 0x0, 0x0, 0x0⟩ -- R234
  | .BAT_COMMITS => ⟨64, 0x0, 0x0, 0x0, 0x0⟩ -- R234
  | .BAT_VETOES => ⟨64, 0x0, 0x0, 0x0, 0x0⟩ -- R234
  | .BAT_ABORTS => ⟨64, 0x0, 0x0, 0x0, 0x0⟩ -- R234
  | .BAT_CLIPPED => ⟨64, 0x0, 0x0, 0x0, 0x0⟩ -- R234
  | .BAT_NONFINITE => ⟨64, 0x0, 0x0, 0x0, 0x0⟩ -- R234
  | .BAT_SCALE_MOVES => ⟨64, 0x0, 0x0, 0x0, 0x0⟩ -- R234
  | .BAT_VETO_LATE => ⟨64, 0x0, 0x0, 0x0, 0x0⟩ -- R234
  | .BAT_FLIP_LATE => ⟨64, 0x0, 0x0, 0x0, 0x0⟩ -- R234
  | .BAT_HANDOVER_WAITS => ⟨64, 0x0, 0x0, 0x0, 0x0⟩ -- R234
  | .BAT_COUNTER_CLEAR => ⟨32, 0x0, 0x0, 0x0, 0x0⟩ -- R234
  | .BAT_SEQ => ⟨32, 0xFFFFFFFF, 0x0, 0x0, 0x0⟩ -- R233
  | .BAT_NOISE_CONTRIB => ⟨32, 0x0, 0x0, 0x0, 0x0⟩ -- R233
  | .BAT_NOISE_REDUCED => ⟨32, 0x0, 0x0, 0x0, 0x0⟩ -- R233
  | .BAT_NOISE_BLOCKS => ⟨64, 0x0, 0x0, 0x0, 0x0⟩ -- R233
  | .BAT_PSET_SCHED => ⟨32, 0xFFFFFFFF, 0x0, 0x3F800000, 0x0⟩ -- R232
  | .BAT_PSET_BETA1 => ⟨32, 0xFFFFFFFF, 0x0, 0x0, 0x0⟩ -- R232
  | .BAT_PSET_BETA2 => ⟨32, 0xFFFFFFFF, 0x0, 0x0, 0x0⟩ -- R232
  | .BAT_PSET_EPS => ⟨32, 0xFFFFFFFF, 0x0, 0x0, 0x0⟩ -- R232
  | .BAT_PSET_DECAY => ⟨32, 0xFFFFFFFF, 0x0, 0x0, 0x0⟩ -- R232
  | .BAT_PSET_BIAS1 => ⟨32, 0xFFFFFFFF, 0x0, 0x3F800000, 0x0⟩ -- R232
  | .BAT_PSET_BIAS2 => ⟨32, 0xFFFFFFFF, 0x0, 0x3F800000, 0x0⟩ -- R232
  | .BAT_PSET_CLIP_NORM => ⟨32, 0xFFFFFFFF, 0x0, 0x0, 0x0⟩ -- R232
  | .BAT_PSET_SCALE_LR => ⟨32, 0xFFFFFFFF, 0x0, 0x0, 0x0⟩ -- R232
  | .BAT_PSET_W9 => ⟨32, 0xFFFFFFFF, 0x0, 0x0, 0x0⟩ -- R232
  | .BAT_PSET_W10 => ⟨32, 0xFFFFFFFF, 0x0, 0x0, 0x0⟩ -- R232
  | .BAT_PSET_W11 => ⟨32, 0xFFFFFFFF, 0x0, 0x0, 0x0⟩ -- R232
  | .BAT_PSET_W12 => ⟨32, 0xFFFFFFFF, 0x0, 0x0, 0x0⟩ -- R232
  | .BAT_PSET_W13 => ⟨32, 0xFFFFFFFF, 0x0, 0x0, 0x0⟩ -- R232
  | .BAT_PSET_W14 => ⟨32, 0xFFFFFFFF, 0x0, 0x0, 0x0⟩ -- R232
  | .BAT_PSET_W15 => ⟨32, 0xFFFFFFFF, 0x0, 0x0, 0x0⟩ -- R232
  | .BAT_REG_CTRL => ⟨32, 0x2F7FFFE, 0x0, 0x0, 0x0⟩ -- R203
  | .BAT_REG_ID => ⟨32, 0xFFFFFFF, 0x0, 0x0, 0x0⟩ -- R203
  | .BAT_REG_BASE => ⟨32, 0xFFFFFFFF, 0x0, 0x0, 0x0⟩ -- R203
  | .BAT_REG_LEN => ⟨32, 0xFFFFFFFF, 0x0, 0x0, 0x0⟩ -- R203
  | .BAT_REG_AREA => ⟨64, 0xFFFFFFFFFFFFFFFF, 0x0, 0x0, 0x0⟩ -- R203
  | .BAT_REG_STRIDE => ⟨32, 0xFFFFFFFF, 0x0, 0x0, 0x0⟩ -- R203
  | .BAT_REG_LR => ⟨32, 0xFFFFFF, 0x0, 0x3F80, 0x0⟩ -- R203
  | .BAT_REG_CLIP => ⟨32, 0x3FFFF0F, 0x0, 0x0, 0x0⟩ -- R203
  | .BAT_REG_SLOTS => ⟨32, 0x0, 0x0, 0x34, 0x0⟩ -- R203
  | .BAT_REG_GRAD => ⟨64, 0xFFFFFFFFFFFFFFFF, 0x0, 0x0, 0x0⟩ -- R203
  | .RED_POLICY => ⟨32, 0xFF0F01, 0x0, 0x40100, 0x0⟩ -- R197
  | .RED_RX_PACKETS => ⟨64, 0x0, 0x0, 0x0, 0x0⟩ -- R200
  | .RED_RX_BLOCKS => ⟨64, 0x0, 0x0, 0x0, 0x0⟩ -- R200
  | .RED_CHECK_FAIL => ⟨64, 0x0, 0x0, 0x0, 0x0⟩ -- R200
  | .RED_SUM_FAIL => ⟨64, 0x0, 0x0, 0x0, 0x0⟩ -- R200
  | .RED_HELD => ⟨64, 0x0, 0x0, 0x0, 0x0⟩ -- R200
  | .RED_BOUNCE_EPOCH => ⟨64, 0x0, 0x0, 0x0, 0x0⟩ -- R200
  | .RED_LATE => ⟨64, 0x0, 0x0, 0x0, 0x0⟩ -- R200
  | .RED_DISCARD => ⟨64, 0x0, 0x0, 0x0, 0x0⟩ -- R200
  | .RED_POISON_CODES => ⟨64, 0x0, 0x0, 0x0, 0x0⟩ -- R200
  | .RED_DROPS => ⟨64, 0x0, 0x0, 0x0, 0x0⟩ -- R200
  | .RED_SEND_SATURATED => ⟨64, 0x0, 0x0, 0x0, 0x0⟩ -- R200
  | .RED_MAX127 => ⟨64, 0x0, 0x0, 0x0, 0x0⟩ -- R200
  | .RED_GATHER_BYTES => ⟨64, 0x0, 0x0, 0x0, 0x0⟩ -- R200
  | .RED_COUNTER_CLEAR => ⟨32, 0x0, 0x0, 0x0, 0x0⟩ -- R200
  | .RED_FAULT_SRC => ⟨32, 0x0, 0x80000000, 0x0, 0x0⟩ -- R199
  | .RED_FAULT_ID => ⟨32, 0x0, 0x0, 0x0, 0x0⟩ -- R199
  | .RED_FAULT_BLOCK => ⟨32, 0x0, 0x0, 0x0, 0x0⟩ -- R199
  | .RED_FAULT_STEP => ⟨32, 0x0, 0x0, 0x0, 0x0⟩ -- R199
  | .RED_PEER_TABLE => ⟨64, 0xFFFFFFFFFFFFFFFF, 0x0, 0x0, 0x0⟩ -- R201
  | .RED_PEER_LIST => ⟨64, 0xFFFFFFFFFFFFFFFF, 0x0, 0x0, 0x0⟩ -- R201
  | .RED_PLANE => ⟨64, 0xFFFFFFFFFFFFFFFF, 0x0, 0x0, 0x0⟩ -- R201
  | .RED_PLANE_CFG => ⟨32, 0x0, 0x0, 0x0, 0x0⟩ -- R201
  | .RED_SLOT_CTRL => ⟨32, 0x4, 0x0, 0x0, 0x0⟩ -- R198
  | .RED_SLOT_ID => ⟨32, 0xFFFFFFFF, 0x0, 0x0, 0x0⟩ -- R198
  | .RED_SLOT_STEP => ⟨32, 0xFFFFFFFF, 0x0, 0x0, 0x0⟩ -- R198
  | .RED_SLOT_BASE => ⟨32, 0xFFFFFFFF, 0x0, 0x0, 0x0⟩ -- R198
  | .RED_SLOT_LEN => ⟨32, 0x1FFFF, 0x0, 0x0, 0x0⟩ -- R198
  | .RED_SLOT_CONTRIB => ⟨32, 0x1FFFF, 0x0, 0x0, 0x0⟩ -- R198
  | .RED_SLOT_ACC => ⟨32, 0x1FFFFF, 0x0, 0x0, 0x0⟩ -- R198
  | .RED_SLOT_WINDOW => ⟨32, 0xFFF, 0x0, 0x0, 0x0⟩ -- R198
  | .SNAP_CTX_CFG => ⟨32, 0xFFFFF03, 0x0, 0x0, 0x0⟩ -- R361
  | .SNAP_CTX_CMD => ⟨32, 0x0, 0x0, 0x0, 0x0⟩ -- R361
  | .SNAP_CTX_STATUS => ⟨32, 0x0, 0x0, 0x0, 0x0⟩ -- R361
  | .SNAP_TX_POINT => ⟨64, 0x0, 0x0, 0x0, 0x0⟩ -- R361
  | .SNAP_RX_POINT => ⟨64, 0x0, 0x0, 0x0, 0x0⟩ -- R361
  | .SNAP_RX_BASE => ⟨64, 0xFFFFFFFFFFFFFFFF, 0x0, 0x0, 0x0⟩ -- R361
  | .SNAP_RX_SLOT => ⟨32, 0xFFFFFFFF, 0x0, 0x0, 0x0⟩ -- R361
  | .SNAP_DELTA_SIZE => ⟨32, 0xFFFFFFFF, 0x0, 0x0, 0x0⟩ -- R361
  | .SNAP_DELTA_BASE => ⟨64, 0xFFFFFFFFFFFFFFFF, 0x0, 0x0, 0x0⟩ -- R361
  | .SNAP_BOARD_BASE => ⟨64, 0xFFFFFFFFFFFFFFFF, 0x0, 0x0, 0x0⟩ -- R361
  | .SNAP_PREV_CURSOR => ⟨64, 0x0, 0x0, 0x0, 0x0⟩ -- R361
  | .SNAP_RST_ADDR => ⟨64, 0xFFFFFFFFFFFFFFFF, 0x0, 0x0, 0x0⟩ -- R361
  | .SNAP_RST_COUNT => ⟨64, 0xFFFFFFFFFFFFFFFF, 0x0, 0x0, 0x0⟩ -- R361
  | .SNAP_AUTO => ⟨32, 0xFFFFFFFF, 0x0, 0x10004000, 0x0⟩ -- R361
  | .SNAP_MIR_WAITS => ⟨64, 0x0, 0x0, 0x0, 0x0⟩ -- R361
  | .SNAP_FOLDS => ⟨64, 0x0, 0x0, 0x0, 0x0⟩ -- R361
  | .SNAP_UNRECORDED => ⟨64, 0x0, 0x0, 0x0, 0x0⟩ -- R361
  | .SNAP_RX_SIDE => ⟨32, 0xFFFFFFFF, 0x0, 0x0, 0x0⟩ -- R361
  | .SNAP_STREAM_ID => ⟨32, 0xFFFFFFFF, 0x0, 0x0, 0x0⟩ -- R354
  | .SNAP_STREAM_DRAWS => ⟨32, 0xFFFFFFFF, 0x0, 0x0, 0x0⟩ -- R354
  | .SNAP_STREAM_POS => ⟨64, 0xFFFFFFFFFFFFFFFF, 0x0, 0x0, 0x0⟩ -- R354
  | .SNAP_ENTRY => ⟨64, 0xFFFFFFFF0003, 0x0, 0xC, 0x0⟩ -- R362
  | .SNAP_EXP_CMD => ⟨32, 0x4, 0x0, 0x0, 0x0⟩ -- R382
  | .SNAP_EXP_DEST => ⟨64, 0xFFFFFFFFFFFFFFFF, 0x0, 0x0, 0x0⟩ -- R382
  | .SNAP_EXP_LIMIT => ⟨64, 0xFFFFFFFFFFFFFFFF, 0x0, 0x0, 0x0⟩ -- R382
  | .SNAP_EXP_TARGET => ⟨64, 0xFFFFFFFFFFFFFFFF, 0x0, 0x0, 0x0⟩ -- R382
  | .SCHED_PICK_NOW => ⟨64, 0x0, 0x0, 0x0, 0x0⟩ -- R281
  | .SCHED_PICK_CFG => ⟨32, 0x0, 0x0, 0x10, 0x0⟩ -- R281
  | .SCHED_CTX_SEND_DL => ⟨64, 0xFFFFFFFFFFFFFFFF, 0x0, 0x0, 0x0⟩ -- R288
  | .SCHED_CTX_SEND_POL => ⟨32, 0x1, 0x0, 0x0, 0x0⟩ -- R288
  | .SCHED_WIN_CLOSE => ⟨64, 0xFFFFFFFFFFFFFFFF, 0x0, 0x0, 0x0⟩ -- R286
  | .SCHED_WIN_STATUS => ⟨32, 0x0, 0x1, 0x0, 0x0⟩ -- R286
  | .SCHED_WIN_LATE => ⟨64, 0x0, 0x0, 0x0, 0x0⟩ -- R286
  | .OWN_ID => ⟨32, 0xFFFFFFFF, 0x0, 0x0, 0x0⟩ -- R291
  | .OWN_FIRST => ⟨32, 0xFFFFFFFF, 0x0, 0x0, 0x0⟩ -- R291
  | .OWN_COUNT => ⟨32, 0xFFFFFFFF, 0x0, 0x0, 0x0⟩ -- R291
  | .OWN_CTRL => ⟨32, 0x3F01, 0x0, 0x0, 0x0⟩ -- R291

/-- The BAR a register lies in: the operator space (R15), the tenant space of one partition (R16), or the part of the
tenant space that is one array for the whole device (the 4,096 reduction slots). -/
inductive RegSpace where
  | operator | tenant | device
  deriving DecidableEq, Repr

/-- One place of a register (or register array) in a BAR: `base` plus `stride` per index, for at most two indices.
`iBase` is added to the first index: the four kinds of table switch set (R289) share their register names, with index
p for the owner table of partition p, 8 + p for its pattern cards, 16 + s for the remap table of stack s and 32 for the
weft route table. -/
structure RegRow where
  reg : RegName
  space : RegSpace
  base : Nat
  dims : List (Nat × Nat)
  iBase : Nat
  deriving DecidableEq, Repr

/-- The register map, part 1. -/
def regRows1 : List RegRow :=
  [ ⟨.DEV_IF_LEVEL, .operator, 0x10, [], 0⟩,
    ⟨.DEV_PROFILE, .operator, 0x20, [], 0⟩,
    ⟨.DEV_PROFILE_STATUS, .operator, 0x24, [], 0⟩,
    ⟨.DEV_CREEL_SRAM_CE, .operator, 0x100, [(2, 0x10)], 0⟩,
    ⟨.DEV_CREEL_SRAM_UE, .operator, 0x108, [(2, 0x10)], 0⟩,
    ⟨.PWR_TARGET, .operator, 0x10000, [], 0⟩,
    ⟨.PWR_STATE, .operator, 0x10004, [], 0⟩,
    ⟨.PWR_VOTE_HOST, .operator, 0x10008, [], 0⟩,
    ⟨.PWR_VOTE_MGMT, .operator, 0x1000C, [], 0⟩,
    ⟨.PWR_LAST_EVENT, .operator, 0x10010, [], 0⟩,
    ⟨.PWR_REFUSED_K, .operator, 0x10100, [(6, 0x8)], 0⟩,
    ⟨.PWR_ABORTED_K, .operator, 0x10140, [(6, 0x8)], 0⟩,
    ⟨.PWR_RESIDENCY_S, .operator, 0x10180, [(5, 0x8)], 0⟩,
    ⟨.PWR_ENERGY, .operator, 0x101B0, [], 0⟩,
    ⟨.PWR_RAIL_I, .operator, 0x10200, [(16, 0x8)], 0⟩,
    ⟨.PWR_RAIL_COUNT, .operator, 0x10204, [(16, 0x8)], 0⟩,
    ⟨.PWR_DIP_LAST, .operator, 0x10300, [], 0⟩,
    ⟨.PWR_DIP_DURATION, .operator, 0x10304, [], 0⟩,
    ⟨.PWR_DIP_TIME, .operator, 0x10308, [], 0⟩,
    ⟨.BOOT_STATUS, .operator, 0x20000, [], 0⟩,
    ⟨.BOOT_FAIL_CAUSE, .operator, 0x20004, [], 0⟩,
    ⟨.BOOT_CTRL, .operator, 0x20008, [], 0⟩,
    ⟨.BOOT_FLASH_ADDR, .operator, 0x20100, [], 0⟩,
    ⟨.BOOT_FLASH_CMD, .operator, 0x20104, [], 0⟩,
    ⟨.OTP_GEN_STATUS, .operator, 0x21000, [], 0⟩,
    ⟨.OTP_CMD, .operator, 0x21140, [], 0⟩,
    ⟨.BOOT_FLASH_DATA, .operator, 0x20200, [(64, 0x4)], 0⟩,
    ⟨.OTP_STAGE, .operator, 0x21100, [(16, 0x4)], 0⟩,
    ⟨.OTP_GEN_DATA, .operator, 0x21200, [(4, 0x80), (32, 0x4)], 0⟩,
    ⟨.TIME_CFG, .operator, 0x30000, [], 0⟩,
    ⟨.TIME_STATUS, .operator, 0x30004, [], 0⟩,
    ⟨.TIME_FABRIC, .operator, 0x30008, [], 0⟩,
    ⟨.TIME_PICK, .operator, 0x30010, [], 0⟩,
    ⟨.TIME_EPOCH, .operator, 0x30018, [], 0⟩,
    ⟨.TIME_LOCK_LOSS, .operator, 0x30020, [], 0⟩,
    ⟨.ALM_SUMMARY, .operator, 0x40000, [], 0⟩,
    ⟨.ALM_COUNT, .operator, 0x41000, [(64, 0x20)], 0⟩,
    ⟨.ALM_FIRST, .operator, 0x41008, [(64, 0x20)], 0⟩,
    ⟨.ALM_LAST, .operator, 0x41010, [(64, 0x20)], 0⟩,
    ⟨.ALM_CTRL, .operator, 0x41018, [(64, 0x20)], 0⟩ ]
/-- The register map, part 2. -/
def regRows2 : List RegRow :=
  [ ⟨.LOG_OP_BASE, .operator, 0x40800, [], 0⟩,
    ⟨.SCHED_LOG_BASE, .tenant, 0x500900, [], 0⟩,
    ⟨.LOG_OP_CFG, .operator, 0x40808, [], 0⟩,
    ⟨.SCHED_LOG_CFG, .tenant, 0x500908, [], 0⟩,
    ⟨.LOG_OP_WR, .operator, 0x40810, [], 0⟩,
    ⟨.SCHED_LOG_WR, .tenant, 0x500910, [], 0⟩,
    ⟨.LOG_OP_RD, .operator, 0x40818, [], 0⟩,
    ⟨.SCHED_LOG_RD, .tenant, 0x500918, [], 0⟩,
    ⟨.LOG_OP_LOSS, .operator, 0x40820, [], 0⟩,
    ⟨.SCHED_LOG_LOSS, .tenant, 0x500920, [], 0⟩,
    ⟨.LOG_OP_TRACE_DROPS, .operator, 0x40828, [], 0⟩,
    ⟨.SCHED_LOG_TRACE_DROPS, .tenant, 0x500928, [], 0⟩,
    ⟨.LOG_OP_REC_STATUS, .operator, 0x40830, [], 0⟩,
    ⟨.LOG_OP_REC, .operator, 0x40840, [(8, 0x4)], 0⟩,
    ⟨.LOG_INCIDENT, .operator, 0x40880, [], 0⟩,
    ⟨.RST_REQ, .operator, 0x50000, [], 0⟩,
    ⟨.RST_STATUS, .operator, 0x50004, [], 0⟩,
    ⟨.RST_CAUSE, .operator, 0x50008, [], 0⟩,
    ⟨.HANG_CFG, .operator, 0x50010, [], 0⟩,
    ⟨.HANG_CTX_CFG, .operator, 0x51000, [(8, 0x400), (64, 0x10)], 0⟩,
    ⟨.HANG_CTX_STATUS, .operator, 0x51004, [(8, 0x400), (64, 0x10)], 0⟩,
    ⟨.HANG_CTX_PROGRESS, .operator, 0x51008, [(8, 0x400), (64, 0x10)], 0⟩,
    ⟨.HANG_PART_HELD, .operator, 0x50100, [(8, 0x10)], 0⟩,
    ⟨.HANG_PART_ENGINE_RESETS, .operator, 0x50108, [(8, 0x10)], 0⟩,
    ⟨.PART_ROLE, .operator, 0x100040, [(8, 0x10000)], 0⟩,
    ⟨.PART_CLOCK_LIMIT, .operator, 0x100044, [(8, 0x10000)], 0⟩,
    ⟨.PART_COMMIT_VETO, .operator, 0x100080, [(8, 0x10000)], 0⟩,
    ⟨.PART_ASSIGN, .operator, 0x100600, [(8, 0x10000)], 0⟩,
    ⟨.PART_CTX_QUEUES, .operator, 0x100100, [(8, 0x10000), (64, 0x10)], 0⟩,
    ⟨.PART_CTX_KNOTS, .operator, 0x100104, [(8, 0x10000), (64, 0x10)], 0⟩,
    ⟨.PART_CTX_GATHER, .operator, 0x100108, [(8, 0x10000), (64, 0x10)], 0⟩,
    ⟨.TBL_SWITCH_PICK, .tenant, 0x500100, [], 0⟩,
    ⟨.TBL_SWITCH_PICK, .operator, 0x100800, [(8, 0x10000)], 8⟩,
    ⟨.TBL_SWITCH_PICK, .operator, 0x200100, [(16, 0x10000)], 16⟩,
    ⟨.TBL_SWITCH_PICK, .operator, 0x440100, [], 32⟩,
    ⟨.TBL_SWITCH_CTRL, .tenant, 0x500108, [], 0⟩,
    ⟨.TBL_SWITCH_CTRL, .operator, 0x100808, [(8, 0x10000)], 8⟩,
    ⟨.TBL_SWITCH_CTRL, .operator, 0x200108, [(16, 0x10000)], 16⟩,
    ⟨.TBL_SWITCH_CTRL, .operator, 0x440108, [], 32⟩,
    ⟨.TBL_SWITCH_STATUS, .tenant, 0x50010C, [], 0⟩ ]
/-- The register map, part 3. -/
def regRows3 : List RegRow :=
  [ ⟨.TBL_SWITCH_STATUS, .operator, 0x10080C, [(8, 0x10000)], 8⟩,
    ⟨.TBL_SWITCH_STATUS, .operator, 0x20010C, [(16, 0x10000)], 16⟩,
    ⟨.TBL_SWITCH_STATUS, .operator, 0x44010C, [], 32⟩,
    ⟨.TBL_SWITCH_GEN, .tenant, 0x500110, [], 0⟩,
    ⟨.TBL_SWITCH_GEN, .operator, 0x100810, [(8, 0x10000)], 8⟩,
    ⟨.TBL_SWITCH_GEN, .operator, 0x200110, [(16, 0x10000)], 16⟩,
    ⟨.TBL_SWITCH_GEN, .operator, 0x440110, [], 32⟩,
    ⟨.TBL_SWITCH_HELD, .tenant, 0x500118, [], 0⟩,
    ⟨.TBL_SWITCH_HELD, .operator, 0x100818, [(8, 0x10000)], 8⟩,
    ⟨.TBL_SWITCH_HELD, .operator, 0x200118, [(16, 0x10000)], 16⟩,
    ⟨.TBL_SWITCH_HELD, .operator, 0x440118, [], 32⟩,
    ⟨.PART_CARD_FIRST, .operator, 0x100820, [(8, 0x10000)], 0⟩,
    ⟨.PART_CARD_COUNT, .operator, 0x100824, [(8, 0x10000)], 0⟩,
    ⟨.PART_CARD_VALUE, .operator, 0x100828, [(8, 0x10000)], 0⟩,
    ⟨.PART_CARD_CMD, .operator, 0x10082C, [(8, 0x10000)], 0⟩,
    ⟨.PART_CARD_PROBE, .operator, 0x100830, [(8, 0x10000)], 0⟩,
    ⟨.PART_CARD_PROBE_CARD, .operator, 0x100834, [(8, 0x10000)], 0⟩,
    ⟨.PART_BEAM_SPLIT, .operator, 0x100B00, [(8, 0x10000)], 0⟩,
    ⟨.PART_SRAM_CE, .operator, 0x100900, [(8, 0x10000)], 0⟩,
    ⟨.PART_SRAM_UE, .operator, 0x100908, [(8, 0x10000)], 0⟩,
    ⟨.PART_CTX_PLACE, .operator, 0x100C00, [(8, 0x10000), (64, 0x10)], 0⟩,
    ⟨.PART_CTX_OBJECTS, .operator, 0x100C04, [(8, 0x10000), (64, 0x10)], 0⟩,
    ⟨.PART_CTX_TABLE, .operator, 0x100C08, [(8, 0x10000), (64, 0x10)], 0⟩,
    ⟨.PART_CTX_ADMIT, .operator, 0x101000, [(8, 0x10000), (64, 0x30)], 0⟩,
    ⟨.PART_CTX_JOB, .operator, 0x101004, [(8, 0x10000), (64, 0x30)], 0⟩,
    ⟨.PART_CTX_ENGINES, .operator, 0x101008, [(8, 0x10000), (64, 0x30)], 0⟩,
    ⟨.PART_CTX_LAYERS, .operator, 0x101010, [(8, 0x10000), (64, 0x30)], 0⟩,
    ⟨.PART_CTX_REGS, .operator, 0x101014, [(8, 0x10000), (64, 0x30)], 0⟩,
    ⟨.PART_CTX_SLOTS, .operator, 0x101018, [(8, 0x10000), (64, 0x30)], 0⟩,
    ⟨.PART_CTX_RESV, .operator, 0x10101C, [(8, 0x10000), (64, 0x30)], 0⟩,
    ⟨.PART_CTX_ACC, .operator, 0x101020, [(8, 0x10000), (64, 0x30)], 0⟩,
    ⟨.PART_CTX_ACC_LEN, .operator, 0x101024, [(8, 0x10000), (64, 0x30)], 0⟩,
    ⟨.PART_CTX_RESV_ADDR, .operator, 0x101028, [(8, 0x10000), (64, 0x30)], 0⟩,
    ⟨.HBM_STACK_STATUS, .operator, 0x200000, [(16, 0x10000)], 0⟩,
    ⟨.HBM_CH_UP, .operator, 0x200004, [(16, 0x10000)], 0⟩,
    ⟨.HBM_SCRUB_CFG, .operator, 0x200010, [(16, 0x10000)], 0⟩,
    ⟨.HBM_SCRUB_POS, .operator, 0x200018, [(16, 0x10000)], 0⟩,
    ⟨.HBM_REPAIR_CFG, .operator, 0x200020, [(16, 0x10000)], 0⟩,
    ⟨.HBM_ERR_LAST, .operator, 0x200080, [(16, 0x10000)], 0⟩,
    ⟨.HBM_ERR_ROW, .operator, 0x200084, [(16, 0x10000)], 0⟩ ]
/-- The register map, part 4. -/
def regRows4 : List RegRow :=
  [ ⟨.HBM_ERR_TIME, .operator, 0x200088, [(16, 0x10000)], 0⟩,
    ⟨.HBM_CE, .operator, 0x200040, [(16, 0x10000)], 0⟩,
    ⟨.HBM_UE, .operator, 0x200048, [(16, 0x10000)], 0⟩,
    ⟨.HBM_POISON_READS, .operator, 0x200050, [(16, 0x10000)], 0⟩,
    ⟨.HBM_SCRUB_PASSES, .operator, 0x200058, [(16, 0x10000)], 0⟩,
    ⟨.HBM_SOFT_REPAIRS, .operator, 0x200060, [(16, 0x10000)], 0⟩,
    ⟨.HBM_HARD_REPAIRS, .operator, 0x200068, [(16, 0x10000)], 0⟩,
    ⟨.HBM_LANE_REPAIRS, .operator, 0x200070, [(16, 0x10000)], 0⟩,
    ⟨.HBM_RETIRED_HITS, .operator, 0x200078, [(16, 0x10000)], 0⟩,
    ⟨.HBM_COUNTER_CLEAR, .operator, 0x2000F0, [(16, 0x10000)], 0⟩,
    ⟨.HBM_CH_STATUS, .operator, 0x200400, [(16, 0x10000), (32, 0x4)], 0⟩,
    ⟨.HBM_REPAIR_A, .operator, 0x200800, [(16, 0x10000), (256, 0x8)], 0⟩,
    ⟨.HBM_REPAIR_B, .operator, 0x200804, [(16, 0x10000), (256, 0x8)], 0⟩,
    ⟨.HBM_REMAP, .operator, 0x201000, [(16, 0x10000), (2048, 0x8)], 0⟩,
    ⟨.HBM_TG_CTRL, .operator, 0x208000, [(16, 0x10000), (32, 0x40)], 0⟩,
    ⟨.HBM_TG_RANGE, .operator, 0x208004, [(16, 0x10000), (32, 0x40)], 0⟩,
    ⟨.HBM_TG_SEED, .operator, 0x208008, [(16, 0x10000), (32, 0x40)], 0⟩,
    ⟨.HBM_TG_STATUS, .operator, 0x208010, [(16, 0x10000), (32, 0x40)], 0⟩,
    ⟨.HBM_TG_FAIL_LO, .operator, 0x208018, [(16, 0x10000), (32, 0x40)], 0⟩,
    ⟨.HBM_TG_FAIL_HI, .operator, 0x208020, [(16, 0x10000), (32, 0x40)], 0⟩,
    ⟨.HBM_TG_ERRORS, .operator, 0x208028, [(16, 0x10000), (32, 0x40)], 0⟩,
    ⟨.HBM_TG_FIRST, .operator, 0x208030, [(16, 0x10000), (32, 0x40)], 0⟩,
    ⟨.BTIER_MAP, .operator, 0x400010, [], 0⟩,
    ⟨.BTIER_MAP_SIZE, .operator, 0x400014, [], 0⟩,
    ⟨.BTIER_CARD_REFUSED, .operator, 0x400018, [], 0⟩,
    ⟨.BTIER_PORT_CTRL, .operator, 0x400100, [(4, 0x40)], 0⟩,
    ⟨.BTIER_PORT_STATUS, .operator, 0x400104, [(4, 0x40)], 0⟩,
    ⟨.BTIER_PORT_CAP, .operator, 0x400108, [(4, 0x40)], 0⟩,
    ⟨.BTIER_PORT_RD_BYTES, .operator, 0x400110, [(4, 0x40)], 0⟩,
    ⟨.BTIER_PORT_WR_BYTES, .operator, 0x400118, [(4, 0x40)], 0⟩,
    ⟨.BTIER_PORT_UE, .operator, 0x400120, [(4, 0x40)], 0⟩,
    ⟨.BTIER_PORT_RETRAINS, .operator, 0x400128, [(4, 0x40)], 0⟩,
    ⟨.BTIER_CARD, .operator, 0x410000, [(4096, 0x4)], 0⟩,
    ⟨.WEFT_TC_WEIGHT, .operator, 0x440000, [], 0⟩,
    ⟨.WEFT_PORT_STATUS, .operator, 0x441000, [(16, 0x100)], 0⟩,
    ⟨.WEFT_PORT_TIME, .operator, 0x441004, [(16, 0x100)], 0⟩,
    ⟨.WEFT_PORT_CTRL, .operator, 0x441008, [(16, 0x100)], 0⟩,
    ⟨.WEFT_PORT_REPLAYS, .operator, 0x441010, [(16, 0x100)], 0⟩,
    ⟨.WEFT_PORT_RETRAINS, .operator, 0x441018, [(16, 0x100)], 0⟩,
    ⟨.WEFT_PORT_FEC_UNCORR, .operator, 0x441020, [(16, 0x100)], 0⟩ ]
/-- The register map, part 5. -/
def regRows5 : List RegRow :=
  [ ⟨.WEFT_PORT_AUTH_FAIL, .operator, 0x441028, [(16, 0x100)], 0⟩,
    ⟨.SELV_PAIR_CTRL, .operator, 0x480000, [], 0⟩,
    ⟨.SELV_RISK, .operator, 0x480010, [], 0⟩,
    ⟨.SELV_RISK_W, .operator, 0x480014, [], 0⟩,
    ⟨.SELV_RISK_CFG, .operator, 0x480018, [], 0⟩,
    ⟨.SELV_FLUSH_CFG, .operator, 0x48001C, [], 0⟩,
    ⟨.SELV_LOSSES, .operator, 0x480100, [], 0⟩,
    ⟨.SELV_FORCED_FLUSHES, .operator, 0x480108, [], 0⟩,
    ⟨.SELV_TX_BYTES, .operator, 0x480110, [], 0⟩,
    ⟨.SELV_RX_BYTES, .operator, 0x480118, [], 0⟩,
    ⟨.SEC_LIFECYCLE, .operator, 0x500000, [], 0⟩,
    ⟨.SEC_DEBUG, .operator, 0x500010, [], 0⟩,
    ⟨.SEC_ZERO_ALL, .operator, 0x500014, [], 0⟩,
    ⟨.SEC_SESSION_REFUSED, .operator, 0x500200, [], 0⟩,
    ⟨.SEC_IDE_REFUSED, .operator, 0x500208, [], 0⟩,
    ⟨.SEC_DEBUG_NONCE, .operator, 0x500020, [(8, 0x4)], 0⟩,
    ⟨.SEC_DEBUG_TOKEN, .operator, 0x500100, [(33, 0x4)], 0⟩,
    ⟨.SEC_JOB, .operator, 0x501000, [(512, 0x8)], 0⟩,
    ⟨.Q_TAIL, .tenant, 0x0, [(8192, 0x10)], 0⟩,
    ⟨.Q_CPL_ACK, .tenant, 0x4, [(8192, 0x10)], 0⟩,
    ⟨.Q_FETCHED, .tenant, 0x8, [(8192, 0x10)], 0⟩,
    ⟨.Q_STATUS, .tenant, 0xC, [(8192, 0x10)], 0⟩,
    ⟨.Q_CFG_CTRL, .tenant, 0x40000, [(8192, 0x20)], 0⟩,
    ⟨.Q_CFG_RING, .tenant, 0x40008, [(8192, 0x20)], 0⟩,
    ⟨.Q_CFG_CPL, .tenant, 0x40010, [(8192, 0x20)], 0⟩,
    ⟨.Q_VF_CMDS, .tenant, 0x80000, [(17, 0x10)], 0⟩,
    ⟨.Q_VF_FAULTS, .tenant, 0x80008, [(17, 0x10)], 0⟩,
    ⟨.Q_HOST_LEVEL, .tenant, 0xA0000, [(17, 0x10)], 0⟩,
    ⟨.KNOT_COUNT, .tenant, 0x100000, [(2048, 0x10)], 0⟩,
    ⟨.KNOT_ADD, .tenant, 0x100004, [(2048, 0x10)], 0⟩,
    ⟨.KNOT_CFG, .tenant, 0x100008, [(2048, 0x10)], 0⟩,
    ⟨.KNOT_IRQ_AT, .tenant, 0x10000C, [(2048, 0x10)], 0⟩,
    ⟨.CNV_KAPPA, .tenant, 0x200000, [], 0⟩,
    ⟨.CNV_OVF_LIMIT, .tenant, 0x200004, [], 0⟩,
    ⟨.CNV_LAST_FAULT, .tenant, 0x200008, [], 0⟩,
    ⟨.CNV_COUNTER_CLEAR, .tenant, 0x200040, [], 0⟩,
    ⟨.CNV_TILES_PACKED, .tenant, 0x200100, [], 0⟩,
    ⟨.CNV_TILES_UNPACKED, .tenant, 0x200108, [], 0⟩,
    ⟨.CNV_OUTLIERS, .tenant, 0x200110, [], 0⟩,
    ⟨.CNV_OUTLIER_OVF, .tenant, 0x200118, [], 0⟩ ]
/-- The register map, part 6. -/
def regRows6 : List RegRow :=
  [ ⟨.CNV_OVF_TILES, .tenant, 0x200120, [], 0⟩,
    ⟨.CNV_SATURATE, .tenant, 0x200128, [], 0⟩,
    ⟨.CNV_NONFINITE, .tenant, 0x200130, [], 0⟩,
    ⟨.CNV_ZERO_BLOCKS, .tenant, 0x200138, [], 0⟩,
    ⟨.CNV_FLUSH, .tenant, 0x200140, [], 0⟩,
    ⟨.CNV_ILLEGAL, .tenant, 0x200148, [], 0⟩,
    ⟨.CNV_BUSY_CYCLES, .tenant, 0x200150, [], 0⟩,
    ⟨.TEN_FWD_NONFINITE, .tenant, 0x201100, [], 0⟩,
    ⟨.TEN_FWD_JUMPS, .tenant, 0x201108, [], 0⟩,
    ⟨.TEN_FWD_WIDEN, .tenant, 0x201110, [], 0⟩,
    ⟨.TEN_FWD_VETOES, .tenant, 0x201118, [], 0⟩,
    ⟨.TEN_FWD_LOCK_BREAKS, .tenant, 0x201120, [], 0⟩,
    ⟨.TEN_FWD_WIDE_BYPASS, .tenant, 0x201128, [], 0⟩,
    ⟨.TEN_BWD_NONFINITE, .tenant, 0x201140, [], 0⟩,
    ⟨.TEN_BWD_JUMPS, .tenant, 0x201148, [], 0⟩,
    ⟨.TEN_BWD_VETOES, .tenant, 0x201150, [], 0⟩,
    ⟨.TEN_BWD_WGRAD_SKIPPED, .tenant, 0x201158, [], 0⟩,
    ⟨.TEN_A24_OVF, .tenant, 0x201160, [], 0⟩,
    ⟨.TEN_MX_RANGE, .tenant, 0x201168, [], 0⟩,
    ⟨.TEN_BWD_RT_ILLEGAL, .tenant, 0x201170, [], 0⟩,
    ⟨.TEN_FWD_COUNTER_CLEAR, .tenant, 0x201180, [], 0⟩,
    ⟨.TEN_BWD_COUNTER_CLEAR, .tenant, 0x201184, [], 0⟩,
    ⟨.TEN_CTX_LOCK, .tenant, 0x201200, [(64, 0x10)], 0⟩,
    ⟨.TEN_CTX_LAYERS, .tenant, 0x201204, [(64, 0x10)], 0⟩,
    ⟨.TEN_CTX_RESV_SIZE, .tenant, 0x201208, [(64, 0x10)], 0⟩,
    ⟨.TEN_CTX_RESV_USED, .tenant, 0x20120C, [(64, 0x10)], 0⟩,
    ⟨.TEN_LAYER_CFG, .tenant, 0x210000, [(4096, 0x20)], 0⟩,
    ⟨.TEN_LAYER_STATE, .tenant, 0x210004, [(4096, 0x20)], 0⟩,
    ⟨.TEN_LAYER_FNORM, .tenant, 0x210008, [(4096, 0x20)], 0⟩,
    ⟨.TEN_LAYER_FREF, .tenant, 0x21000C, [(4096, 0x20)], 0⟩,
    ⟨.TEN_LAYER_GCFG, .tenant, 0x210010, [(4096, 0x20)], 0⟩,
    ⟨.TEN_LAYER_GSTATE, .tenant, 0x210014, [(4096, 0x20)], 0⟩,
    ⟨.TEN_LAYER_GNORM, .tenant, 0x210018, [(4096, 0x20)], 0⟩,
    ⟨.TEN_LAYER_GREF, .tenant, 0x21001C, [(4096, 0x20)], 0⟩,
    ⟨.BAT_STEP_CMD, .tenant, 0x300000, [(64, 0x40)], 0⟩,
    ⟨.BAT_STEP_STATUS, .tenant, 0x300004, [(64, 0x40)], 0⟩,
    ⟨.BAT_STEP_NUM, .tenant, 0x300008, [(64, 0x40)], 0⟩,
    ⟨.BAT_HANDOVER, .tenant, 0x30000C, [(64, 0x40)], 0⟩,
    ⟨.BAT_COMMIT_COUNT, .tenant, 0x300010, [(64, 0x40)], 0⟩,
    ⟨.BAT_CURSOR_COMMITTED, .tenant, 0x300018, [(64, 0x40)], 0⟩ ]
/-- The register map, part 7. -/
def regRows7 : List RegRow :=
  [ ⟨.BAT_CURSOR_PROV, .tenant, 0x300020, [(64, 0x40)], 0⟩,
    ⟨.BAT_COMMIT_HOME, .tenant, 0x300028, [(64, 0x40)], 0⟩,
    ⟨.BAT_COMMIT_CFG, .tenant, 0x30002C, [(64, 0x40)], 0⟩,
    ⟨.BAT_SNAP_HOLD, .tenant, 0x300030, [(64, 0x40)], 0⟩,
    ⟨.BAT_SNAP_COMMIT, .tenant, 0x300038, [(64, 0x40)], 0⟩,
    ⟨.BAT_REG_CMD, .tenant, 0x301000, [], 0⟩,
    ⟨.BAT_REG_ERR, .tenant, 0x301004, [], 0⟩,
    ⟨.BAT_ELEMENTS_UPDATED, .tenant, 0x301100, [], 0⟩,
    ⟨.BAT_COMMITS, .tenant, 0x301108, [], 0⟩,
    ⟨.BAT_VETOES, .tenant, 0x301110, [], 0⟩,
    ⟨.BAT_ABORTS, .tenant, 0x301118, [], 0⟩,
    ⟨.BAT_CLIPPED, .tenant, 0x301120, [], 0⟩,
    ⟨.BAT_NONFINITE, .tenant, 0x301128, [], 0⟩,
    ⟨.BAT_SCALE_MOVES, .tenant, 0x301130, [], 0⟩,
    ⟨.BAT_VETO_LATE, .tenant, 0x301138, [], 0⟩,
    ⟨.BAT_FLIP_LATE, .tenant, 0x301140, [], 0⟩,
    ⟨.BAT_HANDOVER_WAITS, .tenant, 0x301148, [], 0⟩,
    ⟨.BAT_COUNTER_CLEAR, .tenant, 0x301180, [], 0⟩,
    ⟨.BAT_SEQ, .tenant, 0x302000, [(1024, 0x4)], 0⟩,
    ⟨.BAT_NOISE_CONTRIB, .tenant, 0x308000, [(256, 0x10)], 0⟩,
    ⟨.BAT_NOISE_REDUCED, .tenant, 0x308004, [(256, 0x10)], 0⟩,
    ⟨.BAT_NOISE_BLOCKS, .tenant, 0x308008, [(256, 0x10)], 0⟩,
    ⟨.BAT_PSET_SCHED, .tenant, 0x310000, [(64, 0x400), (16, 0x40)], 0⟩,
    ⟨.BAT_PSET_BETA1, .tenant, 0x310004, [(64, 0x400), (16, 0x40)], 0⟩,
    ⟨.BAT_PSET_BETA2, .tenant, 0x310008, [(64, 0x400), (16, 0x40)], 0⟩,
    ⟨.BAT_PSET_EPS, .tenant, 0x31000C, [(64, 0x400), (16, 0x40)], 0⟩,
    ⟨.BAT_PSET_DECAY, .tenant, 0x310010, [(64, 0x400), (16, 0x40)], 0⟩,
    ⟨.BAT_PSET_BIAS1, .tenant, 0x310014, [(64, 0x400), (16, 0x40)], 0⟩,
    ⟨.BAT_PSET_BIAS2, .tenant, 0x310018, [(64, 0x400), (16, 0x40)], 0⟩,
    ⟨.BAT_PSET_CLIP_NORM, .tenant, 0x31001C, [(64, 0x400), (16, 0x40)], 0⟩,
    ⟨.BAT_PSET_SCALE_LR, .tenant, 0x310020, [(64, 0x400), (16, 0x40)], 0⟩,
    ⟨.BAT_PSET_W9, .tenant, 0x310024, [(64, 0x400), (16, 0x40)], 0⟩,
    ⟨.BAT_PSET_W10, .tenant, 0x310028, [(64, 0x400), (16, 0x40)], 0⟩,
    ⟨.BAT_PSET_W11, .tenant, 0x31002C, [(64, 0x400), (16, 0x40)], 0⟩,
    ⟨.BAT_PSET_W12, .tenant, 0x310030, [(64, 0x400), (16, 0x40)], 0⟩,
    ⟨.BAT_PSET_W13, .tenant, 0x310034, [(64, 0x400), (16, 0x40)], 0⟩,
    ⟨.BAT_PSET_W14, .tenant, 0x310038, [(64, 0x400), (16, 0x40)], 0⟩,
    ⟨.BAT_PSET_W15, .tenant, 0x31003C, [(64, 0x400), (16, 0x40)], 0⟩,
    ⟨.BAT_REG_CTRL, .tenant, 0x320000, [(4096, 0x40)], 0⟩,
    ⟨.BAT_REG_ID, .tenant, 0x320004, [(4096, 0x40)], 0⟩ ]
/-- The register map, part 8. -/
def regRows8 : List RegRow :=
  [ ⟨.BAT_REG_BASE, .tenant, 0x320008, [(4096, 0x40)], 0⟩,
    ⟨.BAT_REG_LEN, .tenant, 0x32000C, [(4096, 0x40)], 0⟩,
    ⟨.BAT_REG_AREA, .tenant, 0x320010, [(4096, 0x40)], 0⟩,
    ⟨.BAT_REG_STRIDE, .tenant, 0x320018, [(4096, 0x40)], 0⟩,
    ⟨.BAT_REG_LR, .tenant, 0x32001C, [(4096, 0x40)], 0⟩,
    ⟨.BAT_REG_CLIP, .tenant, 0x320020, [(4096, 0x40)], 0⟩,
    ⟨.BAT_REG_SLOTS, .tenant, 0x320024, [(4096, 0x40)], 0⟩,
    ⟨.BAT_REG_GRAD, .tenant, 0x320028, [(4096, 0x40)], 0⟩,
    ⟨.RED_POLICY, .tenant, 0x400000, [(64, 0x4)], 0⟩,
    ⟨.RED_RX_PACKETS, .tenant, 0x400100, [], 0⟩,
    ⟨.RED_RX_BLOCKS, .tenant, 0x400108, [], 0⟩,
    ⟨.RED_CHECK_FAIL, .tenant, 0x400110, [], 0⟩,
    ⟨.RED_SUM_FAIL, .tenant, 0x400118, [], 0⟩,
    ⟨.RED_HELD, .tenant, 0x400120, [], 0⟩,
    ⟨.RED_BOUNCE_EPOCH, .tenant, 0x400128, [], 0⟩,
    ⟨.RED_LATE, .tenant, 0x400130, [], 0⟩,
    ⟨.RED_DISCARD, .tenant, 0x400138, [], 0⟩,
    ⟨.RED_POISON_CODES, .tenant, 0x400140, [], 0⟩,
    ⟨.RED_DROPS, .tenant, 0x400148, [], 0⟩,
    ⟨.RED_SEND_SATURATED, .tenant, 0x400150, [], 0⟩,
    ⟨.RED_MAX127, .tenant, 0x400158, [], 0⟩,
    ⟨.RED_GATHER_BYTES, .tenant, 0x400160, [], 0⟩,
    ⟨.RED_COUNTER_CLEAR, .tenant, 0x400180, [], 0⟩,
    ⟨.RED_FAULT_SRC, .tenant, 0x400200, [], 0⟩,
    ⟨.RED_FAULT_ID, .tenant, 0x400204, [], 0⟩,
    ⟨.RED_FAULT_BLOCK, .tenant, 0x400208, [], 0⟩,
    ⟨.RED_FAULT_STEP, .tenant, 0x40020C, [], 0⟩,
    ⟨.RED_PEER_TABLE, .tenant, 0x400400, [(64, 0x20)], 0⟩,
    ⟨.RED_PEER_LIST, .tenant, 0x400408, [(64, 0x20)], 0⟩,
    ⟨.RED_PLANE, .tenant, 0x400410, [(64, 0x20)], 0⟩,
    ⟨.RED_PLANE_CFG, .tenant, 0x400418, [(64, 0x20)], 0⟩,
    ⟨.RED_SLOT_CTRL, .device, 0x410000, [(4096, 0x20)], 0⟩,
    ⟨.RED_SLOT_ID, .device, 0x410004, [(4096, 0x20)], 0⟩,
    ⟨.RED_SLOT_STEP, .device, 0x410008, [(4096, 0x20)], 0⟩,
    ⟨.RED_SLOT_BASE, .device, 0x41000C, [(4096, 0x20)], 0⟩,
    ⟨.RED_SLOT_LEN, .device, 0x410010, [(4096, 0x20)], 0⟩,
    ⟨.RED_SLOT_CONTRIB, .device, 0x410014, [(4096, 0x20)], 0⟩,
    ⟨.RED_SLOT_ACC, .device, 0x410018, [(4096, 0x20)], 0⟩,
    ⟨.RED_SLOT_WINDOW, .device, 0x41001C, [(4096, 0x20)], 0⟩,
    ⟨.SNAP_CTX_CFG, .tenant, 0x480000, [(64, 0x80)], 0⟩ ]
/-- The register map, part 9. -/
def regRows9 : List RegRow :=
  [ ⟨.SNAP_CTX_CMD, .tenant, 0x480004, [(64, 0x80)], 0⟩,
    ⟨.SNAP_CTX_STATUS, .tenant, 0x480008, [(64, 0x80)], 0⟩,
    ⟨.SNAP_TX_POINT, .tenant, 0x480010, [(64, 0x80)], 0⟩,
    ⟨.SNAP_RX_POINT, .tenant, 0x480018, [(64, 0x80)], 0⟩,
    ⟨.SNAP_RX_BASE, .tenant, 0x480020, [(64, 0x80)], 0⟩,
    ⟨.SNAP_RX_SLOT, .tenant, 0x480028, [(64, 0x80)], 0⟩,
    ⟨.SNAP_DELTA_SIZE, .tenant, 0x48002C, [(64, 0x80)], 0⟩,
    ⟨.SNAP_DELTA_BASE, .tenant, 0x480030, [(64, 0x80)], 0⟩,
    ⟨.SNAP_BOARD_BASE, .tenant, 0x480038, [(64, 0x80)], 0⟩,
    ⟨.SNAP_PREV_CURSOR, .tenant, 0x480040, [(64, 0x80)], 0⟩,
    ⟨.SNAP_RST_ADDR, .tenant, 0x480048, [(64, 0x80)], 0⟩,
    ⟨.SNAP_RST_COUNT, .tenant, 0x480050, [(64, 0x80)], 0⟩,
    ⟨.SNAP_AUTO, .tenant, 0x480058, [(64, 0x80)], 0⟩,
    ⟨.SNAP_MIR_WAITS, .tenant, 0x480060, [(64, 0x80)], 0⟩,
    ⟨.SNAP_FOLDS, .tenant, 0x480068, [(64, 0x80)], 0⟩,
    ⟨.SNAP_UNRECORDED, .tenant, 0x480070, [(64, 0x80)], 0⟩,
    ⟨.SNAP_RX_SIDE, .tenant, 0x480078, [(64, 0x80)], 0⟩,
    ⟨.SNAP_STREAM_ID, .tenant, 0x482000, [(64, 0x100), (16, 0x10)], 0⟩,
    ⟨.SNAP_STREAM_DRAWS, .tenant, 0x482004, [(64, 0x100), (16, 0x10)], 0⟩,
    ⟨.SNAP_STREAM_POS, .tenant, 0x482008, [(64, 0x100), (16, 0x10)], 0⟩,
    ⟨.SNAP_ENTRY, .tenant, 0x490000, [(4096, 0x8)], 0⟩,
    ⟨.SNAP_EXP_CMD, .tenant, 0x4A0000, [(64, 0x20)], 0⟩,
    ⟨.SNAP_EXP_DEST, .tenant, 0x4A0008, [(64, 0x20)], 0⟩,
    ⟨.SNAP_EXP_LIMIT, .tenant, 0x4A0010, [(64, 0x20)], 0⟩,
    ⟨.SNAP_EXP_TARGET, .tenant, 0x4A0018, [(64, 0x20)], 0⟩,
    ⟨.SCHED_PICK_NOW, .tenant, 0x500000, [], 0⟩,
    ⟨.SCHED_PICK_CFG, .tenant, 0x500008, [], 0⟩,
    ⟨.SCHED_CTX_SEND_DL, .tenant, 0x500400, [(64, 0x10)], 0⟩,
    ⟨.SCHED_CTX_SEND_POL, .tenant, 0x500408, [(64, 0x10)], 0⟩,
    ⟨.SCHED_WIN_CLOSE, .tenant, 0x510000, [(4096, 0x20)], 0⟩,
    ⟨.SCHED_WIN_STATUS, .tenant, 0x510008, [(4096, 0x20)], 0⟩,
    ⟨.SCHED_WIN_LATE, .tenant, 0x510010, [(4096, 0x20)], 0⟩,
    ⟨.OWN_ID, .tenant, 0x540000, [(2, 0x20000), (8192, 0x10)], 0⟩,
    ⟨.OWN_FIRST, .tenant, 0x540004, [(2, 0x20000), (8192, 0x10)], 0⟩,
    ⟨.OWN_COUNT, .tenant, 0x540008, [(2, 0x20000), (8192, 0x10)], 0⟩,
    ⟨.OWN_CTRL, .tenant, 0x54000C, [(2, 0x20000), (8192, 0x10)], 0⟩ ]
/-- The register map: where every register lies. -/
def regRows : List RegRow :=
  regRows1 ++ regRows2 ++ regRows3 ++ regRows4 ++ regRows5 ++ regRows6 ++ regRows7 ++ regRows8 ++ regRows9

/-- A field of a register: its lowest bit and its length. -/
structure Field where
  reg : RegName
  lo : Nat
  len : Nat
  deriving DecidableEq, Repr

/-! ### The fields, named as the spec names them: REGISTER.FIELD -/

abbrev DEV_IF_LEVEL.ISA_LEVEL : Field := ⟨.DEV_IF_LEVEL, 0, 4⟩
abbrev DEV_IF_LEVEL.WEFT_LEVEL : Field := ⟨.DEV_IF_LEVEL, 4, 4⟩
abbrev DEV_IF_LEVEL.SELV_LEVEL : Field := ⟨.DEV_IF_LEVEL, 8, 4⟩
abbrev DEV_IF_LEVEL.SNAP_VERSION : Field := ⟨.DEV_IF_LEVEL, 12, 4⟩
abbrev DEV_IF_LEVEL.QABI_LEVEL : Field := ⟨.DEV_IF_LEVEL, 16, 4⟩
abbrev DEV_IF_LEVEL.TABNEX_VERSION : Field := ⟨.DEV_IF_LEVEL, 20, 4⟩
abbrev DEV_PROFILE.MODE : Field := ⟨.DEV_PROFILE, 0, 3⟩
abbrev DEV_PROFILE_STATUS.CURRENT : Field := ⟨.DEV_PROFILE_STATUS, 0, 3⟩
abbrev DEV_PROFILE_STATUS.PENDING : Field := ⟨.DEV_PROFILE_STATUS, 3, 1⟩
abbrev DEV_PROFILE_STATUS.RESULT : Field := ⟨.DEV_PROFILE_STATUS, 4, 3⟩
abbrev DEV_PROFILE_STATUS.FORCED_EVEN : Field := ⟨.DEV_PROFILE_STATUS, 7, 1⟩
abbrev DEV_PROFILE_STATUS.FORCE_CAUSE : Field := ⟨.DEV_PROFILE_STATUS, 8, 2⟩
abbrev DEV_CREEL_SRAM_CE.COUNT : Field := ⟨.DEV_CREEL_SRAM_CE, 0, 64⟩
abbrev DEV_CREEL_SRAM_UE.COUNT : Field := ⟨.DEV_CREEL_SRAM_UE, 0, 64⟩
abbrev PWR_TARGET.STATE : Field := ⟨.PWR_TARGET, 0, 3⟩
abbrev PWR_TARGET.HOLD_LOG2 : Field := ⟨.PWR_TARGET, 4, 5⟩
abbrev PWR_TARGET.RESULT : Field := ⟨.PWR_TARGET, 12, 3⟩
abbrev PWR_STATE.CURRENT : Field := ⟨.PWR_STATE, 0, 3⟩
abbrev PWR_STATE.ENTERING : Field := ⟨.PWR_STATE, 3, 1⟩
abbrev PWR_STATE.HELD : Field := ⟨.PWR_STATE, 4, 4⟩
abbrev PWR_VOTE_HOST.CLK : Field := ⟨.PWR_VOTE_HOST, 0, 1⟩
abbrev PWR_VOTE_HOST.CORE : Field := ⟨.PWR_VOTE_HOST, 1, 1⟩
abbrev PWR_VOTE_HOST.HBM : Field := ⟨.PWR_VOTE_HOST, 2, 1⟩
abbrev PWR_VOTE_HOST.LINK : Field := ⟨.PWR_VOTE_HOST, 3, 1⟩
abbrev PWR_VOTE_MGMT.VOTES : Field := ⟨.PWR_VOTE_MGMT, 0, 4⟩
abbrev PWR_LAST_EVENT.KIND : Field := ⟨.PWR_LAST_EVENT, 0, 3⟩
abbrev PWR_LAST_EVENT.ABORT : Field := ⟨.PWR_LAST_EVENT, 3, 1⟩
abbrev PWR_LAST_EVENT.PART : Field := ⟨.PWR_LAST_EVENT, 4, 3⟩
abbrev PWR_LAST_EVENT.CTX : Field := ⟨.PWR_LAST_EVENT, 8, 6⟩
abbrev PWR_LAST_EVENT.DOMAIN : Field := ⟨.PWR_LAST_EVENT, 16, 2⟩
abbrev PWR_REFUSED_K.COUNT : Field := ⟨.PWR_REFUSED_K, 0, 64⟩
abbrev PWR_ABORTED_K.COUNT : Field := ⟨.PWR_ABORTED_K, 0, 64⟩
abbrev PWR_RESIDENCY_S.COUNT : Field := ⟨.PWR_RESIDENCY_S, 0, 64⟩
abbrev PWR_ENERGY.COUNT : Field := ⟨.PWR_ENERGY, 0, 64⟩
abbrev PWR_RAIL_I.MV : Field := ⟨.PWR_RAIL_I, 0, 16⟩
abbrev PWR_RAIL_I.EXCURSION : Field := ⟨.PWR_RAIL_I, 16, 1⟩
abbrev PWR_RAIL_COUNT.COUNT : Field := ⟨.PWR_RAIL_COUNT, 0, 32⟩
abbrev PWR_DIP_LAST.RAIL : Field := ⟨.PWR_DIP_LAST, 0, 4⟩
abbrev PWR_DIP_LAST.VALID : Field := ⟨.PWR_DIP_LAST, 4, 1⟩
abbrev PWR_DIP_LAST.MIN_MV : Field := ⟨.PWR_DIP_LAST, 16, 16⟩
abbrev PWR_DIP_DURATION.US : Field := ⟨.PWR_DIP_DURATION, 0, 32⟩
abbrev PWR_DIP_TIME.VALUE : Field := ⟨.PWR_DIP_TIME, 0, 64⟩
abbrev BOOT_STATUS.STAGE : Field := ⟨.BOOT_STATUS, 0, 4⟩
abbrev BOOT_STATUS.IMAGE : Field := ⟨.BOOT_STATUS, 4, 1⟩
abbrev BOOT_STATUS.FALLBACK : Field := ⟨.BOOT_STATUS, 5, 1⟩
abbrev BOOT_STATUS.OTP_GEN : Field := ⟨.BOOT_STATUS, 6, 3⟩
abbrev BOOT_STATUS.OTP_SKIPPED : Field := ⟨.BOOT_STATUS, 9, 1⟩
abbrev BOOT_STATUS.TABBY : Field := ⟨.BOOT_STATUS, 10, 1⟩
abbrev BOOT_STATUS.ATTEMPTS : Field := ⟨.BOOT_STATUS, 12, 4⟩
abbrev BOOT_FAIL_CAUSE.CAUSE : Field := ⟨.BOOT_FAIL_CAUSE, 0, 8⟩
abbrev BOOT_CTRL.PREF : Field := ⟨.BOOT_CTRL, 0, 2⟩
abbrev BOOT_CTRL.RETRY : Field := ⟨.BOOT_CTRL, 4, 1⟩
abbrev BOOT_CTRL.RESULT : Field := ⟨.BOOT_CTRL, 8, 4⟩
abbrev BOOT_FLASH_ADDR.ADDR : Field := ⟨.BOOT_FLASH_ADDR, 0, 28⟩
abbrev BOOT_FLASH_ADDR.SEL : Field := ⟨.BOOT_FLASH_ADDR, 28, 1⟩
abbrev BOOT_FLASH_CMD.CMD : Field := ⟨.BOOT_FLASH_CMD, 0, 2⟩
abbrev BOOT_FLASH_CMD.BUSY : Field := ⟨.BOOT_FLASH_CMD, 4, 1⟩
abbrev BOOT_FLASH_CMD.RESULT : Field := ⟨.BOOT_FLASH_CMD, 8, 4⟩
abbrev OTP_GEN_STATUS.G1 : Field := ⟨.OTP_GEN_STATUS, 0, 2⟩
abbrev OTP_GEN_STATUS.G2 : Field := ⟨.OTP_GEN_STATUS, 2, 2⟩
abbrev OTP_GEN_STATUS.G3 : Field := ⟨.OTP_GEN_STATUS, 4, 2⟩
abbrev OTP_GEN_STATUS.G4 : Field := ⟨.OTP_GEN_STATUS, 6, 2⟩
abbrev OTP_GEN_STATUS.IN_FORCE : Field := ⟨.OTP_GEN_STATUS, 8, 3⟩
abbrev OTP_CMD.PROGRAM : Field := ⟨.OTP_CMD, 0, 1⟩
abbrev OTP_CMD.BUSY : Field := ⟨.OTP_CMD, 4, 1⟩
abbrev OTP_CMD.RESULT : Field := ⟨.OTP_CMD, 8, 4⟩
abbrev BOOT_FLASH_DATA.WORD : Field := ⟨.BOOT_FLASH_DATA, 0, 32⟩
abbrev OTP_STAGE.WORD : Field := ⟨.OTP_STAGE, 0, 32⟩
abbrev OTP_GEN_DATA.WORD : Field := ⟨.OTP_GEN_DATA, 0, 32⟩
abbrev TIME_CFG.ROOT : Field := ⟨.TIME_CFG, 0, 1⟩
abbrev TIME_CFG.PICK_LOG2 : Field := ⟨.TIME_CFG, 8, 5⟩
abbrev TIME_CFG.DOMAIN : Field := ⟨.TIME_CFG, 16, 8⟩
abbrev TIME_STATUS.PTP_LOCK : Field := ⟨.TIME_STATUS, 0, 1⟩
abbrev TIME_STATUS.FABRIC_LOCK : Field := ⟨.TIME_STATUS, 1, 1⟩
abbrev TIME_STATUS.HOLDOVER : Field := ⟨.TIME_STATUS, 2, 1⟩
abbrev TIME_STATUS.ROOT_CONFLICT : Field := ⟨.TIME_STATUS, 3, 1⟩
abbrev TIME_STATUS.HOPS : Field := ⟨.TIME_STATUS, 4, 3⟩
abbrev TIME_STATUS.UPSTREAM : Field := ⟨.TIME_STATUS, 8, 4⟩
abbrev TIME_FABRIC.VALUE : Field := ⟨.TIME_FABRIC, 0, 64⟩
abbrev TIME_PICK.VALUE : Field := ⟨.TIME_PICK, 0, 64⟩
abbrev TIME_EPOCH.SECONDS : Field := ⟨.TIME_EPOCH, 0, 64⟩
abbrev TIME_LOCK_LOSS.COUNT : Field := ⟨.TIME_LOCK_LOSS, 0, 64⟩
abbrev ALM_SUMMARY.MASK : Field := ⟨.ALM_SUMMARY, 0, 64⟩
abbrev ALM_COUNT.COUNT : Field := ⟨.ALM_COUNT, 0, 64⟩
abbrev ALM_FIRST.TIME : Field := ⟨.ALM_FIRST, 0, 64⟩
abbrev ALM_LAST.TIME : Field := ⟨.ALM_LAST, 0, 64⟩
abbrev ALM_CTRL.CLEAR : Field := ⟨.ALM_CTRL, 0, 1⟩
abbrev ALM_CTRL.HELD : Field := ⟨.ALM_CTRL, 1, 1⟩
abbrev LOG_OP_BASE.ADDR : Field := ⟨.LOG_OP_BASE, 0, 64⟩
abbrev SCHED_LOG_BASE.ADDR : Field := ⟨.SCHED_LOG_BASE, 0, 64⟩
abbrev LOG_OP_CFG.ENABLE : Field := ⟨.LOG_OP_CFG, 0, 1⟩
abbrev LOG_OP_CFG.SIZE_LOG2 : Field := ⟨.LOG_OP_CFG, 8, 5⟩
abbrev LOG_OP_CFG.TRACE_MASK : Field := ⟨.LOG_OP_CFG, 16, 8⟩
abbrev LOG_OP_CFG.TRACE_LOG2 : Field := ⟨.LOG_OP_CFG, 24, 5⟩
abbrev SCHED_LOG_CFG.ENABLE : Field := ⟨.SCHED_LOG_CFG, 0, 1⟩
abbrev SCHED_LOG_CFG.SIZE_LOG2 : Field := ⟨.SCHED_LOG_CFG, 8, 5⟩
abbrev SCHED_LOG_CFG.TRACE_MASK : Field := ⟨.SCHED_LOG_CFG, 16, 8⟩
abbrev SCHED_LOG_CFG.TRACE_LOG2 : Field := ⟨.SCHED_LOG_CFG, 24, 5⟩
abbrev LOG_OP_WR.COUNT : Field := ⟨.LOG_OP_WR, 0, 64⟩
abbrev SCHED_LOG_WR.COUNT : Field := ⟨.SCHED_LOG_WR, 0, 64⟩
abbrev LOG_OP_RD.COUNT : Field := ⟨.LOG_OP_RD, 0, 64⟩
abbrev SCHED_LOG_RD.COUNT : Field := ⟨.SCHED_LOG_RD, 0, 64⟩
abbrev LOG_OP_LOSS.COUNT : Field := ⟨.LOG_OP_LOSS, 0, 64⟩
abbrev SCHED_LOG_LOSS.COUNT : Field := ⟨.SCHED_LOG_LOSS, 0, 64⟩
abbrev LOG_OP_TRACE_DROPS.COUNT : Field := ⟨.LOG_OP_TRACE_DROPS, 0, 64⟩
abbrev SCHED_LOG_TRACE_DROPS.COUNT : Field := ⟨.SCHED_LOG_TRACE_DROPS, 0, 64⟩
abbrev LOG_OP_REC_STATUS.VALID : Field := ⟨.LOG_OP_REC_STATUS, 0, 1⟩
abbrev LOG_OP_REC.WORD : Field := ⟨.LOG_OP_REC, 0, 32⟩
abbrev LOG_INCIDENT.RATE : Field := ⟨.LOG_INCIDENT, 0, 16⟩
abbrev LOG_INCIDENT.ACTIVE : Field := ⟨.LOG_INCIDENT, 16, 1⟩
abbrev RST_REQ.LEVEL : Field := ⟨.RST_REQ, 0, 3⟩
abbrev RST_REQ.PART : Field := ⟨.RST_REQ, 4, 3⟩
abbrev RST_REQ.ENGINE : Field := ⟨.RST_REQ, 8, 6⟩
abbrev RST_REQ.CTX : Field := ⟨.RST_REQ, 16, 6⟩
abbrev RST_STATUS.RESULT : Field := ⟨.RST_STATUS, 0, 4⟩
abbrev RST_STATUS.BUSY : Field := ⟨.RST_STATUS, 4, 1⟩
abbrev RST_CAUSE.LAST : Field := ⟨.RST_CAUSE, 0, 3⟩
abbrev RST_CAUSE.MGMT_RESTARTS : Field := ⟨.RST_CAUSE, 8, 8⟩
abbrev HANG_CFG.MAX_LEVEL : Field := ⟨.HANG_CFG, 0, 3⟩
abbrev HANG_CFG.TIGHT_SHIFT : Field := ⟨.HANG_CFG, 4, 4⟩
abbrev HANG_CFG.REPLAY_LOG2 : Field := ⟨.HANG_CFG, 8, 5⟩
abbrev HANG_CTX_CFG.ENABLE : Field := ⟨.HANG_CTX_CFG, 0, 1⟩
abbrev HANG_CTX_CFG.TIMEOUT_LOG2 : Field := ⟨.HANG_CTX_CFG, 4, 5⟩
abbrev HANG_CTX_STATUS.STATE : Field := ⟨.HANG_CTX_STATUS, 0, 2⟩
abbrev HANG_CTX_STATUS.EXPIRIES : Field := ⟨.HANG_CTX_STATUS, 8, 8⟩
abbrev HANG_CTX_PROGRESS.COUNT : Field := ⟨.HANG_CTX_PROGRESS, 0, 64⟩
abbrev HANG_PART_HELD.MASK : Field := ⟨.HANG_PART_HELD, 0, 48⟩
abbrev HANG_PART_ENGINE_RESETS.COUNT : Field := ⟨.HANG_PART_ENGINE_RESETS, 0, 64⟩
abbrev PART_ROLE.ROLE : Field := ⟨.PART_ROLE, 0, 1⟩
abbrev PART_ROLE.ROLE_ACTIVE : Field := ⟨.PART_ROLE, 8, 2⟩
abbrev PART_ROLE.CLOCK_MHZ : Field := ⟨.PART_ROLE, 16, 12⟩
abbrev PART_CLOCK_LIMIT.LIMIT_MHZ : Field := ⟨.PART_CLOCK_LIMIT, 0, 12⟩
abbrev PART_COMMIT_VETO.VETO : Field := ⟨.PART_COMMIT_VETO, 0, 1⟩
abbrev PART_ASSIGN.OWNER : Field := ⟨.PART_ASSIGN, 0, 16⟩
abbrev PART_ASSIGN.STATE : Field := ⟨.PART_ASSIGN, 16, 3⟩
abbrev PART_ASSIGN.ZERO : Field := ⟨.PART_ASSIGN, 20, 1⟩
abbrev PART_ASSIGN.RESULT : Field := ⟨.PART_ASSIGN, 24, 4⟩
abbrev PART_CTX_QUEUES.BASE : Field := ⟨.PART_CTX_QUEUES, 0, 13⟩
abbrev PART_CTX_QUEUES.COUNT : Field := ⟨.PART_CTX_QUEUES, 16, 8⟩
abbrev PART_CTX_KNOTS.BASE : Field := ⟨.PART_CTX_KNOTS, 0, 11⟩
abbrev PART_CTX_KNOTS.COUNT : Field := ⟨.PART_CTX_KNOTS, 16, 12⟩
abbrev PART_CTX_GATHER.KNOT : Field := ⟨.PART_CTX_GATHER, 0, 11⟩
abbrev TBL_SWITCH_PICK.PICK : Field := ⟨.TBL_SWITCH_PICK, 0, 64⟩
abbrev TBL_SWITCH_CTRL.EXPECTED : Field := ⟨.TBL_SWITCH_CTRL, 0, 16⟩
abbrev TBL_SWITCH_CTRL.REQ : Field := ⟨.TBL_SWITCH_CTRL, 31, 1⟩
abbrev TBL_SWITCH_STATUS.ACTIVE : Field := ⟨.TBL_SWITCH_STATUS, 0, 1⟩
abbrev TBL_SWITCH_STATUS.HELD : Field := ⟨.TBL_SWITCH_STATUS, 1, 1⟩
abbrev TBL_SWITCH_STATUS.BAD : Field := ⟨.TBL_SWITCH_STATUS, 2, 1⟩
abbrev TBL_SWITCH_STATUS.FILLED : Field := ⟨.TBL_SWITCH_STATUS, 16, 16⟩
abbrev TBL_SWITCH_GEN.GEN : Field := ⟨.TBL_SWITCH_GEN, 0, 16⟩
abbrev TBL_SWITCH_HELD.COUNT : Field := ⟨.TBL_SWITCH_HELD, 0, 64⟩
abbrev PART_CARD_FIRST.PAGE : Field := ⟨.PART_CARD_FIRST, 0, 21⟩
abbrev PART_CARD_COUNT.PAGES : Field := ⟨.PART_CARD_COUNT, 0, 22⟩
abbrev PART_CARD_VALUE.CARD : Field := ⟨.PART_CARD_VALUE, 0, 16⟩
abbrev PART_CARD_CMD.CMD : Field := ⟨.PART_CARD_CMD, 0, 2⟩
abbrev PART_CARD_CMD.STATE : Field := ⟨.PART_CARD_CMD, 4, 1⟩
abbrev PART_CARD_CMD.RESULT : Field := ⟨.PART_CARD_CMD, 8, 4⟩
abbrev PART_CARD_PROBE.PAGE : Field := ⟨.PART_CARD_PROBE, 0, 21⟩
abbrev PART_CARD_PROBE_CARD.ACTIVE : Field := ⟨.PART_CARD_PROBE_CARD, 0, 16⟩
abbrev PART_CARD_PROBE_CARD.SHADOW : Field := ⟨.PART_CARD_PROBE_CARD, 16, 16⟩
abbrev PART_BEAM_SPLIT.ADDR_MIB : Field := ⟨.PART_BEAM_SPLIT, 0, 7⟩
abbrev PART_SRAM_CE.COUNT : Field := ⟨.PART_SRAM_CE, 0, 64⟩
abbrev PART_SRAM_UE.COUNT : Field := ⟨.PART_SRAM_UE, 0, 64⟩
abbrev PART_CTX_PLACE.MODE : Field := ⟨.PART_CTX_PLACE, 0, 1⟩
abbrev PART_CTX_PLACE.BEAM_BASE : Field := ⟨.PART_CTX_PLACE, 8, 6⟩
abbrev PART_CTX_PLACE.BEAM_SIZE : Field := ⟨.PART_CTX_PLACE, 16, 7⟩
abbrev PART_CTX_OBJECTS.OBJECTS : Field := ⟨.PART_CTX_OBJECTS, 0, 17⟩
abbrev PART_CTX_TABLE.ADDR : Field := ⟨.PART_CTX_TABLE, 0, 64⟩
abbrev PART_CTX_ADMIT.CMD : Field := ⟨.PART_CTX_ADMIT, 0, 2⟩
abbrev PART_CTX_ADMIT.ROLE : Field := ⟨.PART_CTX_ADMIT, 2, 2⟩
abbrev PART_CTX_ADMIT.STATE : Field := ⟨.PART_CTX_ADMIT, 4, 2⟩
abbrev PART_CTX_ADMIT.RESULT : Field := ⟨.PART_CTX_ADMIT, 8, 4⟩
abbrev PART_CTX_ADMIT.JOB_INDEX : Field := ⟨.PART_CTX_ADMIT, 16, 9⟩
abbrev PART_CTX_JOB.JOB : Field := ⟨.PART_CTX_JOB, 0, 16⟩
abbrev PART_CTX_JOB.BOB_BASE : Field := ⟨.PART_CTX_JOB, 16, 7⟩
abbrev PART_CTX_JOB.BOB_SIZE : Field := ⟨.PART_CTX_JOB, 24, 7⟩
abbrev PART_CTX_ENGINES.MASK : Field := ⟨.PART_CTX_ENGINES, 0, 48⟩
abbrev PART_CTX_LAYERS.BASE : Field := ⟨.PART_CTX_LAYERS, 0, 12⟩
abbrev PART_CTX_LAYERS.COUNT : Field := ⟨.PART_CTX_LAYERS, 16, 13⟩
abbrev PART_CTX_REGS.BASE : Field := ⟨.PART_CTX_REGS, 0, 12⟩
abbrev PART_CTX_REGS.COUNT : Field := ⟨.PART_CTX_REGS, 16, 13⟩
abbrev PART_CTX_SLOTS.BASE : Field := ⟨.PART_CTX_SLOTS, 0, 12⟩
abbrev PART_CTX_SLOTS.COUNT : Field := ⟨.PART_CTX_SLOTS, 16, 13⟩
abbrev PART_CTX_RESV.UNITS : Field := ⟨.PART_CTX_RESV, 0, 32⟩
abbrev PART_CTX_ACC.BASE : Field := ⟨.PART_CTX_ACC, 0, 20⟩
abbrev PART_CTX_ACC.DIE : Field := ⟨.PART_CTX_ACC, 20, 1⟩
abbrev PART_CTX_ACC_LEN.BLOCKS : Field := ⟨.PART_CTX_ACC_LEN, 0, 21⟩
abbrev PART_CTX_RESV_ADDR.ADDR : Field := ⟨.PART_CTX_RESV_ADDR, 0, 64⟩
abbrev HBM_STACK_STATUS.STATE : Field := ⟨.HBM_STACK_STATUS, 0, 2⟩
abbrev HBM_STACK_STATUS.TEMP_C : Field := ⟨.HBM_STACK_STATUS, 8, 8⟩
abbrev HBM_CH_UP.MASK : Field := ⟨.HBM_CH_UP, 0, 32⟩
abbrev HBM_SCRUB_CFG.ENABLE : Field := ⟨.HBM_SCRUB_CFG, 0, 1⟩
abbrev HBM_SCRUB_CFG.PERIOD_H : Field := ⟨.HBM_SCRUB_CFG, 8, 8⟩
abbrev HBM_SCRUB_POS.ADDR : Field := ⟨.HBM_SCRUB_POS, 0, 64⟩
abbrev HBM_REPAIR_CFG.CE_ROW_LIMIT : Field := ⟨.HBM_REPAIR_CFG, 0, 4⟩
abbrev HBM_REPAIR_CFG.LANE_LIMIT : Field := ⟨.HBM_REPAIR_CFG, 8, 8⟩
abbrev HBM_REPAIR_CFG.CE_ALARM : Field := ⟨.HBM_REPAIR_CFG, 16, 16⟩
abbrev HBM_ERR_LAST.KIND : Field := ⟨.HBM_ERR_LAST, 0, 3⟩
abbrev HBM_ERR_LAST.REQ : Field := ⟨.HBM_ERR_LAST, 4, 3⟩
abbrev HBM_ERR_LAST.CHANNEL : Field := ⟨.HBM_ERR_LAST, 8, 5⟩
abbrev HBM_ERR_LAST.PC : Field := ⟨.HBM_ERR_LAST, 13, 1⟩
abbrev HBM_ERR_LAST.BANK : Field := ⟨.HBM_ERR_LAST, 16, 6⟩
abbrev HBM_ERR_LAST.LANE : Field := ⟨.HBM_ERR_LAST, 22, 7⟩
abbrev HBM_ERR_LAST.VALID : Field := ⟨.HBM_ERR_LAST, 31, 1⟩
abbrev HBM_ERR_ROW.ROW : Field := ⟨.HBM_ERR_ROW, 0, 14⟩
abbrev HBM_ERR_ROW.BLOCK : Field := ⟨.HBM_ERR_ROW, 14, 4⟩
abbrev HBM_ERR_TIME.VALUE : Field := ⟨.HBM_ERR_TIME, 0, 64⟩
abbrev HBM_CE.COUNT : Field := ⟨.HBM_CE, 0, 64⟩
abbrev HBM_UE.COUNT : Field := ⟨.HBM_UE, 0, 64⟩
abbrev HBM_POISON_READS.COUNT : Field := ⟨.HBM_POISON_READS, 0, 64⟩
abbrev HBM_SCRUB_PASSES.COUNT : Field := ⟨.HBM_SCRUB_PASSES, 0, 64⟩
abbrev HBM_SOFT_REPAIRS.COUNT : Field := ⟨.HBM_SOFT_REPAIRS, 0, 64⟩
abbrev HBM_HARD_REPAIRS.COUNT : Field := ⟨.HBM_HARD_REPAIRS, 0, 64⟩
abbrev HBM_LANE_REPAIRS.COUNT : Field := ⟨.HBM_LANE_REPAIRS, 0, 64⟩
abbrev HBM_RETIRED_HITS.COUNT : Field := ⟨.HBM_RETIRED_HITS, 0, 64⟩
abbrev HBM_COUNTER_CLEAR.CLEAR : Field := ⟨.HBM_COUNTER_CLEAR, 0, 8⟩
abbrev HBM_CH_STATUS.STATE : Field := ⟨.HBM_CH_STATUS, 0, 2⟩
abbrev HBM_CH_STATUS.SPARES_USED : Field := ⟨.HBM_CH_STATUS, 2, 2⟩
abbrev HBM_CH_STATUS.LANE_A : Field := ⟨.HBM_CH_STATUS, 4, 7⟩
abbrev HBM_CH_STATUS.LANE_B : Field := ⟨.HBM_CH_STATUS, 11, 7⟩
abbrev HBM_REPAIR_A.STATE : Field := ⟨.HBM_REPAIR_A, 0, 3⟩
abbrev HBM_REPAIR_A.CHANNEL : Field := ⟨.HBM_REPAIR_A, 8, 5⟩
abbrev HBM_REPAIR_A.PC : Field := ⟨.HBM_REPAIR_A, 13, 1⟩
abbrev HBM_REPAIR_A.BANK : Field := ⟨.HBM_REPAIR_A, 16, 6⟩
abbrev HBM_REPAIR_B.ROW : Field := ⟨.HBM_REPAIR_B, 0, 14⟩
abbrev HBM_REMAP.VALID : Field := ⟨.HBM_REMAP, 0, 1⟩
abbrev HBM_REMAP.KIND : Field := ⟨.HBM_REMAP, 1, 1⟩
abbrev HBM_REMAP.PAGE : Field := ⟨.HBM_REMAP, 8, 24⟩
abbrev HBM_REMAP.BANK : Field := ⟨.HBM_REMAP, 32, 6⟩
abbrev HBM_REMAP.CHANNEL : Field := ⟨.HBM_REMAP, 38, 5⟩
abbrev HBM_REMAP.PC : Field := ⟨.HBM_REMAP, 43, 1⟩
abbrev HBM_TG_CTRL.START : Field := ⟨.HBM_TG_CTRL, 0, 1⟩
abbrev HBM_TG_CTRL.OP : Field := ⟨.HBM_TG_CTRL, 1, 2⟩
abbrev HBM_TG_CTRL.STOP : Field := ⟨.HBM_TG_CTRL, 3, 1⟩
abbrev HBM_TG_CTRL.PATTERN : Field := ⟨.HBM_TG_CTRL, 4, 4⟩
abbrev HBM_TG_CTRL.PC_MASK : Field := ⟨.HBM_TG_CTRL, 8, 2⟩
abbrev HBM_TG_CTRL.SPARES : Field := ⟨.HBM_TG_CTRL, 10, 1⟩
abbrev HBM_TG_CTRL.LOOPS : Field := ⟨.HBM_TG_CTRL, 16, 8⟩
abbrev HBM_TG_RANGE.FIRST_ROW : Field := ⟨.HBM_TG_RANGE, 0, 14⟩
abbrev HBM_TG_RANGE.LAST_ROW : Field := ⟨.HBM_TG_RANGE, 16, 14⟩
abbrev HBM_TG_SEED.SEED : Field := ⟨.HBM_TG_SEED, 0, 31⟩
abbrev HBM_TG_STATUS.STATE : Field := ⟨.HBM_TG_STATUS, 0, 2⟩
abbrev HBM_TG_STATUS.RESULT : Field := ⟨.HBM_TG_STATUS, 8, 4⟩
abbrev HBM_TG_FAIL_LO.MASK : Field := ⟨.HBM_TG_FAIL_LO, 0, 64⟩
abbrev HBM_TG_FAIL_HI.MASK : Field := ⟨.HBM_TG_FAIL_HI, 0, 10⟩
abbrev HBM_TG_ERRORS.COUNT : Field := ⟨.HBM_TG_ERRORS, 0, 64⟩
abbrev HBM_TG_FIRST.ROW : Field := ⟨.HBM_TG_FIRST, 0, 14⟩
abbrev HBM_TG_FIRST.BANK : Field := ⟨.HBM_TG_FIRST, 16, 6⟩
abbrev HBM_TG_FIRST.PC : Field := ⟨.HBM_TG_FIRST, 24, 1⟩
abbrev HBM_TG_FIRST.BLOCK : Field := ⟨.HBM_TG_FIRST, 25, 4⟩
abbrev BTIER_MAP.ENABLE : Field := ⟨.BTIER_MAP, 0, 1⟩
abbrev BTIER_MAP.RESULT : Field := ⟨.BTIER_MAP, 4, 4⟩
abbrev BTIER_MAP.PORTS : Field := ⟨.BTIER_MAP, 8, 3⟩
abbrev BTIER_MAP.EXPS : Field := ⟨.BTIER_MAP, 12, 2⟩
abbrev BTIER_MAP_SIZE.GIB : Field := ⟨.BTIER_MAP_SIZE, 0, 14⟩
abbrev BTIER_CARD_REFUSED.COUNT : Field := ⟨.BTIER_CARD_REFUSED, 0, 64⟩
abbrev BTIER_PORT_CTRL.ENABLE : Field := ⟨.BTIER_PORT_CTRL, 0, 1⟩
abbrev BTIER_PORT_CTRL.BIFUR : Field := ⟨.BTIER_PORT_CTRL, 1, 1⟩
abbrev BTIER_PORT_STATUS.STATE : Field := ⟨.BTIER_PORT_STATUS, 0, 3⟩
abbrev BTIER_PORT_STATUS.RATE : Field := ⟨.BTIER_PORT_STATUS, 3, 2⟩
abbrev BTIER_PORT_STATUS.EXPS : Field := ⟨.BTIER_PORT_STATUS, 5, 2⟩
abbrev BTIER_PORT_CAP.GIB0 : Field := ⟨.BTIER_PORT_CAP, 0, 16⟩
abbrev BTIER_PORT_CAP.GIB1 : Field := ⟨.BTIER_PORT_CAP, 16, 16⟩
abbrev BTIER_PORT_RD_BYTES.COUNT : Field := ⟨.BTIER_PORT_RD_BYTES, 0, 64⟩
abbrev BTIER_PORT_WR_BYTES.COUNT : Field := ⟨.BTIER_PORT_WR_BYTES, 0, 64⟩
abbrev BTIER_PORT_UE.COUNT : Field := ⟨.BTIER_PORT_UE, 0, 64⟩
abbrev BTIER_PORT_RETRAINS.COUNT : Field := ⟨.BTIER_PORT_RETRAINS, 0, 64⟩
abbrev BTIER_CARD.EVEN : Field := ⟨.BTIER_CARD, 0, 16⟩
abbrev BTIER_CARD.ODD : Field := ⟨.BTIER_CARD, 16, 16⟩
abbrev WEFT_TC_WEIGHT.W2 : Field := ⟨.WEFT_TC_WEIGHT, 0, 8⟩
abbrev WEFT_TC_WEIGHT.W3 : Field := ⟨.WEFT_TC_WEIGHT, 8, 8⟩
abbrev WEFT_TC_WEIGHT.W4 : Field := ⟨.WEFT_TC_WEIGHT, 16, 8⟩
abbrev WEFT_PORT_STATUS.STATE : Field := ⟨.WEFT_PORT_STATUS, 0, 3⟩
abbrev WEFT_PORT_STATUS.LANES : Field := ⟨.WEFT_PORT_STATUS, 4, 8⟩
abbrev WEFT_PORT_STATUS.LEVEL : Field := ⟨.WEFT_PORT_STATUS, 12, 4⟩
abbrev WEFT_PORT_STATUS.PARTNER : Field := ⟨.WEFT_PORT_STATUS, 16, 16⟩
abbrev WEFT_PORT_TIME.ROLE : Field := ⟨.WEFT_PORT_TIME, 0, 2⟩
abbrev WEFT_PORT_TIME.HOPS : Field := ⟨.WEFT_PORT_TIME, 2, 3⟩
abbrev WEFT_PORT_TIME.LOCK : Field := ⟨.WEFT_PORT_TIME, 5, 1⟩
abbrev WEFT_PORT_TIME.DELAY : Field := ⟨.WEFT_PORT_TIME, 16, 16⟩
abbrev WEFT_PORT_CTRL.ENABLE : Field := ⟨.WEFT_PORT_CTRL, 0, 1⟩
abbrev WEFT_PORT_REPLAYS.COUNT : Field := ⟨.WEFT_PORT_REPLAYS, 0, 64⟩
abbrev WEFT_PORT_RETRAINS.COUNT : Field := ⟨.WEFT_PORT_RETRAINS, 0, 64⟩
abbrev WEFT_PORT_FEC_UNCORR.COUNT : Field := ⟨.WEFT_PORT_FEC_UNCORR, 0, 64⟩
abbrev WEFT_PORT_AUTH_FAIL.COUNT : Field := ⟨.WEFT_PORT_AUTH_FAIL, 0, 64⟩
abbrev SELV_PAIR_CTRL.ADMIT : Field := ⟨.SELV_PAIR_CTRL, 0, 1⟩
abbrev SELV_PAIR_CTRL.OVERRIDE : Field := ⟨.SELV_PAIR_CTRL, 1, 1⟩
abbrev SELV_PAIR_CTRL.STATE : Field := ⟨.SELV_PAIR_CTRL, 4, 3⟩
abbrev SELV_PAIR_CTRL.COMMON_FEED : Field := ⟨.SELV_PAIR_CTRL, 7, 1⟩
abbrev SELV_PAIR_CTRL.RESULT : Field := ⟨.SELV_PAIR_CTRL, 8, 4⟩
abbrev SELV_PAIR_CTRL.ROLE : Field := ⟨.SELV_PAIR_CTRL, 12, 1⟩
abbrev SELV_PAIR_CTRL.TWIN : Field := ⟨.SELV_PAIR_CTRL, 16, 16⟩
abbrev SELV_RISK.VALUE : Field := ⟨.SELV_RISK, 0, 8⟩
abbrev SELV_RISK.INTERVAL : Field := ⟨.SELV_RISK, 8, 16⟩
abbrev SELV_RISK_W.W_SUPPLY : Field := ⟨.SELV_RISK_W, 0, 8⟩
abbrev SELV_RISK_W.W_CE : Field := ⟨.SELV_RISK_W, 8, 8⟩
abbrev SELV_RISK_W.W_RETRAIN : Field := ⟨.SELV_RISK_W, 16, 8⟩
abbrev SELV_RISK_W.W_TWIN : Field := ⟨.SELV_RISK_W, 24, 8⟩
abbrev SELV_RISK_CFG.DECAY_LOG2 : Field := ⟨.SELV_RISK_CFG, 0, 4⟩
abbrev SELV_RISK_CFG.T_QUARTER : Field := ⟨.SELV_RISK_CFG, 8, 8⟩
abbrev SELV_RISK_CFG.T_ONE : Field := ⟨.SELV_RISK_CFG, 16, 8⟩
abbrev SELV_RISK_CFG.T_NOW : Field := ⟨.SELV_RISK_CFG, 24, 8⟩
abbrev SELV_FLUSH_CFG.BASE : Field := ⟨.SELV_FLUSH_CFG, 0, 16⟩
abbrev SELV_LOSSES.COUNT : Field := ⟨.SELV_LOSSES, 0, 64⟩
abbrev SELV_FORCED_FLUSHES.COUNT : Field := ⟨.SELV_FORCED_FLUSHES, 0, 64⟩
abbrev SELV_TX_BYTES.COUNT : Field := ⟨.SELV_TX_BYTES, 0, 64⟩
abbrev SELV_RX_BYTES.COUNT : Field := ⟨.SELV_RX_BYTES, 0, 64⟩
abbrev SEC_LIFECYCLE.STATE : Field := ⟨.SEC_LIFECYCLE, 0, 2⟩
abbrev SEC_LIFECYCLE.ADVANCE : Field := ⟨.SEC_LIFECYCLE, 8, 2⟩
abbrev SEC_LIFECYCLE.RESULT : Field := ⟨.SEC_LIFECYCLE, 12, 4⟩
abbrev SEC_DEBUG.CONSENT : Field := ⟨.SEC_DEBUG, 0, 1⟩
abbrev SEC_DEBUG.STATE : Field := ⟨.SEC_DEBUG, 4, 2⟩
abbrev SEC_DEBUG.SCOPE : Field := ⟨.SEC_DEBUG, 8, 4⟩
abbrev SEC_DEBUG.RESULT : Field := ⟨.SEC_DEBUG, 12, 4⟩
abbrev SEC_ZERO_ALL.CMD : Field := ⟨.SEC_ZERO_ALL, 0, 1⟩
abbrev SEC_ZERO_ALL.BUSY : Field := ⟨.SEC_ZERO_ALL, 1, 1⟩
abbrev SEC_SESSION_REFUSED.COUNT : Field := ⟨.SEC_SESSION_REFUSED, 0, 64⟩
abbrev SEC_IDE_REFUSED.COUNT : Field := ⟨.SEC_IDE_REFUSED, 0, 64⟩
abbrev SEC_DEBUG_NONCE.WORD : Field := ⟨.SEC_DEBUG_NONCE, 0, 32⟩
abbrev SEC_DEBUG_TOKEN.WORD : Field := ⟨.SEC_DEBUG_TOKEN, 0, 32⟩
abbrev SEC_JOB.JOB : Field := ⟨.SEC_JOB, 0, 16⟩
abbrev SEC_JOB.STATE : Field := ⟨.SEC_JOB, 16, 3⟩
abbrev SEC_JOB.KEY_GEN : Field := ⟨.SEC_JOB, 24, 8⟩
abbrev SEC_JOB.PARTS : Field := ⟨.SEC_JOB, 32, 8⟩
abbrev Q_TAIL.TAIL : Field := ⟨.Q_TAIL, 0, 32⟩
abbrev Q_CPL_ACK.ACK : Field := ⟨.Q_CPL_ACK, 0, 32⟩
abbrev Q_FETCHED.FETCHED : Field := ⟨.Q_FETCHED, 0, 32⟩
abbrev Q_STATUS.STATE : Field := ⟨.Q_STATUS, 0, 3⟩
abbrev Q_STATUS.ERR : Field := ⟨.Q_STATUS, 8, 4⟩
abbrev Q_CFG_CTRL.ENABLE : Field := ⟨.Q_CFG_CTRL, 0, 1⟩
abbrev Q_CFG_CTRL.PRIO : Field := ⟨.Q_CFG_CTRL, 1, 2⟩
abbrev Q_CFG_CTRL.SPACE : Field := ⟨.Q_CFG_CTRL, 3, 1⟩
abbrev Q_CFG_CTRL.SIZE_LOG2 : Field := ⟨.Q_CFG_CTRL, 4, 5⟩
abbrev Q_CFG_CTRL.VF : Field := ⟨.Q_CFG_CTRL, 9, 5⟩
abbrev Q_CFG_CTRL.IRQ_VEC : Field := ⟨.Q_CFG_CTRL, 14, 8⟩
abbrev Q_CFG_CTRL.CTX : Field := ⟨.Q_CFG_CTRL, 24, 6⟩
abbrev Q_CFG_CTRL.OWNED : Field := ⟨.Q_CFG_CTRL, 30, 1⟩
abbrev Q_CFG_RING.ADDR : Field := ⟨.Q_CFG_RING, 0, 64⟩
abbrev Q_CFG_CPL.ADDR : Field := ⟨.Q_CFG_CPL, 0, 64⟩
abbrev Q_VF_CMDS.COUNT : Field := ⟨.Q_VF_CMDS, 0, 64⟩
abbrev Q_VF_FAULTS.COUNT : Field := ⟨.Q_VF_FAULTS, 0, 64⟩
abbrev Q_HOST_LEVEL.LEVEL : Field := ⟨.Q_HOST_LEVEL, 0, 4⟩
abbrev Q_HOST_LEVEL.ACTIVE : Field := ⟨.Q_HOST_LEVEL, 4, 4⟩
abbrev KNOT_COUNT.COUNT : Field := ⟨.KNOT_COUNT, 0, 32⟩
abbrev KNOT_ADD.ADD : Field := ⟨.KNOT_ADD, 0, 32⟩
abbrev KNOT_CFG.VF : Field := ⟨.KNOT_CFG, 0, 5⟩
abbrev KNOT_CFG.REMOTE : Field := ⟨.KNOT_CFG, 5, 1⟩
abbrev KNOT_CFG.IRQ_EN : Field := ⟨.KNOT_CFG, 6, 1⟩
abbrev KNOT_CFG.CTX : Field := ⟨.KNOT_CFG, 8, 6⟩
abbrev KNOT_CFG.OWNED : Field := ⟨.KNOT_CFG, 14, 1⟩
abbrev KNOT_CFG.SAT : Field := ⟨.KNOT_CFG, 15, 1⟩
abbrev KNOT_CFG.IRQ_VEC : Field := ⟨.KNOT_CFG, 16, 8⟩
abbrev KNOT_IRQ_AT.VALUE : Field := ⟨.KNOT_IRQ_AT, 0, 32⟩
abbrev CNV_KAPPA.MUL : Field := ⟨.CNV_KAPPA, 0, 12⟩
abbrev CNV_OVF_LIMIT.TILE_LIMIT : Field := ⟨.CNV_OVF_LIMIT, 0, 8⟩
abbrev CNV_LAST_FAULT.ENGINE : Field := ⟨.CNV_LAST_FAULT, 0, 6⟩
abbrev CNV_LAST_FAULT.ROW : Field := ⟨.CNV_LAST_FAULT, 8, 7⟩
abbrev CNV_LAST_FAULT.FAULT : Field := ⟨.CNV_LAST_FAULT, 16, 3⟩
abbrev CNV_LAST_FAULT.VALID : Field := ⟨.CNV_LAST_FAULT, 31, 1⟩
abbrev CNV_COUNTER_CLEAR.CLEAR : Field := ⟨.CNV_COUNTER_CLEAR, 0, 11⟩
abbrev CNV_TILES_PACKED.COUNT : Field := ⟨.CNV_TILES_PACKED, 0, 64⟩
abbrev CNV_TILES_UNPACKED.COUNT : Field := ⟨.CNV_TILES_UNPACKED, 0, 64⟩
abbrev CNV_OUTLIERS.COUNT : Field := ⟨.CNV_OUTLIERS, 0, 64⟩
abbrev CNV_OUTLIER_OVF.COUNT : Field := ⟨.CNV_OUTLIER_OVF, 0, 64⟩
abbrev CNV_OVF_TILES.COUNT : Field := ⟨.CNV_OVF_TILES, 0, 64⟩
abbrev CNV_SATURATE.COUNT : Field := ⟨.CNV_SATURATE, 0, 64⟩
abbrev CNV_NONFINITE.COUNT : Field := ⟨.CNV_NONFINITE, 0, 64⟩
abbrev CNV_ZERO_BLOCKS.COUNT : Field := ⟨.CNV_ZERO_BLOCKS, 0, 64⟩
abbrev CNV_FLUSH.COUNT : Field := ⟨.CNV_FLUSH, 0, 64⟩
abbrev CNV_ILLEGAL.COUNT : Field := ⟨.CNV_ILLEGAL, 0, 64⟩
abbrev CNV_BUSY_CYCLES.COUNT : Field := ⟨.CNV_BUSY_CYCLES, 0, 64⟩
abbrev TEN_FWD_NONFINITE.COUNT : Field := ⟨.TEN_FWD_NONFINITE, 0, 64⟩
abbrev TEN_FWD_JUMPS.COUNT : Field := ⟨.TEN_FWD_JUMPS, 0, 64⟩
abbrev TEN_FWD_WIDEN.COUNT : Field := ⟨.TEN_FWD_WIDEN, 0, 64⟩
abbrev TEN_FWD_VETOES.COUNT : Field := ⟨.TEN_FWD_VETOES, 0, 64⟩
abbrev TEN_FWD_LOCK_BREAKS.COUNT : Field := ⟨.TEN_FWD_LOCK_BREAKS, 0, 64⟩
abbrev TEN_FWD_WIDE_BYPASS.COUNT : Field := ⟨.TEN_FWD_WIDE_BYPASS, 0, 64⟩
abbrev TEN_BWD_NONFINITE.COUNT : Field := ⟨.TEN_BWD_NONFINITE, 0, 64⟩
abbrev TEN_BWD_JUMPS.COUNT : Field := ⟨.TEN_BWD_JUMPS, 0, 64⟩
abbrev TEN_BWD_VETOES.COUNT : Field := ⟨.TEN_BWD_VETOES, 0, 64⟩
abbrev TEN_BWD_WGRAD_SKIPPED.COUNT : Field := ⟨.TEN_BWD_WGRAD_SKIPPED, 0, 64⟩
abbrev TEN_A24_OVF.COUNT : Field := ⟨.TEN_A24_OVF, 0, 64⟩
abbrev TEN_MX_RANGE.COUNT : Field := ⟨.TEN_MX_RANGE, 0, 64⟩
abbrev TEN_BWD_RT_ILLEGAL.COUNT : Field := ⟨.TEN_BWD_RT_ILLEGAL, 0, 64⟩
abbrev TEN_FWD_COUNTER_CLEAR.CLEAR : Field := ⟨.TEN_FWD_COUNTER_CLEAR, 0, 6⟩
abbrev TEN_BWD_COUNTER_CLEAR.CLEAR : Field := ⟨.TEN_BWD_COUNTER_CLEAR, 0, 7⟩
abbrev TEN_CTX_LOCK.LOCK : Field := ⟨.TEN_CTX_LOCK, 0, 1⟩
abbrev TEN_CTX_LOCK.LOCK_ACTIVE : Field := ⟨.TEN_CTX_LOCK, 1, 1⟩
abbrev TEN_CTX_LAYERS.BASE : Field := ⟨.TEN_CTX_LAYERS, 0, 12⟩
abbrev TEN_CTX_LAYERS.COUNT : Field := ⟨.TEN_CTX_LAYERS, 16, 13⟩
abbrev TEN_CTX_RESV_SIZE.SIZE : Field := ⟨.TEN_CTX_RESV_SIZE, 0, 32⟩
abbrev TEN_CTX_RESV_USED.USED : Field := ⟨.TEN_CTX_RESV_USED, 0, 32⟩
abbrev TEN_LAYER_CFG.SENSITIVE : Field := ⟨.TEN_LAYER_CFG, 0, 1⟩
abbrev TEN_LAYER_CFG.OVF_ACTION : Field := ⟨.TEN_LAYER_CFG, 1, 2⟩
abbrev TEN_LAYER_CFG.JUMP_ACTION : Field := ⟨.TEN_LAYER_CFG, 3, 2⟩
abbrev TEN_LAYER_CFG.JUMP_LOG2 : Field := ⟨.TEN_LAYER_CFG, 5, 4⟩
abbrev TEN_LAYER_CFG.WIDEN_TILES : Field := ⟨.TEN_LAYER_CFG, 16, 8⟩
abbrev TEN_LAYER_CFG.SHARE : Field := ⟨.TEN_LAYER_CFG, 24, 6⟩
abbrev TEN_LAYER_CFG.NARROW : Field := ⟨.TEN_LAYER_CFG, 30, 1⟩
abbrev TEN_LAYER_STATE.WIDE : Field := ⟨.TEN_LAYER_STATE, 0, 1⟩
abbrev TEN_LAYER_STATE.WIDE_PENDING : Field := ⟨.TEN_LAYER_STATE, 1, 1⟩
abbrev TEN_LAYER_STATE.LOCK_BROKEN : Field := ⟨.TEN_LAYER_STATE, 2, 1⟩
abbrev TEN_LAYER_STATE.SHORT : Field := ⟨.TEN_LAYER_STATE, 3, 1⟩
abbrev TEN_LAYER_STATE.OVF_TILES : Field := ⟨.TEN_LAYER_STATE, 8, 8⟩
abbrev TEN_LAYER_STATE.JUMPS : Field := ⟨.TEN_LAYER_STATE, 16, 8⟩
abbrev TEN_LAYER_FNORM.VALUE : Field := ⟨.TEN_LAYER_FNORM, 0, 32⟩
abbrev TEN_LAYER_FREF.VALUE : Field := ⟨.TEN_LAYER_FREF, 0, 32⟩
abbrev TEN_LAYER_GCFG.GJUMP_ACTION : Field := ⟨.TEN_LAYER_GCFG, 0, 2⟩
abbrev TEN_LAYER_GCFG.NF_ACTION : Field := ⟨.TEN_LAYER_GCFG, 2, 2⟩
abbrev TEN_LAYER_GCFG.GJUMP_LOG2 : Field := ⟨.TEN_LAYER_GCFG, 4, 4⟩
abbrev TEN_LAYER_GCFG.SOURCE : Field := ⟨.TEN_LAYER_GCFG, 8, 1⟩
abbrev TEN_LAYER_GCFG.FROZEN : Field := ⟨.TEN_LAYER_GCFG, 9, 1⟩
abbrev TEN_LAYER_GCFG.DSHARE : Field := ⟨.TEN_LAYER_GCFG, 16, 6⟩
abbrev TEN_LAYER_GCFG.WSHARE : Field := ⟨.TEN_LAYER_GCFG, 24, 6⟩
abbrev TEN_LAYER_GSTATE.GJUMPS : Field := ⟨.TEN_LAYER_GSTATE, 0, 8⟩
abbrev TEN_LAYER_GSTATE.NF : Field := ⟨.TEN_LAYER_GSTATE, 8, 8⟩
abbrev TEN_LAYER_GSTATE.FROZEN_ACTIVE : Field := ⟨.TEN_LAYER_GSTATE, 16, 1⟩
abbrev TEN_LAYER_GNORM.VALUE : Field := ⟨.TEN_LAYER_GNORM, 0, 32⟩
abbrev TEN_LAYER_GREF.VALUE : Field := ⟨.TEN_LAYER_GREF, 0, 32⟩
abbrev BAT_STEP_CMD.CMD : Field := ⟨.BAT_STEP_CMD, 0, 2⟩
abbrev BAT_STEP_STATUS.STATE : Field := ⟨.BAT_STEP_STATUS, 0, 3⟩
abbrev BAT_STEP_STATUS.RESULT : Field := ⟨.BAT_STEP_STATUS, 8, 4⟩
abbrev BAT_STEP_STATUS.CAUSE : Field := ⟨.BAT_STEP_STATUS, 12, 4⟩
abbrev BAT_STEP_NUM.STEP : Field := ⟨.BAT_STEP_NUM, 0, 32⟩
abbrev BAT_HANDOVER.SRC_CTX : Field := ⟨.BAT_HANDOVER, 0, 6⟩
abbrev BAT_HANDOVER.SRC_PART : Field := ⟨.BAT_HANDOVER, 8, 3⟩
abbrev BAT_HANDOVER.ENABLE : Field := ⟨.BAT_HANDOVER, 12, 1⟩
abbrev BAT_HANDOVER.ACTIVE : Field := ⟨.BAT_HANDOVER, 13, 1⟩
abbrev BAT_HANDOVER.RESULT : Field := ⟨.BAT_HANDOVER, 16, 4⟩
abbrev BAT_COMMIT_COUNT.COUNT : Field := ⟨.BAT_COMMIT_COUNT, 0, 64⟩
abbrev BAT_CURSOR_COMMITTED.POS : Field := ⟨.BAT_CURSOR_COMMITTED, 0, 64⟩
abbrev BAT_CURSOR_PROV.POS : Field := ⟨.BAT_CURSOR_PROV, 0, 64⟩
abbrev BAT_COMMIT_HOME.HOME : Field := ⟨.BAT_COMMIT_HOME, 0, 16⟩
abbrev BAT_COMMIT_HOME.HOME_TWIN : Field := ⟨.BAT_COMMIT_HOME, 16, 16⟩
abbrev BAT_COMMIT_CFG.MEMBERS : Field := ⟨.BAT_COMMIT_CFG, 0, 20⟩
abbrev BAT_COMMIT_CFG.FLIP_LEAD : Field := ⟨.BAT_COMMIT_CFG, 20, 4⟩
abbrev BAT_COMMIT_CFG.DEADLINE : Field := ⟨.BAT_COMMIT_CFG, 24, 8⟩
abbrev BAT_SNAP_HOLD.HOLD : Field := ⟨.BAT_SNAP_HOLD, 0, 1⟩
abbrev BAT_SNAP_HOLD.ACTIVE : Field := ⟨.BAT_SNAP_HOLD, 1, 1⟩
abbrev BAT_SNAP_COMMIT.COUNT : Field := ⟨.BAT_SNAP_COMMIT, 0, 64⟩
abbrev BAT_REG_CMD.ENTRY : Field := ⟨.BAT_REG_CMD, 0, 12⟩
abbrev BAT_REG_CMD.CMD : Field := ⟨.BAT_REG_CMD, 12, 2⟩
abbrev BAT_REG_ERR.OVERLAP : Field := ⟨.BAT_REG_ERR, 0, 1⟩
abbrev BAT_REG_ERR.FORMAT : Field := ⟨.BAT_REG_ERR, 1, 1⟩
abbrev BAT_REG_ERR.ROT : Field := ⟨.BAT_REG_ERR, 2, 1⟩
abbrev BAT_REG_ERR.ALIGN : Field := ⟨.BAT_REG_ERR, 3, 1⟩
abbrev BAT_REG_ERR.CLIP_SPLIT : Field := ⟨.BAT_REG_ERR, 4, 1⟩
abbrev BAT_REG_ERR.SEQ : Field := ⟨.BAT_REG_ERR, 5, 1⟩
abbrev BAT_REG_ERR.BUSY : Field := ⟨.BAT_REG_ERR, 6, 1⟩
abbrev BAT_REG_ERR.RANGE : Field := ⟨.BAT_REG_ERR, 7, 1⟩
abbrev BAT_REG_ERR.ENTRY : Field := ⟨.BAT_REG_ERR, 16, 12⟩
abbrev BAT_ELEMENTS_UPDATED.COUNT : Field := ⟨.BAT_ELEMENTS_UPDATED, 0, 64⟩
abbrev BAT_COMMITS.COUNT : Field := ⟨.BAT_COMMITS, 0, 64⟩
abbrev BAT_VETOES.COUNT : Field := ⟨.BAT_VETOES, 0, 64⟩
abbrev BAT_ABORTS.COUNT : Field := ⟨.BAT_ABORTS, 0, 64⟩
abbrev BAT_CLIPPED.COUNT : Field := ⟨.BAT_CLIPPED, 0, 64⟩
abbrev BAT_NONFINITE.COUNT : Field := ⟨.BAT_NONFINITE, 0, 64⟩
abbrev BAT_SCALE_MOVES.COUNT : Field := ⟨.BAT_SCALE_MOVES, 0, 64⟩
abbrev BAT_VETO_LATE.COUNT : Field := ⟨.BAT_VETO_LATE, 0, 64⟩
abbrev BAT_FLIP_LATE.COUNT : Field := ⟨.BAT_FLIP_LATE, 0, 64⟩
abbrev BAT_HANDOVER_WAITS.COUNT : Field := ⟨.BAT_HANDOVER_WAITS, 0, 64⟩
abbrev BAT_COUNTER_CLEAR.CLEAR : Field := ⟨.BAT_COUNTER_CLEAR, 0, 10⟩
abbrev BAT_SEQ.WORD : Field := ⟨.BAT_SEQ, 0, 32⟩
abbrev BAT_NOISE_CONTRIB.VALUE : Field := ⟨.BAT_NOISE_CONTRIB, 0, 32⟩
abbrev BAT_NOISE_REDUCED.VALUE : Field := ⟨.BAT_NOISE_REDUCED, 0, 32⟩
abbrev BAT_NOISE_BLOCKS.COUNT : Field := ⟨.BAT_NOISE_BLOCKS, 0, 64⟩
abbrev BAT_PSET_SCHED.WORD : Field := ⟨.BAT_PSET_SCHED, 0, 32⟩
abbrev BAT_PSET_BETA1.WORD : Field := ⟨.BAT_PSET_BETA1, 0, 32⟩
abbrev BAT_PSET_BETA2.WORD : Field := ⟨.BAT_PSET_BETA2, 0, 32⟩
abbrev BAT_PSET_EPS.WORD : Field := ⟨.BAT_PSET_EPS, 0, 32⟩
abbrev BAT_PSET_DECAY.WORD : Field := ⟨.BAT_PSET_DECAY, 0, 32⟩
abbrev BAT_PSET_BIAS1.WORD : Field := ⟨.BAT_PSET_BIAS1, 0, 32⟩
abbrev BAT_PSET_BIAS2.WORD : Field := ⟨.BAT_PSET_BIAS2, 0, 32⟩
abbrev BAT_PSET_CLIP_NORM.WORD : Field := ⟨.BAT_PSET_CLIP_NORM, 0, 32⟩
abbrev BAT_PSET_SCALE_LR.WORD : Field := ⟨.BAT_PSET_SCALE_LR, 0, 32⟩
abbrev BAT_PSET_W9.WORD : Field := ⟨.BAT_PSET_W9, 0, 32⟩
abbrev BAT_PSET_W10.WORD : Field := ⟨.BAT_PSET_W10, 0, 32⟩
abbrev BAT_PSET_W11.WORD : Field := ⟨.BAT_PSET_W11, 0, 32⟩
abbrev BAT_PSET_W12.WORD : Field := ⟨.BAT_PSET_W12, 0, 32⟩
abbrev BAT_PSET_W13.WORD : Field := ⟨.BAT_PSET_W13, 0, 32⟩
abbrev BAT_PSET_W14.WORD : Field := ⟨.BAT_PSET_W14, 0, 32⟩
abbrev BAT_PSET_W15.WORD : Field := ⟨.BAT_PSET_W15, 0, 32⟩
abbrev BAT_REG_CTRL.VALID : Field := ⟨.BAT_REG_CTRL, 0, 1⟩
abbrev BAT_REG_CTRL.KIND : Field := ⟨.BAT_REG_CTRL, 1, 1⟩
abbrev BAT_REG_CTRL.OPT : Field := ⟨.BAT_REG_CTRL, 2, 3⟩
abbrev BAT_REG_CTRL.SLOTS : Field := ⟨.BAT_REG_CTRL, 5, 1⟩
abbrev BAT_REG_CTRL.FROZEN : Field := ⟨.BAT_REG_CTRL, 6, 1⟩
abbrev BAT_REG_CTRL.GRAD_SRC : Field := ⟨.BAT_REG_CTRL, 7, 1⟩
abbrev BAT_REG_CTRL.MOM_FMT : Field := ⟨.BAT_REG_CTRL, 8, 2⟩
abbrev BAT_REG_CTRL.CLIP : Field := ⟨.BAT_REG_CTRL, 10, 2⟩
abbrev BAT_REG_CTRL.FWD_FMT : Field := ⟨.BAT_REG_CTRL, 12, 4⟩
abbrev BAT_REG_CTRL.ROT : Field := ⟨.BAT_REG_CTRL, 16, 3⟩
abbrev BAT_REG_CTRL.PSET : Field := ⟨.BAT_REG_CTRL, 20, 4⟩
abbrev BAT_REG_CTRL.FROZEN_ACTIVE : Field := ⟨.BAT_REG_CTRL, 24, 1⟩
abbrev BAT_REG_CTRL.GRAD_FMT : Field := ⟨.BAT_REG_CTRL, 25, 1⟩
abbrev BAT_REG_ID.RED_ID : Field := ⟨.BAT_REG_ID, 0, 16⟩
abbrev BAT_REG_ID.LAYER : Field := ⟨.BAT_REG_ID, 16, 12⟩
abbrev BAT_REG_BASE.TILE : Field := ⟨.BAT_REG_BASE, 0, 32⟩
abbrev BAT_REG_LEN.TILES : Field := ⟨.BAT_REG_LEN, 0, 32⟩
abbrev BAT_REG_AREA.ADDR : Field := ⟨.BAT_REG_AREA, 0, 64⟩
abbrev BAT_REG_STRIDE.UNITS : Field := ⟨.BAT_REG_STRIDE, 0, 32⟩
abbrev BAT_REG_LR.MANT : Field := ⟨.BAT_REG_LR, 0, 16⟩
abbrev BAT_REG_LR.EXP : Field := ⟨.BAT_REG_LR, 16, 8⟩
abbrev BAT_REG_CLIP.UNIT_LOG2 : Field := ⟨.BAT_REG_CLIP, 0, 4⟩
abbrev BAT_REG_CLIP.GROUP : Field := ⟨.BAT_REG_CLIP, 8, 8⟩
abbrev BAT_REG_CLIP.SEQ_BASE : Field := ⟨.BAT_REG_CLIP, 16, 10⟩
abbrev BAT_REG_SLOTS.FRONT : Field := ⟨.BAT_REG_SLOTS, 0, 2⟩
abbrev BAT_REG_SLOTS.BACK : Field := ⟨.BAT_REG_SLOTS, 2, 2⟩
abbrev BAT_REG_SLOTS.SNAP : Field := ⟨.BAT_REG_SLOTS, 4, 2⟩
abbrev BAT_REG_GRAD.ADDR : Field := ⟨.BAT_REG_GRAD, 0, 64⟩
abbrev RED_POLICY.POISON : Field := ⟨.RED_POLICY, 0, 1⟩
abbrev RED_POLICY.DROP_MAX : Field := ⟨.RED_POLICY, 8, 4⟩
abbrev RED_POLICY.HOLD_PICKS : Field := ⟨.RED_POLICY, 16, 8⟩
abbrev RED_RX_PACKETS.COUNT : Field := ⟨.RED_RX_PACKETS, 0, 64⟩
abbrev RED_RX_BLOCKS.COUNT : Field := ⟨.RED_RX_BLOCKS, 0, 64⟩
abbrev RED_CHECK_FAIL.COUNT : Field := ⟨.RED_CHECK_FAIL, 0, 64⟩
abbrev RED_SUM_FAIL.COUNT : Field := ⟨.RED_SUM_FAIL, 0, 64⟩
abbrev RED_HELD.COUNT : Field := ⟨.RED_HELD, 0, 64⟩
abbrev RED_BOUNCE_EPOCH.COUNT : Field := ⟨.RED_BOUNCE_EPOCH, 0, 64⟩
abbrev RED_LATE.COUNT : Field := ⟨.RED_LATE, 0, 64⟩
abbrev RED_DISCARD.COUNT : Field := ⟨.RED_DISCARD, 0, 64⟩
abbrev RED_POISON_CODES.COUNT : Field := ⟨.RED_POISON_CODES, 0, 64⟩
abbrev RED_DROPS.COUNT : Field := ⟨.RED_DROPS, 0, 64⟩
abbrev RED_SEND_SATURATED.COUNT : Field := ⟨.RED_SEND_SATURATED, 0, 64⟩
abbrev RED_MAX127.COUNT : Field := ⟨.RED_MAX127, 0, 64⟩
abbrev RED_GATHER_BYTES.COUNT : Field := ⟨.RED_GATHER_BYTES, 0, 64⟩
abbrev RED_COUNTER_CLEAR.CLEAR : Field := ⟨.RED_COUNTER_CLEAR, 0, 13⟩
abbrev RED_FAULT_SRC.DEV : Field := ⟨.RED_FAULT_SRC, 0, 16⟩
abbrev RED_FAULT_SRC.KIND : Field := ⟨.RED_FAULT_SRC, 16, 2⟩
abbrev RED_FAULT_SRC.VALID : Field := ⟨.RED_FAULT_SRC, 31, 1⟩
abbrev RED_FAULT_ID.RED_ID : Field := ⟨.RED_FAULT_ID, 0, 16⟩
abbrev RED_FAULT_ID.ELEM : Field := ⟨.RED_FAULT_ID, 16, 5⟩
abbrev RED_FAULT_BLOCK.BLOCK : Field := ⟨.RED_FAULT_BLOCK, 0, 32⟩
abbrev RED_FAULT_STEP.STEP : Field := ⟨.RED_FAULT_STEP, 0, 32⟩
abbrev RED_PEER_TABLE.ADDR : Field := ⟨.RED_PEER_TABLE, 0, 64⟩
abbrev RED_PEER_LIST.ADDR : Field := ⟨.RED_PEER_LIST, 0, 64⟩
abbrev RED_PLANE.ADDR : Field := ⟨.RED_PLANE, 0, 64⟩
abbrev RED_PLANE_CFG.PHASE : Field := ⟨.RED_PLANE_CFG, 0, 2⟩
abbrev RED_SLOT_CTRL.CMD : Field := ⟨.RED_SLOT_CTRL, 0, 2⟩
abbrev RED_SLOT_CTRL.OP : Field := ⟨.RED_SLOT_CTRL, 2, 1⟩
abbrev RED_SLOT_CTRL.STATE : Field := ⟨.RED_SLOT_CTRL, 4, 3⟩
abbrev RED_SLOT_CTRL.RESULT : Field := ⟨.RED_SLOT_CTRL, 8, 4⟩
abbrev RED_SLOT_CTRL.CTX : Field := ⟨.RED_SLOT_CTRL, 12, 6⟩
abbrev RED_SLOT_ID.RED_ID : Field := ⟨.RED_SLOT_ID, 0, 16⟩
abbrev RED_SLOT_ID.EPOCH : Field := ⟨.RED_SLOT_ID, 16, 16⟩
abbrev RED_SLOT_STEP.STEP : Field := ⟨.RED_SLOT_STEP, 0, 32⟩
abbrev RED_SLOT_BASE.BLOCK : Field := ⟨.RED_SLOT_BASE, 0, 32⟩
abbrev RED_SLOT_LEN.LEN : Field := ⟨.RED_SLOT_LEN, 0, 17⟩
abbrev RED_SLOT_CONTRIB.EXPECTED : Field := ⟨.RED_SLOT_CONTRIB, 0, 17⟩
abbrev RED_SLOT_CONTRIB.DROPPED : Field := ⟨.RED_SLOT_CONTRIB, 17, 4⟩
abbrev RED_SLOT_ACC.ACC_BASE : Field := ⟨.RED_SLOT_ACC, 0, 20⟩
abbrev RED_SLOT_ACC.DIE : Field := ⟨.RED_SLOT_ACC, 20, 1⟩
abbrev RED_SLOT_WINDOW.WINDOW : Field := ⟨.RED_SLOT_WINDOW, 0, 12⟩
abbrev SNAP_CTX_CFG.MIRROR : Field := ⟨.SNAP_CTX_CFG, 0, 1⟩
abbrev SNAP_CTX_CFG.LEAD : Field := ⟨.SNAP_CTX_CFG, 1, 1⟩
abbrev SNAP_CTX_CFG.PEER_CTX : Field := ⟨.SNAP_CTX_CFG, 8, 6⟩
abbrev SNAP_CTX_CFG.PEER_PART : Field := ⟨.SNAP_CTX_CFG, 14, 3⟩
abbrev SNAP_CTX_CFG.LOSS_KNOT : Field := ⟨.SNAP_CTX_CFG, 17, 11⟩
abbrev SNAP_CTX_CMD.CMD : Field := ⟨.SNAP_CTX_CMD, 0, 3⟩
abbrev SNAP_CTX_STATUS.RESULT : Field := ⟨.SNAP_CTX_STATUS, 0, 4⟩
abbrev SNAP_CTX_STATUS.BUSY : Field := ⟨.SNAP_CTX_STATUS, 4, 1⟩
abbrev SNAP_CTX_STATUS.ROLLBACK_OK : Field := ⟨.SNAP_CTX_STATUS, 5, 1⟩
abbrev SNAP_TX_POINT.COUNT : Field := ⟨.SNAP_TX_POINT, 0, 64⟩
abbrev SNAP_RX_POINT.COUNT : Field := ⟨.SNAP_RX_POINT, 0, 64⟩
abbrev SNAP_RX_BASE.ADDR : Field := ⟨.SNAP_RX_BASE, 0, 64⟩
abbrev SNAP_RX_SLOT.UNITS : Field := ⟨.SNAP_RX_SLOT, 0, 32⟩
abbrev SNAP_DELTA_SIZE.UNITS : Field := ⟨.SNAP_DELTA_SIZE, 0, 32⟩
abbrev SNAP_DELTA_BASE.ADDR : Field := ⟨.SNAP_DELTA_BASE, 0, 64⟩
abbrev SNAP_BOARD_BASE.ADDR : Field := ⟨.SNAP_BOARD_BASE, 0, 64⟩
abbrev SNAP_PREV_CURSOR.POS : Field := ⟨.SNAP_PREV_CURSOR, 0, 64⟩
abbrev SNAP_RST_ADDR.ADDR : Field := ⟨.SNAP_RST_ADDR, 0, 64⟩
abbrev SNAP_RST_COUNT.COUNT : Field := ⟨.SNAP_RST_COUNT, 0, 64⟩
abbrev SNAP_AUTO.MIN_UNITS : Field := ⟨.SNAP_AUTO, 0, 24⟩
abbrev SNAP_AUTO.RATE_MAX : Field := ⟨.SNAP_AUTO, 24, 8⟩
abbrev SNAP_MIR_WAITS.COUNT : Field := ⟨.SNAP_MIR_WAITS, 0, 64⟩
abbrev SNAP_FOLDS.COUNT : Field := ⟨.SNAP_FOLDS, 0, 64⟩
abbrev SNAP_UNRECORDED.COUNT : Field := ⟨.SNAP_UNRECORDED, 0, 64⟩
abbrev SNAP_RX_SIDE.UNITS : Field := ⟨.SNAP_RX_SIDE, 0, 32⟩
abbrev SNAP_STREAM_ID.ID : Field := ⟨.SNAP_STREAM_ID, 0, 32⟩
abbrev SNAP_STREAM_DRAWS.DRAWS : Field := ⟨.SNAP_STREAM_DRAWS, 0, 32⟩
abbrev SNAP_STREAM_POS.POSITION : Field := ⟨.SNAP_STREAM_POS, 0, 64⟩
abbrev SNAP_ENTRY.METHOD_REQ : Field := ⟨.SNAP_ENTRY, 0, 2⟩
abbrev SNAP_ENTRY.METHOD : Field := ⟨.SNAP_ENTRY, 2, 2⟩
abbrev SNAP_ENTRY.RATE : Field := ⟨.SNAP_ENTRY, 8, 8⟩
abbrev SNAP_ENTRY.MIR_OFF : Field := ⟨.SNAP_ENTRY, 16, 32⟩
abbrev SNAP_EXP_CMD.CMD : Field := ⟨.SNAP_EXP_CMD, 0, 2⟩
abbrev SNAP_EXP_CMD.SPACE : Field := ⟨.SNAP_EXP_CMD, 2, 1⟩
abbrev SNAP_EXP_CMD.BUSY : Field := ⟨.SNAP_EXP_CMD, 4, 1⟩
abbrev SNAP_EXP_CMD.RESULT : Field := ⟨.SNAP_EXP_CMD, 8, 4⟩
abbrev SNAP_EXP_DEST.ADDR : Field := ⟨.SNAP_EXP_DEST, 0, 64⟩
abbrev SNAP_EXP_LIMIT.BYTES : Field := ⟨.SNAP_EXP_LIMIT, 0, 64⟩
abbrev SNAP_EXP_TARGET.ADDR : Field := ⟨.SNAP_EXP_TARGET, 0, 64⟩
abbrev SCHED_PICK_NOW.VALUE : Field := ⟨.SCHED_PICK_NOW, 0, 64⟩
abbrev SCHED_PICK_CFG.PICK_LOG2 : Field := ⟨.SCHED_PICK_CFG, 0, 5⟩
abbrev SCHED_PICK_CFG.FABRIC_LOCK : Field := ⟨.SCHED_PICK_CFG, 8, 1⟩
abbrev SCHED_CTX_SEND_DL.PICK : Field := ⟨.SCHED_CTX_SEND_DL, 0, 64⟩
abbrev SCHED_CTX_SEND_POL.POLICY : Field := ⟨.SCHED_CTX_SEND_POL, 0, 1⟩
abbrev SCHED_WIN_CLOSE.PICK : Field := ⟨.SCHED_WIN_CLOSE, 0, 64⟩
abbrev SCHED_WIN_STATUS.SHORT : Field := ⟨.SCHED_WIN_STATUS, 0, 1⟩
abbrev SCHED_WIN_STATUS.CLOSED : Field := ⟨.SCHED_WIN_STATUS, 1, 1⟩
abbrev SCHED_WIN_STATUS.SLOTS_SHORT : Field := ⟨.SCHED_WIN_STATUS, 8, 16⟩
abbrev SCHED_WIN_LATE.COUNT : Field := ⟨.SCHED_WIN_LATE, 0, 64⟩
abbrev OWN_ID.RED_ID : Field := ⟨.OWN_ID, 0, 16⟩
abbrev OWN_ID.OWNER : Field := ⟨.OWN_ID, 16, 16⟩
abbrev OWN_FIRST.BLOCK : Field := ⟨.OWN_FIRST, 0, 32⟩
abbrev OWN_COUNT.BLOCKS : Field := ⟨.OWN_COUNT, 0, 32⟩
abbrev OWN_CTRL.VALID : Field := ⟨.OWN_CTRL, 0, 1⟩
abbrev OWN_CTRL.CTX : Field := ⟨.OWN_CTRL, 8, 6⟩

end Sys2Proof.Machine
end

