-- ==== Sys2Proof/Machine/State.lean ====
section
/-! DEFINITION. The state of the GT4, as plain data: its registers, memories, engines, queues, links, batten, reduction
slots, custody, logs and power, and the queue of commands that wait. -/

namespace Sys2Proof.Machine
open Sys2Proof

/-- Why the block stops with a fault. No command of the table faults: everything the spec gives an effect has it, and what
the spec leaves open is a free value. -/
inductive Fault where
  /-- Raised by no command; a machine that stopped so would be outside the spec. Safe. -/
  | halted
  deriving DecidableEq, Repr

/-- Why a command is refused. -/
inductive Refusal where
  /-- Raised by an arm of Dispatch whose command has no meaning yet. Safe: the model stops. -/
  | notModelled (mnemonic : String)
  deriving DecidableEq, Repr

/-! ### Engines -/

/-- What a program state waits for (R236). -/
inductive Wait where
  | none
  | units (mask : Nat)
  | shuttle (count : Nat)
  | knot (k v : Nat)
  | pick (n : Nat)
  | stepState (d : Nat)
  | flags (d : Nat)
  | ending (x : Nat)
  deriving DecidableEq, Repr

/-- A status met by an opcode at an address, whose bit 40 tells the space, and the number of the instruction that met it (R246, R247,
R274). -/
structure Trap where
  seq : Nat
  status : Status
  addr : Nat
  opcode : Nat
  deriving DecidableEq, Repr

/-- A program state (R237). -/
structure Prog where
  ctx : Nat
  queue : Nat
  cmd : Nat
  pc : Nat
  beam : Bool
  s : SMap W64 := []
  a : SMap W64 := []
  p : SMap W64 := []
  v : SMap W32 := []
  t : SMap (BitVec 128) := []
  fpcr : Nat := 0
  flags : Nat := 0
  wait : Wait := .none
  seq : Nat := 0
  deferred : List Trap := []
  trap : Option Trap := none
  /-- Whether a YIELD has given up the next turn to issue (R250). -/
  yielded : Bool := false
  deriving DecidableEq, Repr

/-- What an instruction does to the registers when it completes (R76, R123, R243). -/
inductive Post where
  | count (r : RegName) (i j n : Nat)
  | ovf (p layer n : Nat)
  | watch (grad : Bool) (p layer n above nf : Nat) (sum : Dy)
  | fault (p v : Nat)
  deriving DecidableEq, Repr

/-- The converter's operations (R74). -/
inductive CnvOp where
  | packAct | packWgtInit | packWgt | unpack | rotate | round
  deriving DecidableEq, Repr

/-- What a converter instruction has still to do (R75, R257): its operation and descriptors, the destination format and rotation order in
force, the scale plane that it writes, its layer, the tiles it has completed, and CNV_KAPPA.MUL and CNV_OVF_LIMIT.TILE_LIMIT as the start of
the tile in flight found them. -/
structure CnvWork where
  op : CnvOp
  src : BitVec 128
  dst : BitVec 128
  fmt : Nat
  rot : Nat
  plane : Option Nat
  layer : Nat
  done : Nat
  latched : Option (Nat × Nat)
  deriving DecidableEq, Repr

/-- An instruction that a unit of an engine holds. The oldest of a unit has started; the others have not (R236, R243). -/
structure UnitOp where
  prog : Nat
  ctx : Nat
  unit : Nat
  trap : Trap
  flags : Nat
  reads : List (Nat × Nat)
  writes : List (Nat × Nat)
  posts : List Post
  work : Option CnvWork
  deriving DecidableEq, Repr

/-- Who waits for an asynchronous operation: a program state's instruction or a queue's command (R247, R271). -/
inductive Owner where
  | prog (key seq addr opcode : Nat)
  | cmd (queue n : Nat)
  | device
  deriving DecidableEq, Repr

/-- What an asynchronous operation is (R252, R262, R263). -/
inductive Work where
  | copy (src dst len hint : Nat)
  | fill (dst len : Nat)
  | send (red ord : Nat)
  | scan (red ord : Nat) (first : Option Nat)
  | calib
  | knotAdd
  deriving DecidableEq, Repr

/-- An asynchronous operation under way. -/
structure AsyncOp where
  id : Nat
  owner : Owner
  part : Nat
  ctx : Nat
  engine : Nat
  work : Work
  knot : Option Nat
  status : Option Status
  deriving DecidableEq, Repr

/-! ### Queues, schedules, passes -/

/-- A copy that a LAUNCH started, with how it ended: status code, FLAGS, and its RESULT word (R272, R274). -/
structure Copy where
  engine : Nat
  ended : Option (Status × Nat × Nat)
  deriving DecidableEq, Repr

/-- A fetched command that has not completed. `index` tells it from every other command. -/
structure Cmd where
  index : Nat
  words : List W64
  started : Bool
  blocked : Bool
  copies : List Copy
  deriving DecidableEq, Repr

/-- A queue beyond its registers: the commands fetched and not complete, and the completion records written (R274). -/
structure Queue where
  cmds : List Cmd := []
  records : Nat := 0
  deriving DecidableEq, Repr

/-- A scheduled signal, in order of entry (R280). -/
structure Sched where
  part : Nat
  ctx : Nat
  pick : Nat
  knot : Nat
  add : Nat
  cmd : Option (Nat × Nat)
  deriving DecidableEq, Repr

/-- An open generating pass: the queue that opened it, the slots it latched, as entry and physical slot, and the halves of the reserve
that stand for them, as layer and half (R124, R230, R285). -/
structure Pass where
  part : Nat
  ctx : Nat
  queue : Nat
  src : Nat
  slots : List (Nat × Nat)
  halves : List (Nat × Nat)
  deriving DecidableEq, Repr

/-! ### The step -/

/-- A scan result held for the open step (R192). -/
structure Scan where
  red : Nat
  ord : Nat
  first : Option Nat
  deriving DecidableEq, Repr

/-- Noise sums of one group in the open step (R209). -/
structure Noise where
  group : Nat
  contrib : Dy
  reduced : Dy
  blocks : Nat
  deriving DecidableEq, Repr

/-- The reserve area of a widened layer: its runs of 64 KiB units of the context's reserve, as first unit and count, in order; which half is
front; and whether it has been released and only instructions that run wide still read it (R123, R124). -/
structure WideArea where
  part : Nat
  ctx : Nat
  layer : Nat
  units : List (Nat × Nat)
  front : Nat
  gone : Bool
  deriving DecidableEq, Repr

/-- An ordinal that a DROP added to the drop list of a RED_ID: the device that sent it, and the index of the element it named (R193). -/
structure Dropped where
  red : Nat
  ord : Nat
  dev : Nat
  elem : Nat
  deriving DecidableEq, Repr

/-- A context's step beyond its registers: what OPEN latched and what the step has gathered (R219 to R227). -/
structure StepRec where
  commitReq : Bool := false
  latchedGather : Nat := 0
  psets : SMap W64 := []
  sequence : SMap W32 := []
  pos : Nat := 0
  policy : Option Nat := none
  expset : List (Nat × Nat) := []
  wideNow : List Nat := []
  gcfg : SMap W64 := []
  updated : List Nat := []
  /-- Entries whose write has waited in the step: under R230 (false) or R346 (true). -/
  waited : List (Nat × Bool) := []
  written : List (Nat × Nat × Nat) := []
  gathered : Nat := 0
  gatherDone : Bool := false
  scans : List Scan := []
  lateness : List (Nat × Bool) := []
  /-- The (RED_ID, ordinal) pairs for which DROPs have gone (R192, R288). -/
  dropSent : List (Nat × Nat) := []
  drops : List Dropped := []
  expmax : List (Nat × Nat × Nat) := []
  noise : List Noise := []
  signalPick : Nat := 0
  queryPick : Option Nat := none
  flip : Option Nat := none
  union : List Byte := []
  ended : List Nat := []
  microPos : Nat := 0
  microOpen : Bool := true
  saved : SMap W64 := []
  committedWide : List Nat := []
  /-- Exponent back copies before the step filled them: RED_ID, CALIB mark and bytes (R184, R227). -/
  backs : List (Nat × Nat × List Int) := []
  deriving DecidableEq, Repr

/-! ### Reduction -/

/-- A slot beyond its descriptor: what it has accepted (R183, R189). -/
structure Slot where
  clearing : Bool := false
  accepted : Nat := 0
  sin : Nat := 0
  noise : SMap (Dy × Nat) := []
  deriving DecidableEq, Repr

/-- A held packet (R190): the context it was for, the die that holds it, and the pick since which it is held. -/
structure Held where
  part : Nat
  ctx : Nat
  die : Nat
  since : Nat
  pk : Packet
  deriving DecidableEq, Repr

/-- A packet sent and not resolved (R181, R188, R263). -/
structure Sent where
  seq : Nat
  job : Nat
  op : Nat
  fails : Nat
  bounced : Bool
  pk : Packet
  deriving DecidableEq, Repr

/-- A home's record of one STEP of one job (R222, R225). Members are (device, partition × 64 + context). -/
structure Home where
  job : Nat
  step : Nat
  members : Nat
  lead : Nat
  twin : Nat
  signals : List (Nat × Nat)
  union : List Byte
  decision : Option (Nat × Nat × Nat)
  sent : Bool
  deriving DecidableEq, Repr

/-- A decision recorded for a home by its twin (R222, R223). -/
structure TwinRec where
  home : Nat
  job : Nat
  step : Nat
  decision : Nat
  flip : Nat
  cause : Nat
  union : List Byte
  deriving DecidableEq, Repr

/-! ### Links and time -/

/-- What a flit carries (R165, R168, R172, R336). A control flit: the sender's level, identifier, kind and good lanes; its stamps, hops
and lock; the first flit missing; its identifier, its OVERRIDE and its descriptor's role and feed tags; nothing. A data flit: up to 496 B
of a packet of a traffic class. -/
inductive FlitBody where
  | negotiate (level id : Nat) (isSwitch : Bool) (lanes : Nat)
  | time (t1 : Nat) (t4 : Option Nat) (hops : Nat) (lock : Bool) (epoch : Nat)
  | retryReq (seq : Nat)
  | pair (id : Nat) (override : Bool) (desc : Option (Nat × List Nat))
  | idle
  | data (cls : Nat) (bytes : List Byte)
  deriving DecidableEq, Repr

/-- A flit sent (R165, R166): its SEQ, the class and number of the credits it returns, and what it carries. -/
structure Flit where
  seq : Nat
  tc : Nat
  credit : Nat
  body : FlitBody
  deriving DecidableEq, Repr

/-- A packet that waits at a link for its flits to go (R167, R169): its class, itself, and its sealed bytes that have not gone. -/
structure TxPacket where
  cls : Nat
  pk : Packet
  left : List Byte
  deriving DecidableEq, Repr

/-- A port's link layer beyond its registers (R165 to R169, R171, R172): the next SEQ to send, the flits sent and not acknowledged, the
next SEQ expected; credits by class, and credits to return by class; the control messages and the packets that wait; what the round of
the weighted classes leaves each; replays (false) and uncorrectable codewords (true) of the last millisecond by fabric time; failed
retrains in a row, whether a NEGOTIATE has come; the last exchange's t1, t2 and t3, and when the last TIME message came. -/
structure Port where
  txSeq : Nat := 0
  unacked : List Flit := []
  rxNext : Nat := 0
  credits : List Nat := [0, 0, 0, 0, 0, 0, 0, 0]
  owed : List Nat := [0, 0, 0, 0, 0, 0, 0, 0]
  ctl : List FlitBody := []
  queue : List TxPacket := []
  quota : List Nat := [0, 0, 0]
  faults : List (Nat × Bool) := []
  failures : Nat := 0
  heard : Bool := false
  last : Option (Nat × Nat × Nat) := none
  lastRx : Option Nat := none
  deriving DecidableEq, Repr

/-! ### Tension monitor, HBM, custody, logs, resets -/

/-- A record of the logs before it reaches its ring (R402), and the ring it goes to: 8 the operator's, p the tenant's. -/
structure LogRec where
  ring : Nat
  time : Nat
  kind : Nat
  flags : Nat
  source : Nat
  count : Nat
  body : List Byte
  deriving DecidableEq, Repr

/-- A line of a beam store's cache part (R323): its number, its keep bit, and the blocks it holds, each with the bits in which it differs from
what was last written to the stack. -/
structure Line where
  line : Nat
  keep : Bool
  blocks : List (Nat × List Byte)
  deriving DecidableEq, Repr

/-- An access to a stack that waits for a channel or bank (R297, R309). -/
inductive HbmReq where
  | read (a : Agent) (addr n : Nat)
  | write (a : Agent) (addr : Nat) (bytes : List Byte) (poisoned : Bool)
  deriving DecidableEq, Repr

/-- A row tracked by a stack's controller (R309), the least recently updated first. -/
structure Track where
  stack : Nat
  ch : Nat
  pc : Nat
  bank : Nat
  row : Nat
  count : Nat
  deriving DecidableEq, Repr

/-- A job key set in the security engine (R365, R367). `keys` are the 192 bytes of JOB_KEYS_SET. -/
structure KeySet where
  job : Nat
  gen : Nat
  pin : List Byte
  keys : List Byte
  next : Option (Nat × List Byte × List Byte)
  old : List Byte
  oldUntil : Nat
  retired : List (Nat × List Byte × Nat)
  deriving DecidableEq, Repr

/-- An SPDM session on a function: p a partition's, 8 physical function 0, 9 MCTP; the hash of the requester's key; and the keys of its
schedule (R364, R371). -/
structure Session where
  func : Nat
  id : Nat
  pin : List Byte
  finished : Bool
  updates : Nat
  keys : List Byte
  deriving DecidableEq, Repr

/-- A replay window (R368): the highest accepted SEQ and which of those below it were accepted. -/
structure Window where
  job : Nat
  src : Nat
  gen : Nat
  high : Nat
  seen : List Nat
  deriving DecidableEq, Repr

/-- A delta of the delta area (R345): the receiving context, its slot of 4,224 B, its commit, and its place in the mirror area. -/
structure Delta where
  part : Nat
  ctx : Nat
  slot : Nat
  commit : Nat
  off : Nat
  deriving DecidableEq, Repr

/-- A board-tier or host command of the snapshot agent under way: the context and what it will write (R358, R382). -/
structure SnapJob where
  part : Nat
  ctx : Nat
  promote : Bool
  status : Status
  writes : List (Nat × List Byte)
  host : Bool
  size : Nat
  deriving DecidableEq, Repr

/-- The board descriptor that the ROM has checked (R428): the twin, the role, the tray controller's I3C address and the feed tags. -/
structure Tabnex where
  twin : Nat
  role : Nat
  tray : Nat
  feeds : List Nat
  deriving DecidableEq, Repr

/-- A flash command under way: its CMD, chip-select and address, and the page it programs (R432). -/
structure FlashOp where
  cmd : Nat
  sel : Nat
  addr : Nat
  page : List Byte
  deriving DecidableEq, Repr

/-- What leaves the block. -/
inductive Out where
  /-- A flit: its port, header, contents, payload bytes and check (R165). -/
  | flit (port hdr : Nat) (b : FlitBody) (payload : List Byte) (check : Nat)
  | msix (part vf vec : Nat)
  | read (v : Nat)
  | data (st : Status) (bytes : List Byte)
  | poisoned
  | i3c (addr : Nat) (bytes : List Byte)
  | spdm (func code : Nat) (body : List Byte)
  | custody (func code status : Nat) (body : List Byte)
  | pin (name : Nat) (level : Bool)
  | smbus (v : Nat)
  deriving DecidableEq, Repr

/-! ### The state -/

/-- The machine. `regs` holds every register of the register map, keyed by register and indices; a register at its reset
value is unlisted. Memories are canonical stores of bytes, an unlisted byte reading as zero. -/
structure State where
  /-- The commands that wait, the next one first. -/
  pending : List Instr
  regs : SMap W64
  /-- Low halves held by split writes, and high halves latched by split reads (R12). -/
  heldLow : SMap W32
  latchedHigh : SMap W32
  /-- How many free values have been taken (the model's own field). -/
  free : Nat
  /-- What the block has sent, the oldest first. -/
  outs : List Out
  hbm : SMap Byte
  bobbin : SMap Byte
  beam : SMap Byte
  /-- The expanders' bytes, keyed by (2 × port + expander) × 2^41 + offset (R325). -/
  board : SMap Byte
  /-- The sets of the beam stores' cache parts, keyed by partition × 2^14 + set; of a set's lines the least recently used first (R323). -/
  lines : SMap (List Line)
  /-- The ports of the board-tier map, in ascending order (R325). -/
  mapPorts : List Nat
  host : SMap Byte
  /-- POISON of each 64 B block (R300). -/
  poison : SMap Bool
  /-- The bits of stored blocks that have turned since they were written: 64 data and 8 side-band bytes (R300). -/
  damage : SMap (List Byte)
  /-- Pattern cards, keyed by bank, partition and page; and the pages whose zero bit is clear (R316, R376). -/
  cards : SMap (BitVec 16)
  unzeroed : SMap Bool
  /-- Fills of the shadow cards since the bank became shadow, as partition, first page and count (R316). -/
  fills : List (Nat × Nat × Nat)
  progs : SMap Prog
  /-- For each engine, the program state after the one that issued last (R236), and the words of its instruction cache, the newest first
  (R238). -/
  nextTurn : SMap W32
  icache : SMap (List (Nat × W64))
  unitOps : List UnitOp
  asyncs : List AsyncOp
  nextOp : Nat
  queues : SMap Queue
  /-- For each partition, the queue after the one last served (R275). -/
  nextQueue : SMap W32
  sched : List Sched
  passes : List Pass
  steps : SMap StepRec
  /-- Registration entries as VALIDATE took them (R205), and the ROT recorded for each RED_ID of a context, plus one (R206). -/
  validated : SMap W64
  rots : SMap W32
  /-- The watched outputs of each layer's open micro-step: exact sum of squares, count, and squares beyond FP32 (R120, R155). -/
  tension : SMap (Dy × Nat × Nat)
  /-- Partitions whose arrays wrote non-finite outputs since their last micro-step close (R400, class 0x23). -/
  nfRose : List Nat
  wideAreas : List WideArea
  slots : SMap Slot
  acc : SMap W32
  accMask : SMap W32
  accMax : SMap W32
  heldPackets : List Held
  sent : List Sent
  /-- Packets the device has addressed to itself and not yet delivered (R179). -/
  loop : List Packet
  sendSeq : SMap W64
  homes : List Home
  twinRecs : List TwinRec
  /-- Selvage packets sent that an ACK may answer, contexts that have streamed since the pair was admitted, and entries to be sent
  in full (R336, R340, R344, R347). -/
  selvSent : List Packet
  streamed : List Nat
  mirrorFull : List Nat
  /-- Contexts whose commit is being streamed again in full (R340, R350). -/
  restreaming : List Nat
  /-- The commit a context receives for its peer and the bytes of it that have come; its deltas; the mirror point at its last fold;
  byte 8 of the twin's last HEARTBEAT (R340, R341, R345, R347). -/
  rxStream : SMap (Nat × Nat)
  deltas : List Delta
  lastFold : SMap W64
  twinFlags : Nat
  /-- Side records of context records, whose place in memory the spec does not give; the valid descriptor of this boot; the twin of the
  admission that set COMMON_FEED; and whether the reset level has been crossed (R336, R337, R341, R345). -/
  recSides : SMap (List Byte)
  tabnex : Option Tabnex
  commonTwin : Nat
  resetCrossed : Bool
  /-- The key of the pair, none where no pair has been admitted since the last chip reset (R364). -/
  pairKey : Option (List Byte)
  /-- The links, the selvage link as number 16; and the selvage link's STATE, level and partner, coded as WEFT_PORT_STATUS (R338). -/
  ports : SMap Port
  selvLink : Nat
  /-- Whether the device has ever locked, its consecutive good exchanges, twice the correction it has formed before its first lock, and whether it
  acts as a non-root since a conflict (R173, R282, R284). -/
  everLocked : Bool
  goodExchanges : Nat
  servo : Int
  demoted : Bool
  /-- How far a locked device is still ahead of fabric time while it holds its own still, in units of 2^−4 ns (R284). -/
  ahead : Nat
  /-- Whether the management controller has stopped (R26, R388). -/
  mgmtStopped : Bool
  /-- The 156.25 MHz reference: 0 present, 1 lost, 2 lost beyond its holdover (R424). -/
  refclk : Nat
  /-- 48-bit sets kept by a stack's controller and channels (R295, R309, R319). -/
  tracks : List Track
  repairing : List Track
  /-- Corrected symbols of the last millisecond, as stack, channel, lane and time; spares found bad in training; accesses that wait (R294,
  R295, R297, R309). -/
  laneHits : List (Nat × Nat × Nat × Nat)
  badSpares : List (Nat × Nat × Nat)
  hbmWaiting : List HbmReq
  exhaustedLanes : List (Nat × Nat × Nat)
  /-- Partitions that a failed reset holds out of service (R391). -/
  heldParts : List Nat
  /-- Lanes being replaced, as stack, channel and lane; HBM_CE at the last rate check; the next block of each channel's scrub pass; generator
  runs that STOP has ended; and the pattern-card command of each partition: command, first page, pages, card (R295, R299, R307, R317,
  R319). -/
  laneBusy : List (Nat × Nat × Nat)
  ceMark : SMap W64
  scrubPos : SMap W64
  tgStopped : List (Nat × Nat)
  cardOps : SMap (Nat × Nat × Nat × Nat)
  keys : List KeySet
  sessions : List Session
  pins : SMap (List Byte)
  ideWaived : List Nat
  windows : List Window
  snapJobs : List SnapJob
  /-- The staging store and the coalescing table, the oldest and the least recently used first (R407, R408). -/
  staged : List LogRec
  /-- The risk accumulator E and the highest junction temperature in °C (R348). -/
  riskE : Nat
  junction : Nat
  coalesce : List LogRec
  msRecords : Nat
  msNumber : Nat
  traced : SMap W64
  /-- Whether a profile or role change waits for a pick boundary; the clock each partition is to run at (1,600 where unlisted); since when
  no excursion has been open, and since when the junction has been at or below 95 °C (R36, R40, R421). -/
  profileReq : Bool
  clockTarget : SMap W32
  calmSince : Option Nat
  coolSince : Option Nat
  /-- The source that a handover has latched, as context index (R229). -/
  handSrc : SMap W32
  /-- The committed cursor of the commit that a hold keeps (R217, R381). -/
  holdCursor : SMap W64
  /-- Whether SEC_ZERO_ALL has completed since the last admission; the hash from which the alias key in use was derived; and what the
  boot measured, by index (R364, R369, R370). -/
  zeroedAll : Bool
  aliasKey : List Byte
  measured : SMap (List Byte)
  /-- Suspects of each engine, in replay order, and what is being reset (R389, R395). -/
  suspects : List (Nat × Nat)
  resetting : List (Nat × Nat)
  /-- Context and engine pairs whose started unit instructions drain (R386); partition resets that wait, with their cause (R394); and
  HANG_CFG.MAX_LEVEL before the last chip reset, which the always-on domain keeps (R429). -/
  draining : List (Nat × Nat)
  resetDue : List (Nat × Nat)
  maxBefore : Nat
  /-- The two SPI flashes, keyed by chip-select × 2^28 + address, an erased byte reading as 0xFF; the flash command under way; and the
  generation being programmed with its 128 bytes (R426, R432, R435). -/
  flash : SMap Byte
  flashOp : Option FlashOp
  otpOp : Option (Nat × List Byte)
  /-- The levels of HBM_PG and HBM_EN; whether THERMTRIP_N and PCIE_PERST_N are low; whether a wake from D3 or D4 waits for the stacks; and
  whether VAON is in range (R438, R445, R441, R446, R447). -/
  hbmPg : Bool
  hbmEn : Bool
  thermtrip : Bool
  perst : Bool
  exiting : Bool
  vaon : Bool
  /-- Open excursions: the fabric time of the fall below warning, by rail; and when an excursion last sent FLUSH (R419, R420). -/
  dips : SMap W64
  dipFlush : Option Nat
  deriving DecidableEq, Repr

/-- The machine after reset: every register at its reset value, nothing listed in any memory, nothing under way. -/
def State.reset : State :=
  { pending := [], regs := [], heldLow := [], latchedHigh := [], free := 0, outs := [], hbm := [], bobbin := [], beam := [], board := [],
    lines := [], mapPorts := [], host := [], poison := [], damage := [], cards := [], unzeroed := [], fills := [], progs := [],
    nextTurn := [], icache := [], unitOps := [], asyncs := [], nextOp := 1, queues := [], nextQueue := [], sched := [], passes := [],
    steps := [], validated := [], rots := [], tension := [], nfRose := [], wideAreas := [], slots := [], acc := [], accMask := [],
    accMax := [], heldPackets := [], sent := [], loop := [], sendSeq := [], homes := [], twinRecs := [], selvSent := [], streamed := [],
    mirrorFull := [], restreaming := [], rxStream := [], deltas := [], lastFold := [], twinFlags := 0, recSides := [], tabnex := none,
    commonTwin := 0, resetCrossed := false, pairKey := none, ports := [], selvLink := 0, everLocked := false, goodExchanges := 0,
    servo := 0, demoted := false, ahead := 0, mgmtStopped := false, refclk := 0, tracks := [], repairing := [], laneHits := [],
    badSpares := [], heldParts := [], hbmWaiting := [], exhaustedLanes := [], laneBusy := [], ceMark := [], scrubPos := [],
    tgStopped := [], cardOps := [], keys := [], sessions := [], pins := [], ideWaived := [], windows := [], snapJobs := [], staged := [],
    riskE := 0, junction := 0, coalesce := [], msRecords := 0, msNumber := 0, traced := [], profileReq := false, clockTarget := [],
    calmSince := none, coolSince := none, handSrc := [], holdCursor := [], zeroedAll := false, aliasKey := [], measured := [],
    suspects := [], resetting := [], draining := [], resetDue := [], maxBefore := 3, flash := [], flashOp := none, otpOp := none,
    hbmPg := false, hbmEn := false, thermtrip := false, perst := false, exiting := false, vaon := true, dips := [], dipFlush := none }

end Sys2Proof.Machine
end

