-- ==== Sys2Proof/Machine/Aes.lean ====
section
/-! DEFINITION. AES-256 on 16-byte blocks, the counter-based draws of R351, the XTS units of the board tier (R327) and the
counter mode of GCM. Byte lists are in the standard's order: byte 0 first. -/

namespace Sys2Proof.Machine
open Sys2Proof

/-- Doubling in GF(2^8) modulo x^8 + x^4 + x^3 + x + 1. -/
def gfDouble (x : Byte) : Byte := (x <<< 1) ^^^ (if x.msb then 0x1B else 0)

/-- The product in GF(2^8), from the top bit of the multiplier down. -/
def gfMul (x y : Byte) : Byte :=
  (List.range 8).foldl (fun a i => gfDouble a ^^^ (if y.getLsbD (7 - i) then x else 0)) 0

/-- The inverse x^254, and 0 of 0. -/
def gfInv (x : Byte) : Byte :=
  let x2 := gfMul x x
  let x4 := gfMul x2 x2
  let x8 := gfMul x4 x4
  let x16 := gfMul x8 x8
  let x32 := gfMul x16 x16
  let x64 := gfMul x32 x32
  gfMul (gfMul (gfMul x2 x4) (gfMul x8 x16)) (gfMul (gfMul x32 x64) (gfMul x64 x64))

/-- The substitution of AES. -/
def sbox (x : Byte) : Byte :=
  let b := gfInv x
  b ^^^ b.rotateLeft 1 ^^^ b.rotateLeft 2 ^^^ b.rotateLeft 3 ^^^ b.rotateLeft 4 ^^^ 0x63

/-- Its inverse. -/
def invSbox (x : Byte) : Byte := gfInv (x.rotateLeft 1 ^^^ x.rotateLeft 3 ^^^ x.rotateLeft 6 ^^^ 0x05)

/-- Byte by byte exclusive or. -/
def xorBytes (a b : List Byte) : List Byte := List.zipWith (· ^^^ ·) a b

/-- Byte `i` of a block. -/
def byteAt (b : List Byte) (i : Nat) : Byte := b.getD i 0

/-- The words of the AES-256 key schedule, the last first: `n` words more. -/
def keyWords : Nat → List (List Byte) → Byte → Nat → List (List Byte)
  | 0, ws, _, _ => ws
  | n + 1, ws, rcon, i =>
    let prev := ws.getD 0 []
    let t :=
      if i % 8 = 0 then
        let r := (prev.drop 1 ++ prev.take 1).map sbox
        (byteAt r 0 ^^^ rcon) :: r.drop 1
      else if i % 8 = 4 then prev.map sbox
      else prev
    keyWords n (xorBytes (ws.getD 7 []) t :: ws) (if i % 8 = 0 then gfDouble rcon else rcon) (i + 1)

/-- The fifteen round keys of a 32-byte key. -/
def roundKeys (key : List Byte) : List (List Byte) :=
  let first := (List.range 8).map (fun i => (key.drop (4 * i)).take 4)
  let ws := (keyWords 52 first.reverse 1 8).reverse.flatten
  (List.range 15).map (fun r => (ws.drop (16 * r)).take 16)

/-- Row r of a block shifts left by r columns. -/
def shiftRows (b : List Byte) : List Byte := (List.range 16).map (fun i => byteAt b ((i + 4 * (i % 4)) % 16))
/-- Its inverse. -/
def invShiftRows (b : List Byte) : List Byte := (List.range 16).map (fun i => byteAt b ((i + 12 * (i % 4)) % 16))

/-- Each column times a circulant of four bytes. -/
def mixWith (c : List Byte) (b : List Byte) : List Byte :=
  (List.range 16).map (fun i =>
    (List.range 4).foldl (fun a k => a ^^^ gfMul (byteAt c ((k + 4 - i % 4) % 4)) (byteAt b (i / 4 * 4 + k))) 0)

/-- AES-256 encryption of a block. -/
def aesEncrypt (key block : List Byte) : List Byte :=
  let ks := roundKeys key
  let b := (List.range 13).foldl
    (fun b r => xorBytes (mixWith [2, 3, 1, 1] (shiftRows (b.map sbox))) (ks.getD (r + 1) []))
    (xorBytes block (ks.getD 0 []))
  xorBytes (shiftRows (b.map sbox)) (ks.getD 14 [])

/-- AES-256 decryption of a block. -/
def aesDecrypt (key block : List Byte) : List Byte :=
  let ks := roundKeys key
  let b := (invShiftRows (xorBytes block (ks.getD 14 []))).map invSbox
  let b := (List.range 13).foldl
    (fun b r => (invShiftRows (mixWith [14, 11, 13, 9] (xorBytes b (ks.getD (13 - r) [])))).map invSbox) b
  xorBytes b (ks.getD 0 [])

/-- The counter-based draw of R351: all 128 bits, as a number. -/
def draw (seed : List Byte) (id pos idx : Nat) : Nat :=
  let k := aesEncrypt seed (leBytes 16 (id % 2 ^ 32 + pos % 2 ^ 64 * 2 ^ 64))
  leNat (aesEncrypt seed (xorBytes k (leBytes 16 (idx % 2 ^ 64 * 2 ^ 64))))

/-- The tweak of 16-byte block `j` of an XTS unit: the encrypted unit number times x^j in GF(2^128). -/
def xtsTweak (key2 : List Byte) (unit j : Nat) : List Byte :=
  let t := leNat (aesEncrypt key2 (leBytes 16 unit))
  leBytes 16 ((List.range j).foldl (fun t _ => (2 * t) % 2 ^ 128 ^^^ (if bit t 127 then 0x87 else 0)) t)

/-- AES-256-XTS of a 64 B unit under the 64 key bytes of K_BOARD, the data key first (R327, R365). -/
def xtsUnit (cipher : List Byte → List Byte → List Byte) (key : List Byte) (unit : Nat) (data : List Byte) : List Byte :=
  (List.range 4).flatMap (fun j =>
    let t := xtsTweak (key.drop 32) unit j
    xorBytes t (cipher (key.take 32) (xorBytes t ((data.drop (16 * j)).take 16))))

/-- The counter mode of GCM under a 96-bit nonce: encryption and decryption alike. -/
def gcmCrypt (key nonce data : List Byte) : List Byte :=
  (List.range (ceilDiv data.length 16)).flatMap (fun i =>
    xorBytes ((data.drop (16 * i)).take 16) (aesEncrypt key (nonce ++ (leBytes 4 (i + 2)).reverse)))

end Sys2Proof.Machine
end

