-- ==== Sys2Proof/Machine/Transmit.lean ====
section
/-! DEFINITION. The fields of a packet (R177), packets as they are sealed (R177, R339, R340, R365), and the flits that leave a link (R165,
R166, R169, R171). -/

namespace Sys2Proof.Machine
open Sys2Proof

/-! ### Fields of a packet (R177) -/

/-- TYPE. -/
def pkType (k : Packet) : Nat := bits k.w0.toNat 0 4
/-- PLEVEL. -/
def pkLevel (k : Packet) : Nat := bits k.w0.toNat 4 4
/-- TCLASS. -/
def pkClass (k : Packet) : Nat := bits k.w0.toNat 8 3
/-- JOB. -/
def pkJob (k : Packet) : Nat := bits k.w0.toNat 16 16
/-- SRC. -/
def pkSrc (k : Packet) : Nat := bits k.w0.toNat 32 16
/-- DST. -/
def pkDst (k : Packet) : Nat := bits k.w0.toNat 48 16
/-- STEP. -/
def pkStep (k : Packet) : Nat := bits k.w1.toNat 0 32
/-- RED_ID. -/
def pkRed (k : Packet) : Nat := bits k.w1.toNat 32 16
/-- EPOCH. -/
def pkEpoch (k : Packet) : Nat := bits k.w1.toNat 48 16
/-- BLOCK. -/
def pkBlock (k : Packet) : Nat := bits k.w2.toNat 0 32
/-- LEN, in units of 32 B. -/
def pkLen (k : Packet) : Nat := bits k.w2.toNat 32 9
/-- CHECK. -/
def pkCheck (k : Packet) : Nat := bits k.w3.toNat 0 61
/-- SEQ. -/
def pkSeq (k : Packet) : Nat := k.w4.toNat
/-- ARG. -/
def pkArg (k : Packet) : Nat := k.w5.toNat
/-- OP of a KNOT packet (R278, R279). -/
def pkOp (k : Packet) : Nat := bits (pkArg k) 16 4
/-- COUNT of a CALIB, EXPMAX or EXPSET packet (R178). -/
def pkCount (k : Packet) : Nat := bits (pkArg k) 0 16
/-- Byte `i` of the payload. -/
def pkByte (k : Packet) (i : Nat) : Nat := (k.payload.getD i 0).toNat

/-! ### Sealing -/

/-- Bytes cut or padded with zeros to a length. -/
def toLen (n : Nat) (b : List Byte) : List Byte := b.take n ++ List.replicate (n - b.length) 0

/-- The 96-bit nonce of a packet: JOB, SRC and SEQ (R177). -/
def nonceOf (k : Packet) : List Byte := leBytes 12 (pkSeq k + pkSrc k * 2 ^ 64 + pkJob k * 2 ^ 80)

/-- The 64 bytes of a header. -/
def headerBytes (k : Packet) : List Byte :=
  [k.w0, k.w1, k.w2, k.w3, k.w4, k.w5, k.w6, k.w7].flatMap (fun w => leBytes 8 w.toNat)

/-- A packet encrypted under a key: header, ciphertext and tag (R177, R339). -/
def encryptPacket (k : Packet) (key : List Byte) : List Byte :=
  let c := gcmCrypt key (nonceOf k) k.payload
  headerBytes k ++ c ++ toLen 16 (Config.gcmTag key (nonceOf k) (headerBytes k) c)

/-- A packet authenticated under a key: header, payload and GMAC (R340). -/
def authPacket (k : Packet) (key : List Byte) : List Byte :=
  headerBytes k ++ k.payload ++ toLen 16 (Config.gcmTag key (nonceOf k) (headerBytes k ++ k.payload) [])

/-! ### Flits (R165) -/

/-- One bit of the CRC-64 of R165. -/
def crcBit (c : Nat) : Nat := if bit c 63 then (2 * c) % 2 ^ 64 ^^^ 0x42F0E1EBA9EA3693 else 2 * c

/-- The CRC-64 of bytes (R165): initial value 0, no final inversion, the most significant bit of each byte first (PRESUMED, log entry 33). -/
def crc64 (bs : List Byte) : Nat :=
  bs.foldl (fun c b => (List.range 8).foldl (fun c _ => crcBit c) (c ^^^ (b.toNat * 2 ^ 56))) 0

/-- The numbers that a flit's payload carries beside a packet's bytes. How a control message lies in its flit, and what follows the bytes of
a packet, the spec does not say: `Config.flitByte` (DESIGN CHOICE, log entry 33). -/
def FlitBody.codes : FlitBody → List Nat
  | .negotiate level id isSwitch lanes => [0, level, id, b2n isSwitch, lanes]
  | .time t1 t4 hops lock epoch => [1, t1, b2n t4.isSome, t4.getD 0, hops, b2n lock, epoch]
  | .retryReq seq => [2, seq]
  | .pair id override desc => 5 :: id :: b2n override :: (match desc with | some (role, feeds) => 1 :: role :: feeds | none => [0])
  | .idle => [3]
  | .data cls bytes => 4 :: cls :: bytes.map (fun b => b.toNat)

/-- The bytes of a packet that a flit carries. -/
def FlitBody.bytes : FlitBody → List Byte
  | .data _ bytes => bytes
  | _ => []

/-- KIND: 0 data, 1 control. -/
def FlitBody.kind : FlitBody → Nat
  | .data _ _ => 0
  | _ => 1

/-- The 496 bytes of a flit's payload. -/
def FlitBody.payload (b : FlitBody) : List Byte :=
  b.bytes.take 496 ++ (List.range (496 - b.bytes.length)).map (Config.flitByte b.codes)

/-- The header of a flit, with the SEQ of the last flit received intact. -/
def Flit.header (f : Flit) (ack : Nat) : Nat :=
  f.body.kind + f.seq * 2 ^ 2 + ack * 2 ^ 14 + f.tc * 2 ^ 26 + f.credit * 2 ^ 29

/-- A flit as it leaves a port. -/
def Flit.out (port ack : Nat) (f : Flit) : Out :=
  .flit port (f.header ack) f.body f.body.payload (crc64 (leBytes 8 (f.header ack) ++ f.body.payload))

/-- The SEQ that ACK names. -/
def Port.ack (x : Port) : Nat := (x.rxNext + 4095) % 4096

/-! ### Which flit goes next (R166, R169, R171) -/

/-- Whether a class has a flit to send: a packet waits, and the partner has buffer for it. The selvage link keeps no credits (R338). -/
def Port.ready (x : Port) (gated : Bool) (c : Nat) : Bool :=
  x.queue.any (fun t => t.cls = c) && (!gated || Decidable.decide (0 < x.credits.getD c 0))

/-- What a round leaves a weighted class. -/
def Port.share (x : Port) (c : Nat) : Nat := x.quota.getD (c - 2) 0

/-- The class served next: class 1 first; of the weighted classes one with flits left in the round, else one of a weight in a new round,
else one of weight 0. `w` holds the weights of classes 2 to 4. Rounds, and the order within one, are the model's (DESIGN CHOICE, log
entry 114). -/
def Port.choose (x : Port) (gated : Bool) (w : List Nat) : Option Nat :=
  if x.ready gated 1 then some 1
  else
    let r := [2, 3, 4].filter (fun c => x.ready gated c)
    match r.find? (fun c => 0 < x.share c) with
    | some c => some c
    | none =>
      match r.find? (fun c => 0 < w.getD (c - 2) 0) with
      | some c => some c
      | none => r.head?

/-- The rounds after a flit of class `c`. -/
def Port.quotaAfter (x : Port) (w : List Nat) (c : Nat) : List Nat :=
  if c = 1 then x.quota
  else if 0 < x.share c then x.quota.set (c - 2) (x.share c - 1)
  else if 0 < w.getD (c - 2) 0 then w.set (c - 2) (w.getD (c - 2) 0 - 1)
  else x.quota

/-- The oldest packet of a class gives its next 496 bytes. -/
def takeChunk (c : Nat) : List TxPacket → List Byte × List TxPacket
  | [] => ([], [])
  | t :: ts =>
    if t.cls = c then
      (t.left.take 496, if (t.left.drop 496).isEmpty then ts else { t with left := t.left.drop 496 } :: ts)
    else let (b, r) := takeChunk c ts; (b, t :: r)

/-- What a link sends next: a control message, or with `data` a flit of a packet. -/
def Port.next (x : Port) (data gated : Bool) (w : List Nat) : Option (FlitBody × Port) :=
  match x.ctl with
  | b :: t => some (b, { x with ctl := t })
  | [] =>
    if !data then none
    else match x.choose gated w with
      | none => none
      | some c =>
        let (b, q) := takeChunk c x.queue
        some (.data c b, { x with queue := q, quota := x.quotaAfter w c,
                                  credits := if gated then x.credits.set c (x.credits.getD c 0 - 1) else x.credits })

/-- The lowest class with credits to return. -/
def Port.owing (x : Port) : Nat := ((List.range 8).find? (fun c => 0 < x.owed.getD c 0)).getD 0

/-- A flit takes the next SEQ, returns credits, and is kept until it is acknowledged. -/
def Port.push (x : Port) (b : FlitBody) : Flit × Port :=
  let c := x.owing
  let n := min 4095 (x.owed.getD c 0)
  let f : Flit := ⟨x.txSeq, c, n, b⟩
  (f, { x with txSeq := (x.txSeq + 1) % 4096, unacked := x.unacked ++ [f], owed := x.owed.set c (x.owed.getD c 0 - n) })

/-- The flits that go now, at most `n`: none while 256 wait for an ACK (R166). -/
def Port.pump (data gated : Bool) (w : List Nat) : Nat → Port → List Flit × Port
  | 0, x => ([], x)
  | n + 1, x =>
    if 256 ≤ x.unacked.length then ([], x)
    else match x.next data gated w with
      | none => ([], x)
      | some (b, x) =>
        let (f, x) := x.push b
        let (fs, x) := Port.pump data gated w n x
        (f :: fs, x)

end Sys2Proof.Machine
end

