-- ==== Sys2Proof/Machine/Ops.lean ====
section
/-! DEFINITION. The operations that every family shares: reading and writing registers, counters and outputs, time, free values,
alarms (R399), the risk value (R348, R349) and log records (R402 to R408). -/

namespace Sys2Proof

/-- The code of a completion status (R9). -/
def Status.code : Status → Nat
  | .ok => 0 | .busError => 1 | .protection => 2 | .illegal => 3 | .level => 4 | .timeout => 5 | .poison => 6 | .veto => 7
  | .epoch => 8 | .aborted => 9 | .checksum => 10 | .saturated => 11

/-- The status a code names. A GT4 never sends a reserved code (R10); one that a peer sends all the same is taken as ILLEGAL, a failure of
unknown cause (DESIGN CHOICE, log entry 100). -/
def Status.ofCode : Nat → Status
  | 0 => .ok | 1 => .busError | 2 => .protection | 3 => .illegal | 4 => .level | 5 => .timeout | 6 => .poison | 7 => .veto
  | 8 => .epoch | 9 => .aborted | 10 => .checksum | 11 => .saturated | _ => .illegal

/-- OK, SATURATED or POISON: the statuses that raise no exception (R246). -/
def Status.good : Status → Bool
  | .ok | .saturated | .poison => true
  | _ => false

end Sys2Proof

namespace Sys2Proof.Machine
open Sys2Proof

/-! ### Registers -/

/-- The key of element (i, j) of a register. -/
def regKey (r : RegName) (i j : Nat) : Nat := r.ctorIdx * 2 ^ 40 + i % 2 ^ 20 * 2 ^ 20 + j % 2 ^ 20

/-- The reset value of a register. -/
def RegName.resetWord (r : RegName) : W64 := BitVec.ofNat 64 r.info.reset

/-- What a register holds. -/
def State.reg (s : State) (r : RegName) (i j : Nat) : Nat := (SMap.get r.resetWord s.regs (regKey r i j)).toNat

/-- A register takes a value, cut to its width. -/
def State.setReg (s : State) (r : RegName) (i j v : Nat) : State :=
  { s with regs := SMap.set r.resetWord s.regs (regKey r i j) (BitVec.ofNat 64 (v % 2 ^ r.info.width)) }

/-- What a field holds. -/
def State.fld (s : State) (f : Field) (i j : Nat) : Nat := bits (s.reg f.reg i j) f.lo f.len

/-- A field takes a value; the register's other bits stay. -/
def State.setFld (s : State) (f : Field) (i j v : Nat) : State := s.setReg f.reg i j (setBits (s.reg f.reg i j) f.lo f.len v)

/-- What a field of a registration entry holds as the last VALIDATE took it (R205). -/
def State.ent (s : State) (f : Field) (p e : Nat) : Nat := bits (SMap.get f.reg.resetWord s.validated (regKey f.reg p e)).toNat f.lo f.len

/-- A field of a written word. -/
def Field.of (f : Field) (v : Nat) : Nat := bits v f.lo f.len

/-- A wrapping counter rises by `n`. -/
def State.bump (s : State) (r : RegName) (i j n : Nat) : State := s.setReg r i j ((s.reg r i j + n) % 2 ^ 64)

/-- A field that holds at its largest value rises by `n`. -/
def State.bumpFld (s : State) (f : Field) (i j n : Nat) : State := s.setFld f i j (min (s.fld f i j + n) (2 ^ f.len - 1))

/-- The new contents of a register written with `v`: the RW bits take it, the W1C bits that it sets clear, the rest stay (R8,
R13). -/
def RegName.written (r : RegName) (old v : Nat) : Nat :=
  let o := BitVec.ofNat 64 old
  let w := BitVec.ofNat 64 v
  let rw := BitVec.ofNat 64 r.info.rw
  (((o &&& ~~~ rw) ||| (w &&& rw)) &&& ~~~ (w &&& BitVec.ofNat 64 r.info.w1c)).toNat

/-- A write of the register's defined fields and nothing else. -/
def State.writeMasked (s : State) (r : RegName) (i j v : Nat) : State := s.setReg r i j (r.written (s.reg r i j) v)

/-- Clear the counters `rs` of element `i` whose bit is set in `v` (R100, R132, R162, R200, R234, R318). -/
def State.clearSelected (s : State) (rs : List RegName) (i v : Nat) : State :=
  (rs.zipIdx).foldl (fun s c => if bit v c.2 then s.setReg c.1 i 0 0 else s) s

/-! ### Outputs and free values -/

/-- The block sends something. -/
def State.emit (s : State) (o : Out) : State := { s with outs := s.outs ++ [o] }

/-- The next free value. -/
def State.fresh (s : State) : Nat × State := (Config.freeNat s.free, { s with free := s.free + 1 })

/-- `n` free bytes. -/
def State.freshBytes (s : State) (n : Nat) : List Byte × State :=
  ((List.range n).map (fun k => Config.freeByte (s.free + k)), { s with free := s.free + n })

/-! ### Time -/

/-- The length of a pick in units of 2^−3 ns (R283). -/
def State.pickUnits (s : State) : Nat := 2 ^ (s.fld TIME_CFG.PICK_LOG2 0 0 + 3)

/-- The current pick number. -/
def State.pick (s : State) : Nat := s.reg .TIME_PICK 0 0

/-- Fabric time now: somewhere in the current pick (DESIGN CHOICE, log entry 5). -/
def State.now (s : State) : Nat × State :=
  let (n, s) := s.fresh
  ((s.reg .TIME_FABRIC 0 0 + n % s.pickUnits) % 2 ^ 64, s)

/-- Whether the engines are stopped: their clocks are off (R409, R424, R441) or the reset level has been crossed (R422). -/
def State.stopped (s : State) : Bool := s.refclk = 2 || s.resetCrossed || s.thermtrip || s.fld PWR_STATE.CURRENT 0 0 ≠ 0

/-- The ports that the generation in force holds down (R433): WEFT_OFF in bits 15 to 0, CXL_OFF in bits 23 to 16. -/
def State.heldPorts (s : State) : Nat :=
  let g := s.fld OTP_GEN_STATUS.IN_FORCE 0 0
  if g = 0 then 0 else bits (s.reg .OTP_GEN_DATA (g - 1) 1) 0 24

/-! ### Contexts -/

/-- The index of context c of partition p. -/
def cidx (p c : Nat) : Nat := p * 64 + c

/-- Whether a context is admitted or leaving. -/
def State.present (s : State) (p c : Nat) : Bool := s.fld PART_CTX_ADMIT.STATE p c ≠ 0

/-- Whether a context is admitted. -/
def State.admitted (s : State) (p c : Nat) : Bool := s.fld PART_CTX_ADMIT.STATE p c = 1

/-- A context's role: 0 training, 1 generating, 2 unrestricted. -/
def State.role (s : State) (p c : Nat) : Nat := s.fld PART_CTX_ADMIT.ROLE p c

/-- A context's job. -/
def State.jobOf (s : State) (p c : Nat) : Nat := s.fld PART_CTX_JOB.JOB p c

/-- Every (partition, context) of the device, in ascending order. -/
def allCtx : List (Nat × Nat) := (List.range 8).flatMap (fun p => (List.range 64).map (fun c => (p, c)))

/-- The contexts of a job on the device, in ascending order. -/
def State.ctxsOfJob (s : State) (job : Nat) : List (Nat × Nat) :=
  allCtx.filter (fun c => s.present c.1 c.2 && s.jobOf c.1 c.2 = job)

/-- The admitted contexts of a partition. -/
def State.ctxsOfPart (s : State) (p : Nat) : List Nat := (List.range 64).filter (fun c => s.present p c)

/-- The device-local index a job holds (R315, R384); 0 where it holds none. -/
def State.jobIndex (s : State) (job : Nat) : Nat :=
  ((List.range 512).find? (fun i => 0 < i && s.fld SEC_JOB.STATE i 0 ≠ 0 && s.fld SEC_JOB.JOB i 0 = job)).getD 0

/-- A context's step beyond its registers. -/
def State.stepOf (s : State) (p c : Nat) : StepRec := SMap.get {} s.steps (cidx p c)

/-- A context's step record takes a value. -/
def State.setStep (s : State) (p c : Nat) (r : StepRec) : State := { s with steps := SMap.set {} s.steps (cidx p c) r }

/-- The state of a context's step (R219). -/
def State.stepState (s : State) (p c : Nat) : Nat := s.fld BAT_STEP_STATUS.STATE p c

/-! ### Links -/

/-- A link's STATE as WEFT_PORT_STATUS codes it. -/
def State.linkState (s : State) (l : Nat) : Nat := if l < 16 then s.fld WEFT_PORT_STATUS.STATE l 0 else s.selvLink % 8

/-- Whether a link is UP or UP_HALF. -/
def State.linkUp (s : State) (l : Nat) : Bool := s.linkState l = 3 || s.linkState l = 4

/-- A port's link layer beyond its registers. -/
def State.port (s : State) (l : Nat) : Port := SMap.get {} s.ports l
/-- It takes a value. -/
def State.setPort (s : State) (l : Nat) (x : Port) : State := { s with ports := SMap.set {} s.ports l x }

/-- The weights of classes 2 to 4 (R175). -/
def State.tcWeights (s : State) : List Nat := [s.fld WEFT_TC_WEIGHT.W2 0 0, s.fld WEFT_TC_WEIGHT.W3 0 0, s.fld WEFT_TC_WEIGHT.W4 0 0]

/-- A link sends what it may: everything while it is UP, and control messages alone while it negotiates or retrains (R165 to R171). -/
def State.pump (s : State) (l : Nat) : State :=
  let st := s.linkState l
  let (fs, x) := if s.linkUp l || st = 2 || st = 5 then (s.port l).pump (s.linkUp l) (l < 16) s.tcWeights 256 else ([], s.port l)
  { s with ports := SMap.set {} s.ports l x, outs := s.outs ++ fs.map (Flit.out l x.ack) }

/-- A control message goes to a link. -/
def State.sendFlit (s : State) (l : Nat) (b : FlitBody) : State := (s.setPort l { s.port l with ctl := (s.port l).ctl ++ [b] }).pump l

/-- A packet goes to a link, sealed. -/
def State.enqueue (s : State) (l cls : Nat) (pk : Packet) (sealed : List Byte) : State :=
  (s.setPort l { s.port l with queue := (s.port l).queue ++ [⟨cls, pk, sealed⟩] }).pump l

/-! ### Selvage packets to the twin (R339, R340) -/

/-- Whether the pair is PAIRED. -/
def State.paired (s : State) : Bool := s.fld SELV_PAIR_CTRL.STATE 0 0 = 2

/-- The key set of a job, if one is live. -/
def State.keySet (s : State) (job : Nat) : Option KeySet := s.keys.find? (fun k => k.job = job)

/-- The bytes of a selvage packet of a type and job under its key: a HEARTBEAT under the pair key, which before the first pair is empty
(DESIGN CHOICE, log entry 106), every other type under the job's mirror key; none where that is not live (R340, R365, R366). -/
def State.sealSelvage (s : State) (type job : Nat) (k : Packet) : Option (List Byte) :=
  if type = 0 then some (authPacket k (s.pairKey.getD []))
  else (s.keySet job).map (fun x => encryptPacket k ((x.keys.drop 32).take 32))

/-- A selvage packet leaves for the twin, with the next SEQ of its job; a sender whose SEQ is used up sends nothing (R368). -/
def State.sendSelvage (s : State) (type job commit w2 offset arg : Nat) (payload : List Byte) : State :=
  let k := 2 ^ 20 + job
  let seq := (SMap.get 0 s.sendSeq k).toNat + 1
  let w0 := type + 16 + job * 2 ^ 16 + Config.deviceId.toNat * 2 ^ 32 + s.fld SELV_PAIR_CTRL.TWIN 0 0 * 2 ^ 48
  let pk : Packet :=
    { port := none, tagOk := true, oldKey := false, srcMember := true, w0 := BitVec.ofNat 64 w0, w1 := BitVec.ofNat 64 commit,
      w2 := BitVec.ofNat 64 (w2 + (payload.length / 32) * 2 ^ 32), w3 := BitVec.ofNat 64 offset,
      w4 := BitVec.ofNat 64 seq, w5 := BitVec.ofNat 64 arg, w6 := 0, w7 := 0, payload := payload }
  match s.sealSelvage type job pk with
  | some b =>
    if (SMap.get 0 s.sendSeq k).toNat = 2 ^ 64 - 1 then s
    else
      let s := { s with sendSeq := SMap.set 0 s.sendSeq k (BitVec.ofNat 64 seq) }
      let s := s.bump .SELV_TX_BYTES 0 0 payload.length
      let s := if type = 2 || type = 3 || type = 5 then { s with selvSent := s.selvSent ++ [pk] } else s
      s.enqueue 16 (if type = 0 || type = 5 then 1 else 4) pk b
  | none => s

/-- The jobs that a mirrored context of this device streams. -/
def State.mirroredJobs (s : State) : List Nat :=
  ((allCtx.filter (fun c => s.present c.1 c.2 && s.fld SNAP_CTX_CFG.MIRROR c.1 c.2 = 1)).map
    (fun c => s.jobOf c.1 c.2)).eraseDups

/-- The device asks its twin for a fold now (R349, R350): one FLUSH, under the mirror key of each mirrored job. -/
def State.sendFlush (s : State) : State :=
  if s.paired then
    let s := s.bump .SELV_FORCED_FLUSHES 0 0 1
    s.mirroredJobs.foldl (fun s job => s.sendSelvage 7 job 0 0 0 (2 ^ 64 - 1) []) s
  else s

/-! ### The risk value -/

/-- The risk value of an accumulator and a junction temperature (R348). -/
def riskOf (e t : Nat) : Nat := min 255 (e + 4 * (t - 85))

/-- The fold interval of a risk value (R349). -/
def State.interval (s : State) (risk : Nat) : Nat :=
  let base := max 1 (s.fld SELV_FLUSH_CFG.BASE 0 0)
  if risk < s.fld SELV_RISK_CFG.T_QUARTER 0 0 then base
  else if risk < s.fld SELV_RISK_CFG.T_ONE 0 0 then max 1 (base / 4)
  else 1

/-- The risk value follows its inputs; its rise to T_NOW forces one fold (R349). It holds while the management controller is stopped (R26). -/
def State.riskFollow (s : State) : State :=
  if s.mgmtStopped then s else
  let old := s.fld SELV_RISK.VALUE 0 0
  let v := riskOf s.riskE s.junction
  let s := (s.setFld SELV_RISK.VALUE 0 0 v).setFld SELV_RISK.INTERVAL 0 0 (s.interval v)
  let t := s.fld SELV_RISK_CFG.T_NOW 0 0
  if old < t && t ≤ v then s.sendFlush else s

/-- The weight with which an alarm class feeds the risk estimator (R348, R400). -/
def State.riskWeight (s : State) (cls : Nat) : Nat :=
  if cls = 0x00 || cls = 0x01 then s.fld SELV_RISK_W.W_SUPPLY 0 0
  else if cls = 0x12 then s.fld SELV_RISK_W.W_CE 0 0
  else if cls = 0x0E || cls = 0x0F then s.fld SELV_RISK_W.W_RETRAIN 0 0
  else if cls = 0x17 || cls = 0x18 then s.fld SELV_RISK_W.W_TWIN 0 0
  else 0

/-! ### Alarms -/

/-- An event of an alarm class (R399): the count holds at its largest value, the first event after a clear sets FIRST and every
event sets LAST; the value classes 0x20 to 0x28 keep whole seconds (R380). It feeds the risk value. -/
def State.alarm (s : State) (cls : Nat) : State :=
  let (t, s) := s.now
  let t := if 0x20 ≤ cls && cls ≤ 0x28 then t / 8000000000 * 8000000000 else t
  let n := s.reg .ALM_COUNT cls 0
  let s := if n = 0 then s.setReg .ALM_FIRST cls 0 t else s
  let s := (s.setReg .ALM_LAST cls 0 t).setReg .ALM_COUNT cls 0 (min (n + 1) (2 ^ 64 - 1))
  let s := s.setReg .ALM_SUMMARY 0 0 (setBits (s.reg .ALM_SUMMARY 0 0) cls 1 1)
  let w := s.riskWeight cls
  if w = 0 || s.mgmtStopped then s else { s with riskE := min 255 (s.riskE + w) }.riskFollow

/-! ### Log records -/

/-- The configuration, loss and trace registers of a ring: 8 is the operator's, p a tenant's. -/
def ringCfg (ring : Nat) : RegName × Nat := if ring = 8 then (.LOG_OP_CFG, 0) else (.SCHED_LOG_CFG, ring)

/-- A record of a ring is lost: its LOSS counts it and the log-loss alarm is raised. -/
def State.logLoss (s : State) (ring : Nat) : State :=
  (if ring = 8 then s.bump .LOG_OP_LOSS 0 0 1 else s.bump .SCHED_LOG_LOSS ring 0 1).alarm 0x1B

/-- The quota of a ring in the staging store (R407). -/
def quota (ring : Nat) : Nat := if ring = 8 then 512 else 192

/-- The staged records of a ring. -/
def State.stagedOf (s : State) (ring : Nat) : Nat := (s.staged.filter (fun r => r.ring = ring)).length

/-- A record is staged, or lost where its ring's quota is full (R407). -/
def State.stage (s : State) (r : LogRec) : State :=
  if s.stagedOf r.ring < quota r.ring then { s with staged := s.staged ++ [r] } else s.logLoss r.ring

/-- Whether two records share a coalescing entry: ring, KIND, SOURCE and BODY bytes 0 to 7 (R408). -/
def LogRec.sameKey (a b : LogRec) : Bool :=
  a.ring = b.ring && a.kind = b.kind && a.source = b.source && a.body.take 8 = b.body.take 8

/-- A coalescing entry is written as one record (R408). -/
def State.writeEntry (s : State) (r : LogRec) : State := s.stage { r with flags := 1 }

/-- A non-trace record of incident mode enters the coalescing table (R408). -/
def State.coalesceRec (s : State) (r : LogRec) : State :=
  match s.coalesce.find? (fun e => e.sameKey r) with
  | some e => { s with coalesce := s.coalesce.filter (fun x => !x.sameKey r) ++ [{ e with count := e.count + 1 }] }
  | none =>
    match s.coalesce with
    | [] => { s with coalesce := [r] }
    | e :: t => if s.coalesce.length < 64 then { s with coalesce := s.coalesce ++ [r] }
                else { (s.writeEntry e) with coalesce := t ++ [r] }

/-- Whether incident mode is in force. -/
def State.incident (s : State) : Bool := s.fld LOG_INCIDENT.ACTIVE 0 0 = 1

/-- Incident mode is entered when a quota passes half full or too many records arrive in a millisecond (R408). -/
def State.incidentCheck (s : State) : State :=
  let full := (List.range 9).any (fun r => quota r < 2 * s.stagedOf r)
  let fast := max 1 (s.fld LOG_INCIDENT.RATE 0 0) < s.msRecords
  if (full || fast) && !s.incident then (s.setFld LOG_INCIDENT.ACTIVE 0 0 1).alarm 0x1C else s

/-- A record that is no trace record arrives (R402, R407, R408). `body` is padded to 16 bytes. -/
def State.logRec (s : State) (ring kind source : Nat) (body : List Byte) : State :=
  let (t, s) := s.now
  let r : LogRec := ⟨ring, t, kind, 0, source, 1, (body ++ List.replicate 16 0).take 16⟩
  let s := { s with msRecords := s.msRecords + 1 }
  (if s.incident then s.coalesceRec r else s.stage r).incidentCheck

/-- An event of a trace source (R405): one of every 2^TRACE_LOG2 events of an enabled source is written, unless the quota is
more than half full or incident mode is in force. -/
def State.trace (s : State) (ring b source : Nat) (body : List Byte) : State :=
  let (r, i) := ringCfg ring
  let cfg := s.reg r i 0
  if bit (bits cfg 16 8) b then
    let k := ring * 8 + b
    let n := (SMap.get 0 s.traced k).toNat
    let s := { s with traced := SMap.set 0 s.traced k (BitVec.ofNat 64 (n + 1)) }
    if n % 2 ^ bits cfg 24 5 = 0 then
      let s := { s with msRecords := s.msRecords + 1 }
      if quota ring < 2 * s.stagedOf ring || s.incident then
        (if ring = 8 then s.bump .LOG_OP_TRACE_DROPS 0 0 1 else s.bump .SCHED_LOG_TRACE_DROPS ring 0 1).incidentCheck
      else
        let (t, s) := s.now
        (s.stage ⟨ring, t, 0x300 + b, 2, source, 1, (body ++ List.replicate 16 0).take 16⟩).incidentCheck
    else s
  else s

/-- A record for the operator's and a tenant's ring alike (R403). -/
def State.logBoth (s : State) (p kind : Nat) (body tenantBody : List Byte) : State :=
  (s.logRec 8 kind p body).logRec p kind p tenantBody

/-! ### Accesses through a BAR -/

/-- An access through a tenant BAR reaches partition p as function 0 (physical) or 1 to 16 (virtual), unless the partition is
PINNED, its tenant has not waived IDE and the access travels outside the stream (R371). In tabby mode no tenant function exists (R430). -/
def State.viaTenant (s : State) (bar : Bar) (f : Nat → Nat → State) : State :=
  if s.fld BOOT_STATUS.TABBY 0 0 = 1 then s
  else match bar with
  | .operator => s
  | .tenant p ide =>
    if ide || s.fld PART_ASSIGN.STATE p.val 0 ≠ 2 || s.ideWaived.contains p.val then f p.val 0
    else (s.bump .SEC_IDE_REFUSED 0 0 1).alarm 0x1D
  | .virtual p v ide =>
    if ide || s.fld PART_ASSIGN.STATE p.val 0 ≠ 2 || s.ideWaived.contains p.val then f p.val (v.val + 1)
    else (s.bump .SEC_IDE_REFUSED 0 0 1).alarm 0x1D

/-- An access that only the partition's physical function sees (R17). -/
def State.viaPhysical (s : State) (bar : Bar) (f : Nat → State) : State :=
  s.viaTenant bar (fun p v => if v = 0 then f p else s)

end Sys2Proof.Machine
end

