-- ==== Sys2Proof/Machine/Profiles.lean ====
section
/-! DEFINITION. Operating profiles, roles and clocks (R27 to R40), and the forcing of R39 and its end (R421). -/

namespace Sys2Proof.Machine
open Sys2Proof

/-! ### What a change would give -/

/-- The role a profile gives a partition: 0 training, 1 generating, 2 unrestricted (R27, R35). -/
def State.roleUnder (s : State) (mode p : Nat) : Nat :=
  if mode = 0 then 1 else if mode = 1 then 0 else if mode = 2 then s.fld PART_ROLE.ROLE p 0 else 2

/-- Whether PART_ROLE gives at least one partition of each role (R38). -/
def State.bothRoles (s : State) : Bool :=
  (List.range 8).any (fun p => s.fld PART_ROLE.ROLE p 0 = 0) && (List.range 8).any (fun p => s.fld PART_ROLE.ROLE p 0 = 1)

/-- Whether a present context conflicts with the requested change (R37). -/
def State.roleConflict (s : State) : Bool :=
  allCtx.any (fun c => s.present c.1 c.2
    && let r := s.roleUnder (s.fld DEV_PROFILE.MODE 0 0) c.1
       r ≠ 2 && r ≠ s.role c.1 c.2)

/-- RESULT of a profile request. -/
def State.profileResult (s : State) (r : Nat) : State := s.setFld DEV_PROFILE_STATUS.RESULT 0 0 r

/-- A change is accepted: it waits for the next pick boundary, and is held pending where a context conflicts with it (R36, R37). One that
replaces a pending change ends what RESULT reported of it. -/
def State.requestChange (s : State) : State :=
  let was := s.fld DEV_PROFILE_STATUS.PENDING 0 0
  let s := { s with profileReq := true }
  if s.roleConflict then (s.setFld DEV_PROFILE_STATUS.PENDING 0 0 1).profileResult 2
  else
    let s := s.setFld DEV_PROFILE_STATUS.PENDING 0 0 0
    if was = 1 then s.profileResult 0 else s

/-- A power vote or profile change is an event of the operator's trace (R405). The record carries the word as written (DESIGN CHOICE,
log entry 99). -/
def State.traceVote (s : State) (r : RegName) (i v : Nat) : State := s.trace 8 0 0x20 (leBytes 4 (s.reg r i 0) ++ leBytes 4 v)

/-- A write to DEV_PROFILE (R31, R32, R38). -/
def State.writeProfile (s : State) (v : Nat) : State :=
  let s := s.traceVote .DEV_PROFILE 0 v
  let m := v % 8
  if 3 < m then s.profileResult 1
  else if m = 2 && !s.bothRoles then s.profileResult 3
  else (s.setFld DEV_PROFILE.MODE 0 0 m).requestChange

/-- A write to PART_ROLE (R35, R36, R38). -/
def State.writeRole (s : State) (p v : Nat) : State :=
  let s := s.traceVote .PART_ROLE p v
  let t := s.setFld PART_ROLE.ROLE p 0 v
  if s.fld DEV_PROFILE_STATUS.CURRENT 0 0 ≠ 2 then t
  else if t.bothRoles then (t.setFld DEV_PROFILE.MODE 0 0 2).requestChange
  else s.profileResult 3

/-- A write to PART_CLOCK_LIMIT (R40): 1,200 to 2,200 in steps of 100, any other value leaving the field. -/
def State.writeLimit (s : State) (p v : Nat) : State :=
  let s := s.traceVote .PART_CLOCK_LIMIT p v
  let m := v % 4096
  if 1200 ≤ m && m ≤ 2200 && m % 100 = 0 then s.setFld PART_CLOCK_LIMIT.LIMIT_MHZ p 0 m else s

/-- PROFILE_REQUEST (R36). -/
def execProfileRequest (v : W32) (s : State) : Host.Outcome State Fault Refusal := .next (s.writeProfile v.toNat)

/-- ROLE_WRITE (R36). -/
def execRoleWrite (p : Fin 8) (v : W32) (s : State) : Host.Outcome State Fault Refusal := .next (s.writeRole p.val v.toNat)

/-- CLOCK_LIMIT_WRITE (R40). -/
def execClockLimitWrite (p : Fin 8) (v : W32) (s : State) : Host.Outcome State Fault Refusal := .next (s.writeLimit p.val v.toNat)

/-! ### Clocks -/

/-- The clock that the profile or the forcing names for a partition, under its limit, in MHz (R27, R39, R40). -/
def State.clockNamed (s : State) (p : Nat) : Nat :=
  let mode := s.fld DEV_PROFILE_STATUS.CURRENT 0 0
  let named := if s.fld DEV_PROFILE_STATUS.FORCED_EVEN 0 0 = 1 || mode = 3 then 1600
    else if s.fld PART_ROLE.ROLE_ACTIVE p 0 = 1 then 2200 else 2000
  min named (s.fld PART_CLOCK_LIMIT.LIMIT_MHZ p 0)

/-- The clock a partition is to run at. -/
def State.target (s : State) (p : Nat) : Nat := (SMap.get 1600 s.clockTarget p).toNat

/-- Each partition's clock begins to change to the one named for it; meanwhile its engines run at the lower of the two (R36). -/
def State.retarget (s : State) : State :=
  (List.range 8).foldl (fun s p =>
    let t := s.clockNamed p
    if t = s.target p then s
    else { s with clockTarget := SMap.set 1600 s.clockTarget p (BitVec.ofNat 32 t) }.setFld PART_ROLE.CLOCK_MHZ p 0
      (min t (s.fld PART_ROLE.CLOCK_MHZ p 0))) s

/-- CLOCK_CHANGE_COMPLETE (R36). -/
def execClockChangeComplete (p : Fin 8) (s : State) : Host.Outcome State Fault Refusal :=
  .next (s.setFld PART_ROLE.CLOCK_MHZ p.val 0 (s.target p.val))

/-! ### Forcing (R39, R421) -/

/-- A cause of the forcing, 1 supply or 2 thermal, is in force. -/
def State.forceClock (s : State) (cause : Nat) : State :=
  let old := s.fld DEV_PROFILE_STATUS.FORCE_CAUSE 0 0
  ((s.setFld DEV_PROFILE_STATUS.FORCE_CAUSE 0 0 (old ||| cause)).setFld DEV_PROFILE_STATUS.FORCED_EVEN 0 0 1).retarget

/-- THERMAL_FORCE (R39, R400): the alarm is raised when the forcing takes the thermal cause. -/
def execThermalForce (s : State) : Host.Outcome State Fault Refusal :=
  let had := bit (s.fld DEV_PROFILE_STATUS.FORCE_CAUSE 0 0) 1
  let s := { s with coolSince := none }.forceClock 2
  .next (if had then s else s.alarm 0x02)

/-- A cause that has stayed away long enough clears, and the forcing ends with the last (R421). Times in units of 2^−3 ns. -/
def State.releaseForce (s : State) : State :=
  let t := s.reg .TIME_FABRIC 0 0
  let calm := fun (since : Option Nat) (n : Nat) => match since with
    | some x => x + n ≤ t
    | none => false
  let c := s.fld DEV_PROFILE_STATUS.FORCE_CAUSE 0 0
  let c := if bit c 0 && calm s.calmSince 80000000 then setBits c 0 1 0 else c
  let c := if bit c 1 && calm s.coolSince 800000000 then setBits c 1 1 0 else c
  let s := s.setFld DEV_PROFILE_STATUS.FORCE_CAUSE 0 0 c
  if c = 0 then s.setFld DEV_PROFILE_STATUS.FORCED_EVEN 0 0 0 else s

/-- JUNCTION_TEMPERATURE (R348): the highest junction temperature; it feeds the risk value and the end of the thermal forcing (R421). -/
def execJunctionTemperature (t : BitVec 8) (s : State) : Host.Outcome State Fault Refusal :=
  let (now, s) := s.now
  .next { s with junction := t.toNat, coolSince := if t.toNat ≤ 95 then some (s.coolSince.getD now) else none }.riskFollow

/-! ### The pick boundary -/

/-- The change that waits is applied at a boundary, wholly or not at all (R36 to R38). One that waits while a forcing is in force stays
until its end (DESIGN CHOICE, log entry 103). -/
def State.applyProfile (s : State) : State :=
  if !s.profileReq then s
  else if s.roleConflict then
    if s.fld DEV_PROFILE_STATUS.PENDING 0 0 = 1 then s else (s.setFld DEV_PROFILE_STATUS.PENDING 0 0 1).profileResult 2
  else
    let mode := s.fld DEV_PROFILE.MODE 0 0
    let s := { s with profileReq := false }.setFld DEV_PROFILE_STATUS.PENDING 0 0 0
    if mode = 2 && !s.bothRoles then (s.setFld DEV_PROFILE.MODE 0 0 (s.fld DEV_PROFILE_STATUS.CURRENT 0 0)).profileResult 3
    else
      let s := (s.setFld DEV_PROFILE_STATUS.CURRENT 0 0 mode).profileResult 0
      (List.range 8).foldl (fun s p => s.setFld PART_ROLE.ROLE_ACTIVE p 0 (s.roleUnder mode p)) s

/-- A boundary of R36 for the profile and the clocks: while the forcing is in force it may end, and every change that waits is held for
the first boundary after that (R39, R421; DESIGN CHOICE, log entry 103, for one accepted before the forcing). A stopped management
controller changes nothing (R26). -/
def State.profileBoundary (s : State) : State :=
  if s.mgmtStopped then s
  else (if s.fld DEV_PROFILE_STATUS.FORCED_EVEN 0 0 = 1 then s.releaseForce else s.applyProfile).retarget

/-- Whether a role may not be admitted to a partition (R29, R37). -/
def State.roleRefused (s : State) (p role : Nat) : Bool :=
  (s.fld DEV_PROFILE_STATUS.CURRENT 0 0 ≠ 3 && role ≠ s.fld PART_ROLE.ROLE_ACTIVE p 0)
    || (s.fld DEV_PROFILE_STATUS.PENDING 0 0 = 1
        && (role = 2 || let r := s.roleUnder (s.fld DEV_PROFILE.MODE 0 0) p
                        r ≠ 2 && r ≠ role))

end Sys2Proof.Machine
end

