-- ==== Sys2Proof/Machine/Ecc.lean ====
section
/-! DEFINITION. The device-side code of HBM blocks (R300, R301), the row tracker and soft repair (R309 to R311), and reading one block
(R302). A stored block holds its data, its POISON, and the bits that have turned since it was written; its code is valid for what
was written, so what the decoder finds depends on those bits alone. -/

namespace Sys2Proof.Machine
open Sys2Proof

/-! ### Addresses (R293) -/

/-- The stack of a device address. -/
def stackOf (a : Nat) : Nat := 2 * bits a 37 3 + bits a 16 1

/-- The 64 B blocks that bytes a to a + n − 1 touch, by number. -/
def blocksOf (a n : Nat) : List Nat := (List.range ((a + n + 63) / 64 - a / 64)).map (fun i => a / 64 + i)

/-- The row of an address, with a count. -/
def trackOf (a n : Nat) : Track := ⟨stackOf a, bits a 9 5, bits a 8 1, bits a 17 6, bits a 23 14, n⟩

/-- The device address of byte 0 of block `i` of a row. -/
def Track.addr (t : Track) (i : Nat) : Nat :=
  (t.stack / 2) * 2 ^ 37 + t.row * 2 ^ 23 + t.bank * 2 ^ 17 + t.stack % 2 * 2 ^ 16 + i / 4 * 2 ^ 14 + t.ch * 2 ^ 9 + t.pc * 2 ^ 8
    + i % 4 * 64

/-- Whether two tracked rows are the same. -/
def Track.same (a b : Track) : Bool := a.stack = b.stack && a.ch = b.ch && a.pc = b.pc && a.bank = b.bank && a.row = b.row

/-- An event of R302 or R312 writes HBM_ERR_LAST and a record of the operator's ring (R304, R318). -/
def State.hbmEvent (s : State) (a kind req lane : Nat) : State :=
  let st := stackOf a
  let last := kind + req * 16 + bits a 9 5 * 2 ^ 8 + bits a 8 1 * 2 ^ 13 + bits a 17 6 * 2 ^ 16 + lane * 2 ^ 22 + 2 ^ 31
  let row := bits a 23 14 + (bits a 14 2 * 4 + bits a 6 2) * 2 ^ 14
  let (t, s) := s.now
  let s := ((s.setReg .HBM_ERR_LAST st 0 last).setReg .HBM_ERR_ROW st 0 row).setReg .HBM_ERR_TIME st 0 t
  s.logRec 8 0x0001 (st / 2) (leBytes 4 last ++ leBytes 4 row ++ leBytes 1 st)

/-! ### The code (R301) -/

/-- Multiplication in GF(2^8) with the polynomial x^8 + x^4 + x^3 + x^2 + 1. -/
def rsMul (x y : Nat) : Nat :=
  (List.range 8).foldl (fun a i =>
    let a := if bit a 7 then (2 * a) % 256 ^^^ 0x1D else 2 * a
    if bit y (7 - i) then a ^^^ x else a) 0

/-- α^n. -/
def rsPow : Nat → Nat
  | 0 => 1
  | n + 1 => rsMul (rsPow n) 2

/-- The symbols of a codeword: degree and place among the 64 data bytes and 8 side-band bytes (R300, R301). -/
def rsSymbols (w : Nat) : List (Nat × Nat) :=
  (List.range 32).map (fun k => (34 + w - k, 2 * k + w)) ++ (if w = 1 then [(3, 71)] else []) ++ [(2, 64 + w), (1, 66 + w), (0, 68 + w)]

/-- Syndrome j of the turned bits of a codeword. -/
def rsSyndrome (err : List Byte) (w j : Nat) : Nat :=
  (rsSymbols w).foldl (fun a d => a ^^^ rsMul (err.getD d.2 0).toNat (rsPow (j * d.1))) 0

/-- What the decoder makes of a codeword: clean, one symbol corrected at a place by a value, or uncorrectable. -/
inductive RsEnd where
  | clean
  | fix (place value : Nat)
  | bad
  deriving DecidableEq, Repr

/-- The decoder of one codeword (R301). -/
def rsDecode (err : List Byte) (w : Nat) : RsEnd :=
  let s0 := rsSyndrome err w 0
  let s1 := rsSyndrome err w 1
  let s2 := rsSyndrome err w 2
  if s0 = 0 && s1 = 0 && s2 = 0 then .clean
  else if s0 = 0 || s1 = 0 || s2 = 0 then .bad
  else match (rsSymbols w).find? (fun d => rsMul s0 (rsPow d.1) = s1 && rsMul s1 (rsPow d.1) = s2) with
    | some d => .fix d.2 s0
    | none => .bad

/-- The turned bits that a decoded block is delivered with, and the places corrected; none where a codeword is uncorrectable. -/
def rsBlock (err : List Byte) : Option (List Byte × List Nat) :=
  let step := fun (x : Option (List Byte × List Nat)) w =>
    match x, rsDecode err w with
    | some y, .clean => some y
    | some (e, ps), .fix p v => some (e.set p (e.getD p 0 ^^^ BitVec.ofNat 8 v), ps ++ [p])
    | _, _ => none
  [0, 1].foldl step (some (err, []))

/-- The lane of a place of a block on a pseudo-channel (R300). -/
def laneOf (pc place : Nat) : Nat := if place < 64 then 32 * pc + place / 2 else 64 + 4 * pc + (place - 64) / 2

/-- The generator's checks of one codeword: the remainder of its information symbols by g(x), the coefficient of x² first (R301). -/
def rsChecks (info : List Byte) : Byte × Byte × Byte :=
  info.foldl (fun r x =>
    let f := (x ^^^ r.1).toNat
    let mul := fun k => BitVec.ofNat 8 (rsMul k f)
    (r.2.1 ^^^ mul 7, r.2.2 ^^^ mul 14, mul 8)) (0, 0, 0)

/-- The side-band of a block's data with its POISON (R300). -/
def rsSide (data : List Byte) (poison : Bool) : List Byte :=
  let half := fun w => (List.range 32).map (fun k => data.getD (2 * k + w) 0)
  let mark := BitVec.ofNat 8 (b2n poison)
  let (a2, a1, a0) := rsChecks (half 0)
  let (b2, b1, b0) := rsChecks (half 1 ++ [mark])
  [a2, b2, a1, b1, a0, b0, 0, mark]

/-- The lane that carries a lane's symbols: the spare that replaces it, or itself (R294, R296). -/
def State.carrier (s : State) (st ch lane : Nat) : Nat :=
  if s.fld HBM_CH_STATUS.LANE_B st ch = lane then 73 else if s.fld HBM_CH_STATUS.LANE_A st ch = lane then 72 else lane

/-! ### Row repair (R309 to R311) -/

/-- The repair list of a stack: its entries by number. -/
def State.repairStates (s : State) (st : Nat) : List (Nat × Nat) := (List.range 256).map (fun i => (i, s.fld HBM_REPAIR_A.STATE st i))

/-- Entry i of a stack's repair list as a row. -/
def State.repairRow (s : State) (st i : Nat) : Track :=
  ⟨st, s.fld HBM_REPAIR_A.CHANNEL st i, s.fld HBM_REPAIR_A.PC st i, s.fld HBM_REPAIR_A.BANK st i, s.fld HBM_REPAIR_B.ROW st i, 0⟩

/-- The words of a repair-list entry. -/
def repairWords (t : Track) (state : Nat) : Nat × Nat := (state + t.ch * 2 ^ 8 + t.pc * 2 ^ 13 + t.bank * 2 ^ 16, t.row)

/-- An entry is put at the first empty place of a stack's list; none where the list is full. -/
def State.putRepair (s : State) (t : Track) (state : Nat) : Option State :=
  ((s.repairStates t.stack).find? (fun x => x.2 = 0)).map (fun x =>
    let (a, b) := repairWords t state
    (s.setReg .HBM_REPAIR_A t.stack x.1 a).setReg .HBM_REPAIR_B t.stack x.1 b)

/-- Whether a row's bank holds a soft repair, or is having one (R309). -/
def State.bankRepaired (s : State) (t : Track) : Bool :=
  let bank := fun (x : Track) => x.stack = t.stack && x.ch = t.ch && x.pc = t.pc && x.bank = t.bank
  s.repairing.any bank || (s.repairStates t.stack).any (fun x => (x.2 = 1 || x.2 = 4) && bank (s.repairRow t.stack x.1))

/-- A row is to be repaired: softly where it can be, otherwise it is spared out, if the list has a place beside those of the repairs under
way (R309, R311). A row already spared out stays so. -/
def State.repairRowNow (s : State) (t : Track) : State :=
  let list := s.repairStates t.stack
  let room := (s.repairing.filter (fun x => x.stack = t.stack)).length < (list.filter (fun x => x.2 = 0)).length
  if list.any (fun x => x.2 = 3 && (s.repairRow t.stack x.1).same t) || s.repairing.any (fun x => x.same t) then s
  else if s.bankRepaired t || !room then
    let s := if room then (s.putRepair t 3).getD s else s
    let (a, b) := repairWords t 3
    (s.alarm 0x14).logRec 8 0x0003 (t.stack / 2) (leBytes 4 a ++ leBytes 4 b ++ leBytes 4 (t.addr 0 / 65536))
  else { s with repairing := s.repairing ++ [t] }

/-- Whether a stack's list holds a soft repair of a row. -/
def State.softRow (s : State) (t : Track) : Bool :=
  (s.repairStates t.stack).any (fun x => (x.2 = 1 || x.2 = 4) && (s.repairRow t.stack x.1).same t)

/-- A correctable block adds 1 to its row's count; a new row replaces the least recently updated of 64 (R309). A count above the limit
repairs a row that is not yet repaired. (DEDUCED, log entry 123.) -/
def State.trackRow (s : State) (a : Nat) : State :=
  let t := trackOf a 0
  let n := ((s.tracks.find? (fun x => x.same t)).map Track.count).getD 0 + 1
  let rest := s.tracks.filter (fun x => !x.same t)
  let rest := if 64 ≤ (rest.filter (fun x => x.stack = t.stack)).length then
      (match rest.find? (fun x => x.stack = t.stack) with | some x => rest.erase x | none => rest) else rest
  let s := { s with tracks := rest ++ [{ t with count := n }] }
  let limit := s.fld HBM_REPAIR_CFG.CE_ROW_LIMIT t.stack 0
  if limit ≠ 0 && (n = limit || (limit < n && !s.softRow t)) then s.repairRowNow t else s

/-- The corrected symbols of a block count against the lanes that carried them, for a millisecond (R295). -/
def State.hitLanes (s : State) (st ch : Nat) (lanes : List Nat) : State :=
  let t := s.reg .TIME_FABRIC 0 0
  { s with laneHits := s.laneHits.filter (fun x => x.2.2.2 ≤ t && t ≤ x.2.2.2 + 8000000) ++ lanes.map (fun l => (st, ch, l, t)) }

/-! ### One block (R302) -/

/-- Read block b for a requester: whether it is delivered, its 64 bytes, and the state after the counts and events. -/
def State.readBlock (s : State) (req b : Nat) : Bool × List Byte × State :=
  let a := 64 * b
  let st := stackOf a
  let data := readBytes s.hbm a 64
  let err := SMap.get [] s.damage b
  match rsBlock err with
  | none => (false, [], (((s.bump .HBM_UE st 0 1).hbmEvent a 2 req 0x7F).alarm 0x13).repairRowNow (trackOf a 0))
  | some (e, places) =>
    let s := match places with
      | [] => s
      | p :: _ =>
        let lane := fun p => s.carrier st (bits a 9 5) (laneOf (bits a 8 1) p)
        (((s.bump .HBM_CE st 0 1).hbmEvent a (if p < 64 then 0 else 1) req (lane p)).hitLanes st (bits a 9 5) (places.map lane)).trackRow a
    if xor (SMap.get false s.poison b) (bit (e.getD 71 0).toNat 0) then
      (false, [], (s.bump .HBM_POISON_READS st 0 1).hbmEvent a 3 req 0x7F)
    else (true, List.zipWith (· ^^^ ·) data (e ++ List.replicate 64 0), s)

/-- Bits of block b turn. -/
def State.turn (s : State) (b : Nat) (d : Damage) : State :=
  let pad := fun (l : List Byte) n => (l ++ List.replicate n 0).take n
  let old := SMap.get [] s.damage b
  let new := List.zipWith (· ^^^ ·) (pad old 72) (pad d.data 64 ++ pad d.side 8)
  { s with damage := SMap.set [] s.damage b (if new.all (· = 0) then [] else new) }

/-! ### The beam store's cache of HBM (R323) -/

/-- The sets of a partition's cache: what the addressed part leaves of 64 MiB, in sets of sixteen lines of 256 B. -/
def State.cacheSets (s : State) (p : Nat) : Nat := (64 - s.fld PART_BEAM_SPLIT.ADDR_MIB p 0) * 256

/-- The key of the set of a line. The index function is uninterpreted (DESIGN CHOICE, log entry 122). -/
def State.lineSet (s : State) (line : Nat) : Nat :=
  let n := s.cacheSets (line / 2 ^ 29)
  line / 2 ^ 29 * 2 ^ 14 + Config.cacheSet n line % max 1 n

/-- Block `b` as its line holds it: the bits in which it differs from what was last written. -/
def State.cached (s : State) (b : Nat) : Option (List Byte) :=
  ((SMap.get [] s.lines (s.lineSet (b / 4))).find? (fun l => l.line = b / 4)).bind
    (fun l => (l.blocks.find? (fun x => x.1 = b)).map (·.2))

/-- A line that is present changes, or is dropped. -/
def State.reline (s : State) (line : Nat) (f : Line → Option Line) : State :=
  let k := s.lineSet line
  { s with lines := SMap.set [] s.lines k ((SMap.get [] s.lines k).filterMap (fun l => if l.line = line then f l else some l)) }

/-- A line is dropped. -/
def State.dropLine (s : State) (line : Nat) : State := s.reline line (fun _ => none)

/-- The lines whose numbers `hit` names are dropped. -/
def State.dropLines (s : State) (hit : Nat → Bool) : State :=
  { s with lines := s.lines.filterMap (fun c =>
      match c.2.filter (fun l => !hit l.line) with
      | [] => none
      | ls => some (c.1, ls)) }

/-- A write to block `b` reaches its line where that is present; a poisoned block leaves it. -/
def State.agree (s : State) (b : Nat) (poison : Bool) : State :=
  if (s.cached b).isNone then s
  else s.reline (b / 4) (fun l =>
    some { l with blocks := l.blocks.filterMap (fun x => if x.1 ≠ b then some x else if poison then none else some (b, [])) })

/-- The lines of a set with one more, `l`: of sixteen the least recently used without the keep bit goes, or the least recently used. -/
def addLine (ls : List Line) (l : Line) : List Line :=
  (if ls.length < 16 then ls
   else match ls.find? (fun x => !x.keep) with
    | some x => ls.erase x
    | none => ls.drop 1) ++ [l]

/-- Blocks of one line have been read under a hint (R323). What a line takes and when it goes: DESIGN CHOICE, log entry 122. -/
def State.touch (s : State) (hint line : Nat) (got : List (Nat × List Byte)) : State :=
  let k := s.lineSet line
  let ls := SMap.get [] s.lines k
  let put := fun ls => { s with lines := SMap.set [] s.lines k ls }
  match ls.find? (fun l => l.line = line) with
  | some l =>
    if hint = 3 then put (ls.erase l)
    else if hint = 2 then s
    else put (ls.erase l ++ [{ l with blocks := l.blocks ++ got.filter (fun x => l.blocks.all (fun y => y.1 ≠ x.1)) }])
  | none => if 2 ≤ hint || s.cacheSets (line / 2 ^ 29) = 0 then s else put (addLine ls ⟨line, hint = 1, got⟩)

/-- Block b is written whole: new data, its POISON, and a valid code. -/
def State.putBlock (s : State) (b : Nat) (data : List Byte) (poison : Bool) : State :=
  { s.agree b poison with hbm := writeBytes s.hbm (64 * b) data, poison := SMap.set false s.poison b poison, damage := SMap.erase s.damage b }

end Sys2Proof.Machine
end

