-- ==== Sys2Proof/Machine/Tiles.lean ====
section
/-! DEFINITION. The stored number formats: elements, block scales, outlier entries and tile layouts (R44 to R62, R70, R242). -/

namespace Sys2Proof.Machine
open Sys2Proof

/-- A tile's bytes. -/
abbrev Tile := Array Byte

/-- Byte `i` of a tile as a number. -/
def Tile.byte (t : Tile) (i : Nat) : Nat := (t.getD i 0).toNat
/-- `n` bytes from `i`, little-endian. -/
def Tile.word (t : Tile) (i n : Nat) : Nat := leNat ((List.range n).map (fun k => t.getD (i + k) 0))

/-! Format codes of R44. -/
/-- K4. -/
abbrev fK4 : Nat := 0x0
/-- K3. -/
abbrev fK3 : Nat := 0x1
/-- MXFP8 E4M3. -/
abbrev fE4M3 : Nat := 0x2
/-- BF16. -/
abbrev fBF16 : Nat := 0x8
/-- FP32. -/
abbrev fFP32 : Nat := 0x9
/-- A24. -/
abbrev fA24 : Nat := 0xC

/-- The K formats. -/
def isK (f : Nat) : Bool := f ≤ 1
/-- The Microscaling formats. -/
def isMX (f : Nat) : Bool := 2 ≤ f && f ≤ 7

/-- The bytes of a tile (R58 to R60, R242). FP64 and the wire block have no tile. -/
def tileBytes (f : Nat) : Nat :=
  if f = 0 then 10240 else if f = 1 then 8192 else if f = 4 || f = 5 then 12800 else if f = 6 then 8704
  else if isMX f then 16896 else if f = 8 then 32768 else 65536

/-- Where the block scales of a tile begin, and how many a row has. -/
def scaleBase (f : Nat) : Nat :=
  if f = 0 then 0x2000 else if f = 1 then 0x1800 else if f = 4 || f = 5 then 0x3000 else if f = 6 then 0x2000 else 0x4000
/-- Scales in a row. -/
def scalesPerRow (f : Nat) : Nat := if isK f then 8 else 4
/-- Elements of a block. -/
def blockLen (f : Nat) : Nat := if isK f then 16 else 32

/-- The code of element k of row r (R58 to R60); a BF16, FP32 or A24 element is its bits. -/
def Tile.code (t : Tile) (f r k : Nat) : Nat :=
  if f = 0 || f = 6 then bits (t.byte (r * 64 + k / 2)) (4 * (k % 2)) 4
  else if f = 1 then bits (t.word (r * 48 + k / 16 * 6) 6) (3 * (k % 16)) 3
  else if f = 4 || f = 5 then bits (t.word (r * 96 + 3 * (k / 4)) 3) (6 * (k % 4)) 6
  else if isMX f then t.byte (r * 128 + k)
  else if f = 8 then t.word (r * 256 + 2 * k) 2
  else if f = 0xC then bits (t.word (r * 512 + 4 * k) 4) 0 24
  else t.word (r * 512 + 4 * k) 4

/-- The scale code of the block of element k of row r. -/
def Tile.scale (t : Tile) (f r k : Nat) : Nat := t.byte (scaleBase f + r * scalesPerRow f + k / blockLen f)

/-- Outlier entry `i` of row r (R53). -/
def Tile.outlier (t : Tile) (f r i : Nat) : Nat := t.word (scaleBase f + 0x400 + r * 6 + 3 * i) 3

/-- The magnitude integer q of a K code, in units of 0.5 (R46, R47). -/
def kQ (f c : Nat) : Nat :=
  let m := c % (if f = 0 then 8 else 4)
  if m ≤ 4 then m else if m = 5 then 6 else if m = 6 then 8 else 12

/-- The sign bit of a K code. -/
def kSign (f c : Nat) : Bool := bit c (if f = 0 then 3 else 2)

/-- The escape code of a K format. -/
def kEscape (f : Nat) : Nat := if f = 0 then 8 else 4

/-- The element value of a K code that is no escape, before the scale. -/
def kVal (f c : Nat) : Dy := ⟨if kSign f c then -(kQ f c : Int) else kQ f c, -1⟩

/-- The value of an E5M3 scale code other than 0xFF (R49). -/
def e5m3 (c : Nat) : Dy := if c < 8 then ⟨c, -17⟩ else ⟨((8 + c % 8 : Nat) : Int), (c / 8 : Nat) - 18⟩

/-- An element of a format without special values: sign, `eb` exponent bits of bias `b`, `mb` mantissa bits. -/
def miniFloat (eb mb : Nat) (b : Int) (c : Nat) : FVal :=
  let e := bits c mb eb
  let m := bits c 0 mb
  let neg := bit c (eb + mb)
  let sig : Int := if e = 0 then (m : Int) else ((2 ^ mb + m : Nat) : Int)
  .fin neg ⟨if neg then -sig else sig, (if e = 0 then 1 else (e : Int)) - b - mb⟩

/-- The value of an MX element before the scale (R61). -/
def mxVal (f c : Nat) : FVal :=
  if f = 2 then (if c % 128 = 127 then .nan false else miniFloat 4 3 7 c)
  else if f = 3 then (Fmt.mk 5 2).decode c
  else if f = 4 then miniFloat 3 2 3 c
  else if f = 5 then miniFloat 2 3 1 c
  else if f = 6 then miniFloat 2 1 1 c
  else .fin (signed 8 c < 0) ⟨signed 8 c, -6⟩

/-- A value times a power of two. -/
def FVal.scale2 (v : FVal) (e : Int) : FVal :=
  match v with
  | .fin n d => .fin n ⟨d.m, d.e + e⟩
  | v => v

/-- The entry that names position k of a row, if a valid one does (R53). -/
def Tile.entryAt (t : Tile) (f r k : Nat) : Option Nat :=
  ([t.outlier f r 0, t.outlier f r 1].find? (fun e => bit e 23 && bits e 16 7 = k)).map (fun e => bits e 0 16)

/-- The value of element k of row r, block scale and outlier applied (R46 to R51, R61). -/
def Tile.val (t : Tile) (f r k : Nat) : FVal :=
  let c := t.code f r k
  if isK f then
    let sc := t.scale f r k
    if sc = 0xFF then .nan false
    else if c = kEscape f then
      match t.entryAt f r k with
      | some v => Fmt.bf16.decode v
      | none => .fin false ⟨0, 0⟩
    else if sc = 0 then .fin false ⟨0, 0⟩
    else let d := (kVal f c).mul (e5m3 sc); .fin (kSign f c) d
  else if isMX f then
    let sc := t.scale f r k
    if sc = 0xFF then .nan false else (mxVal f c).scale2 ((sc : Int) - 127)
  else if f = 8 then Fmt.bf16.decode c
  else if f = 0xC then Fmt.a24.decode c
  else Fmt.fp32.decode c

/-- An MX element as BF16, and whether it lay outside the range (R62, R138). -/
def mxBf16 (f : Nat) (t : Tile) (r k : Nat) : Nat × Bool :=
  match t.val f r k with
  | .fin n d =>
    if d.m ≠ 0 && d.abs.lt ⟨1, -133⟩ then (if n then 0x8000 else 0, true)
    else let c := Fmt.bf16.rneVal (.fin n d); (c, (Fmt.bf16.decode c).nonFinite)
  | v => (Fmt.bf16.rneVal v, false)

/-- Whether a K group is well formed (R54). A not-a-number block's escapes still count (R51). -/
def Tile.groupOk (t : Tile) (f r : Nat) : Bool :=
  let e0 := t.outlier f r 0
  let e1 := t.outlier f r 1
  let v0 := bit e0 23
  let v1 := bit e1 23
  let esc := (List.range 128).filter (fun k => t.code f r k = kEscape f)
  let named := (if v0 then [bits e0 16 7] else []) ++ (if v1 then [bits e1 16 7] else [])
  esc = named && (v0 || e0 = 0) && (v1 || e1 = 0) && (v0 || !v1)
    && (!v0 || !(Fmt.bf16.decode (bits e0 0 16)).nonFinite) && (!v1 || !(Fmt.bf16.decode (bits e1 0 16)).nonFinite)

/-- Whether every group of the first `rows` rows of a tile is well formed; formats without outliers always are. -/
def Tile.ok (t : Tile) (f rows : Nat) : Bool := !isK f || (List.range rows).all (t.groupOk f)

/-- The bytes of the codes of a row, packed `w` bits each. -/
def packBits (w : Nat) (codes : List Nat) : List Byte :=
  leBytes (codes.length * w / 8) ((codes.zipIdx).foldl (fun a c => a + (c.1 % 2 ^ w) * 2 ^ (w * c.2)) 0)

/-- The bits of an element's code. -/
def codeBits (f : Nat) : Nat :=
  if f = 0 || f = 6 then 4 else if f = 1 then 3 else if f = 4 || f = 5 then 6 else if isMX f then 8
  else if f = 8 then 16 else 32

/-- The pieces, as offset and bytes, that write row r of a tile: its codes, its scales and, for K formats, its two outlier
entries (R58 to R60). -/
def rowPieces (f r : Nat) (codes scales entries : List Nat) : List (Nat × List Byte) :=
  (r * (16 * codeBits f), packBits (codeBits f) codes)
  :: (if isK f || isMX f then [(scaleBase f + r * scalesPerRow f, packBits 8 scales)] else [])
  ++ (if isK f then [(scaleBase f + 0x400 + r * 6, packBits 24 entries)] else [])

/-- The ranges of a tile at `base` that hold rows r0 to r0 + n − 1: their codes, scales and outlier entries (R58 to R60, R242). -/
def rowsRanges (f base r0 n : Nat) : List (Nat × Nat) :=
  (base + r0 * (16 * codeBits f), n * (16 * codeBits f))
  :: (if isK f || isMX f then [(base + scaleBase f + r0 * scalesPerRow f, n * scalesPerRow f)] else [])
  ++ (if isK f then [(base + scaleBase f + 0x400 + r0 * 6, n * 6)] else [])

/-- The padding of a K tile, written as zero (R58, R59). -/
def padPieces (f : Nat) : List (Nat × List Byte) :=
  if f = 0 then [(0x2700, List.replicate 256 0)] else if f = 1 then [(0x1F00, List.replicate 256 0)] else []

end Sys2Proof.Machine
end

