-- ==== Sys2Proof/Machine/Operands.lean ====
section
/-! DEFINITION. Where operands lie and who may reach them: address forms (R239), bobbin windows (R240), pattern and board-tier
cards (R314, R315, R327), HBM blocks with their poison and retirement (R302, R303, R312), and tile descriptors (R241). -/

namespace Sys2Proof.Machine
open Sys2Proof

/-! ### Requesters -/

/-- A requester of memory (R315): a context, with the unit that acts for it as HBM_ERR_LAST.REQ codes it; an agent acting for
a job; the log agent for a ring; or one of the units that no card checks. -/
inductive Who where
  | ctx (req p c : Nat)
  | job (req job : Nat)
  | ring (ring : Nat)
  | exempt (req : Nat)
  deriving DecidableEq, Repr

/-- HBM_ERR_LAST.REQ of a requester (R318). -/
def Who.req : Who → Nat
  | .ctx r _ _ => r
  | .job r _ => r
  | .ring _ => 4
  | .exempt r => r

/-- The requester of an HBM command. -/
def agentWho : Agent → Who
  | .program c => .ctx 0 c.part.val c.ctx.val
  | .batten c => .ctx 1 c.part.val c.ctx.val
  | .reduction j => .job 2 j.toNat
  | .host c => .ctx 3 c.part.val c.ctx.val
  | .selvage j => .job 4 j.toNat
  | .scrubber => .exempt 5
  | .treadle c => .ctx 6 c.part.val c.ctx.val

/-! ### The registration entries' slots (R204) -/

/-- Word `i` of a partition's sequence store. -/
def State.seqWord (s : State) (p i : Nat) : Nat := s.reg .BAT_SEQ p i

/-- The words of a programmable sequence from `base`, up to and without END, at most `n`. -/
def seqBody (word : Nat → Nat) : Nat → Nat → List Nat
  | 0, _ => []
  | n + 1, i => if word i % 256 = 0 then [] else word i :: seqBody word n (i + 1)

/-- The entries of a context's grant (R202). -/
def State.entriesOf (s : State) (p c : Nat) : List Nat :=
  (List.range (s.fld PART_CTX_REGS.COUNT p c)).map (fun i => s.fld PART_CTX_REGS.BASE p c + i)

/-- The context whose grant holds an entry. -/
def State.entryOwner (s : State) (p e : Nat) : Option Nat := (s.ctxsOfPart p).find? (fun c => (s.entriesOf p c).contains e)

/-- Word `i` of the sequence store as it governs an entry: what the open step of its context latched, or the store as it stands (R211,
R220). -/
def State.seqWordFor (s : State) (p e i : Nat) : Nat :=
  match (s.entryOwner p e).filter (fun c => s.stepState p c ≠ 0) with
  | some c => (SMap.get 0 (s.stepOf p c).sequence i).toNat
  | none => s.seqWord p i

/-- The words of an entry's programmable sequence. -/
def State.entrySeq (s : State) (p e : Nat) : List Nat := seqBody (s.seqWordFor p e) 32 (s.ent BAT_REG_CLIP.SEQ_BASE p e)

/-- Whether a registration entry has a moment 2: AdamW, and a sequence with STM2 (R204, R211). -/
def State.hasM2 (s : State) (p e : Nat) : Bool :=
  let o := s.ent BAT_REG_CTRL.OPT p e
  o = 0 || (o = 3 && (s.entrySeq p e).any (fun w => w % 256 = 0x11))

/-- The elements of an entry. -/
def State.elems (s : State) (p e : Nat) : Nat := 16384 * s.ent BAT_REG_LEN.TILES p e

/-- The bytes of one moment. -/
def State.momBytes (s : State) (p e : Nat) : Nat :=
  let n := s.elems p e
  if s.ent BAT_REG_CTRL.MOM_FMT p e = 0 then 2 * n else n + n / 32

/-- The offset of the scale plane in a shard's slot. -/
def State.planeOff (s : State) (p e : Nat) : Nat :=
  2 * s.elems p e + s.momBytes p e * (if s.hasM2 p e then 2 else 1)

/-- The bytes of a slot. -/
def State.slotBytes (s : State) (p e : Nat) : Nat :=
  let f := s.ent BAT_REG_CTRL.FWD_FMT p e
  if s.ent BAT_REG_CTRL.KIND p e = 1 then s.ent BAT_REG_LEN.TILES p e * tileBytes f
  else s.planeOff p e + (if isK f then s.elems p e / 16 else 0)

/-- Where physical slot `i` begins. -/
def State.slotAddr (s : State) (p e i : Nat) : Nat :=
  s.ent BAT_REG_AREA.ADDR p e + i * s.ent BAT_REG_STRIDE.UNITS p e * 65536

/-- The valid ones. -/
def State.validEntries (s : State) (p c : Nat) : List Nat :=
  (s.entriesOf p c).filter (fun e => s.fld BAT_REG_CTRL.VALID p e = 1)

/-- The source context of a handover in force: the grant changes only at pick boundaries (R229). -/
def State.handSource (s : State) (p c : Nat) : Nat × Nat :=
  let k := (SMap.get 0 s.handSrc (cidx p c)).toNat
  (k / 64, k % 64)

/-- The physical slots of its source that a generating context may read: each front slot, and those its open passes hold
(R229, R230). -/
def State.handoverSlots (s : State) (p c : Nat) : List (Nat × Nat × Nat) :=
  let (sp, sc) := s.handSource p c
  (if s.fld BAT_HANDOVER.ACTIVE p c = 1 then
    ((s.validEntries sp sc).filter (fun e => s.ent BAT_REG_CTRL.KIND sp e = 1)).map (fun e => (sp, e, s.fld BAT_REG_SLOTS.FRONT sp e))
  else []) ++ (s.passes.filter (fun q => q.part = p && q.ctx = c)).flatMap (fun q => q.slots.map (fun x => (q.src / 64, x.1, x.2)))

/-- Whether bytes a to a + n − 1 lie within one of those slots. -/
def State.inHandover (s : State) (p c a n : Nat) : Bool :=
  (s.handoverSlots p c).any (fun x =>
    let b := s.slotAddr x.1 x.2.1 x.2.2
    b ≤ a && a + n ≤ b + s.slotBytes x.1 x.2.1)

/-! ### Pattern cards -/

/-- The active bank of a partition's cards. -/
def State.cardBank (s : State) (p : Nat) : Nat := s.fld TBL_SWITCH_STATUS.ACTIVE (8 + p) 0

/-- The key of a card: its bank and its page, the partition included. -/
def cardKey (bank page : Nat) : Nat := bank * 2 ^ 24 + page

/-- A card of a page in a bank. -/
def State.cardIn (s : State) (bank page : Nat) : Nat := (SMap.get 0 s.cards (cardKey bank page)).toNat

/-- The card in force of a page. -/
def State.card (s : State) (page : Nat) : Nat := s.cardIn (s.cardBank (page / 2 ^ 21)) page

/-- Whether a card lets a requester reach bytes a to a + n − 1 (R315). -/
def State.cardLets (s : State) (w : Who) (write : Bool) (card a n : Nat) : Bool :=
  let job := bits card 0 9
  let mode := bits card 9 3
  match w with
  | .exempt _ => true
  | .ring 8 => job = 0 && mode = 1
  | .ring p =>
    (mode = 1 || mode = 3) && job ≠ 0 && (s.ctxsOfPart p).any (fun c => s.fld PART_CTX_ADMIT.JOB_INDEX p c = job)
  | .job _ j => job ≠ 0 && job = s.jobIndex j && 1 ≤ mode && mode ≤ 4
  | .ctx r p c =>
    if job ≠ 0 && s.present p c && job = s.fld PART_CTX_ADMIT.JOB_INDEX p c then
      if r = 3 then 1 ≤ mode && mode ≤ 4
      else if mode = 1 then true
      else if mode = 2 then (if s.role p c = 1 then !write && s.inHandover p c a n else true)
      else if mode = 3 then !write
      else false
    else false

/-- The pages that bytes a to a + n − 1 touch, each with the part of the run inside it. -/
def pagesOf (a n : Nat) : List (Nat × Nat × Nat) :=
  (List.range ((a + n + 65535) / 65536 - a / 65536)).map (fun i =>
    let pg := a / 65536 + i
    let lo := max a (pg * 65536)
    (pg, lo, min (a + n) ((pg + 1) * 65536) - lo))

/-- Whether the cards let a requester reach a run of bytes; a partition that is zeroising refuses all (R377). -/
def State.cardsOk (s : State) (w : Who) (write : Bool) (a n : Nat) : Bool :=
  (pagesOf a n).all (fun x =>
    (match w with | .exempt _ => true | _ => s.fld PART_ASSIGN.STATE (x.1 / 2 ^ 21) 0 ≠ 3)
      && s.cardLets w write (s.card x.1) x.2.1 x.2.2)

/-! ### HBM -/

/-- Whether a valid entry of the active remap bank retires a page (R312, R313). -/
def State.retired (s : State) (a : Nat) : Bool :=
  let st := stackOf a
  let b := s.fld TBL_SWITCH_STATUS.ACTIVE (16 + st) 0
  (List.range 1024).any (fun e =>
    let j := b * 1024 + e
    s.fld HBM_REMAP.VALID st j = 1 &&
      (if s.fld HBM_REMAP.KIND st j = 0 then s.fld HBM_REMAP.PAGE st j = a / 65536 else s.fld HBM_REMAP.BANK st j = bits a 17 6))

/-- The checks of steps 1 to 3 of R314 on a run of HBM bytes. -/
def State.hbmCheck (s : State) (w : Who) (write : Bool) (a n : Nat) : Status × State :=
  if 2 ^ 40 < a + n then (.illegal, s)
  else if !s.cardsOk w write a n then (.protection, s)
  else match (pagesOf a n).find? (fun x => s.retired (x.1 * 65536)) with
    | some x => (.busError, (s.bump .HBM_RETIRED_HITS (stackOf (x.1 * 65536)) 0 1).hbmEvent x.2.1 4 w.req 0x7F)
    | none => (.ok, s)

/-- The blocks of a run whose writing the code or POISON bears on. -/
def State.oddBlocks (s : State) (a n : Nat) : List Nat :=
  (blocksOf a n).filter (fun b => SMap.get false s.poison b || SMap.get [] s.damage b ≠ [])

/-- Block `b` is delivered to a requester from its line, or from the stack (R302, R323): whether it is, and the bits in which it differs
from what was last written. -/
def State.deliver (s : State) (req b : Nat) : Bool × List Byte × State :=
  match s.cached b with
  | some r => (true, r, s)
  | none =>
    if !SMap.get false s.poison b && SMap.get [] s.damage b = [] then (true, [], s)
    else
      let (good, d, s) := s.readBlock req b
      let r := List.zipWith (· ^^^ ·) d (readBytes s.hbm (64 * b) 64)
      (good, if r.all (· = 0) then [] else r, s)

/-- The lines of 256 B that bytes a to a + n − 1 touch, by number. -/
def linesOf (a n : Nat) : List Nat := (List.range ((a + n + 255) / 256 - a / 256)).map (fun i => a / 256 + i)

/-- A run of a stack that the checks have let pass is read under a hint: a poisoned or uncorrectable block returns BUS_ERROR, and the lines
of the others are filled (R302, R323). -/
def State.hbmTake (s : State) (req hint a n : Nat) : Status × List Byte × State :=
  let (ok, m, s) := (linesOf a n).foldl (fun (x : Bool × SMap Byte × State) l =>
    let (got, s) := (blocksOf (max a (256 * l)) (min (a + n) (256 * l + 256) - max a (256 * l))).foldl (fun y b =>
      let (good, r, s) := y.2.deliver req b
      (if good then y.1 ++ [(b, r)] else y.1, s)) ((([] : List (Nat × List Byte)), x.2.2))
    let m := (got.filter (fun y => y.2 ≠ [])).foldl (fun m y => writeBytes m (64 * y.1) (List.zipWith (· ^^^ ·) (readBytes m (64 * y.1) 64) y.2)) x.2.1
    (x.1 && got.length = (min (a + n) (256 * l + 256) + 63) / 64 - max a (256 * l) / 64, m, if got = [] then s else s.touch hint l got)) (true, s.hbm, s)
  if ok then (.ok, readBytes m a n, s) else (.busError, [], s)

/-- Read a run of HBM for a requester under a hint (R314, R323). -/
def State.hbmReadAs (s : State) (hint : Nat) (w : Who) (a n : Nat) : Status × List Byte × State :=
  match s.hbmCheck w false a n with
  | (.ok, s) => s.hbmTake w.req hint a n
  | (e, s) => (e, [], s)

/-- Read a run of HBM for a requester without a hint. -/
def State.hbmRead (s : State) (w : Who) (a n : Nat) : Status × List Byte × State := s.hbmReadAs 0 w a n

/-- Blocks take POISON and zero data (R303). -/
def State.poisonBlocks (s : State) (bs : List Nat) : State :=
  bs.foldl (fun s b => s.putBlock b (List.replicate 64 0) true) s

/-- The bytes of a run reach the stacks (R303): a wholly written block takes a new code and loses POISON; a partly written one is read,
corrected and merged, and where that read fails it takes POISON and zero data and the write ends with BUS_ERROR. -/
def State.hbmStore (s : State) (req a : Nat) (bytes : List Byte) : Status × State :=
  let n := bytes.length
  let whole := fun b => a ≤ 64 * b && 64 * b + 64 ≤ a + n
  let odd := s.oddBlocks a n
  let (bad, s) := (odd.filter (fun b => !whole b)).foldl (fun (x : List Nat × State) b =>
    let (good, d, s) := x.2.readBlock req b
    if good then (x.1, s.putBlock b d false) else (x.1 ++ [b], s)) ([], s)
  let s := (odd.filter whole).foldl (fun s b =>
    { s with poison := SMap.erase s.poison b, damage := SMap.erase s.damage b }) s
  let s := ((blocksOf a n).filter (fun b => ((s.cached b).getD []) ≠ [])).foldl (fun s b => s.agree b false) s
  let s := { s with hbm := writeBytes s.hbm a bytes }
  (if bad = [] then .ok else .busError, s.poisonBlocks bad)

/-- Write a run of HBM for a requester. -/
def State.hbmWrite (s : State) (w : Who) (a : Nat) (bytes : List Byte) : Status × State :=
  match s.hbmCheck w true a bytes.length with
  | (.ok, s) => s.hbmStore w.req a bytes
  | (e, s) => (e, s)

/-! ### The board tier -/

/-- The card of 1 GiB region g (R327, R329). -/
def State.boardCard (s : State) (g : Nat) : Nat :=
  if g % 2 = 0 then s.fld BTIER_CARD.EVEN (g / 2) 0 else s.fld BTIER_CARD.ODD (g / 2) 0

/-- The port that serves a board-tier address (R325). -/
def State.boardPort (s : State) (a : Nat) : Nat := s.mapPorts.getD (a / 4096 % max 1 s.mapPorts.length) 0

/-- Where a board-tier address lies in its expander, and the key of that byte (R325). -/
def State.boardPlace (s : State) (a : Nat) : Nat :=
  let p := max 1 s.mapPorts.length
  let e := max 1 (s.fld BTIER_MAP.EXPS 0 0)
  let c := a / 4096
  (2 * s.boardPort a + c / p % e) * 2 ^ 41 + c / (p * e) * 4096 + a % 4096

/-- K_BOARD of the job that holds an index: bytes 64 to 127 of the set (R365). -/
def State.boardKey (s : State) (idx : Nat) : Option (List Byte) :=
  (s.keySet (s.fld SEC_JOB.JOB idx 0)).map (fun k => (k.keys.drop 64).take 64)

/-- The regions that a run of board-tier bytes touches. -/
def regionsOf (a n : Nat) : List Nat := (List.range ((a + n + 2 ^ 30 - 1) / 2 ^ 30 - a / 2 ^ 30)).map (fun i => a / 2 ^ 30 + i)

/-- The checks on a run of board-tier bytes: the map's size, the cards, the key, the ports (R325 to R327). No slot of a handover lies in the
board tier, so that its addresses are put beyond those of HBM for the card. -/
def State.boardCheck (s : State) (w : Who) (write : Bool) (a n : Nat) : Status :=
  if s.fld BTIER_MAP.ENABLE 0 0 = 0 || s.fld BTIER_MAP_SIZE.GIB 0 0 * 2 ^ 30 < a + n then .illegal
  else if !(regionsOf a n).all (fun g => s.cardLets w write (s.boardCard g) (2 ^ 40 + a) n) then .protection
  else if (regionsOf a n).any (fun g => (s.boardKey (bits (s.boardCard g) 0 9)).isNone) then .protection
  else if (List.range ((a + n + 4095) / 4096 - a / 4096)).any
      (fun i => s.fld BTIER_PORT_STATUS.STATE (s.boardPort ((a / 4096 + i) * 4096)) 0 ≠ 2) then .busError
  else .ok

/-- One 64 B unit of the board tier in clear. -/
def State.boardUnit (s : State) (u : Nat) : List Byte :=
  let key := (s.boardKey (bits (s.boardCard (u / 2 ^ 24)) 0 9)).getD []
  xtsUnit aesDecrypt key u (readBytes s.board (s.boardPlace (64 * u)) 64)

/-- The bytes moved through a port are counted (R330). -/
def State.boardCount (s : State) (r : RegName) (a n : Nat) : State :=
  (List.range ((a + n + 4095) / 4096 - a / 4096)).foldl (fun s i =>
    let q := (a / 4096 + i) * 4096
    s.bump r (s.boardPort q) 0 (min (a + n) (q + 4096) - max a q)) s

/-- Read a run of the board tier. -/
def State.boardRead (s : State) (w : Who) (a n : Nat) : Status × List Byte × State :=
  match s.boardCheck w false a n with
  | .ok => (.ok, ((((blocksOf a n).flatMap s.boardUnit).drop (a % 64)).take n), s.boardCount .BTIER_PORT_RD_BYTES a n)
  | e => (e, [], s)

/-- Write a run of the board tier, each unit encrypted anew (R327). -/
def State.boardWrite (s : State) (w : Who) (a : Nat) (bytes : List Byte) : Status × State :=
  match s.boardCheck w true a bytes.length with
  | .ok =>
    let bs := blocksOf a bytes.length
    let old := bs.flatMap s.boardUnit
    let new := old.take (a % 64) ++ bytes ++ old.drop (a % 64 + bytes.length)
    let m := (bs.zipIdx).foldl (fun m u =>
      let key := (s.boardKey (bits (s.boardCard (u.1 / 2 ^ 24)) 0 9)).getD []
      writeBytes m (s.boardPlace (64 * u.1)) (xtsUnit aesEncrypt key u.1 ((new.drop (64 * u.2)).take 64))) s.board
    (.ok, { s with board := m }.boardCount .BTIER_PORT_WR_BYTES a bytes.length)
  | e => (e, s)

/-! ### Addresses of programs -/

/-- Where an address points (R239). -/
inductive Loc where
  | bobbin (engine off : Nat)
  | beam (off : Nat)
  | hbm (a : Nat)
  | board (a : Nat)
  | bad
  deriving DecidableEq, Repr

/-- The place an address of R239 names, from engine `e`. -/
def locOf (e a : Nat) : Loc :=
  let t := bits a 60 4
  if t = 0 then (if bits a 23 37 = 0 then .bobbin e (bits a 0 23) else .bad)
  else if t = 1 then
    (if bits a 54 6 = 0 && bits a 23 25 = 0 && bits a 48 6 < 48 then .bobbin (bits a 48 6) (bits a 0 23) else .bad)
  else if t = 2 then (if bits a 26 34 = 0 then .beam (bits a 0 26) else .bad)
  else if t = 3 then (if bits a 40 20 = 0 then .hbm (bits a 0 40) else .bad)
  else if t = 4 then (if bits a 43 17 = 0 then .board (bits a 0 43) else .bad)
  else .bad

/-- Whether the context holds a window on an engine. -/
def State.holdsWindow (s : State) (p c e : Nat) : Bool := bit (s.fld PART_CTX_ENGINES.MASK p c) e

/-- The size of the context's bobbin window on an engine (R240, R249). -/
def State.windowSize (s : State) (p c e : Nat) : Nat := if s.holdsWindow p c e then s.fld PART_CTX_JOB.BOB_SIZE p c * 65536 else 0

/-- The place in the bobbins of a window's offset. -/
def State.bobAt (s : State) (p c e off : Nat) : Nat := (p * 48 + e) * 2 ^ 23 + s.fld PART_CTX_JOB.BOB_BASE p c * 65536 + off

/-- The place in the beam stores of a partition's offset. -/
def beamAt (p off : Nat) : Nat := p * 2 ^ 26 + off

/-- Whether a run of beam store bytes lies in the context's grant (R322, R334). -/
def State.beamOk (s : State) (p c off n : Nat) : Bool :=
  let b := s.fld PART_CTX_PLACE.BEAM_BASE p c * 2 ^ 20
  b ≤ off && off + n ≤ b + s.fld PART_CTX_PLACE.BEAM_SIZE p c * 2 ^ 20

/-- Read a run of bytes for a program of context c. -/
def State.readLoc (s : State) (p c : Nat) (l : Loc) (n : Nat) : Status × List Byte × State :=
  match l with
  | .bobbin e off => if off + n ≤ s.windowSize p c e then (.ok, readBytes s.bobbin (s.bobAt p c e off) n, s) else (.protection, [], s)
  | .beam off => if s.beamOk p c off n then (.ok, readBytes s.beam (beamAt p off) n, s) else (.protection, [], s)
  | .hbm a => s.hbmRead (.ctx 0 p c) a n
  | .board a => s.boardRead (.ctx 0 p c) a n
  | .bad => (.illegal, [], s)

/-- Write a run of bytes for a program of context c. -/
def State.writeLoc (s : State) (p c : Nat) (l : Loc) (bytes : List Byte) : Status × State :=
  match l with
  | .bobbin e off =>
    if off + bytes.length ≤ s.windowSize p c e then (.ok, { s with bobbin := writeBytes s.bobbin (s.bobAt p c e off) bytes })
    else (.protection, s)
  | .beam off =>
    if s.beamOk p c off bytes.length then (.ok, { s with beam := writeBytes s.beam (beamAt p off) bytes }) else (.protection, s)
  | .hbm a => s.hbmWrite (.ctx 0 p c) a bytes
  | .board a => s.boardWrite (.ctx 0 p c) a bytes
  | .bad => (.illegal, s)

/-- Whether a program of context c may reach a run, as the shuttle checks every page before it moves a byte (R314, R327). -/
def State.checkLoc (s : State) (p c : Nat) (write : Bool) (l : Loc) (n : Nat) : Status :=
  match l with
  | .bobbin e off => if off + n ≤ s.windowSize p c e then .ok else .protection
  | .beam off => if s.beamOk p c off n then .ok else .protection
  | .hbm a => if 2 ^ 40 < a + n then .illegal else if s.cardsOk (.ctx 0 p c) write a n then .ok else .protection
  | .board a => s.boardCheck (.ctx 0 p c) write a n
  | .bad => .illegal

/-! ### Tile descriptors -/

/-- A tile descriptor's fields (R241). -/
structure Desc where
  base : Nat
  fmt : Nat
  rot : Nat
  rows : Nat
  tiles : Nat
  tstride : Nat
  half : Nat
  deriving DecidableEq, Repr

/-- The fields of a descriptor register. -/
def Desc.of (t : BitVec 128) : Desc :=
  let x := t.toNat
  ⟨bits x 0 23, bits x 24 4, bits x 28 3, bits x 32 9, bits x 48 8, bits x 64 24, bits x 88 1⟩

/-- Whether a descriptor's reserved fields are zero, and its format and rotation codes defined (R44, R77, R241). -/
def descReserved (t : BitVec 128) : Bool :=
  let x := t.toNat
  bits x 23 1 = 0 && bits x 31 1 = 0 && bits x 41 7 = 0 && bits x 56 8 = 0 && bits x 89 39 = 0
    && bits x 24 4 < 0xD && bits x 28 3 < 5

/-- The check of a descriptor when it is used (R241). -/
def descCheck (t : BitVec 128) : Status :=
  let d := Desc.of t
  if !descReserved t then .level
  else if d.rows < 1 || 256 < d.rows || d.tiles < 1 || 128 < d.tiles || d.base % 256 ≠ 0 || d.tstride % 256 ≠ 0 then .illegal
  else .ok

/-- The first failing check of several descriptors. -/
def descsCheck (ts : List (BitVec 128)) : Status :=
  match (ts.map descCheck).find? (fun st => st = .level) with
  | some st => st
  | none => ((ts.map descCheck).find? (fun st => st ≠ .ok)).getD .ok

/-- The stride of a descriptor under the format in use (R241). -/
def Desc.stride (d : Desc) (f : Nat) : Nat := if d.tstride = 0 then tileBytes f else d.tstride

/-- The offset of tile t of row-block b (R241). -/
def Desc.tileAt (d : Desc) (f b t : Nat) : Nat := d.base + (b * d.tiles + t) * d.stride f

/-- The ranges of window offsets that an operand's tiles occupy, as first offset and length. -/
def Desc.ranges (d : Desc) (f : Nat) : List (Nat × Nat) :=
  (List.range (if d.rows ≤ 128 then 1 else 2)).flatMap (fun b =>
    (List.range d.tiles).map (fun t => (d.tileAt f b t, tileBytes f)))

end Sys2Proof.Machine
end

