-- ==== Sys2Proof/Machine/Treadle.lean ====
section
/-! DEFINITION. The treadle sequencer's shared operations: queues and their completion records (R268, R274), knots (R277), and how
a program state waits, meets an exception and ends (R246, R247, R272). -/

namespace Sys2Proof.Machine
open Sys2Proof

/-! ### Program states -/

/-- The key of program state `ps` of engine `e` of partition `p`. -/
def progKey (p e ps : Nat) : Nat := (p * 48 + e) * 8 + ps

/-- A program state that holds a program. -/
def State.prog (s : State) (k : Nat) : Option Prog := SMap.find s.progs k

/-- A program state takes a value. -/
def State.setProg (s : State) (k : Nat) (g : Prog) : State := { s with progs := SMap.put s.progs k g }

/-- S0 reads as 0 (R237). -/
def Prog.getS (g : Prog) (i : Nat) : Nat := if i = 0 then 0 else (SMap.get 0 g.s i).toNat
/-- S0 discards writes. -/
def Prog.setS (g : Prog) (i v : Nat) : Prog := if i = 0 then g else { g with s := SMap.set 0 g.s i (BitVec.ofNat 64 v) }
/-- An address register. -/
def Prog.getA (g : Prog) (i : Nat) : Nat := (SMap.get 0 g.a i).toNat
/-- An address register takes a value. -/
def Prog.setA (g : Prog) (i v : Nat) : Prog := { g with a := SMap.set 0 g.a i (BitVec.ofNat 64 v) }
/-- P0 reads as all ones (R237). -/
def Prog.getP (g : Prog) (i : Nat) : Nat := if i = 0 then 2 ^ 64 - 1 else (SMap.get 0 g.p i).toNat
/-- P0 discards writes. -/
def Prog.setP (g : Prog) (i v : Nat) : Prog := if i = 0 then g else { g with p := SMap.set 0 g.p i (BitVec.ofNat 64 v) }
/-- Lane j of a vector register. -/
def Prog.getV (g : Prog) (i j : Nat) : Nat := (SMap.get 0 g.v (64 * i + j)).toNat
/-- A vector register takes 64 lanes. -/
def Prog.setV (g : Prog) (i : Nat) (f : Nat → Nat) : Prog :=
  { g with v := (List.range 64).foldl (fun m j => SMap.set 0 m (64 * i + j) (BitVec.ofNat 32 (f j))) g.v }
/-- A descriptor register. -/
def Prog.getT (g : Prog) (i : Nat) : BitVec 128 := SMap.get 0 g.t i
/-- A descriptor register takes a value. -/
def Prog.setT (g : Prog) (i : Nat) (v : BitVec 128) : Prog := { g with t := SMap.set 0 g.t i v }

/-- The deferred status that decides: the earliest issued (R247). -/
def earliest (l : List Trap) : Option Trap :=
  l.foldl (fun a t => match a with | none => some t | some b => some (if t.seq < b.seq then t else b)) none

/-- A program takes the deferred exceptions of the operations that `covers` names (R247). -/
def Prog.takeDeferred (g : Prog) (covers : Trap → Bool) : Prog :=
  match earliest (g.deferred.filter covers) with
  | some t => if g.trap.isNone then { g with trap := some t, wait := .none } else g
  | none => g

/-- The class of an opcode (R244). -/
def Trap.cls (t : Trap) : Nat := t.opcode / 16

/-- How many instructions of a program state a unit holds. -/
def State.unitHeld (s : State) (k u : Nat) : Nat := (s.unitOps.filter (fun o => o.prog = k && o.unit = u)).length

/-- How many asynchronous operations of a class of opcode a program state has outstanding. -/
def State.asyncHeld (s : State) (k cls : Nat) : Nat :=
  (s.asyncs.filter (fun o => match o.owner with | .prog k' _ _ op => k' = k && op / 16 = cls | _ => false)).length

/-- How many asynchronous operations of any class. -/
def State.asyncAll (s : State) (k : Nat) : Nat :=
  (s.asyncs.filter (fun o => match o.owner with | .prog k' _ _ _ => k' = k | _ => false)).length

/-- The instructions and operations that a WAITU of a mask waits for (R250): bit 5 the forward array, 4 the backward array, 3 the
converter, 2 the vector unit, 1 the shuttle DMA, 0 the reduction send. -/
def State.maskHeld (s : State) (k mask : Nat) : Nat :=
  (if bit mask 5 then s.unitHeld k 0 else 0) + (if bit mask 4 then s.unitHeld k 1 else 0)
    + (if bit mask 3 then s.unitHeld k 2 else 0) + (if bit mask 2 then s.unitHeld k 3 else 0)
    + (if bit mask 1 then s.asyncHeld k 2 else 0) + (if bit mask 0 then s.asyncHeld k 8 else 0)

/-- Whether what a program state waits for has come (R236, R248, R250, R252, R262). -/
def State.waitDone (s : State) (k : Nat) (g : Prog) : Bool :=
  let p := k / 384
  match g.wait with
  | .none => false
  | .units m => s.maskHeld k m = 0
  | .shuttle n => s.asyncHeld k 2 ≤ n
  | .knot i v => v ≤ s.reg .KNOT_COUNT p i
  | .pick n => n ≤ s.pick
  | .stepState _ => s.stepState p g.ctx = 0 || s.stepState p g.ctx = 4
  | .flags _ => s.unitHeld k 3 = 0 && s.asyncAll k = 0
  | .ending _ => s.unitHeld k 0 + s.unitHeld k 1 + s.unitHeld k 2 + s.unitHeld k 3 + s.asyncAll k = 0

/-- What the end of a wait does to the program: the registers it writes and the deferred exceptions it takes. An END stays. -/
def State.waitEnd (s : State) (k : Nat) (g : Prog) : Prog :=
  let free := { g with wait := .none }
  match g.wait with
  | .none => g
  | .units m => free.takeDeferred (fun t => (t.cls = 2 && bit m 1) || (t.cls = 8 && bit m 0))
  | .shuttle _ => free.takeDeferred (fun t => t.cls = 2)
  | .knot _ _ => free.takeDeferred (fun _ => true)
  | .pick _ => free
  | .stepState d => free.setS d (s.reg .BAT_STEP_STATUS (k / 384) g.ctx)
  | .flags d => free.setS d g.flags
  | .ending _ => g.takeDeferred (fun _ => true)

/-- The status of a program that ends without an exception (R247). -/
def flagStatus (flags : Nat) : Status := if bit flags 8 then .saturated else if bit flags 9 then .poison else .ok

/-! ### Queues -/

/-- The key of a queue. -/
def qkey (p q : Nat) : Nat := p * 8192 + q
/-- A queue beyond its registers. -/
def State.queue (s : State) (p q : Nat) : Queue := SMap.get {} s.queues (qkey p q)
/-- It takes a value. -/
def State.setQueue (s : State) (p q : Nat) (x : Queue) : State := { s with queues := SMap.set {} s.queues (qkey p q) x }

/-- Word `i` of a command. -/
def Cmd.word (c : Cmd) (i : Nat) : Nat := (c.words.getD i 0).toNat
/-- TYPE of a command (R270). -/
def Cmd.type (c : Cmd) : Nat := bits (c.word 0) 0 4

/-- Whether a command that has started keeps later commands of its queue from starting (R273). -/
def Cmd.holds (c : Cmd) : Bool := c.type = 2 || c.type = 5 || bit (c.word 0) 8

/-- Whether a queue's head waits: on a knot, a pick or program states (R267, R273). -/
def Cmd.waiting (c : Cmd) : Bool := (c.started && (c.type = 2 || c.type = 5)) || (!c.started && c.blocked)

/-- Whether the head of the commands that have not started must wait for one before it (R270, R273). -/
def headWaits (cs : List Cmd) : Bool :=
  let before := cs.takeWhile Cmd.started
  match cs.dropWhile Cmd.started with
  | c :: _ => before.any Cmd.holds || (bit (c.word 0) 8 && !before.isEmpty)
  | [] => false

/-- A queue's STATE follows what it holds (R267, R268). -/
def State.refreshQ (s : State) (p q : Nat) : State :=
  let x := s.queue p q
  let en := s.fld Q_CFG_CTRL.ENABLE p q = 1
  let st := s.fld Q_STATUS.STATE p q
  let new :=
    if !en then (if st = 4 then 4 else if x.cmds = [] then 0 else st)
    else if st = 4 then 4
    else if x.cmds = [] then (if s.reg .Q_FETCHED p q = s.reg .Q_TAIL p q then 1 else 2)
    else if x.cmds.any Cmd.waiting || headWaits x.cmds then 3 else 2
  s.setFld Q_STATUS.STATE p q new

/-- A queue enters ERROR (R267). -/
def State.queueError (s : State) (p q err : Nat) : State :=
  (s.setFld Q_STATUS.STATE p q 4).setFld Q_STATUS.ERR p q err

/-- A progress event of a context (R385). -/
def State.progress (s : State) (p c : Nat) : State := s.bump .HANG_CTX_PROGRESS p c 1

/-- The two words of a completion record (R274). -/
def recordWords (cmd : Cmd) (st : Status) (phase flags engine result : Nat) : Nat × Nat :=
  (bits (cmd.word 0) 16 16 + st.code * 2 ^ 16 + cmd.type * 2 ^ 24 + phase * 2 ^ 28 + flags % 1024 * 2 ^ 32
    + engine % 64 * 2 ^ 48, result % 2 ^ 64)

/-- The bytes of a completion record reach its ring, or are refused (R266, R274, R315). -/
def State.putRecord (s : State) (p q a : Nat) (bytes : List Byte) : Status × State :=
  if s.fld Q_CFG_CTRL.SPACE p q = 0 then (.ok, { s with host := writeBytes s.host a bytes })
  else s.hbmWrite (.ctx 6 p (s.fld Q_CFG_CTRL.CTX p q)) a bytes

/-- A completion record has been written: it is counted and signalled, and is a progress event (R268, R270, R385). -/
def State.recordWritten (s : State) (p q : Nat) (cmd : Cmd) (st : Status) (bytes : List Byte) : State :=
  let x := s.queue p q
  let vf := s.fld Q_CFG_CTRL.VF p q
  let s := (s.setQueue p q { x with records := x.records + 1 }).bump .Q_VF_CMDS p vf 1
  let s := if st.good then s else s.bump .Q_VF_FAULTS p vf 1
  let s := if bit (cmd.word 0) 9 then s.emit (.msix p vf (s.fld Q_CFG_CTRL.IRQ_VEC p q)) else s
  (s.trace p 0 p bytes).progress p (s.fld Q_CFG_CTRL.CTX p q)

/-- A command completes: it leaves the queue, and its record is written; a refused record puts the queue in ERROR (R268, R274). -/
def State.complete (s : State) (p q : Nat) (cmd : Cmd) (st : Status) (flags engine result : Nat) : State :=
  let x := s.queue p q
  let sz := s.fld Q_CFG_CTRL.SIZE_LOG2 p q
  let (w0, w1) := recordWords cmd st (x.records / 2 ^ sz % 2) flags engine result
  let bytes := leBytes 8 w0 ++ leBytes 8 w1
  let s := s.setQueue p q { x with cmds := x.cmds.filter (fun y => y.index ≠ cmd.index) }
  (match s.putRecord p q (s.reg .Q_CFG_CPL p q + 16 * (x.records % 2 ^ sz)) bytes with
    | (.ok, s) => s.recordWritten p q cmd st bytes
    | (_, s) => s.queueError p q 3).refreshQ p q

/-- A command completes with a status and nothing more. ENGINE of a LAUNCH is the first it names (R274). -/
def State.completeBare (s : State) (p q : Nat) (cmd : Cmd) (st : Status) : State :=
  s.complete p q cmd st 0 (if cmd.type = 1 then bits (cmd.word 0) 32 6 else 0) 0

/-- A queue's command changes. -/
def State.setCmd (s : State) (p q : Nat) (cmd : Cmd) : State :=
  let x := s.queue p q
  (s.setQueue p q { x with cmds := x.cmds.map (fun y => if y.index = cmd.index then cmd else y) }).refreshQ p q

/-- ENABLE clears: commands that have not started complete with ABORTED (R268). -/
def State.disableQueue (s : State) (p q : Nat) : State :=
  let s := s.setFld Q_CFG_CTRL.ENABLE p q 0
  let s := ((s.queue p q).cmds.filter (fun c => !c.started)).foldl (fun s c => s.completeBare p q c .aborted) s
  let s := s.setFld Q_STATUS.STATE p q (if (s.queue p q).cmds = [] then 0 else 2)
  s.refreshQ p q

/-- The queues of a context's run (R265). -/
def State.queuesOf (s : State) (p c : Nat) : List Nat :=
  ((List.range (s.fld PART_CTX_QUEUES.COUNT p c)).map (fun i => s.fld PART_CTX_QUEUES.BASE p c + i)).filter (· < 8192)

/-! ### The end of a program -/

/-- The outcome of a copy reaches its LAUNCH (R272). -/
def State.copyEnded (s : State) (k : Nat) (g : Prog) (st : Status) (result : Nat) : State :=
  let p := k / 384
  let e := k / 8 % 48
  let x := s.queue p g.queue
  s.setQueue p g.queue { x with cmds := x.cmds.map (fun c =>
    if c.index = g.cmd then { c with copies := c.copies.map (fun y =>
      if y.engine = e && y.ended.isNone then { y with ended := some (st, g.flags, result) } else y) } else c) }

/-- The RESULT word of a fault: address, space and opcode (R274). -/
def trapResult (t : Trap) : Nat := t.addr + t.opcode * 2 ^ 41

/-- The address and space of a program's next instruction, as RESULT reports them. -/
def Prog.place (g : Prog) : Nat := g.pc % 2 ^ 40 + b2n g.beam * 2 ^ 40

/-- A program that met an exception, or reached END, ends once everything it issued has completed (R246, R250). -/
def State.endCheck (s : State) (k : Nat) : State :=
  match s.prog k with
  | none => s
  | some g =>
    if s.unitHeld k 0 + s.unitHeld k 1 + s.unitHeld k 2 + s.unitHeld k 3 + s.asyncAll k = 0 then
      match g.trap, g.wait with
      | some t, _ => ({ s with progs := SMap.erase s.progs k }).copyEnded k g t.status (trapResult t)
      | none, .ending x => ({ s with progs := SMap.erase s.progs k }).copyEnded k g (flagStatus g.flags) (g.getS x)
      | none, _ => s
    else s

/-- One program state's wait is looked at again. -/
def State.settleOne (s : State) (k : Nat) : State :=
  match s.prog k with
  | none => s
  | some g => (if g.trap.isNone && s.waitDone k g then s.setProg k (s.waitEnd k g) else s).endCheck k

/-- Every program state's wait is looked at again. -/
def State.settle (s : State) : State := (s.progs.map (·.1)).foldl State.settleOne s

/-- A program state meets an exception (R246). -/
def State.raise (s : State) (k : Nat) (t : Trap) : State :=
  match s.prog k with
  | none => s
  | some g => (s.setProg k { g with trap := some (g.trap.getD t), wait := .none }).endCheck k

/-- An asynchronous operation whose program state has ended is the device's. -/
def AsyncOp.orphan (k : Nat) (o : AsyncOp) : AsyncOp :=
  match o.owner with
  | .prog k' _ _ _ => if k' = k then { o with owner := .device } else o
  | _ => o

/-- A program state ends at once with a status, at its PC and with the opcode it stood at (R386, R389). -/
def State.killAt (s : State) (k : Nat) (st : Status) (op : Nat) : State :=
  match s.prog k with
  | none => s
  | some g =>
    ({ s with progs := SMap.erase s.progs k, asyncs := s.asyncs.map (AsyncOp.orphan k) }).copyEnded k g st
      (trapResult ⟨g.seq, st, g.place, op⟩)

/-- A program state ends at once with a status. Which opcode its RESULT names no rule says. -/
def State.killProg (s : State) (k : Nat) (st : Status) : State :=
  let (op, s) := s.fresh
  s.killAt k st (op % 256)

/-! ### Knots -/

/-- The KWAIT commands of a partition that a knot's count releases complete with OK. -/
def State.releaseKnot (s : State) (p k : Nat) : State :=
  let v := s.reg .KNOT_COUNT p k
  let s := ((s.queues.filter (fun x => x.1 / 8192 = p)).flatMap (fun x => x.2.cmds.map (fun c => (x.1 % 8192, c)))).foldl
    (fun s x => if x.2.started && x.2.type = 2 && bits (x.2.word 0) 32 11 = k && bits (x.2.word 1) 0 32 ≤ v
                then s.completeBare p x.1 x.2 .ok else s) s
  s.settle

/-- A knot's count takes a value; its interrupt rises when the count reaches IRQ_AT (R276). -/
def State.knotTo (s : State) (p k v : Nat) : State :=
  let old := s.reg .KNOT_COUNT p k
  let irq := s.fld KNOT_IRQ_AT.VALUE p k
  let s := s.setReg .KNOT_COUNT p k v
  let s := if s.fld KNOT_CFG.IRQ_EN p k = 1 && old < irq && irq ≤ v then
      s.emit (.msix p (s.fld KNOT_CFG.VF p k) (s.fld KNOT_CFG.IRQ_VEC p k)) else s
  s.releaseKnot p k

/-- An addition to a knot (R277): unsigned, saturating, with SAT. -/
def State.knotAdd (s : State) (p k v : Nat) : State :=
  let n := s.reg .KNOT_COUNT p k + v % 2 ^ 32
  let s := if 2 ^ 32 ≤ n then s.setFld KNOT_CFG.SAT p k 1 else s
  s.knotTo p k (min n (2 ^ 32 - 1))

/-- Whether a knot is granted to a context. -/
def State.ownsKnot (s : State) (p c k : Nat) : Bool :=
  s.fld KNOT_CFG.OWNED p k = 1 && s.fld KNOT_CFG.CTX p k = c

/-! ### Asynchronous operations -/

/-- An asynchronous operation begins. -/
def State.startAsync (s : State) (o : AsyncOp) : State :=
  { s with asyncs := s.asyncs ++ [{ o with id := s.nextOp }], nextOp := s.nextOp + 1 }

/-- An operation's status reaches the program state that issued it (R247), or the command (R271). -/
def State.tellOwner (s : State) (o : Owner) (st : Status) : State :=
  match o with
  | .device => s
  | .cmd qk n =>
    match (s.queue (qk / 8192) (qk % 8192)).cmds.find? (fun c => c.index = n) with
    | some c => s.completeBare (qk / 8192) (qk % 8192) c st
    | none => s
  | .prog k seq addr op =>
    match s.prog k with
    | none => s
    | some g =>
      s.setProg k (match st with
        | .ok => g
        | .saturated => { g with flags := setBits g.flags 8 1 1 }
        | .poison => { g with flags := setBits g.flags 9 1 1 }
        | st => { g with deferred := g.deferred ++ [⟨seq, st, addr, op⟩] })

/-- An asynchronous operation completes: its knot receives 1 where `signal`, its owner hears the status. -/
def State.endAsync (s : State) (o : AsyncOp) (st : Status) (signal : Bool) : State :=
  let s := { s with asyncs := s.asyncs.filter (fun x => x.id ≠ o.id) }
  let s := s.tellOwner o.owner st
  let s := match o.knot with
    | some k => if signal then s.knotAdd o.part k 1 else s
    | none => s
  s.settle

/-- The operation of an id. -/
def State.async (s : State) (id : Nat) : Option AsyncOp := s.asyncs.find? (fun o => o.id = id)

end Sys2Proof.Machine
end

