-- ==== Sys2Proof/Machine/Packets.lean ====
section
/-! DEFINITION. Weft packets: their fields (R177), checksum (R180), checks on arrival (R179), replies and sending. -/

namespace Sys2Proof.Machine
open Sys2Proof

/-! ### Types (R178) -/

/-- The same packet as another row's type: a row's command is a packet of that type whatever defined type bits [3:0] of word 0 hold. A
reserved type, which has no row of its own, stays, and R179 refuses it. -/
def asType (t : Nat) (k : Packet) : Packet := if 8 ≤ pkType k then k else { k with w0 := BitVec.ofNat 64 (setBits k.w0.toNat 0 4 t) }

/-- The same KNOT packet with the OP of its row; a reserved OP stays, and R179 refuses it (R278, R279). -/
def asKnot (op : Nat) (k : Packet) : Packet :=
  let k := asType 6 k
  if 6 ≤ pkOp k then k else { k with w5 := BitVec.ofNat 64 (setBits k.w5.toNat 16 4 op) }

/-- The traffic class of a type (R178). -/
def classOf (t : Nat) : Nat := if t = 0 || t = 6 then 1 else if t = 1 || t = 2 || t = 3 then 2 else 3

/-! ### Checksum (R180) -/

/-- The prime 2^61 − 1. -/
def redP : Nat := 2 ^ 61 - 1

/-- x^n modulo the prime. -/
def powMod (x : Nat) : Nat → Nat → Nat
  | 0, _ => 1
  | fuel + 1, n => if n = 0 then 1 else
      let h := powMod (x * x % redP) fuel (n / 2)
      if n % 2 = 1 then h * x % redP else h

/-- The seed of a job; the security engine's key bytes 160 to 191 (R365). -/
def State.seed (s : State) (job : Nat) : List Byte := ((s.keySet job).map (fun k => k.keys.drop 160)).getD []

/-- The multiplier h of a JOB, STEP and RED_ID. -/
def State.redH (s : State) (job step red : Nat) : Nat :=
  2 + draw (s.seed job) 4 step red % 2 ^ 64 % (redP - 3)

/-- Σ v_i × h^(g + i + 1) modulo the prime, for values from index g on. -/
def checkSum (h g : Nat) (vs : List Nat) : Nat :=
  ((vs.foldl (fun x v => ((x.1 + v % redP * x.2) % redP, x.2 * h % redP)) (0, powMod h 64 (g + 1))).1)

/-- A wire code as the checksum takes it: the poison code as 0, a negative code as p + c. -/
def wireValue (b : Byte) : Nat := if b = 0x80 then 0 else if 128 ≤ b.toNat then redP - (256 - b.toNat) else b.toNat

/-- CHECK of a REDUCE payload from a block on. -/
def reduceCheck (h block : Nat) (payload : List Byte) : Nat := checkSum h (32 * block) (payload.map wireValue)

/-- CHECK of a GATHER payload at a byte offset. -/
def gatherCheck (h arg : Nat) (payload : List Byte) : Nat :=
  checkSum h (arg / 8) ((List.range (payload.length / 8)).map (fun i => leNat ((payload.drop (8 * i)).take 8)))

/-! ### Sending -/

/-- A packet of the device, with no SEQ yet. -/
def newPacket (job dst type step red epoch block arg check : Nat) (payload : List Byte) : Packet :=
  { port := none, tagOk := true, oldKey := false, srcMember := true,
    w0 := BitVec.ofNat 64 (type + 16 + classOf type * 2 ^ 8 + job * 2 ^ 16 + Config.deviceId.toNat * 2 ^ 32 + dst * 2 ^ 48),
    w1 := BitVec.ofNat 64 (step % 2 ^ 32 + red * 2 ^ 32 + epoch * 2 ^ 48),
    w2 := BitVec.ofNat 64 (block % 2 ^ 32 + payload.length / 32 * 2 ^ 32), w3 := BitVec.ofNat 64 check, w4 := 0,
    w5 := BitVec.ofNat 64 arg, w6 := 0, w7 := 0, payload := payload }

/-- The port that the weft route table gives a class and a destination now (R170). -/
def State.routeOf (s : State) (cls dst : Nat) : Nat := (Config.route (s.fld TBL_SWITCH_GEN.GEN 32 0) cls dst).val

/-- A packet leaves with the next SEQ of its job, encrypted under K_WEFT, on the port of its route, which it keeps; one addressed to the
device itself is delivered without leaving it (R170, R177, R179). A sender whose SEQ is used up sends nothing (R368), and none leaves the
device without the job's keys (R366). `op` is the operation that waits for it, 0 for none. -/
def State.sendPacket (s : State) (k : Packet) (op fails : Nat) : State :=
  let seq := (SMap.get 0 s.sendSeq (pkJob k)).toNat + 1
  if 2 ^ 64 - 1 < seq || (pkDst k ≠ Config.deviceId.toNat && (s.keySet (pkJob k)).isNone) then s else
  let k := { k with w4 := BitVec.ofNat 64 seq, port := none, tagOk := true, oldKey := false, srcMember := true }
  let s := { s with sendSeq := SMap.set 0 s.sendSeq (pkJob k) (BitVec.ofNat 64 seq) }
  let s := if op = 0 && pkType k ≠ 1 && pkType k ≠ 5 then s else { s with sent := s.sent ++ [⟨seq, pkJob k, op, fails, false, k⟩] }
  if pkDst k = Config.deviceId.toNat then { s with loop := s.loop ++ [k] }
  else s.enqueue (s.routeOf (pkClass k) (pkDst k)) (pkClass k) k (encryptPacket k ((((s.keySet (pkJob k)).map (·.keys)).getD []).take 32))

/-- A STATUS reply to a packet (R178, R179). A STATUS packet is never answered. -/
def State.reply (s : State) (k : Packet) (st : Status) : State :=
  if pkType k = 0 then s
  else s.sendPacket (newPacket (pkJob k) (pkSrc k) 0 0 0 0 st.code (pkSeq k) 0 []) 0 0

/-! ### Checks on arrival (R179) -/

/-- Whether the bits that R278 and R279 keep zero in a KNOT packet are zero: of its ARG, and of unit 0 of an outcome or answer. -/
def pkKnotZero (k : Packet) : Bool :=
  let a := pkArg k
  let o := pkOp k
  bits a 14 2 = 0 &&
  (if o = 0 then bits a 20 12 = 0
   else bits a 6 5 = 0 &&
    (if o = 1 then bits a 44 20 = 0
     else if o = 2 then bits a 20 12 = 0 && bits a 36 28 = 0
     else bits a 20 44 = 0 && ((o ≠ 3 && o ≠ 5) || ((k.payload.drop 10).take 22).all (fun b => decide (b = 0)))))

/-- Whether a packet's reserved fields are zero, its level 1, and its type, class and OP defined at level 1. -/
def pkLevelOk (k : Packet) : Bool :=
  pkLevel k = 1 && bits k.w0.toNat 11 5 = 0 && bits k.w2.toNat 41 23 = 0 && bits k.w3.toNat 61 3 = 0
    && k.w6 = 0 && k.w7 = 0 && pkType k < 8 && pkClass k < 5
    && (pkType k ≠ 6 || (pkOp k < 6 && pkKnotZero k))

/-- Whether LEN, the payload and the fields that R178 and R279 fix for the type are well formed. -/
def pkFormOk (k : Packet) : Bool :=
  let t := pkType k
  let n := pkLen k
  let a := pkArg k
  n ≤ 256 && k.payload.length = 32 * n && pkClass k = classOf t &&
  (if t = 0 then n = 0 && pkBlock k < 256
   else if t = 1 then 1 ≤ n && a = 0
   else if t = 2 then n = 0 && pkBlock k = 0 && bits a 53 11 = 0
   else if t = 3 || t = 7 then bits a 16 48 = 0 && 1 ≤ pkCount k && n = ceilDiv (pkCount k) 32
   else if t = 4 then bits a 16 48 = 0 && 1 ≤ pkCount k && n = ceilDiv (pkCount k) 64
   else if t = 5 then 1 ≤ n
   else
    let o := pkOp k
    if o = 1 then n = 0 || n = 16
    else if o = 3 || o = 5 then n = 1 || n = 17
    else n = 0)

/-- Whether the tag and the replay window let a packet in (R179, R366 to R368), and the window after it. A device's own packets
have neither. -/
def State.tagCheck (s : State) (space : Nat) (k : Packet) : Bool × State :=
  match s.keySet (pkJob k) with
  | none => (false, s)
  | some key =>
    let gen := if k.oldKey then key.gen - 1 else key.gen
    let seq := pkSeq k
    if !k.tagOk || (k.oldKey && key.oldUntil ≤ s.pick) then (false, s)
    else
      let same := fun (w : Window) => w.job = space + pkJob k && w.src = pkSrc k && w.gen = gen
      match s.windows.find? same with
      | none => (seq ≠ 0, if seq = 0 then s else { s with windows := ⟨space + pkJob k, pkSrc k, gen, seq, [seq]⟩ :: s.windows })
      | some w =>
        if seq + 1024 ≤ w.high || w.seen.contains seq then (false, s)
        else
          let high := max w.high seq
          let w' := { w with high := high, seen := (seq :: w.seen).filter (fun x => high < x + 1024) }
          (true, { s with windows := w' :: s.windows.filter (fun x => !same x) })

/-- Whether a packet's SRC is a member of its job, which has a context on the device (R179). -/
def State.member (s : State) (k : Packet) : Bool := s.ctxsOfJob (pkJob k) ≠ [] && k.srcMember

/-- The owner that a partition's active owner table names for a block of a RED_ID of a context (R291). -/
def State.ownerOf (s : State) (p c red block : Nat) : Option Nat :=
  let b := s.fld TBL_SWITCH_STATUS.ACTIVE p 0
  ((List.range 8192).find? (fun e =>
    let j := b * 8192 + e
    s.fld OWN_CTRL.VALID p j = 1 && s.fld OWN_CTRL.CTX p j = c && s.fld OWN_ID.RED_ID p j = red
      && s.fld OWN_FIRST.BLOCK p j ≤ block && block < s.fld OWN_FIRST.BLOCK p j + s.fld OWN_COUNT.BLOCKS p j)).map
    (fun e => s.fld OWN_ID.OWNER p (b * 8192 + e))

/-- Whether this device is the owner of a block for a context. -/
def State.ownsBlock (s : State) (p c red block : Nat) : Bool := s.ownerOf p c red block = some Config.deviceId.toNat

/-- The context of a job to which a packet for a block of a RED_ID belongs: the first that the active owner tables name, else
the first with a slot that covers the block, else the job's lowest (DEDUCED, log entry 21). -/
def State.rxCtx (s : State) (job red block : Nat) : Nat × Nat :=
  let cs := s.ctxsOfJob job
  match cs.find? (fun c => s.ownsBlock c.1 c.2 red block) with
  | some c => c
  | none =>
    (cs.find? (fun c => (List.range (s.fld PART_CTX_SLOTS.COUNT c.1 c.2)).any (fun i =>
      let t := s.fld PART_CTX_SLOTS.BASE c.1 c.2 + i
      s.fld RED_SLOT_ID.RED_ID t 0 = red && s.fld RED_SLOT_CTRL.STATE t 0 ≠ 0 && s.fld RED_SLOT_BASE.BLOCK t 0 ≤ block
        && block < s.fld RED_SLOT_BASE.BLOCK t 0 + s.fld RED_SLOT_LEN.LEN t 0))).getD (cs.getD 0 (0, 0))

/-- The flits of a packet (R165, R177): 64 B of header, its payload and 16 B of tag, each packet from a flit of its own (DESIGN CHOICE, log
entry 114). -/
def flitsOf (k : Packet) : Nat := ceilDiv (80 + k.payload.length) 496

/-- A packet has arrived on a port: the buffer of its flits is free again, and its class's credits go back with the next flit (R165,
R169). -/
def State.owe (s : State) (l : Nat) (k : Packet) : State :=
  let x := s.port l
  s.setPort l { x with owed := x.owed.set (pkClass k) (x.owed.getD (pkClass k) 0 + flitsOf k) }

/-- The partition that counts a CHECKSUM reply (R181). -/
def State.checkPart (s : State) (k : Packet) : Nat :=
  let cs := s.ctxsOfJob (pkJob k)
  ((cs.find? (fun c => s.ownsBlock c.1 c.2 (pkRed k) (pkBlock k))).getD (cs.getD 0 (0, 0))).1

/-- Whether a packet gets in at all, and the state after that: one from the fabric through an UP port with a tag that verifies, since a port
that is not UP carries no traffic (R167), and a device's own where it has sent it and not yet delivered it. -/
def State.arrival (s : State) (k : Packet) : Bool × State :=
  match k.port with
  | none => (s.loop.contains k, { s with loop := s.loop.erase k })
  | some port =>
    if s.linkUp port.val then
      let (ok, s) := (s.owe port.val k).tagCheck 0 k
      (ok, if ok then s else s.bump .WEFT_PORT_AUTH_FAIL port.val 0 1)
    else (false, s)

/-- Whether the CHECK of a REDUCE or GATHER packet differs from its payload's (R180). -/
def State.checkFails (s : State) (k : Packet) : Bool :=
  let h := s.redH (pkJob k) (pkStep k) (pkRed k)
  (pkType k = 1 && reduceCheck h (pkBlock k) k.payload ≠ pkCheck k) || (pkType k = 5 && gatherCheck h (pkArg k) k.payload ≠ pkCheck k)

/-- A packet arrives: what the checks of R179 make of it, and the state after them. `some` is the state in which a packet that
passed is matched. -/
def State.arrive (s : State) (k : Packet) : Option State × State :=
  let (ok, s) := s.arrival k
  if !ok then (none, s)
  else if !pkLevelOk k then (none, s.reply k .level)
  else if !s.member k then (none, s.reply k .protection)
  else if !pkFormOk k then (none, s.reply k .illegal)
  else if s.checkFails k then (none, (s.bump .RED_CHECK_FAIL (s.checkPart k) 0 1).reply k .checksum)
  else (some s, s)

/-- A packet that passes is matched by `f`; the others end at their checks. -/
def State.receive (s : State) (k : Packet) (f : State → State) : State :=
  match s.arrive k with
  | (some s, _) => f s
  | (none, s) => s

end Sys2Proof.Machine
end

