-- ==== Sys2Proof/Machine/Steps.lean ====
section
/-! DEFINITION. The end of a step: veto and abort (R226, R227, R450), the commit's messages to the home (R221, R279), and the
fault report (R199). -/

namespace Sys2Proof.Machine
open Sys2Proof

/-! ### Peer table and exponent planes (R201) -/

/-- Generation a is newer than b, as serial numbers modulo 2^16 (R290). -/
def newer (a b : Nat) : Bool := let d := (a + 65536 - b % 65536) % 65536; 1 ≤ d && d ≤ 32767

/-- The generation of a partition's active owner table: the layout epoch. -/
def State.epoch (s : State) (p : Nat) : Nat := s.fld TBL_SWITCH_GEN.GEN p 0

/-- An entry of the peer table. -/
structure PeerRow where
  cOff : Nat
  cN : Nat
  hOff : Nat
  hN : Nat
  planeOff : Nat
  blocks : Nat
  deriving DecidableEq, Repr

/-- The peer table entry of a RED_ID of a context, or the status with which whatever needs it completes; and the state after the read. -/
def State.peerRow (s : State) (p c red : Nat) : Status × PeerRow × State :=
  let a := s.reg .RED_PEER_TABLE p c
  let none : PeerRow := ⟨0, 0, 0, 0, 0, 0⟩
  if bits a 40 24 ≠ 0 || a % 65536 ≠ 0 then (.illegal, none, s)
  else
    match s.hbmRead (.job 2 (s.jobOf p c)) (a + 32 * red) 32 with
    | (.ok, b, s) =>
      let w := fun i => leNat ((b.drop (8 * i)).take 8)
      if !bit (w 3) 63 || bits (w 0) 49 15 ≠ 0 || bits (w 1) 49 15 ≠ 0 || bits (w 2) 40 24 ≠ 0 || bits (w 3) 40 23 ≠ 0
      then (.illegal, none, s)
      else (.ok, ⟨bits (w 0) 0 32, bits (w 0) 32 17, bits (w 1) 0 32, bits (w 1) 32 17, bits (w 2) 0 40, bits (w 3) 0 40⟩, s)
    | (e, _, s) => (e, none, s)

/-- A run of device identifiers of the peer list. -/
def State.peerList (s : State) (p c off n : Nat) : Status × List Nat × State :=
  let a := s.reg .RED_PEER_LIST p c
  if bits a 40 24 ≠ 0 || a % 4096 ≠ 0 then (.illegal, [], s)
  else if n = 0 then (.ok, [], s)
  else match s.hbmRead (.job 2 (s.jobOf p c)) (a + 2 * off) (2 * n) with
    | (.ok, b, s) => (.ok, (List.range n).map (fun i => leNat ((b.drop (2 * i)).take 2)), s)
    | (e, _, s) => (e, [], s)

/-- Where the record of block b of a plane lies. -/
def State.planeAddr (s : State) (p c : Nat) (r : PeerRow) (b : Nat) : Nat := s.reg .RED_PLANE p c + 4 * (r.planeOff + b)

/-- The plane area's address is one the engine accepts. -/
def State.planeOk (s : State) (p c : Nat) : Bool :=
  let a := s.reg .RED_PLANE p c
  bits a 40 24 = 0 && a % 65536 = 0

/-- Copy `copy` of blocks b to b + n − 1 of a plane, as signed numbers. -/
def State.planeRead (s : State) (p c : Nat) (r : PeerRow) (copy b n : Nat) : Status × List Int × State :=
  if !s.planeOk p c then (.illegal, [], s)
  else if n = 0 then (.ok, [], s)
  else match s.hbmRead (.job 2 (s.jobOf p c)) (s.planeAddr p c r b) (4 * n) with
    | (.ok, l, s) => (.ok, (List.range n).map (fun i => signed 8 (l.getD (4 * i + copy) 0).toNat), s)
    | (e, _, s) => (e, [], s)

/-- Bytes of copy `copy` of a plane take values. -/
def State.planeWrite (s : State) (p c : Nat) (r : PeerRow) (copy : Nat) (vs : List (Nat × Int)) : Status × State :=
  if !s.planeOk p c then (.illegal, s)
  else vs.foldl (fun x v =>
    match x with
    | (.ok, s) => s.hbmWrite (.job 2 (s.jobOf p c)) (s.planeAddr p c r v.1 + copy) [BitVec.ofNat 8 (unsigned 8 v.2)]
    | x => x) (.ok, s)

/-- The front copy (R201). -/
def State.phase (s : State) (p c : Nat) : Nat := s.fld RED_PLANE_CFG.PHASE p c

/-- The CALIB marks of a plane: byte 3 of block 0. -/
def State.calibMarks (s : State) (p c : Nat) (r : PeerRow) : Status × Nat × State :=
  if !s.planeOk p c then (.illegal, 0, s)
  else match s.hbmRead (.job 2 (s.jobOf p c)) (s.planeAddr p c r 0 + 3) 1 with
    | (.ok, l, s) => (.ok, leNat l, s)
    | (e, _, s) => (e, 0, s)

/-- The mark of a copy is set or cleared. -/
def State.setCalib (s : State) (p c : Nat) (r : PeerRow) (copy v : Nat) : State :=
  match s.calibMarks p c r with
  | (.ok, m, s) => (s.hbmWrite (.job 2 (s.jobOf p c)) (s.planeAddr p c r 0 + 3) [BitVec.ofNat 8 (setBits m copy 1 v)]).2
  | (_, _, s) => s

/-! ### Commit traffic and slots -/

/-- ARG of commit traffic: member context, partition and OP (R279). -/
def commitArg (p c op : Nat) : Nat := c + p * 2 ^ 11 + op * 2 ^ 16

/-- A KNOT packet of commit traffic from a member to a device. -/
def State.sendCommit (s : State) (p c op dst step extra : Nat) (payload : List Byte) : State :=
  s.sendPacket (newPacket (s.jobOf p c) dst 6 step 0 0 0 (commitArg p c op + extra) 0 payload) 0 0

/-- A member tells the home of its veto or abort, with the cause in ARG [35:32]. -/
def State.sendVeto (s : State) (p c cause : Nat) : State :=
  s.sendCommit p c 2 (s.fld BAT_COMMIT_HOME.HOME p c) (s.reg .BAT_STEP_NUM p c) (cause * 2 ^ 32) []

/-- The slots of a context (R374). -/
def State.slotsOf (s : State) (p c : Nat) : List Nat :=
  ((List.range (s.fld PART_CTX_SLOTS.COUNT p c)).map (fun i => s.fld PART_CTX_SLOTS.BASE p c + i)).filter (· < 4096)

/-- A slot's state changes; the change is a trace event of its partition (R405). -/
def State.slotTo (s : State) (p slot st : Nat) : State :=
  (s.setFld RED_SLOT_CTRL.STATE slot 0 st).trace p 2 p (leBytes 4 (s.reg .RED_SLOT_ID slot 0) ++ leBytes 4 st)

/-- A slot beyond its descriptor. -/
def State.slot (s : State) (slot : Nat) : Slot := SMap.get {} s.slots slot
/-- It takes a value. -/
def State.setSlot (s : State) (slot : Nat) (x : Slot) : State := { s with slots := SMap.set {} s.slots slot x }

/-- The slots of a STEP enter ABORTED (R186, R227). -/
def State.abortSlots (s : State) (p c step : Nat) : State :=
  (s.slotsOf p c).foldl (fun s t =>
    let st := s.fld RED_SLOT_CTRL.STATE t 0
    if 1 ≤ st && st ≤ 3 && s.reg .RED_SLOT_STEP t 0 = step then s.slotTo p t 5 else s) s

/-- The layer entries of a context (R127). -/
def State.layersOf (s : State) (p c : Nat) : List Nat :=
  ((List.range (s.fld PART_CTX_LAYERS.COUNT p c)).map (fun i => s.fld PART_CTX_LAYERS.BASE p c + i)).filter (· < 4096)

/-- The registers of a layer whose values at the last commit an abort brings back (R125, R157). -/
def layerRegs : List RegName := [.TEN_LAYER_STATE, .TEN_LAYER_FREF, .TEN_LAYER_GSTATE, .TEN_LAYER_GREF]

/-- The layer state as it stands, kept at admission and at each commit. -/
def State.saveLayers (s : State) (p c : Nat) : State :=
  let m := (s.layersOf p c).foldl (fun m l => layerRegs.foldl (fun m r =>
    SMap.put m (regKey r p l) (BitVec.ofNat 64 (s.reg r p l))) m) []
  s.setStep p c { s.stepOf p c with saved := m }

/-- The bytes a widened copy of `tiles` tiles needs, in 64 KiB units (R123). -/
def wideUnits (tiles : Nat) : Nat := ceilDiv (2 * 16896 * tiles) 65536

/-- The units of an area. -/
def WideArea.size (w : WideArea) : Nat := (w.units.map (·.2)).sum

/-- Where byte `pos` of an area lies in the reserve, over the area's runs of units. -/
def runAt : List (Nat × Nat) → Nat → Nat
  | [], pos => pos
  | (o, n) :: t, pos => if pos < n * 65536 then o * 65536 + pos else runAt t (pos - n * 65536)

/-- The runs of HBM bytes that bytes off to off + n − 1 of a half of an area take (R123, R124). -/
def State.wideRuns (s : State) (w : WideArea) (half off n : Nat) : List (Nat × Nat) :=
  (pagesOf (half * (w.size * 32768) + off) n).map (fun x => (s.reg .PART_CTX_RESV_ADDR w.part w.ctx + runAt w.units x.2.1, x.2.2))

/-- Bytes of a half of an area are read. -/
def State.wideRead (s : State) (who : Who) (w : WideArea) (half off n : Nat) : Status × List Byte × State :=
  (s.wideRuns w half off n).foldl (fun x r =>
    match x with
    | (.ok, b, s) => let (st, b', s) := s.hbmRead who r.1 r.2; (st, b ++ b', s)
    | x => x) (.ok, [], s)

/-- Bytes of a half of an area are written. -/
def State.wideWrite (s : State) (who : Who) (w : WideArea) (half off : Nat) (bytes : List Byte) : Status × State :=
  ((s.wideRuns w half off bytes.length).foldl (fun (x : Status × List Byte × State) r =>
    match x with
    | (.ok, b, s) => let (st, s) := s.hbmWrite who r.1 (b.take r.2); (st, b.drop r.2, s)
    | x => x) (.ok, bytes, s)) |> fun x => (x.1, x.2.2)

/-- The area of a layer, while the layer holds it. -/
def State.areaOf (s : State) (p c l : Nat) : Option WideArea :=
  s.wideAreas.find? (fun w => w.part = p && w.ctx = c && w.layer = l && !w.gone)

/-- A layer's reserve is released (R124, R125). What was committed wide stays readable to instructions that still run wide, until its
units are taken again (`keep`). -/
def State.releaseWide (s : State) (p c l : Nat) (keep : Bool) : State :=
  match s.areaOf p c l with
  | none => s
  | some w =>
    let rest := s.wideAreas.filter (fun x => x ≠ w)
    { s.setFld TEN_CTX_RESV_USED.USED p c (s.fld TEN_CTX_RESV_USED.USED p c - w.size) with
        wideAreas := if keep then rest ++ [{ w with gone := true }] else rest }

/-- The forward-copy entries of a layer, in order. -/
def State.layerEntries (s : State) (p c l : Nat) : List Nat :=
  (s.validEntries p c).filter (fun e => s.ent BAT_REG_CTRL.KIND p e = 1 && s.ent BAT_REG_ID.LAYER p e = l)

/-- The tiles of a layer's forward copy, as entry and tile, in order: index i of R123 counts them. -/
def State.layerTileList (s : State) (p c l : Nat) : List (Nat × Nat) :=
  (s.layerEntries p c l).flatMap (fun e => (List.range (s.ent BAT_REG_LEN.TILES p e)).map (fun t => (e, t)))

/-- The tiles of a layer's forward copy. -/
def State.layerTiles (s : State) (p c l : Nat) : Nat := ((s.layerEntries p c l).map (fun e => s.ent BAT_REG_LEN.TILES p e)).sum

/-- The generating contexts that read a context's forward copies run these of its layers wide, and its others narrow; a sensitive layer
stays as it is (R116, R118, R124, R229). -/
def State.followWide (s : State) (p c : Nat) (wide : List Nat) : State :=
  ((allCtx.filter (fun g => s.present g.1 g.2 && s.role g.1 g.2 = 1 && s.fld BAT_HANDOVER.ACTIVE g.1 g.2 = 1
      && s.handSource g.1 g.2 = (p, c)))).foldl (fun s g =>
    (List.range (s.layersOf g.1 g.2).length).foldl (fun s o =>
      let l := s.fld PART_CTX_LAYERS.BASE g.1 g.2 + o
      if s.fld TEN_LAYER_CFG.SENSITIVE g.1 l = 1 then s
      else s.setFld TEN_LAYER_STATE.WIDE g.1 l (b2n (wide.contains (s.fld PART_CTX_LAYERS.BASE p c + o)))) s) s

/-- The layer state of the last commit comes back: WIDE, WIDE_PENDING, OVF_TILES, JUMPS, FREF, GJUMPS and GREF; NF returns to
0, and the reserve of a widening decided since is released (R125, R157). -/
def State.restoreLayers (s : State) (p c : Nat) : State :=
  let m := (s.stepOf p c).saved
  (s.layersOf p c).foldl (fun s l =>
    let old := fun r => ((SMap.find m (regKey r p l)).map BitVec.toNat).getD (s.reg r p l)
    let st := old .TEN_LAYER_STATE
    let wide := TEN_LAYER_STATE.WIDE.of st + TEN_LAYER_STATE.WIDE_PENDING.of st
    let s := if wide = 0 then s.releaseWide p c l false else s
    let s := s.setFld TEN_LAYER_STATE.WIDE p l (TEN_LAYER_STATE.WIDE.of st)
    let s := s.setFld TEN_LAYER_STATE.WIDE_PENDING p l (TEN_LAYER_STATE.WIDE_PENDING.of st)
    let s := s.setFld TEN_LAYER_STATE.OVF_TILES p l (TEN_LAYER_STATE.OVF_TILES.of st)
    let s := s.setFld TEN_LAYER_STATE.JUMPS p l (TEN_LAYER_STATE.JUMPS.of st)
    let s := s.setReg .TEN_LAYER_FREF p l (old .TEN_LAYER_FREF)
    let s := s.setFld TEN_LAYER_GSTATE.GJUMPS p l (TEN_LAYER_GSTATE.GJUMPS.of (old .TEN_LAYER_GSTATE))
    let s := s.setFld TEN_LAYER_GSTATE.NF p l 0
    s.setReg .TEN_LAYER_GREF p l (old .TEN_LAYER_GREF)) s

/-- The valid, non-frozen entries of a context. -/
def State.moving (s : State) (p c : Nat) : List Nat :=
  (s.validEntries p c).filter (fun e => s.fld BAT_REG_CTRL.FROZEN_ACTIVE p e = 0)

/-- Whether an open pass holds the slot that is now an entry's back slot (R230). -/
def State.backHeld (s : State) (p e : Nat) : Bool :=
  s.passes.any (fun q => q.src / 64 = p && q.slots.contains (e, s.fld BAT_REG_SLOTS.BACK p e))

/-- The back slots of entries hold unspecified bytes (R227, R357). -/
def State.spoilSlots (s : State) (p : Nat) (es : List Nat) : State :=
  es.foldl (fun s e =>
    let n := s.slotBytes p e
    let k := s.free
    { s with hbm := fillBytes s.hbm (s.slotAddr p e (s.fld BAT_REG_SLOTS.BACK p e)) n (fun i => Config.freeByte (k + i)),
             free := s.free + n }) s

/-- The back slots of a context's entries become unspecified (R227), but for those that an open pass still reads and nothing has written
(R230). A back slot of a moving entry in two-slot mode may no longer hold the previous commit (R357). -/
def State.spoilBackSlots (s : State) (p c : Nat) : State :=
  let s := s.spoilSlots p ((s.validEntries p c).filter (fun e => !s.backHeld p e))
  if (s.moving p c).any (fun e => s.ent BAT_REG_CTRL.SLOTS p e = 0) then s.setFld SNAP_CTX_STATUS.ROLLBACK_OK p c 0 else s

/-- The exponent back copies that a step has filled are discarded: they and their marks are as before the step (R184, R227, R228). -/
def State.restoreBacks (s : State) (p c : Nat) : State :=
  (s.stepOf p c).backs.foldl (fun s b =>
    let (_, row, s) := s.peerRow p c b.1
    let back := (s.phase p c + 1) % 3
    (s.planeWrite p c row back ((List.range row.blocks).zip b.2.2)).2.setCalib p c row back b.2.1) s

/-- The watched outputs of a context's open micro-step are forgotten (R120, R155). -/
def State.clearWatch (s : State) (p c : Nat) : State :=
  { s with tension := (s.layersOf p c).foldl (fun m l =>
      SMap.erase (SMap.erase m ((p * 4096 + l) * 2)) ((p * 4096 + l) * 2 + 1)) s.tension }

/-- The record STEP_END of the tenant's ring (R403). -/
def State.stepEnd (s : State) (p c : Nat) (st : Status) (cause : Nat) : State :=
  let body := leBytes 1 c ++ leBytes 4 (s.reg .BAT_STEP_NUM p c) ++ leBytes 1 st.code ++ leBytes 1 cause
  (s.logRec p 0x0104 p body).trace p 3 p body

/-- STATE of a step's status, with its RESULT and CAUSE. -/
def State.setStepStatus (s : State) (p c state result cause : Nat) : State :=
  s.setReg .BAT_STEP_STATUS p c (state + result * 2 ^ 8 + cause * 2 ^ 12)

/-- A member carries out a veto or abort (R227). -/
def State.endStep (s : State) (p c : Nat) (st : Status) (cause : Nat) : State :=
  let r := s.stepOf p c
  let step := s.reg .BAT_STEP_NUM p c
  let s := s.spoilBackSlots p c
  let s := s.restoreBacks p c
  let s := ((s.restoreLayers p c).clearWatch p c).followWide p c r.committedWide
  let s := s.abortSlots p c step
  let s := s.setStep p c { ended := step :: r.ended, microPos := r.microPos, microOpen := r.microOpen, expset := r.expset,
                              wideNow := r.wideNow.filter (fun l => decide (s.fld TEN_LAYER_STATE.WIDE p l = 1)),
                              gcfg := r.gcfg, saved := r.saved, policy := r.policy, committedWide := r.committedWide }
  let s := s.setReg .BAT_CURSOR_PROV p c (s.reg .BAT_CURSOR_COMMITTED p c)
  let s := s.setStepStatus p c 0 st.code cause
  let s := s.bump (if st = .veto then .BAT_VETOES else .BAT_ABORTS) p 0 1
  (s.stepEnd p c st cause).settle

/-- A veto of a context's step (R226, R450): in OPEN it ends the step and the home hears of it; in SIGNALLED a veto of the
program or of the management plane goes to the home; otherwise it has no effect. -/
def State.vetoStep (s : State) (p c cause : Nat) : State :=
  let st := s.stepState p c
  if st = 1 then (s.sendVeto p c cause).endStep p c .veto cause
  else if st = 2 && (cause = 1 || cause = 5) then s.sendVeto p c cause
  else s

/-- An abort of a context's step. -/
def State.abortStep (s : State) (p c cause : Nat) : State :=
  if s.stepState p c = 1 then (s.sendVeto p c cause).endStep p c .aborted cause else s

/-- A step that a LEAVE ends in whatever state it is (R375, R450). -/
def State.dropStep (s : State) (p c cause : Nat) : State :=
  let st := s.stepState p c
  if st = 0 then s
  else if st ≤ 2 then (s.sendVeto p c cause).endStep p c .aborted cause
  else s.endStep p c .aborted cause

/-- A fault of the reduction engine: recorded while no other stands (R199). -/
def State.redFault (s : State) (p dev kind red elem block step : Nat) : State :=
  if s.fld RED_FAULT_SRC.VALID p 0 = 1 then s
  else (((s.setReg .RED_FAULT_SRC p 0 (dev + kind * 2 ^ 16 + 2 ^ 31)).setReg .RED_FAULT_ID p 0 (red + elem * 2 ^ 16)).setReg
    .RED_FAULT_BLOCK p 0 block).setReg .RED_FAULT_STEP p 0 step

/-- The record of a reduction fault in the tenant's ring (R191, R403). -/
def State.logRedFault (s : State) (p dev kind red elem block step : Nat) : State :=
  s.logRec p 0x0101 p (leBytes 4 (dev + kind * 2 ^ 16 + 2 ^ 31) ++ leBytes 4 (red + elem * 2 ^ 16) ++ leBytes 4 block
    ++ leBytes 4 step)

end Sys2Proof.Machine
end

