-- ==== Sys2Proof/Machine/Issue.lean ====
section
/-! DEFINITION. What the rows of Onaile share: instructions, fetch, hazards and units (R238, R243 to R246), and how a unit's instruction
completes. -/

namespace Sys2Proof.Machine
open Sys2Proof

/-- An instruction that issues: its program state, partition and engine, the program with PC and instruction number already past
it, the trap it would report, and its operand bits. With `probe` only whether it must wait is asked. -/
structure Iss where
  key : Nat
  part : Nat
  engine : Nat
  g : Prog
  trap : Status → Trap
  op : Nat
  probe : Bool

/-- The context. -/
def Iss.ctx (i : Iss) : Nat := i.g.ctx
/-- An operand field. -/
def Iss.f (i : Iss) (lo len : Nat) : Nat := bits i.op lo len

/-- What an instruction does: an exception at once, nothing because its program state is not ready, or its effect. -/
inductive Issued where
  | raise (st : Status)
  | hold
  | go (g : Prog) (s : State)

/-- A row of the tables of Onaile (R244): its OPCODE, the operand bits that tell it from other rows of the OPCODE, the operand fields it
names, and what it does. -/
structure Row where
  opcode : Nat
  sub : Nat → Bool
  fields : List (Nat × Nat)
  effect : Iss → State → Issued

/-- The bits of an operand field's places. -/
def fieldMask (fs : List (Nat × Nat)) : Nat := fs.foldl (fun m f => m ||| ((2 ^ f.2 - 1) <<< f.1)) 0

/-- Whether every operand bit outside the named fields is zero (R244, R245). -/
def namedOnly (op : Nat) (fs : List (Nat × Nat)) : Bool := op &&& (2 ^ 52 - 1 - fieldMask fs) = 0

/-- An instruction as its meaning sees it. -/
def Prog.iss (g : Prog) (p e i opcode op : Nat) (probe : Bool) : Iss :=
  ⟨progKey p e i, p, e, { g with pc := g.pc + 8, seq := g.seq + 1, yielded := false },
    fun st => ⟨g.seq, st, g.place, opcode⟩, op, probe⟩

/-! ### Fetch (R238) -/

/-- The words that a 32 KiB instruction cache holds. -/
abbrev icacheWords : Nat := 4096

/-- Where a program's next instruction lies. -/
def Prog.loc (g : Prog) : Loc := if g.beam then .beam g.pc else .hbm g.pc

/-- The fetch of the word at a program's PC on engine e (R238): the cards are asked every time; a word in the engine's cache is taken from
there, unread and stale if it has been overwritten; another is read and cached in place of the one cached first (DESIGN CHOICE, log
entry 117). -/
def State.fetch (s : State) (p e : Nat) (g : Prog) : Status × W64 × State :=
  let n := p * 48 + e
  let at' := g.place
  let l := SMap.get [] s.icache n
  match s.checkLoc p g.ctx false g.loc 8, l.find? (fun x => x.1 = at') with
  | .ok, some x => (.ok, x.2, s)
  | _, _ =>
    match s.readLoc p g.ctx g.loc 8 with
    | (.ok, b, s) =>
      let w : W64 := BitVec.ofNat 64 (leNat b)
      (.ok, w, { s with icache := SMap.set [] s.icache n ((at', w) :: l.take (icacheWords - 1)) })
    | (st, _, s) => (st, 0, s)

/-- An engine's cache is emptied when a program is launched there, so that no launch meets words overwritten before it (R238; DESIGN CHOICE,
log entry 117). -/
def State.emptyCache (s : State) (n : Nat) : State := { s with icache := SMap.erase s.icache n }

/-- `u` unless an earlier check has failed: the first of a list of statuses that is not OK. -/
def firstBad (l : List Status) : Status := (l.find? (fun st => st ≠ .ok)).getD .ok

/-- A status of a condition. -/
def need (b : Bool) (st : Status) : Status := if b then .ok else st

/-! ### Hazards and units -/

/-- Whether two ranges touch a common 256 B run (R243). -/
def overlap256 (a b : Nat × Nat) : Bool :=
  0 < a.2 && 0 < b.2 && a.1 / 256 ≤ (b.1 + b.2 - 1) / 256 && b.1 / 256 ≤ (a.1 + a.2 - 1) / 256

/-- Whether any two ranges of two lists overlap. -/
def anyOverlap (a b : List (Nat × Nat)) : Bool := a.any (fun x => b.any (overlap256 x))

/-- Whether an instruction of a program state must wait for one that has issued and not completed (R243). -/
def State.hazard (s : State) (k : Nat) (reads writes : List (Nat × Nat)) : Bool :=
  s.unitOps.any (fun o => o.prog = k && (anyOverlap (reads ++ writes) o.writes || anyOverlap writes o.reads))

/-- Whether a unit of an engine holds four instructions that have not started (R236): the oldest of a unit has started. -/
def State.unitFull (s : State) (k u : Nat) : Bool :=
  5 ≤ (s.unitOps.filter (fun o => o.prog / 8 = k / 8 && o.unit = u)).length

/-- The converter settings that the start of a tile takes (R75). -/
def State.cnvSettings (s : State) (p : Nat) : Nat × Nat := (s.fld CNV_KAPPA.MUL p 0, s.fld CNV_OVF_LIMIT.TILE_LIMIT p 0)

/-- The oldest instruction of a unit of engine n starts: a converter instruction takes the settings of its first tile (R75). -/
def State.startUnit (s : State) (n u : Nat) : State :=
  match s.unitOps.find? (fun o => o.prog / 8 = n && o.unit = u) with
  | some o =>
    match o.work with
    | some w =>
      if w.latched.isNone then
        { s with unitOps := s.unitOps.replace o { o with work := some { w with latched := some (s.cnvSettings (n / 48)) } } }
      else s
    | none => s
  | none => s

/-- A unit takes an instruction. -/
def State.giveUnit (s : State) (i : Iss) (u : Nat) (st : Status) (flags : Nat) (reads writes : List (Nat × Nat))
    (posts : List Post) : State :=
  { s with unitOps := s.unitOps ++ [⟨i.key, i.ctx, u, i.trap st, flags, reads, writes, posts, none⟩] }

/-- The converter takes an instruction with its work. -/
def State.giveConverter (s : State) (i : Iss) (reads writes : List (Nat × Nat)) (posts : List Post) (w : CnvWork) : State :=
  ({ s with unitOps := s.unitOps ++ [⟨i.key, i.ctx, 2, i.trap .ok, 0, reads, writes, posts, some w⟩] } : State).startUnit (i.key / 8) 2

/-- The bytes of a window. -/
def State.bobRead (s : State) (i : Iss) (off n : Nat) : List Byte := readBytes s.bobbin (s.bobAt i.part i.ctx i.engine off) n
/-- Bytes of a window are written. -/
def State.bobWrite (s : State) (i : Iss) (off : Nat) (bytes : List Byte) : State :=
  { s with bobbin := writeBytes s.bobbin (s.bobAt i.part i.ctx i.engine off) bytes }
/-- A tile of a window. -/
def State.bobTile (s : State) (i : Iss) (off n : Nat) : Tile := (s.bobRead i off n).toArray

/-- Whether ranges lie in the context's window on the engine (R240). -/
def State.inWindow (s : State) (i : Iss) (l : List (Nat × Nat)) : Bool :=
  l.all (fun r => r.1 + r.2 ≤ s.windowSize i.part i.ctx i.engine)

/-- Whether a layer entry lies in the context's range (R119). -/
def State.layerOk (s : State) (i : Iss) (l : Nat) : Bool :=
  s.fld PART_CTX_LAYERS.BASE i.part i.ctx ≤ l && l < s.fld PART_CTX_LAYERS.BASE i.part i.ctx + s.fld PART_CTX_LAYERS.COUNT i.part i.ctx

/-- Whether a layer runs wide in the open micro-step: as the micro-step found it when it opened (R123, R124). -/
def State.runsWide (s : State) (i : Iss) (l : Nat) : Bool := (s.stepOf i.part i.ctx).wideNow.contains l

/-- The offset and bytes of an instruction's own-bobbin access: R251's and R258's addresses must have TIER 0x0. -/
def ownOff (a : Nat) : Option Nat := if bits a 60 4 = 0 && bits a 23 37 = 0 then some (bits a 0 23) else none

/-! ### Completion -/

/-- A completed instruction's effect on the registers (R76, R89, R120, R155). -/
def State.post (s : State) : Post → State
  | .count r i j n =>
    let s := s.bump r i j n
    if (r = .TEN_FWD_NONFINITE || r = .TEN_BWD_NONFINITE) && n ≠ 0 && !s.nfRose.contains i then { s with nfRose := i :: s.nfRose }
    else s
  | .ovf p l n => s.bumpFld TEN_LAYER_STATE.OVF_TILES p l n
  | .watch grad p l n above nf sum =>
    let k := (p * 4096 + l) * 2 + b2n grad
    let (a, m, o) := SMap.get (⟨0, 0⟩, 0, 0) s.tension k
    let s := { s with tension := SMap.set (⟨0, 0⟩, 0, 0) s.tension k (if n = 0 then a else a.add sum, m + n, o + above) }
    if grad then s.bumpFld TEN_LAYER_GSTATE.NF p l nf else s
  | .fault p v => if s.fld CNV_LAST_FAULT.VALID p 0 = 1 then s else s.setReg .CNV_LAST_FAULT p 0 v

/-- An instruction's destination bytes are unspecified (R76). -/
def State.spoilDest (s : State) (o : UnitOp) : State :=
  o.writes.foldl (fun s r =>
    let (b, s) := s.freshBytes r.2
    { s with bobbin := writeBytes s.bobbin (s.bobAt (o.prog / 384) o.ctx (o.prog / 8 % 48) r.1) b }) s

/-- Instructions that a reset or stop ends with ABORTED leave their destinations unspecified (R76). -/
def State.abortOps (s : State) (dies : UnitOp → Bool) : State :=
  (s.unitOps.filter dies).foldl State.spoilDest { s with unitOps := s.unitOps.filter (fun o => !dies o) }

end Sys2Proof.Machine
end

