-- ==== Sys2Proof/Machine/Arrays.lean ====
section
/-! DEFINITION. The forward array (R101 to R118) and the backward array with its reed transposer (R133 to R154). -/

namespace Sys2Proof.Machine
open Sys2Proof

/-! ### Accumulation (R105 to R109, R143 to R146) -/

/-- What enters an output in one pass: addends with their top exponents, and products that are not finite. -/
structure PassIn where
  addends : List (Dy × Int) := []
  special : List FVal := []

/-- Two passes' contents together. -/
def PassIn.append (a b : PassIn) : PassIn := ⟨a.addends ++ b.addends, a.special ++ b.special⟩

/-- An arithmetic shift to the right, truncating towards −∞. -/
def asr (x : Int) (n : Int) : Int := Int.fdiv x (2 ^ n.toNat)

/-- A value with its least significant weight enters an output register (R108). -/
def enterReg (r : Option (Int × Int)) (w l : Int) : Option (Int × Int) :=
  match r with
  | none => some (w, l)
  | some (v, lr) => if lr < l then some (asr v (l - lr) + w, l) else some (v + asr w (lr - l), lr)

/-- The largest of a list of exponents. -/
def topOf : List (Dy × Int) → Int
  | [] => 0
  | a :: t => t.foldl (fun m x => max m x.2) a.2

/-- A pass's window enters the register; an empty pass enters nothing (R106, R144). -/
def enterPass (drop : Int) (r : Option (Int × Int)) (p : PassIn) : Option (Int × Int) :=
  if p.addends = [] then r
  else
    let l := topOf p.addends - drop
    enterReg r ((p.addends.map (fun a => a.1.floorAt l)).sum) l

/-- The value of an incoming A24 running sum in the register (R108). -/
def a24In (c : Nat) : Option (Int × Int) :=
  let e := bits c 15 8
  let m : Int := if e = 0 then bits c 0 15 else 2 ^ 15 + bits c 0 15
  some (if bit c 23 then -m else m, if e = 0 then -141 else (e : Int) - 142)

/-- The sum that non-finite inputs decide (R72). -/
def specialSum (l : List FVal) : FVal :=
  if l.any FVal.isNaN || (l.any (fun v => v = .inf true) && l.any (fun v => v = .inf false)) then .nan false
  else .inf (l.contains (.inf true))

/-- The output of passes after an incoming running sum, if there is one. -/
def outputOf (drop : Int) (inc : Option Nat) (ps : List PassIn) : FVal :=
  let v := inc.map (fun c => Fmt.a24.decode (c % 2 ^ 24))
  let sp := (ps.flatMap (·.special)) ++ (match v with | some x => if x.nonFinite then [x] else [] | none => [])
  if sp ≠ [] then specialSum sp
  else
    match ps.foldl (enterPass drop) (match inc with | some c => a24In (c % 2 ^ 24) | none => none) with
    | some (x, l) => .fin (x < 0) ⟨x, l⟩
    | none => .fin false ⟨0, 0⟩

/-! ### Forward addends (R105) -/

/-- X of a K block scale (R55). -/
def kX (sc : Nat) : Int := max 1 (sc / 8 : Nat)

/-- The unbiased exponent of a BF16 code; an exponent field of 0 is −126. -/
def bf16E (c : Nat) : Int := if bits c 7 8 = 0 then -126 else (bits c 7 8 : Int) - 127

/-- What block b of an activation row and a weight row bring, in K formats. -/
def kBlock (ta : Tile) (ra : Nat) (fw : Nat) (tw : Tile) (rw b : Nat) : PassIn :=
  let sa := ta.scale 0 ra (16 * b)
  let sw := tw.scale fw rw (16 * b)
  if sa = 0xFF || sw = 0xFF then ⟨[], [.nan false]⟩
  else
    let ks := (List.range 16).map (fun i => 16 * b + i)
    let va := fun k => (kVal 0 (ta.code 0 ra k)).mul (e5m3 sa)
    let vw := fun k => (kVal fw (tw.code fw rw k)).mul (e5m3 sw)
    let esca := fun k => ta.code 0 ra k = kEscape 0
    let escw := fun k => tw.code fw rw k = kEscape fw
    let oa := fun k => (ta.entryAt 0 ra k).getD 0
    let ow := fun k => (tw.entryAt fw rw k).getD 0
    let block := if sa = 0 || sw = 0 then []
      else [(Dy.sum ((ks.filter (fun k => !esca k && !escw k)).map (fun k => (va k).mul (vw k))), kX sa + kX sw - 19)]
    ⟨block ++ ks.flatMap (fun k =>
      if esca k && escw k then
        [(((Fmt.bf16.decode (oa k)).dy).mul (Fmt.bf16.decode (ow k)).dy, bf16E (oa k) + bf16E (ow k) + 2)]
      else if esca k && sw ≠ 0 then [(((Fmt.bf16.decode (oa k)).dy).mul (vw k), bf16E (oa k) + kX sw - 10)]
      else if escw k && sa ≠ 0 then [(((Fmt.bf16.decode (ow k)).dy).mul (va k), bf16E (ow k) + kX sa - 10)]
      else []), []⟩

/-- Tf of R105. -/
def mxTf (f : Nat) : Int := if f = 2 then 23 else if f = 3 then 37 else if f = 4 then 15 else if f = 7 then 9 else 11

/-- A product of two decoded values, exactly. -/
def exactProduct (a b : FVal) : FVal :=
  if a.isNaN || b.isNaN then .nan false
  else match a, b with
    | .fin _ x, .fin _ y => FVal.ofDy (x.mul y)
    | _, _ => if a.isZero || b.isZero then .nan false else .inf (xor a.sign b.sign)

/-- What block b brings in MX formats. -/
def mxBlock (fa : Nat) (ta : Tile) (ra : Nat) (fw : Nat) (tw : Tile) (rw b : Nat) : PassIn :=
  let sa := ta.scale fa ra (32 * b)
  let sw := tw.scale fw rw (32 * b)
  if sa = 0xFF || sw = 0xFF then ⟨[], [.nan false]⟩
  else
    let ps := (List.range 32).map (fun i => exactProduct (mxVal fa (ta.code fa ra (32 * b + i))) (mxVal fw (tw.code fw rw (32 * b + i))))
    let d := Dy.sum (ps.map FVal.dy)
    let e : Int := (sa : Int) - 127 + ((sw : Int) - 127)
    ⟨[(⟨d.m, d.e + e⟩, e + max (mxTf fa) (mxTf fw))], ps.filter FVal.nonFinite⟩

/-- What one tile pair of K brings: eight K blocks or four MX blocks. -/
def fwdTile (fa : Nat) (ta : Tile) (ra : Nat) (fw : Nat) (tw : Tile) (rw : Nat) : PassIn :=
  if isK fa then (List.range 8).foldl (fun p b => p.append (kBlock ta ra fw tw rw b)) {}
  else (List.range 4).foldl (fun p b => p.append (mxBlock fa ta ra fw tw rw b)) {}

/-! ### Backward addends (R143) -/

/-- The product of a streaming BF16 code with an element that is one BF16 value. -/
def bf16Term (x y : Nat) : PassIn :=
  match exactProduct (Fmt.bf16.decode x) (Fmt.bf16.decode y) with
  | .fin _ d => if d.m = 0 then {} else ⟨[(d, bf16E x + bf16E y + 2)], []⟩
  | v => ⟨[], [v]⟩

/-- The product of a streaming BF16 code with element (r, k) of a K tile. -/
def expandedTerm (f : Nat) (t : Tile) (x r k : Nat) : PassIn :=
  let sc := t.scale f r k
  if sc = 0xFF then ⟨[], [.nan false]⟩
  else if t.code f r k = kEscape f then bf16Term x ((t.entryAt f r k).getD 0)
  else
    let y : Dy := if sc = 0 then ⟨0, 0⟩ else (kVal f (t.code f r k)).mul (e5m3 sc)
    match exactProduct (Fmt.bf16.decode x) (FVal.ofDy y) with
    | .fin _ d => if d.m = 0 then {} else ⟨[(d, bf16E x + kX sc - 10)], []⟩
    | v => ⟨[], [v]⟩

/-- The product of a streaming code with element (r, k) of a stationary tile. -/
def statTerm (f : Nat) (t : Tile) (x r k : Nat) : PassIn :=
  if isK f then expandedTerm f t x r k else bf16Term x (if f = 8 then t.code 8 r k else (mxBf16 f t r k).1)

/-! ### Outputs -/

/-- An output word, whether it is not finite, and whether a finite sum rounded to an infinite A24 value. -/
def outWord (chained : Bool) (u : Nat) (v : FVal) : Nat × Bool × Bool :=
  if chained then
    match v with
    | .fin n d =>
      if d.m = 0 then (if n then Fmt.a24.signBit else 0, false, false)
      else let c := Fmt.a24.stochastic u d; (c, false, (Fmt.a24.decode c).nonFinite)
    | v => (Fmt.a24.rneVal v, false, false)
  else let c := Fmt.fp32.rneVal v; (c, (Fmt.fp32.decode c).nonFinite, false)

/-- The square of a final output rounded to FP32: none where the output is not finite (R120). -/
def squareOf (w : Nat) : Option FVal :=
  match Fmt.fp32.decode w with
  | .fin _ d => some (Fmt.fp32.decode (Fmt.fp32.rne (d.mul d)))
  | _ => none

/-- What the tension monitor takes from final outputs: the finite ones, the squares beyond FP32, and the exact sum. -/
def watchOf (ws : List Nat) : Nat × Nat × Dy :=
  let q := ws.filterMap squareOf
  (q.length, (q.filter FVal.nonFinite).length, Dy.sum (q.map FVal.dy))

/-- The output columns of an instruction (R102). -/
def outCols (n64 : Bool) (half : Nat) : List Nat := if n64 then (List.range 64).map (fun j => 64 * half + j) else List.range 128

/-- The passes of a product: runs of one or two tiles (R102). -/
def passTiles (kp128 : Bool) (tiles : Nat) : List (List Nat) :=
  if kp128 then (List.range tiles).map (fun t => [t])
  else (List.range ((tiles + 1) / 2)).map (fun p => if 2 * p + 1 < tiles then [2 * p, 2 * p + 1] else [2 * p])

/-- The ranges of an operand's rows: all of its row-blocks and tiles, or with N = 64 the rows of one half of each tile (R102, R240). -/
def Desc.rowRanges (d : Desc) (f rows : Nat) (half : Option Nat) : List (Nat × Nat) :=
  (List.range (if rows ≤ 128 then 1 else 2)).flatMap (fun b => (List.range d.tiles).flatMap (fun t =>
    match half with
    | some h => rowsRanges f (d.tileAt f b t) (64 * h) 64
    | none => rowsRanges f (d.tileAt f b t) 0 (min 128 (rows - 128 * b))))

/-- The ranges of an instruction's outputs: whole rows, or 64 columns of each (R102, R242). -/
def Desc.outRanges (d : Desc) (n64 : Bool) (half : Nat) : List (Nat × Nat) :=
  if n64 then (List.range d.rows).map (fun r => (d.tileAt d.fmt (r / 128) 0 + r % 128 * 512 + 256 * half, 256)) else d.rowRanges d.fmt d.rows none

/-- The words of an instruction's outputs are written into its row-blocks. -/
def State.writeOut (s : State) (i : Iss) (d : Desc) (ws : List (Nat × Nat × Nat)) : State :=
  ws.foldl (fun s w => s.bobWrite i (d.tileAt d.fmt (w.1 / 128) 0 + w.1 % 128 * 512 + 4 * w.2.1) (leBytes 4 w.2.2)) s

/-- The A24 running sum that stands at an output. -/
def State.runningSum (s : State) (i : Iss) (d : Desc) (r j : Nat) : Nat :=
  leNat (s.bobRead i (d.tileAt d.fmt (r / 128) 0 + r % 128 * 512 + 4 * j) 4)

/-- The tiles of an operand, as row-block, index and bytes. -/
def State.operand (s : State) (i : Iss) (d : Desc) (f : Nat) : List (Nat × Nat × Tile) :=
  (List.range (if d.rows ≤ 128 then 1 else 2)).flatMap (fun b =>
    (List.range d.tiles).map (fun t => (b, t, s.bobTile i (d.tileAt f b t) (tileBytes f))))

/-- A tile of an operand. -/
def tileOf (l : List (Nat × Nat × Tile)) (b t : Nat) : Tile := ((l.find? (fun x => x.1 = b && x.2.1 = t)).map (·.2.2)).getD #[]

/-- The area of a wide layer: the context's own, or that of the training context whose forward copies a generating context reads; one that
has been released where the layer holds none (R124, R229). -/
def State.wideAreaOf (s : State) (p c l : Nat) : Option WideArea :=
  let (q, d) := if s.role p c = 1 then s.handSource p c else (p, c)
  let l' := l - s.fld PART_CTX_LAYERS.BASE p c + s.fld PART_CTX_LAYERS.BASE q d
  (s.areaOf q d l').orElse (fun _ => s.wideAreas.find? (fun w => w.part = q && w.ctx = d && w.layer = l'))

/-- The slots in use for a layer's forward copy, each set with the half of the reserve that stands for it: those of the open passes of the
program's context, its own queue's and the newest first, then the front slots (R124, R230). -/
def State.slotsInUse (s : State) (i : Iss) (w : WideArea) : List (Nat × List (Nat × Nat)) :=
  let ps := (s.passes.filter (fun q => q.part = i.part && q.ctx = i.ctx && q.src = cidx w.part w.ctx)).reverse
  (ps.filter (fun q => q.queue = i.g.queue) ++ ps.filter (fun q => q.queue ≠ i.g.queue)).map (fun q =>
      (((q.halves.find? (fun h => h.1 = w.layer)).map (·.2)).getD w.front, q.slots))
    ++ [(w.front, (s.layerEntries w.part w.ctx w.layer).map (fun e => (e, s.fld BAT_REG_SLOTS.FRONT w.part e)))]

/-- The indices at which a tile of a layer's forward copy stands in a set of slots: where the slots hold its bytes. -/
def State.copyIndices (s : State) (w : WideArea) (f : Nat) (slots : List (Nat × Nat)) (b : List Byte) : List Nat :=
  (((s.layerTileList w.part w.ctx w.layer).zipIdx).filter (fun x =>
    match slots.find? (fun y => y.1 = x.1.1) with
    | some y => readBytes s.hbm (s.slotAddr w.part y.1 y.2 + x.1.2 * tileBytes f) (tileBytes f) = b
    | none => false)).map (·.2)

/-- The reserve half and index that stand for a weight tile of the window: the tile of the forward copy whose bytes it holds, in the slot in
use. Where several tiles are the same, or none is, the spec does not say which, and the choice is free (DESIGN CHOICE, log entry 112). -/
def State.wideIndex (s : State) (i : Iss) (w : WideArea) (f off : Nat) : (Nat × Nat) × State :=
  let b := s.bobRead i off (tileBytes f)
  let (v, s) := s.fresh
  match ((s.slotsInUse i w).map (fun g => (g.1, s.copyIndices w f g.2 b))).find? (fun g => g.2 ≠ []) with
  | some (h, ks) => ((h, ks.getD (v % ks.length) 0), s)
  | none => ((w.front, v % max 1 (s.layerTiles w.part w.ctx w.layer)), s)

/-- The widened tiles that stand for a weight operand's tiles, from the half of the layer's reserve for the slot in use (R124, R152). They
are read with the rights of the context that holds the layer (DEDUCED, log entry 112). -/
def State.wideOperand (s : State) (i : Iss) (layer : Nat) (d : Desc) : Status × List (Nat × Nat × Tile) × State :=
  match s.wideAreaOf i.part i.ctx layer with
  | none => (.ok, [], s)
  | some w =>
    (List.range d.tiles).foldl (fun (x : Status × List (Nat × Nat × Tile) × State) t =>
      if x.1 ≠ .ok then x
      else
        let (at', s) := x.2.2.wideIndex i w d.fmt (d.tileAt d.fmt 0 t)
        match s.wideRead (.ctx 0 w.part w.ctx) w at'.1 (at'.2 * 16896) 16896 with
        | (.ok, b, s) => (.ok, x.2.1 ++ [(0, t, b.toArray)], s)
        | (e, _, s) => (e, [], s)) (.ok, [], s)

/-- Whether the context is locked (R113). -/
def State.locked (s : State) (p c : Nat) : Bool := s.fld TEN_CTX_LOCK.LOCK_ACTIVE p c = 1

/-- CHAIN and POS agree (R255). -/
def chainOk (chain pos : Nat) : Bool := (chain ≤ 1) = (pos = 0)

/-! ### FMUL -/

/-- Whether two formats form a pair of R103. -/
def fwdPair (a w : Nat) : Bool := (a = 0 && isK w) || (isMX a && isMX w)

/-- FMUL's operand fields (R255). -/
def fmulFields : List (Nat × Nat) :=
  [(47, 5), (42, 5), (37, 5), (25, 12), (21, 4), (20, 1), (19, 1), (17, 2), (11, 6), (10, 1), (9, 1), (5, 4), (0, 5)]

/-- What the fields of FMUL name (R101, R102, R255). -/
structure FmulArgs where
  dst : BitVec 128
  act : BitVec 128
  wgt : BitVec 128
  layer : Nat
  m : Nat
  n64 : Bool
  kp128 : Bool
  chain : Nat
  pos : Nat
  widen : Bool
  tagv : Bool
  tags : Nat
  ord : Nat

/-- The operands of FMUL. -/
def Iss.fmulArgs (i : Iss) : FmulArgs :=
  { dst := i.g.getT (i.f 47 5), act := i.g.getT (i.f 42 5), wgt := i.g.getT (i.f 37 5), layer := i.f 25 12, m := 2 ^ i.f 21 4,
    n64 := i.f 20 1 = 1, kp128 := i.f 19 1 = 1, chain := i.f 17 2, pos := i.f 11 6, widen := i.f 10 1 = 1, tagv := i.f 9 1 = 1,
    tags := i.g.getA (i.f 5 4), ord := i.g.getS (i.f 0 5) }

/-- The output's descriptor. -/
def FmulArgs.d (y : FmulArgs) : Desc := Desc.of y.dst
/-- The activations'. -/
def FmulArgs.a (y : FmulArgs) : Desc := Desc.of y.act
/-- The weights'. -/
def FmulArgs.w (y : FmulArgs) : Desc := Desc.of y.wgt
/-- Whether a running sum goes on to another instruction. -/
def FmulArgs.chained (y : FmulArgs) : Bool := y.chain = 1 || y.chain = 2
/-- Whether the instruction takes a running sum in. -/
def FmulArgs.takesIn (y : FmulArgs) : Bool := 2 ≤ y.chain
/-- The rows of a weight tile that stand for the output's columns. -/
def FmulArgs.half (y : FmulArgs) : Option Nat := if y.n64 then some y.w.half else none

/-- Whether FMUL runs wide (R123, R124). -/
def State.fmulWide (s : State) (i : Iss) : Bool := i.fmulArgs.widen && s.runsWide i i.fmulArgs.layer

/-- The first check of FMUL that fails, but for the window (R103, R113, R118, R119, R255, R256). -/
def State.fmulAllowed (s : State) (i : Iss) : Status :=
  let y := i.fmulArgs
  let locked := s.locked i.part i.ctx
  let share := s.fld TEN_LAYER_CFG.SHARE i.part y.layer
  firstBad [need (descsCheck [y.dst, y.act, y.wgt] ≠ .level) .level, descsCheck [y.dst, y.act, y.wgt],
    need (i.f 21 4 ≤ 8 && chainOk y.chain y.pos) .illegal,
    need (y.a.rows = y.m && y.w.rows = 128 && y.a.tiles = y.w.tiles && fwdPair y.a.fmt y.w.fmt && y.a.rot = y.w.rot) .illegal,
    need (y.d.fmt = (if y.chained then fA24 else fFP32) && y.d.rows = y.m && y.d.tiles = 1) .illegal,
    need (!y.tagv || ((ownOff y.tags).isSome && y.tags % 8 = 0)) .illegal,
    need (y.chain = 0 || y.ord < 2 ^ 24) .illegal,
    need (!(locked && (y.kp128 || (y.chain ≠ 0 &&
      (!y.tagv || share = 0 || (y.chained && (passTiles y.kp128 y.a.tiles).length ≠ share)))))) .illegal,
    need (s.fld TEN_LAYER_CFG.SENSITIVE i.part y.layer = 0) .illegal,
    need (s.layerOk i y.layer) .protection, need (!y.chained || (s.keySet (s.jobOf i.part i.ctx)).isSome) .protection]

/-- What FMUL writes. -/
def Iss.fmulWrites (i : Iss) : List (Nat × Nat) := i.fmulArgs.d.outRanges i.fmulArgs.n64 i.fmulArgs.w.half

/-- What FMUL reads of the window: a wide one's weights are in the reserve. -/
def State.fmulReads (s : State) (i : Iss) : List (Nat × Nat) :=
  let y := i.fmulArgs
  y.a.rowRanges (if s.fmulWide i then 2 else y.a.fmt) y.m none ++ (if s.fmulWide i then [] else y.w.rowRanges y.w.fmt 128 y.half)
    ++ (if y.tagv then [(bits y.tags 0 23, 8 * y.m)] else []) ++ (if y.takesIn then i.fmulWrites else [])

/-- The first check of FMUL that fails. -/
def State.fmulCheck (s : State) (i : Iss) : Status :=
  firstBad [s.fmulAllowed i, need (s.inWindow i (s.fmulReads i ++ i.fmulWrites)) .protection]

/-- The weight tiles of FMUL, and the state after they are read. -/
def State.fmulWeights (s : State) (i : Iss) : Status × List (Nat × Nat × Tile) × State :=
  if s.fmulWide i then s.wideOperand i i.fmulArgs.layer i.fmulArgs.w else (.ok, s.operand i i.fmulArgs.w i.fmulArgs.w.fmt, s)

/-- Whether a K group that FMUL reads is faulty (R54). -/
def State.fmulFaulty (s : State) (i : Iss) (wide : Bool) (wts : List (Nat × Nat × Tile)) : Bool :=
  let y := i.fmulArgs
  let fa := if wide then 2 else y.a.fmt
  let fw := if wide then 2 else y.w.fmt
  (isK fa && (s.operand i y.a fa).any (fun x => !(List.range (min 128 (y.m - 128 * x.1))).all (x.2.2.groupOk fa)))
    || (isK fw && wts.any (fun x => !(outCols y.n64 y.w.half).all (x.2.2.groupOk fw)))

/-- The outputs of FMUL (R105 to R113): row, column, word, whether it is not finite, and whether its sum left the A24 range. -/
def State.fmulOuts (s : State) (i : Iss) (wide : Bool) (wts : List (Nat × Nat × Tile)) : List (Nat × Nat × Nat × Bool × Bool) :=
  let y := i.fmulArgs
  let fa := if wide then 2 else y.a.fmt
  let fw := if wide then 2 else y.w.fmt
  let acts := s.operand i y.a fa
  let locked := s.locked i.part i.ctx
  let seed := s.seed (s.jobOf i.part i.ctx)
  let base := s.reg .BAT_CURSOR_COMMITTED i.part i.ctx
  (List.range y.m).flatMap (fun r =>
    let tag := if y.tagv then leNat (s.bobRead i (bits y.tags 0 23 + 8 * r) 8) else 0
    ((outCols y.n64 y.w.half).zipIdx).map (fun j =>
      let ps := (passTiles y.kp128 y.a.tiles).map (fun ts => ts.foldl (fun q t =>
        q.append (fwdTile fa (tileOf acts (r / 128) t) (r % 128) fw (tileOf wts 0 t) j.1)) {})
      let v := outputOf (if isK fa then 26 else 28) (if y.takesIn then some (s.runningSum i y.d r j.1) else none) ps
      let n := y.ord + j.2
      let u := if locked then draw seed 1 tag (y.layer * 2 ^ 32 + n * 2 ^ 8 + y.pos)
        else draw seed 1 base (r * 2 ^ 44 + y.layer * 2 ^ 32 + n * 2 ^ 8 + y.pos)
      (r, j.1, outWord y.chained (u % 65536) v)))

/-- How many outputs are not finite, and how many sums left the A24 range. -/
def countOuts (outs : List (Nat × Nat × Nat × Bool × Bool)) : Nat × Nat :=
  ((outs.filter (fun o => o.2.2.2.1)).length, (outs.filter (fun o => o.2.2.2.2)).length)

/-- What FMUL counts when it completes (R120, R124). -/
def State.fmulPosts (s : State) (i : Iss) (outs : List (Nat × Nat × Nat × Bool × Bool)) : List Post :=
  let y := i.fmulArgs
  let (n, above, sum) := watchOf (outs.map (fun o => o.2.2.1))
  [Post.count .TEN_FWD_NONFINITE i.part 0 (countOuts outs).1, .count .TEN_A24_OVF i.part 0 (countOuts outs).2]
    ++ (if y.chained then [] else [.watch false i.part y.layer n above 0 sum])
    ++ (if !y.widen && s.runsWide i y.layer then [.count .TEN_FWD_WIDE_BYPASS i.part 0 1] else [])

/-- FMUL (R101 to R113, R256). -/
def fmulIssue (i : Iss) (s : State) : Issued :=
  if s.unitFull i.key 0 then .hold
  else if s.fmulCheck i ≠ .ok then .go i.g (s.giveUnit i 0 (s.fmulCheck i) 0 [] [] [])
  else if s.hazard i.key (s.fmulReads i) i.fmulWrites then .hold
  else if i.probe then .go i.g s
  else
    let (est, wts, t) := s.fmulWeights i
    if est ≠ .ok then .go i.g (t.giveUnit i 0 est 0 [] [] [])
    else if t.fmulFaulty i (s.fmulWide i) wts then .go i.g (t.giveUnit i 0 .illegal 0 [] [] [])
    else
      let outs := t.fmulOuts i (s.fmulWide i) wts
      .go i.g ((t.writeOut i i.fmulArgs.d (outs.map (fun o => (o.1, o.2.1, o.2.2.1)))).giveUnit i 0 .ok 0 (s.fmulReads i) i.fmulWrites
        (s.fmulPosts i outs))

/-- FMUL (R105). -/
def rowFmul : Row := ⟨0x30, fun _ => true, fmulFields,
  fmulIssue⟩

/-! ### Backward instructions -/

/-- The backward operations. -/
inductive BwdOp where
  | dgrad | wgrad | matmul
  deriving DecidableEq, Repr

/-- Operand fields of DGRAD and WGRAD, and of MATMUL_BF16 with its TRN (R255). -/
def bwdFields (op : BwdOp) : List (Nat × Nat) :=
  [(47, 5), (42, 5), (37, 5), (25, 12), (21, 4), (20, 1), (18, 2), (12, 6), (11, 1), (6, 5)] ++ (if op = .matmul then [(5, 1)] else [])

/-- TEN_LAYER_GCFG as the open micro-step found it when it opened (R158). -/
def State.gcfg (s : State) (p c l : Nat) : Nat := ((SMap.find (s.stepOf p c).gcfg l).map BitVec.toNat).getD (s.reg .TEN_LAYER_GCFG p l)

/-- What the fields of a backward instruction name (R133, R255). -/
structure BwdArgs where
  dst : BitVec 128
  str : BitVec 128
  sta : BitVec 128
  layer : Nat
  m : Nat
  n64 : Bool
  chain : Nat
  pos : Nat
  widen : Bool
  ord : Nat

/-- The operands of a backward instruction. -/
def Iss.bwdArgs (i : Iss) : BwdArgs :=
  { dst := i.g.getT (i.f 47 5), str := i.g.getT (i.f 42 5), sta := i.g.getT (i.f 37 5), layer := i.f 25 12, m := 2 ^ i.f 21 4,
    n64 := i.f 20 1 = 1, chain := i.f 18 2, pos := i.f 12 6, widen := i.f 11 1 = 1, ord := i.g.getS (i.f 6 5) }

/-- The output's descriptor. -/
def BwdArgs.d (y : BwdArgs) : Desc := Desc.of y.dst
/-- The streaming operand's. -/
def BwdArgs.x (y : BwdArgs) : Desc := Desc.of y.str
/-- The stationary operand's. -/
def BwdArgs.t (y : BwdArgs) : Desc := Desc.of y.sta
/-- Whether a running sum goes on to another instruction. -/
def BwdArgs.chained (y : BwdArgs) : Bool := y.chain = 1 || y.chain = 2
/-- Whether the instruction takes a running sum in. -/
def BwdArgs.takesIn (y : BwdArgs) : Bool := 2 ≤ y.chain

/-- Whether the stationary operand is transposed: always, but by MATMUL_BF16's TRN. -/
def Iss.trn (i : Iss) (op : BwdOp) : Bool := op ≠ .matmul || i.f 5 1 = 1

/-- Whether a backward instruction runs wide (R124, R152). -/
def State.bwdWide (s : State) (i : Iss) (op : BwdOp) : Bool := i.bwdArgs.widen && op ≠ .matmul && s.runsWide i i.bwdArgs.layer

/-- The format in which the stationary operand is read. -/
def State.bwdFmt (s : State) (i : Iss) (op : BwdOp) : Nat := if s.bwdWide i op then 2 else i.bwdArgs.t.fmt

/-- The first check of a backward instruction that fails, but for the window (R133, R153, R255, R256). -/
def State.bwdCheck (s : State) (i : Iss) (op : BwdOp) : Status :=
  let y := i.bwdArgs
  let cfg := s.gcfg i.part i.ctx y.layer
  let share := if op = .dgrad then TEN_LAYER_GCFG.DSHARE.of cfg else TEN_LAYER_GCFG.WSHARE.of cfg
  firstBad [need (descsCheck [y.dst, y.str, y.sta] ≠ .level) .level, descsCheck [y.dst, y.str, y.sta],
    need (i.f 21 4 ≤ 8 && chainOk y.chain y.pos) .illegal,
    need (s.role i.part i.ctx ≠ 1) .illegal,
    need (y.x.fmt = 8 && y.x.rows = y.m && (op = .wgrad || y.t.rows = 128) && y.x.tiles = y.t.tiles && y.x.rot = y.t.rot) .illegal,
    need (y.t.fmt = 8 || isMX y.t.fmt || (op ≠ .matmul && y.t.fmt = 0) || (op = .dgrad && y.t.fmt = 1)) .illegal,
    need (y.d.fmt = (if y.chained then fA24 else fFP32) && y.d.rows = y.m && y.d.tiles = 1) .illegal,
    need (y.chain = 0 || y.ord < 2 ^ 45) .illegal,
    need (op = .matmul || y.chain = 0 || (share ≠ 0 && (!y.chained || y.t.tiles = share))) .illegal,
    need (s.fld TEN_LAYER_CFG.SENSITIVE i.part y.layer = 0 || (!s.locked i.part i.ctx && y.t.fmt = 8)) .illegal,
    need (s.layerOk i y.layer) .protection, need (!y.chained || (s.keySet (s.jobOf i.part i.ctx)).isSome) .protection]

/-- Whether a WGRAD is skipped: its layer is frozen (R154). -/
def State.bwdSkips (s : State) (i : Iss) (op : BwdOp) : Bool :=
  op = .wgrad && s.fld TEN_LAYER_GSTATE.FROZEN_ACTIVE i.part i.bwdArgs.layer = 1

/-- What a backward instruction writes. -/
def Iss.bwdWrites (i : Iss) : List (Nat × Nat) := i.bwdArgs.d.outRanges i.bwdArgs.n64 i.bwdArgs.t.half

/-- What it reads of the window: a wide DGRAD's weights are in the reserve. WGRAD streams the columns of its tiles. -/
def State.bwdReads (s : State) (i : Iss) (op : BwdOp) : List (Nat × Nat) :=
  let y := i.bwdArgs
  (if op = .wgrad then (List.range (if y.m ≤ 128 then 1 else 2)).flatMap (fun b =>
      (List.range y.x.tiles).map (fun k => (y.x.tileAt 8 b k, 127 * 256 + 2 * min 128 (y.m - 128 * b))))
    else y.x.rowRanges 8 y.m none)
  ++ (if s.bwdWide i op && op = .dgrad then []
      else y.t.rowRanges (s.bwdFmt i op) 128 (if y.n64 && !i.trn op then some y.t.half else none))
  ++ (if y.takesIn then i.bwdWrites else [])

/-- The stationary tiles, and the state after they are read. -/
def State.bwdTiles (s : State) (i : Iss) (op : BwdOp) : Status × List (Nat × Nat × Tile) × State :=
  if s.bwdWide i op && op = .dgrad then s.wideOperand i i.bwdArgs.layer i.bwdArgs.t
  else (.ok, s.operand i { i.bwdArgs.t with rows := 128 } (s.bwdFmt i op), s)

/-- Whether a K group of the stationary tiles is faulty (R54). -/
def bwdFaulty (ft : Nat) (stat : List (Nat × Nat × Tile)) : Bool := isK ft && stat.any (fun y => !y.2.2.ok ft 128)

/-- The outputs of a backward instruction (R143 to R146): row, column, word, whether it is not finite, and whether its sum left the A24
range. -/
def State.bwdOuts (s : State) (i : Iss) (op : BwdOp) (ft : Nat) (stat : List (Nat × Nat × Tile)) : List (Nat × Nat × Nat × Bool × Bool) :=
  let y := i.bwdArgs
  let strm := s.operand i y.x 8
  let seed := s.seed (s.jobOf i.part i.ctx)
  let base := (s.stepOf i.part i.ctx).microPos
  let elem := fun r k n => if op = .wgrad then (tileOf strm (r / 128) k).code 8 n (r % 128) else (tileOf strm (r / 128) k).code 8 (r % 128) n
  (List.range y.m).flatMap (fun r => (outCols y.n64 y.t.half).map (fun j =>
    let ps := (List.range y.t.tiles).map (fun k => (List.range 128).foldl (fun q n =>
      q.append (if i.trn op then statTerm ft (tileOf stat 0 k) (elem r k n) n j else statTerm ft (tileOf stat 0 k) (elem r k n) j n)) {})
    let v := outputOf 24 (if y.takesIn then some (s.runningSum i y.d r j) else none) ps
    let idx := y.layer * 2 ^ 52 + b2n (op ≠ .dgrad) * 2 ^ 51 + y.pos * 2 ^ 45 + (bits y.ord 20 25 + r) % 2 ^ 25 * 2 ^ 20
      + (bits y.ord 0 20 + j) % 2 ^ 20
    (r, j, outWord y.chained (draw seed 2 base idx % 65536) v)))

/-- The elements of MX stationary tiles that left the BF16 range (R62). -/
def mxRange (ft : Nat) (stat : List (Nat × Nat × Tile)) : Nat :=
  if isMX ft then (stat.map (fun y => ((List.range 128).map (fun r =>
    ((List.range 128).filter (fun k => (mxBf16 ft y.2.2 r k).2)).length)).sum)).sum else 0

/-- What a backward instruction counts when it completes (R124, R155). -/
def State.bwdPosts (s : State) (i : Iss) (op : BwdOp) (range : Nat) (outs : List (Nat × Nat × Nat × Bool × Bool)) : List Post :=
  let y := i.bwdArgs
  let source := TEN_LAYER_GCFG.SOURCE.of (s.gcfg i.part i.ctx y.layer)
  let (n, above, sum) := watchOf (outs.map (fun o => o.2.2.1))
  [Post.count .TEN_BWD_NONFINITE i.part 0 (countOuts outs).1, .count .TEN_A24_OVF i.part 0 (countOuts outs).2,
    .count .TEN_MX_RANGE i.part 0 range]
    ++ (if ((op = .dgrad && source = 0) || (op = .wgrad && source = 1)) && !y.chained
        then [.watch true i.part y.layer n above (countOuts outs).1 sum] else [])
    ++ (if !y.widen && s.runsWide i y.layer then [.count .TEN_FWD_WIDE_BYPASS i.part 0 1] else [])

/-- A backward instruction (R133 to R154, R256). -/
def bwdIssue (op : BwdOp) (i : Iss) (s : State) : Issued :=
  if s.unitFull i.key 1 then .hold
  else if s.bwdCheck i op ≠ .ok then .go i.g (s.giveUnit i 1 (s.bwdCheck i op) 0 [] [] [])
  else if s.bwdSkips i op then .go i.g (s.giveUnit i 1 .ok 0 [] [] [.count .TEN_BWD_WGRAD_SKIPPED i.part 0 1])
  else if !s.inWindow i (s.bwdReads i op ++ i.bwdWrites) then .go i.g (s.giveUnit i 1 .protection 0 [] [] [])
  else if s.hazard i.key (s.bwdReads i op) i.bwdWrites then .hold
  else if i.probe then .go i.g s
  else
    let (est, stat, t) := s.bwdTiles i op
    if est ≠ .ok then .go i.g (t.giveUnit i 1 est 0 [] [] [])
    else if bwdFaulty (s.bwdFmt i op) stat then .go i.g (t.giveUnit i 1 .illegal 0 [] [] [.count .TEN_BWD_RT_ILLEGAL i.part 0 1])
    else
      let outs := t.bwdOuts i op (s.bwdFmt i op) stat
      .go i.g ((t.writeOut i i.bwdArgs.d (outs.map (fun o => (o.1, o.2.1, o.2.2.1)))).giveUnit i 1 .ok 0 (s.bwdReads i op) i.bwdWrites
        (s.bwdPosts i op (mxRange (s.bwdFmt i op) stat) outs))

/-- DGRAD (R133). -/
def rowDgrad : Row := ⟨0x40, fun _ => true, (bwdFields .dgrad),
  bwdIssue .dgrad⟩

/-- WGRAD (R133, R154). -/
def rowWgrad : Row := ⟨0x41, fun _ => true, (bwdFields .wgrad),
  bwdIssue .wgrad⟩

/-- MATMUL_BF16 (R133). -/
def rowMatmulBf16 : Row := ⟨0x42, fun _ => true, (bwdFields .matmul),
  bwdIssue .matmul⟩

end Sys2Proof.Machine
end

