-- ==== Sys2Proof/Machine/Converter.lean ====
section
/-! DEFINITION. The heddle converter (R74 to R100): rotation, scales, outliers, packing and unpacking, for the engines and for the
batten's packing path. -/

namespace Sys2Proof.Machine
open Sys2Proof

/-! ### Rotation (R77 to R79) -/

/-- A result rounded to FP32, to nearest with ties to even. -/
def f32 (x : Exact) : FVal := Fmt.fp32.decode (x.round Fmt.fp32 true .tiesToEven).1

/-- log2 of the rotation order a code names. -/
def rotLog2 (rot : Nat) : Nat := if rot = 0 then 0 else rot + 3

/-- The FP32 constant 1/√H. -/
def rotConst (rot : Nat) : FVal :=
  Fmt.fp32.decode (if rot = 1 then 0x3E800000 else if rot = 2 then 0x3E3504F3 else if rot = 3 then 0x3E000000 else 0x3DB504F3)

/-- One butterfly stage. -/
def butterfly (t : Nat) (x : Array FVal) : Array FVal :=
  (Array.range x.size).map (fun i =>
    let y := fun k => x.getD k (.nan false)
    if bit i t then f32 (addExact .tiesToEven (y (i - 2 ^ t)) (y i).negate) else f32 (addExact .tiesToEven (y i) (y (i + 2 ^ t))))

/-- The rotation of a row of 128 values. Every run of H elements goes through the same stages. -/
def rotateRow (rot : Nat) (x : Array FVal) : Array FVal :=
  if rot = 0 then x
  else ((List.range (rotLog2 rot)).foldl (fun x t => butterfly t x) x).map (fun v => f32 (mulExact v (rotConst rot)))

/-! ### Packing a row -/

/-- A packed row: codes, scales, outlier entries, the scale-plane codes after it, and what the counters of R99 take. -/
structure PackedRow where
  codes : List Nat
  scales : List Nat
  entries : List Nat
  plane : List Nat
  outliers : Nat
  absorbed : Nat
  saturated : Nat
  nans : Nat
  zeros : Nat
  flushed : Nat

/-- G of R84. -/
def kTop (f : Nat) : Dy := if f = 0 then ⟨6, 0⟩ else ⟨3, -1⟩

/-- The scale code that R84 chooses for a largest magnitude. -/
def chosenScale (f : Nat) (m : Dy) : Nat :=
  if m.m = 0 then 0
  else ((List.range 0xFE).find? (fun i => m.le ((kTop f).mul (e5m3 (i + 1))))).elim 0xFE (· + 1)

/-- The code and the saturation of a magnitude under a scale (R89, R90): each midpoint that it passes raises the code by one, and a
tie goes to the even code. -/
def quantK (f : Nat) (x s : Dy) : Nat × Bool :=
  let top := if f = 0 then 7 else 3
  let c := ((List.range top).filter (fun i =>
    let mid := (⟨kQ f i + kQ f (i + 1), -2⟩ : Dy).mul s
    mid.lt x || (mid.eq x && i % 2 = 1))).length
  (c, ((kTop f).mul s).lt x)

/-- An index is put into a ranking: after every one of at least its magnitude (R88). -/
def rankIn (x : Array FVal) (k : Nat) : List Nat → List Nat
  | [] => [k]
  | j :: t => if ((x.getD j (.nan false)).dy.abs).lt (x.getD k (.nan false)).dy.abs then k :: j :: t else j :: rankIn x k t

/-- Whether a value rounds to an infinity in BF16. -/
def bf16Over (v : FVal) : Bool := (Fmt.bf16.decode (Fmt.bf16.rneVal v)).nonFinite

/-- The outliers, the absorbed candidates and the blocks that became not-a-number (R88). -/
def chooseOut (x : Array FVal) : Nat → List Nat → List Nat → List Nat × List Nat × List Nat
  | 0, r, bad => (r.take 2, r.drop 2, bad)
  | n + 1, r, bad =>
    match (r.take 2).find? (fun k => bf16Over (x.getD k (.nan false))) with
    | none => (r.take 2, r.drop 2, bad)
    | some k => chooseOut x n (r.filter (fun j => j / 16 ≠ k / 16)) (k / 16 :: bad)

/-- The candidates of R87 in their ranking. -/
def candidates (kappa : Nat) (x : Array FVal) : List Nat :=
  let v := fun k => x.getD k (.nan false)
  let good := (List.range 128).filter (fun k => !(List.range 16).any (fun i => (v (k / 16 * 16 + i)).nonFinite))
  let sum := Dy.sum (good.map (fun k => (v k).dy.abs))
  if kappa = 0 then []
  else ((good.filter (fun k => ((⟨kappa, 0⟩ : Dy).mul sum).lt ((⟨16 * good.length, 0⟩ : Dy).mul (v k).dy.abs))).foldl
    (fun l k => rankIn x k l) [])

/-- How the scale of a K block is sourced (R83): from the row, from the row into the scale plane, or learned. -/
inductive ScaleSrc where
  | row | init | learned
  deriving DecidableEq, Repr

/-- A K row is packed (R82 to R90). `plane`: the row's eight scale-plane codes. A not-a-number block under a non-zero learned code leaves
that code in the plane: R83 writes 0x00 back only where the entry was 0x00 (DEDUCED, log entry 110). -/
def packK (f kappa : Nat) (src : ScaleSrc) (plane : List Nat) (x : Array FVal) : PackedRow :=
  let v := fun k => x.getD k (.nan false)
  let nan0 := (List.range 8).filter (fun b => (List.range 16).any (fun i => (v (16 * b + i)).nonFinite))
  let (out, absorbed, bad) := chooseOut x 8 (candidates kappa x) []
  let nan := fun b => nan0.contains b || bad.contains b
  let elems := fun b => ((List.range 16).map (fun i => 16 * b + i)).filter (fun k => !out.contains k)
  let big := fun b => ((elems b).map (fun k => (v k).dy.abs)).foldl Dy.max ⟨0, 0⟩
  let own := fun b => chosenScale f (big b)
  let old := fun b => plane.getD b 0
  let scale := fun b =>
    if nan b then 0xFF
    else match src with
      | .learned =>
        if (big b).m = 0 then 0
        else if old b = 0 then own b
        else if (elems b).any absorbed.contains then max (old b) (own b)
        else old b
      | _ => own b
  let newPlane := fun b =>
    match src with
    | .row => old b
    | .init => if nan b then 0 else own b
    | .learned => if nan b then old b else if (big b).m = 0 then 0 else if old b = 0 then own b else old b
  let quant := fun k =>
    let sc := scale (k / 16)
    if out.contains k then (kEscape f, false, false)
    else if sc = 0xFF || sc = 0 then (0, false, false)
    else
      let (c, sat) := quantK f (v k).dy.abs (e5m3 sc)
      (if c = 0 then 0 else if (v k).sign then c + kEscape f else c, sat, c = 0 && (v k).dy.m ≠ 0)
  let q := (List.range 128).map quant
  let sorted := (List.range 128).filter out.contains
  let entry := fun k => Fmt.bf16.rneVal (v k) + k * 2 ^ 16 + 2 ^ 23
  let scales := (List.range 8).map scale
  { codes := q.map (·.1), scales := scales,
    entries := ((sorted.map entry) ++ [0, 0]).take 2,
    plane := (List.range 8).map newPlane,
    outliers := out.length, absorbed := absorbed.length,
    saturated := (q.filter (fun x => x.2.1)).length,
    nans := (scales.filter (· = 0xFF)).length, zeros := (scales.filter (· = 0)).length,
    flushed := (q.filter (fun x => x.2.2)).length }

/-- Exponent and mantissa bits of an MX element format; MXINT8 has none. -/
def mxFmt (f : Nat) : Fmt := if f = 2 then ⟨4, 3⟩ else if f = 3 then ⟨5, 2⟩ else if f = 4 then ⟨3, 2⟩ else if f = 5 then ⟨2, 3⟩ else ⟨2, 1⟩

/-- The largest exponent of an MX element format (R85). -/
def mxEmax (f : Nat) : Int := if f = 2 then 8 else if f = 3 then 15 else if f = 4 then 4 else if f = 7 then 0 else 2

/-- The magnitude code of an MX format's largest finite value. -/
def mxTop (f : Nat) : Nat := if f = 2 then 0x7E else if f = 3 then 0x7B else if f = 4 || f = 5 then 0x1F else if f = 6 then 7 else 127

/-- The largest finite value. -/
def mxMax (f : Nat) : Dy := (mxVal f (mxTop f)).dy

/-- A magnitude rounded to nearest, ties to even, in a format taken without special values. -/
def Fmt.rneFree (f : Fmt) (x : Dy) : Nat :=
  if x.m = 0 then 0
  else
    let q := f.ulp x.log2
    let n := (x.floorAt q).toNat
    let h := (x.floorAt (q - 1)).toNat
    let up := !Dy.eq ⟨n, q⟩ x && RM.tiesToEven.up false n (h % 2 = 1) (!Dy.eq ⟨h, q - 1⟩ x)
    f.magCode (if up then n + 1 else n) q

/-- The code of a scaled MX element, and whether it saturated; `neg` is its sign (R89, R91). A negative element that rounds to zero keeps
its sign, since R48 speaks of K4 and K3 only (DEDUCED, log entry 109). -/
def mxCode (f : Nat) (neg : Bool) (y : Dy) : Nat × Bool :=
  let sat := (mxMax f).lt y
  let m := if sat then mxTop f else if f = 7 then (let z : Dy := ⟨y.m, y.e + 6⟩
      let n := (z.floorAt 0).toNat
      let h := (z.floorAt (-1)).toNat
      if !Dy.eq ⟨n, 0⟩ z && RM.tiesToEven.up false n (h % 2 = 1) (!Dy.eq ⟨h, -1⟩ z) then n + 1 else n)
    else (mxFmt f).rneFree y
  (if f = 7 then (if neg then (256 - m) % 256 else m) else if neg then m + 2 ^ ((mxFmt f).eb + (mxFmt f).fb) else m, sat)

/-- The shared exponent code of a block's largest magnitude (R85). -/
def mxScale (f : Nat) (m : Dy) : Nat := if m.m = 0 then 0 else (max (-127) (min 127 (m.log2 - mxEmax f)) + 127).toNat

/-- An MX row is packed (R83, R85, R89, R91); an input of ±0 becomes code +0 (R72). -/
def packMX (f : Nat) (x : Array FVal) : PackedRow :=
  let v := fun k => x.getD k (.nan false)
  let block := fun b => (List.range 32).map (fun i => v (32 * b + i))
  let scale := fun b => if (block b).any FVal.nonFinite then 0xFF else mxScale f (((block b).map (fun y => y.dy.abs)).foldl Dy.max ⟨0, 0⟩)
  let zero := fun b => (block b).all FVal.isZero
  let quant := fun k =>
    let sc := scale (k / 32)
    if sc = 0xFF || zero (k / 32) then (0, false, false)
    else
      let d := (v k).dy.abs
      let (c, sat) := mxCode f ((v k).sign && d.m ≠ 0) ⟨d.m, d.e - ((sc : Int) - 127)⟩
      (c, sat, d.m ≠ 0 && (mxVal f c).dy.m = 0)
  let q := (List.range 128).map quant
  let scales := (List.range 4).map scale
  { codes := q.map (·.1), scales := scales, entries := [], plane := [], outliers := 0, absorbed := 0,
    saturated := (q.filter (fun x => x.2.1)).length, nans := (scales.filter (· = 0xFF)).length, zeros := 0,
    flushed := (q.filter (fun x => x.2.2)).length }

/-- A row packed into any narrow format. -/
def packRow (f kappa : Nat) (src : ScaleSrc) (plane : List Nat) (x : Array FVal) : PackedRow :=
  if isK f then packK f kappa src plane x else packMX f x

/-- The bytes of a row of BF16 or FP32 values. -/
def wideRow (f : Nat) (x : Array FVal) : List Byte :=
  x.toList.flatMap (fun v => if f = 8 then leBytes 2 (Fmt.bf16.rneVal v) else leBytes 4 (Fmt.fp32.rneVal v))

/-! ### Faults of a group (R54, R98) -/

/-- The lowest fault value of row r of a K tile. -/
def groupFault (t : Tile) (f r : Nat) : Nat :=
  let e0 := t.outlier f r 0
  let e1 := t.outlier f r 1
  let es := [e0, e1].filter (fun e => bit e 23)
  let esc := (List.range 128).filter (fun k => t.code f r k = kEscape f)
  if esc.any (fun k => !es.any (fun e => bits e 16 7 = k)) then 0
  else if es.any (fun e => !esc.contains (bits e 16 7)) then 1
  else if [e0, e1].any (fun e => !bit e 23 && e ≠ 0) then 2
  else if bit e1 23 && !bit e0 23 then 3
  else if bit e0 23 && bit e1 23 && bits e1 16 7 ≤ bits e0 16 7 then 4
  else 5

/-- The word of CNV_LAST_FAULT. -/
def faultWord (engine row fault : Nat) : Nat := engine + row * 2 ^ 8 + fault * 2 ^ 16 + 2 ^ 31

/-! ### The instructions -/

/-- The operand fields of a converter instruction (R255). -/
def cnvFields : List (Nat × Nat) := [(47, 5), (42, 5), (38, 4), (26, 12), (23, 3), (22, 1), (21, 1)]

/-- Whether an operation takes these formats (R45, R74, R83). -/
def CnvOp.fmtsOk : CnvOp → Nat → Nat → Bool
  | .packAct, s, d => (s = 8 || s = 9) && (d = 0 || isMX d)
  | .packWgtInit, s, d => (s = 8 || s = 9) && (isK d || isMX d)
  | .packWgt, s, d => s = 8 && isK d
  | .unpack, s, d => (isK s || isMX s) && (d = 8 || d = 9)
  | .rotate, s, d => (s = 8 || s = 9) && s = d
  | .round, s, d => s = 9 && d = 8

/-- Whether an operation packs. -/
def CnvOp.packs : CnvOp → Bool
  | .packAct | .packWgtInit | .packWgt => true
  | _ => false

/-- The scale source of a packing operation. -/
def CnvOp.src : CnvOp → ScaleSrc
  | .packWgtInit => .init
  | .packWgt => .learned
  | _ => .row

/-- The place of tile t of a converter operand. -/
def Desc.cnvAt (d : Desc) (f t : Nat) : Nat := d.base + t * d.stride f

/-- The ranges of a converter operand: the rows of each tile (R240, R257). -/
def Desc.cnvRanges (d : Desc) (f : Nat) : List (Nat × Nat) := (List.range d.tiles).flatMap (fun t => rowsRanges f (d.cnvAt f t) 0 d.rows)

/-- The padding that packing writes into each tile. -/
def Desc.cnvPads (d : Desc) (f : Nat) : List (Nat × Nat) :=
  (List.range d.tiles).flatMap (fun t => (padPieces f).map (fun b => (d.cnvAt f t + b.1, b.2.length)))

/-- The scale-plane place of row r of tile t. -/
def planeAt (p t r : Nat) : Nat := p + (t * 128 + r) * 8

/-- Bytes of the bobbins are written at an offset of a window that begins at `b`. -/
def State.winWrite (s : State) (b off : Nat) (bytes : List Byte) : State := { s with bobbin := writeBytes s.bobbin (b + off) bytes }

/-- A tile's packed rows are written into the window at `b`: codes, scales, entries, padding, scale plane. -/
def State.writePacked (s : State) (b f at' : Nat) (plane : Option Nat) (t : Nat) (rows : List PackedRow) : State :=
  (rows.zipIdx).foldl (fun s x =>
    let s := (rowPieces f x.2 x.1.codes x.1.scales x.1.entries ++ padPieces f).foldl (fun s y => s.winWrite b (at' + y.1) y.2) s
    match plane with
    | some p => s.winWrite b (planeAt p t x.2) (x.1.plane.map (BitVec.ofNat 8))
    | none => s) s

/-- What the counters of a partition take from a packed tile under a TILE_LIMIT (R89, R99). `layer`: where a tile beyond it is reported. -/
def packPosts (p layer lim : Nat) (rows : List PackedRow) : List Post :=
  let sum := fun (g : PackedRow → Nat) => (rows.map g).sum
  let a := sum (·.absorbed)
  [.count .CNV_TILES_PACKED p 0 1, .count .CNV_OUTLIERS p 0 (sum (·.outliers)), .count .CNV_OUTLIER_OVF p 0 a,
   .count .CNV_SATURATE p 0 (sum (·.saturated)), .count .CNV_NONFINITE p 0 (sum (·.nans)),
   .count .CNV_ZERO_BLOCKS p 0 (sum (·.zeros)), .count .CNV_FLUSH p 0 (sum (·.flushed))]
  ++ (if lim < a then [.count .CNV_OVF_TILES p 0 1] else [])
  ++ (if lim < a && lim ≠ 0 then [.ovf p layer 1] else [])

/-- Row r of a source tile as FP32 values, rotated (R78, R93): an MX product beyond the FP32 range is an infinity before the first
butterfly. -/
def Tile.rotated (t : Tile) (f rot r : Nat) : Array FVal :=
  rotateRow rot (((List.range 128).map (fun k => Fmt.fp32.decode (Fmt.fp32.rneVal (t.val f r k)))).toArray)

/-- Row r of a source tile written out in BF16 or FP32 (R92, R93): an MX element that is not rotated becomes BF16 under R62. -/
def Tile.unpacked (t : Tile) (f rot df r : Nat) : List Byte :=
  if isMX f && rot = 0 && df = 8 then (List.range 128).flatMap (fun k => leBytes 2 (mxBf16 f t r k).1) else wideRow df (t.rotated f rot r)

/-- The next tile of a converter instruction completes (R75, R76, R89, R99): it is written and counted under the settings that its start
latched, and the tile after it latches its own. `b`: where the window begins. -/
def State.cnvTile (s : State) (p b : Nat) (w : CnvWork) : CnvWork × State :=
  let x := Desc.of w.src
  let d := Desc.of w.dst
  let t := w.done
  let (kappa, lim) := w.latched.getD (s.cnvSettings p)
  let tl : Tile := (readBytes s.bobbin (b + x.cnvAt x.fmt t) (tileBytes x.fmt)).toArray
  let plane := fun r => match w.plane with
    | some pl => (readBytes s.bobbin (b + planeAt pl t r) 8).map BitVec.toNat
    | none => []
  let at' := d.cnvAt w.fmt t
  let s :=
    if w.op.packs then
      let rows := (List.range x.rows).map (fun r => packRow w.fmt kappa w.op.src (plane r) (tl.rotated x.fmt w.rot r))
      (packPosts p w.layer lim rows).foldl State.post (s.writePacked b w.fmt at' w.plane t rows)
    else
      ((List.range x.rows).foldl (fun s r =>
        s.winWrite b (at' + r * (16 * codeBits w.fmt)) (tl.unpacked x.fmt w.rot w.fmt r)) s).bump .CNV_TILES_UNPACKED p 0 1
  let (busy, s) := s.fresh
  let s := s.bump .CNV_BUSY_CYCLES p 0 busy
  ({ w with done := t + 1, latched := some (s.cnvSettings p) }, s)

/-- What the fields of a converter instruction name (R257). -/
structure CnvArgs where
  dst : BitVec 128
  src : BitVec 128
  plane : Nat
  layer : Nat
  rot : Nat
  rotate : Bool
  wide : Bool

/-- The operands of a converter instruction. -/
def Iss.cnvArgs (i : Iss) : CnvArgs :=
  { dst := i.g.getT (i.f 47 5), src := i.g.getT (i.f 42 5), plane := i.g.getA (i.f 38 4), layer := i.f 26 12, rot := i.f 23 3,
    rotate := i.f 22 1 = 1, wide := i.f 21 1 = 1 }

/-- Whether an operation packs weights, and names a scale plane. -/
def CnvOp.weight : CnvOp → Bool
  | .packWgtInit | .packWgt => true
  | _ => false

/-- The format written: an activation tile of a layer that runs wide is packed as MXFP8 E4M3 (R123, R124). -/
def State.cnvFmt (s : State) (i : Iss) (op : CnvOp) : Nat :=
  let f := (Desc.of i.cnvArgs.dst).fmt
  if op = .packAct && i.cnvArgs.wide && s.runsWide i i.cnvArgs.layer && f = 0 then 2 else f

/-- The rotation that an operation applies to its source (R78, R93). -/
def Iss.cnvRot (i : Iss) : CnvOp → Nat
  | .packAct | .packWgtInit => (Desc.of i.cnvArgs.dst).rot
  | .packWgt => 0
  | .unpack => if i.cnvArgs.rotate then (Desc.of i.cnvArgs.src).rot else 0
  | .rotate => i.cnvArgs.rot
  | .round => if i.cnvArgs.rotate then i.cnvArgs.rot else 0

/-- Where the scale plane of an operation lies, which a weight pack into a K format has. -/
def State.cnvPlane (s : State) (i : Iss) (op : CnvOp) : Option Nat :=
  if op.weight && isK (s.cnvFmt i op) then some (bits i.cnvArgs.plane 0 23) else none

/-- The ranges of its scale plane. -/
def State.cnvPlanes (s : State) (i : Iss) (op : CnvOp) : List (Nat × Nat) :=
  match s.cnvPlane i op with
  | some pl => (List.range (Desc.of i.cnvArgs.src).tiles).map (fun t => (planeAt pl t 0, (Desc.of i.cnvArgs.src).rows * 8))
  | none => []

/-- What a converter instruction reads. -/
def State.cnvReads (s : State) (i : Iss) (op : CnvOp) : List (Nat × Nat) :=
  (Desc.of i.cnvArgs.src).cnvRanges (Desc.of i.cnvArgs.src).fmt ++ s.cnvPlanes i op

/-- What it writes. -/
def State.cnvWrites (s : State) (i : Iss) (op : CnvOp) : List (Nat × Nat) :=
  (Desc.of i.cnvArgs.dst).cnvRanges (s.cnvFmt i op) ++ (if op.packs then (Desc.of i.cnvArgs.dst).cnvPads (s.cnvFmt i op) else [])
    ++ s.cnvPlanes i op

/-- The first check that a converter instruction fails (R74, R83, R118, R255 to R257). -/
def State.cnvCheck (s : State) (i : Iss) (op : CnvOp) : Status :=
  let y := i.cnvArgs
  let d := Desc.of y.dst
  let x := Desc.of y.src
  firstBad [need (y.rot < 5) .level, need (descsCheck [y.dst, y.src] ≠ .level) .level, descsCheck [y.dst, y.src],
    need (op.fmtsOk x.fmt d.fmt && d.rows = x.rows && d.tiles = x.tiles && x.rows ≤ 128) .illegal,
    need (!(op = .packAct || op = .packWgtInit) || x.rot = 0) .illegal,
    need (op ≠ .packWgt || x.rot = d.rot) .illegal,
    need (if op.weight then (ownOff y.plane).isSome else i.f 38 4 = 0) .illegal,
    need (!(op = .packAct && s.fld TEN_LAYER_CFG.SENSITIVE i.part y.layer = 1)) .illegal,
    need (s.layerOk i y.layer) .protection,
    need (s.inWindow i (s.cnvReads i op ++ s.cnvWrites i op)) .protection]

/-- The first row of a K source whose group is faulty, with its tile (R54). -/
def State.cnvFaulty (s : State) (i : Iss) : Option (Tile × Nat) :=
  let x := Desc.of i.cnvArgs.src
  if isK x.fmt then
    ((List.range x.tiles).flatMap (fun t =>
      let tl := s.bobTile i (x.cnvAt x.fmt t) (tileBytes x.fmt)
      (List.range x.rows).map (fun r => (tl, r)))).find? (fun y => !y.1.groupOk x.fmt y.2)
  else none

/-- Whether a weight pack meets a scale plane that holds a not-a-number code (R83). -/
def State.planeBad (s : State) (i : Iss) (op : CnvOp) : Bool :=
  op = .packWgt && (List.range (Desc.of i.cnvArgs.src).tiles).any (fun t => (List.range (Desc.of i.cnvArgs.src).rows).any (fun r =>
    (s.bobRead i (planeAt (bits i.cnvArgs.plane 0 23) t r) 8).contains 0xFF))

/-- The work of a converter instruction, no tile of it done. -/
def State.cnvWork (s : State) (i : Iss) (op : CnvOp) : CnvWork :=
  ⟨op, i.cnvArgs.src, i.cnvArgs.dst, s.cnvFmt i op, i.cnvRot op, s.cnvPlane i op, i.cnvArgs.layer, 0, none⟩

/-- What it counts when it completes, beside its tiles: a narrow pack for a layer that runs wide (R124). -/
def State.cnvBypass (s : State) (i : Iss) (op : CnvOp) : List Post :=
  if op = .packAct && !i.cnvArgs.wide && s.runsWide i i.cnvArgs.layer then [.count .TEN_FWD_WIDE_BYPASS i.part 0 1] else []

/-- A converter instruction (R257): its checks, then its work, tile by tile. -/
def cnvIssue (op : CnvOp) (i : Iss) (s : State) : Issued :=
  if s.unitFull i.key 2 then .hold
  else if s.cnvCheck i op ≠ .ok then .go i.g (s.giveUnit i 2 (s.cnvCheck i op) 0 [] [] [])
  else if s.hazard i.key (s.cnvReads i op) (s.cnvWrites i op) then .hold
  else if i.probe then .go i.g s
  else match s.cnvFaulty i with
    | some (t, r) => .go i.g (s.giveUnit i 2 .illegal 0 [] []
        [.count .CNV_ILLEGAL i.part 0 1, .fault i.part (faultWord i.engine r (groupFault t (Desc.of i.cnvArgs.src).fmt r))])
    | none =>
      if s.planeBad i op then .go i.g (s.giveUnit i 2 .illegal 0 [] [] [])
      else .go i.g (s.giveConverter i (s.cnvReads i op) (s.cnvWrites i op) (s.cnvBypass i op) (s.cnvWork i op))

/-- PACK_ACT (R74, R84, R85). -/
def rowPackAct : Row := ⟨0x50, fun _ => true, cnvFields,
  cnvIssue .packAct⟩

/-- PACK_WGT_INIT (R83). -/
def rowPackWgtInit : Row := ⟨0x51, fun _ => true, cnvFields,
  cnvIssue .packWgtInit⟩

/-- PACK_WGT (R83). -/
def rowPackWgt : Row := ⟨0x52, fun _ => true, cnvFields,
  cnvIssue .packWgt⟩

/-- UNPACK (R92). -/
def rowUnpack : Row := ⟨0x53, fun _ => true, cnvFields,
  cnvIssue .unpack⟩

/-- ROTATE (R93). -/
def rowRotate : Row := ⟨0x54, fun _ => true, cnvFields,
  cnvIssue .rotate⟩

/-- ROUND (R93). -/
def rowRound : Row := ⟨0x55, fun _ => true, cnvFields,
  cnvIssue .round⟩

/-- The converter counters in the order of R99. -/
def cnvCounters : List RegName :=
  [.CNV_TILES_PACKED, .CNV_TILES_UNPACKED, .CNV_OUTLIERS, .CNV_OUTLIER_OVF, .CNV_OVF_TILES, .CNV_SATURATE, .CNV_NONFINITE,
   .CNV_ZERO_BLOCKS, .CNV_FLUSH, .CNV_ILLEGAL, .CNV_BUSY_CYCLES]

/-- CNV_COUNTER_CLEAR (R100). -/
def execCnvCounterClear (bar : Bar) (v : W32) (s : State) : Host.Outcome State Fault Refusal :=
  .next (s.viaPhysical bar (fun p => s.clearSelected cnvCounters p v.toNat))

/-- CNV_FAULT_CLEAR (R97): a write of CNV_LAST_FAULT with VALID 1 clears the whole register. -/
def execCnvFaultClear (bar : Bar) (v : W32) (s : State) : Host.Outcome State Fault Refusal :=
  .next (s.viaPhysical bar (fun p => if bit v.toNat 31 then s.setReg .CNV_LAST_FAULT p 0 0 else s))

end Sys2Proof.Machine
end

