-- ==== Sys2Proof/Machine/Reduction.lean ====
section
/-! DEFINITION. The reduction engine (R176 to R201, R286 to R288): slots, packets, exponent planes, sends. -/

namespace Sys2Proof.Machine
open Sys2Proof

/-! ### Slots (R182 to R186) -/

/-- The partition and context that a slot is granted to. -/
def State.slotOwner (s : State) (t : Nat) : Option (Nat × Nat) :=
  allCtx.find? (fun c => s.present c.1 c.2 && s.fld PART_CTX_SLOTS.BASE c.1 c.2 ≤ t
    && t < s.fld PART_CTX_SLOTS.BASE c.1 c.2 + s.fld PART_CTX_SLOTS.COUNT c.1 c.2)

/-- The accumulator index of block `i` of a slot on its die. -/
def State.accBlock (s : State) (t i : Nat) : Nat :=
  s.fld RED_SLOT_ACC.DIE t 0 * 786432 + s.fld RED_SLOT_ACC.ACC_BASE t 0 + i

/-- The count of blocks at which a slot completes: (EXPECTED − DROPPED) × LEN (R183). -/
def State.slotGoal (s : State) (t : Nat) : Nat :=
  (s.fld RED_SLOT_CONTRIB.EXPECTED t 0 - s.fld RED_SLOT_CONTRIB.DROPPED t 0) * s.fld RED_SLOT_LEN.LEN t 0

/-- What the checks of a slot's opening give before its peer entry is read (R182). -/
def State.openCheck (s : State) (p c t : Nat) : Status :=
  let len := s.fld RED_SLOT_LEN.LEN t 0
  let exp := s.fld RED_SLOT_CONTRIB.EXPECTED t 0
  let red := s.fld RED_SLOT_ID.RED_ID t 0
  let b := s.fld RED_SLOT_BASE.BLOCK t 0
  let acc := s.fld RED_SLOT_ACC.ACC_BASE t 0
  let g := s.fld PART_CTX_ACC.BASE p c
  if s.fld RED_SLOT_CTRL.STATE t 0 ≠ 0 then .illegal
  else if len < 1 || 65536 < len || exp < 1 || 65536 < exp || s.fld RED_SLOT_ACC.DIE t 0 ≠ s.fld PART_CTX_ACC.DIE p c
      || acc < g || g + s.fld PART_CTX_ACC_LEN.BLOCKS p c < acc + len then .illegal
  else if s.fld RED_SLOT_ID.EPOCH t 0 ≠ s.epoch p || !(List.range len).all (fun i => s.ownsBlock p c red (b + i)) then .epoch
  else if (s.slotsOf p c).any (fun u => u ≠ t && (s.fld RED_SLOT_CTRL.STATE u 0 = 1 || s.fld RED_SLOT_CTRL.STATE u 0 = 2)
      && s.reg .RED_SLOT_STEP u 0 = s.reg .RED_SLOT_STEP t 0 && s.fld RED_SLOT_ID.RED_ID u 0 = red
      && s.fld RED_SLOT_BASE.BLOCK u 0 < b + len && b < s.fld RED_SLOT_BASE.BLOCK u 0 + s.fld RED_SLOT_LEN.LEN u 0) then .illegal
  else .ok

/-- RESULT of a slot's opening, and the state after the read of its RED_ID's peer entry, which comes last (R182, R201). -/
def State.openResult (s : State) (p c t : Nat) : Status × State :=
  match s.openCheck p c t with
  | .ok => ((s.peerRow p c (s.fld RED_SLOT_ID.RED_ID t 0)).1, (s.peerRow p c (s.fld RED_SLOT_ID.RED_ID t 0)).2.2)
  | e => (e, s)

/-- The drop list of a RED_ID in a context's step (R193). -/
def State.dropsOf (s : State) (p c step red : Nat) : List Dropped :=
  if s.reg .BAT_STEP_NUM p c = step then (s.stepOf p c).drops.filter (fun d => d.red = red) else []

/-- The fault of a DROP that vetoes (R193, R199): DEV and the element it named, in the fault report and in the tenant's ring. -/
def State.dropFault (s : State) (p dev red elem step : Nat) : State :=
  (s.redFault p dev 1 red (elem % 32) (elem / 32) step).logRedFault p dev 1 red (elem % 32) (elem / 32) step

/-- A slot is opened: its accumulators clear, and it enters OPEN (R182). -/
def State.openSlot (s : State) (p c t : Nat) : Status × State :=
  match s.openResult p c t with
  | (.ok, s) =>
    let len := s.fld RED_SLOT_LEN.LEN t 0
    let a := s.accBlock t 0
    let s := { s with acc := SMap.clearRange s.acc (32 * a) (32 * len), accMask := SMap.clearRange s.accMask a len,
                      accMax := SMap.clearRange s.accMax a len }
    let s := s.setSlot t { clearing := true }
    let red := s.fld RED_SLOT_ID.RED_ID t 0
    let step := s.reg .RED_SLOT_STEP t 0
    let drops := s.dropsOf p c step red
    let s := s.setFld RED_SLOT_CONTRIB.DROPPED t 0 drops.length
    let s := (s.slotTo p t 1).setFld RED_SLOT_CTRL.RESULT t 0 0
    (.ok, match drops[s.fld RED_SLOT_CONTRIB.EXPECTED t 0 - 1]? with
      | some d => ((s.alarm 0x24).dropFault p d.dev red d.elem step).vetoStep p c 3
      | none => s)
  | (e, s) => (e, s.setFld RED_SLOT_CTRL.RESULT t 0 e.code)

/-- A slot is released (R186). -/
def State.releaseSlot (s : State) (p t : Nat) : Status × State :=
  let st := s.fld RED_SLOT_CTRL.STATE t 0
  if st = 1 || st = 2 then (.illegal, s.setFld RED_SLOT_CTRL.RESULT t 0 3)
  else (.ok, ((if st = 0 then s else s.slotTo p t 0).setSlot t {}).setFld RED_SLOT_CTRL.RESULT t 0 0)

/-- ⌈log2 n⌉ of a positive number. -/
def clog2 (n : Nat) : Nat := if n = 2 ^ Nat.log2 n then Nat.log2 n else Nat.log2 n + 1

/-- The EXPMAX entry of a code maximum (R183). -/
def expEntry (cmax : Nat) : Nat := if cmax = 0 then 0xF else clog2 cmax

/-- A list in runs of at most `n`, each with the index of its first element. -/
def runs {α : Type} (n : Nat) (l : List α) : List (Nat × List α) :=
  (List.range (ceilDiv l.length n)).map (fun i => (i * n, (l.drop (i * n)).take n))

/-- Bytes padded to whole units of 32 B. -/
def padUnits (pad : Byte) (b : List Byte) : List Byte := b ++ List.replicate ((32 - b.length % 32) % 32) pad

/-- Send exponent packets for a slot's blocks to every contributor of its RED_ID (R183, R185); the owner vetoes the step where it
cannot read its lists (R201). -/
def State.sendExponents (s : State) (p c t : Nat) (type : Nat) (vals : List Nat) : State :=
  let red := s.fld RED_SLOT_ID.RED_ID t 0
  let step := s.reg .RED_SLOT_STEP t 0
  let b := s.fld RED_SLOT_BASE.BLOCK t 0
  let (e, row, s) := s.peerRow p c red
  let (e2, devs, s) := if e = .ok then s.peerList p c row.cOff row.cN else (e, [], s)
  if e2 ≠ .ok then s.vetoStep p c 3
  else
    let per := if type = 4 then 16384 else 8192
    devs.foldl (fun s d => (runs per vals).foldl (fun s r =>
      let body := if type = 4 then padUnits 0xFF (packBits 4 (if r.2.length % 2 = 1 then r.2 ++ [0xF] else r.2))
        else padUnits 0x80 (packBits 8 r.2)
      s.sendPacket (newPacket (s.jobOf p c) d type step red (s.epoch p) (b + r.1) r.2.length 0 body) 0 0) s) s

/-- The devices of a RED_ID's contributor list (R201); none where it cannot be read. The look counts nothing (DESIGN CHOICE, log entry 133). -/
def State.contributors (s : State) (p c red : Nat) : List Nat :=
  match s.peerRow p c red with
  | (.ok, row, _) => (s.peerList p c row.cOff row.cN).2.1
  | _ => []

/-- Whether a DROP for a STEP and RED_ID, from a listed contributor, is held (R183). -/
def State.dropHeld (s : State) (p c step red : Nat) : Bool :=
  s.heldPackets.any (fun h => h.part = p && h.ctx = c && pkType h.pk = 2 && pkStep h.pk = step && pkRed h.pk = red
    && (s.contributors p c red).contains (pkSrc h.pk))

/-- Whether an OPEN or CLOSING slot has accepted the blocks it expects (R183, R185). -/
def State.slotCounted (s : State) (t : Nat) : Bool :=
  let st := s.fld RED_SLOT_CTRL.STATE t 0
  (st = 1 || st = 2) && (s.slot t).accepted = s.slotGoal t && !(s.slot t).clearing

/-- Whether an OPEN or CLOSING slot is complete (R183). -/
def State.slotComplete (s : State) (p c t : Nat) : Bool :=
  s.slotCounted t && !s.dropHeld p c (s.reg .RED_SLOT_STEP t 0) (s.fld RED_SLOT_ID.RED_ID t 0)

/-- A calibration slot that is complete sends its maxima and enters READY (R185). -/
def State.finishCalib (s : State) (p c t : Nat) : State :=
  if s.fld RED_SLOT_CTRL.OP t 0 = 1 && s.slotCounted t then
    let vals := (List.range (s.fld RED_SLOT_LEN.LEN t 0)).map (fun i => (SMap.get 0 s.accMax (s.accBlock t i)).toNat)
    ((s.slotTo p t 3).setFld RED_SLOT_CTRL.RESULT t 0 0).sendExponents p c t 7
      (vals.map (fun v => (v + 128) % 256))
  else s

/-- The sum check of a complete slot (R183). -/
def State.sumCheck (s : State) (t : Nat) : State :=
  match s.slotOwner t with
  | none => s
  | some (p, c) =>
    if s.fld RED_SLOT_CTRL.OP t 0 = 1 || !s.slotComplete p c t then s
    else
      let red := s.fld RED_SLOT_ID.RED_ID t 0
      let step := s.reg .RED_SLOT_STEP t 0
      let b := s.fld RED_SLOT_BASE.BLOCK t 0
      let len := s.fld RED_SLOT_LEN.LEN t 0
      let a := s.accBlock t 0
      let vals := (List.range (32 * len)).map (fun i =>
        let v := signed 32 (SMap.get 0 s.acc (32 * a + i)).toNat
        if v < 0 then redP - v.natAbs else v.natAbs)
      if checkSum (s.redH (s.jobOf p c) step red) (32 * b) vals = (s.slot t).sin then
        let maxes := (List.range len).map (fun i => (SMap.get 0 s.accMax (a + i)).toNat)
        let s := s.bump .RED_MAX127 p 0 (maxes.filter (· = 127)).length
        ((s.slotTo p t 3).setFld RED_SLOT_CTRL.RESULT t 0 0).sendExponents p c t 4 (maxes.map expEntry)
      else
        let s := ((s.slotTo p t 4).setFld RED_SLOT_CTRL.RESULT t 0 Status.checksum.code).bump .RED_SUM_FAIL p 0 1
        let s := (s.redFault p Config.deviceId.toNat 2 red 0 b step).logRedFault p Config.deviceId.toNat 2 red 0 b step
        (s.alarm 0x25).vetoStep p c 3

/-! ### Matching (R189, R190) -/

/-- What the owner does with a packet that passed R179. -/
inductive Verdict where
  | discard
  | timeout (window : Option Nat)
  | hold
  | epoch
  | illegal
  | overfull (slot : Nat)
  | accept (slot : Nat)
  | drop
  deriving DecidableEq, Repr

/-- The blocks of a packet. -/
def pkBlocks (k : Packet) : Nat := if pkType k = 1 then pkLen k else if pkType k = 2 then 0 else pkCount k

/-- The OPEN, CLOSING or READY slots of a context with a STEP and RED_ID. -/
def State.slotsFor (s : State) (p c step red : Nat) : List Nat :=
  (s.slotsOf p c).filter (fun t => 1 ≤ s.fld RED_SLOT_CTRL.STATE t 0 && s.fld RED_SLOT_CTRL.STATE t 0 ≤ 3
    && s.reg .RED_SLOT_STEP t 0 = step && s.fld RED_SLOT_ID.RED_ID t 0 = red)

/-- Whether a slot's window has closed. -/
def State.windowClosed (s : State) (p t : Nat) : Bool := s.fld SCHED_WIN_STATUS.CLOSED p (s.fld RED_SLOT_WINDOW.WINDOW t 0) = 1

/-- Whether a packet for a slot is late (R189, R287): the slot is CLOSING or past its close pick as the packet arrives, or a held packet
arrived (`since`) when its close pick had begun. -/
def State.lateFor (s : State) (p t : Nat) (since : Option Nat) : Bool :=
  match since with
  | none => s.fld RED_SLOT_CTRL.STATE t 0 = 2 || s.windowClosed p t
  | some at' => s.windowClosed p t && s.reg .SCHED_WIN_CLOSE p (s.fld RED_SLOT_WINDOW.WINDOW t 0) ≤ at'

/-- The rows of R189 for a packet and the slot or slots that it meets, from the third on. A DROP names no block, and meets every slot of its
STEP and RED_ID (DEDUCED, log entry 115); a late one of them makes the packet late. -/
def State.slotVerdict (s : State) (p : Nat) (k : Packet) (ts : List Nat) (since : Option Nat) : Verdict :=
  match ts.find? (fun t => s.lateFor p t since) with
  | some t => .timeout (some (s.fld RED_SLOT_WINDOW.WINDOW t 0))
  | none =>
    if newer (pkEpoch k) (s.epoch p) then .hold
    else if ts = [] then (if pkEpoch k = s.epoch p then .hold else .epoch)
    else match ts.find? (fun t => s.fld RED_SLOT_ID.EPOCH t 0 ≠ pkEpoch k) with
      | some t => if newer (pkEpoch k) (s.fld RED_SLOT_ID.EPOCH t 0) then .hold else .epoch
      | none =>
        if ts.any (fun t => (s.slot t).clearing) then .hold
        else if pkType k ≠ 2 && ts.any (fun t => (s.fld RED_SLOT_CTRL.OP t 0 = 1) ≠ (pkType k = 3)) then .illegal
        else match ts.find? (fun t => s.fld RED_SLOT_CTRL.STATE t 0 = 3 || s.slotGoal t < (s.slot t).accepted + pkBlocks k) with
          | some t => .overfull t
          | none => if pkType k = 2 then .drop else (ts.head?.map Verdict.accept).getD .hold

/-- The first matching row of R189. `since`: none for a packet that arrives now, else the pick in which a held one arrived. A CALIB of the
STEP that R185 gives a context without an open step belongs to no step that ended. -/
def State.verdict (s : State) (p c : Nat) (k : Packet) (since : Option Nat) : Verdict :=
  let step := pkStep k
  let num := s.reg .BAT_STEP_NUM p c
  let opened := s.stepState p c ≠ 0
  let ts := s.slotsFor p c step (pkRed k)
  let b := pkBlock k
  let n := pkBlocks k
  let meets := ts.filter (fun t => s.fld RED_SLOT_BASE.BLOCK t 0 < b + n
    && b < s.fld RED_SLOT_BASE.BLOCK t 0 + s.fld RED_SLOT_LEN.LEN t 0)
  let covers := meets.filter (fun t => s.fld RED_SLOT_BASE.BLOCK t 0 ≤ b
    && b + n ≤ s.fld RED_SLOT_BASE.BLOCK t 0 + s.fld RED_SLOT_LEN.LEN t 0)
  let own := pkType k = 3 && !opened && step = num
  let older := step < num || (!opened && step = num && !own && 0 < num)
  if (s.stepOf p c).ended.contains step && !own then .discard
  else if older then .timeout none
  else if pkType k = 2 then s.slotVerdict p k ts since
  else if 1 < meets.length then .illegal
  else s.slotVerdict p k covers since

/-- RED_POLICY of a context: as its last step that opened found it (R197). -/
def State.policy (s : State) (p c : Nat) : Nat := (s.stepOf p c).policy.getD (s.reg .RED_POLICY p c)

/-- The bytes a held packet takes. -/
def heldBytes (k : Packet) : Nat := 80 + k.payload.length

/-- A packet that is answered instead of held, or held too long (R190). -/
def State.answerHeld (s : State) (p : Nat) (k : Packet) : State :=
  if newer (pkEpoch k) (s.epoch p) then (s.bump .RED_BOUNCE_EPOCH p 0 1).reply k .epoch else s.reply k .timeout

/-- A packet is held (R190). -/
def State.holdPacket (s : State) (p c : Nat) (k : Packet) : State :=
  let die := match k.port with | some q => q.val / 8 | none => p / 4
  let used := ((s.heldPackets.filter (fun h => h.die = die)).map (fun h => heldBytes h.pk)).sum
  if RED_POLICY.HOLD_PICKS.of (s.policy p c) = 0 || 4194304 < used + heldBytes k then s.answerHeld p k
  else { (s.bump .RED_HELD p 0 1) with heldPackets := s.heldPackets ++ [⟨p, c, die, s.pick, k⟩] }

/-- A slot fails by over-delivery, and the step is vetoed (R189). -/
def State.overDeliver (s : State) (p c t : Nat) (k : Packet) : State :=
  let s := (s.slotTo p t 4).redFault p (pkSrc k) 3 (pkRed k) 0 (pkBlock k) (pkStep k)
  (s.logRedFault p (pkSrc k) 3 (pkRed k) 0 (pkBlock k) (pkStep k)).vetoStep p c 3

/-- A REDUCE packet is added into a slot (R69, R183, R191, R209). -/
def State.addReduce (s : State) (p c t : Nat) (k : Packet) : State :=
  let n := pkLen k
  let first := pkBlock k - s.fld RED_SLOT_BASE.BLOCK t 0
  let a := s.accBlock t first
  let s := (s.bump .RED_RX_PACKETS p 0 1).bump .RED_RX_BLOCKS p 0 n
  let code := fun i => signed 8 (pkByte k i)
  let acc := (List.range (32 * n)).foldl (fun m i =>
    if code i = -128 then m
    else SMap.set 0 m (32 * a + i) (BitVec.ofInt 32 (signed 32 (SMap.get 0 m (32 * a + i)).toNat + code i))) s.acc
  let bad := (List.range (32 * n)).filter (fun i => code i = -128)
  let mask := bad.foldl (fun m i => SMap.set 0 m (a + i / 32) (SMap.get 0 m (a + i / 32) ||| BitVec.ofNat 32 (2 ^ (i % 32)))) s.accMask
  let mx := (List.range n).foldl (fun m j =>
    let top := (List.range 32).foldl (fun v i => if code (32 * j + i) = -128 then v else max v (code (32 * j + i)).natAbs) 0
    SMap.set 0 m (a + j) (BitVec.ofNat 32 (max (SMap.get 0 m (a + j)).toNat top))) s.accMax
  let (_, row, s) := s.peerRow p c (pkRed k)
  let (_, es, s) := s.planeRead p c row (s.phase p c) (pkBlock k) n
  let x := s.slot t
  let noise := (List.range n).foldl (fun m j =>
    let sum := (List.range 32).foldl (fun v i => if code (32 * j + i) = -128 then v else v + code (32 * j + i) * code (32 * j + i)) (0 : Int)
    let (d, k) := SMap.get (⟨0, 0⟩, 0) m (first + j)
    SMap.set (⟨0, 0⟩, 0) m (first + j) (d.add ⟨sum, 2 * es.getD j 0⟩, k + 1)) x.noise
  let s := { s with acc := acc, accMask := mask, accMax := mx }
  let s := s.setSlot t { x with accepted := x.accepted + n, sin := (x.sin + pkCheck k) % redP, noise := noise }
  match bad with
  | [] => s
  | i :: _ =>
    let s := s.bump .RED_POISON_CODES p 0 bad.length
    let b := pkBlock k + i / 32
    let s := (s.redFault p (pkSrc k) 0 (pkRed k) (i % 32) b (pkStep k)).logRedFault p (pkSrc k) 0 (pkRed k) (i % 32) b (pkStep k)
    ((s.slotTo p t 4).alarm 0x24).vetoStep p c 3

/-- A CALIB packet raises a calibration slot's maxima (R185): the largest byte of a block, kept as byte + 128. -/
def State.addCalib (s : State) (p c t : Nat) (k : Packet) : State :=
  let n := pkCount k
  let a := s.accBlock t (pkBlock k - s.fld RED_SLOT_BASE.BLOCK t 0)
  let mx := (List.range n).foldl (fun m j =>
    SMap.set 0 m (a + j) (BitVec.ofNat 32 (max (SMap.get 0 m (a + j)).toNat (signed 8 (pkByte k j) + 128).toNat))) s.accMax
  let x := s.slot t
  ({ s with accMax := mx }.setSlot t { x with accepted := x.accepted + n }).finishCalib p c t

/-- DROPPED rises in every slot of a STEP and RED_ID; a slot that has more blocks than it now expects fails (R189, R193), and a calibration
slot that has all of them is complete (R185). -/
def State.raiseDropped (s : State) (p c : Nat) (k : Packet) : State :=
  (s.slotsFor p c (pkStep k) (pkRed k)).foldl (fun s t =>
    let s := s.bumpFld RED_SLOT_CONTRIB.DROPPED t 0 1
    if s.slotGoal t < (s.slot t).accepted then s.overDeliver p c t k else s.finishCalib p c t) s

/-- A DROP is accepted: its ordinal joins the drop list once, or the step is vetoed (R193). -/
def State.addDrop (s : State) (p c : Nat) (k : Packet) : State :=
  let ord := bits (pkArg k) 37 16
  let red := pkRed k
  let r := s.stepOf p c
  if r.drops.any (fun d => d.red = red && d.ord = ord) then s
  else
    let pol := s.policy p c
    let count := (r.drops.filter (fun d => d.red = red)).length + 1
    let zero := (s.slotsFor p c (pkStep k) red).any (fun t => s.fld RED_SLOT_CONTRIB.EXPECTED t 0 ≤ s.fld RED_SLOT_CONTRIB.DROPPED t 0 + 1)
    let s := s.alarm 0x24
    if RED_POLICY.POISON.of pol = 0 || min 8 (RED_POLICY.DROP_MAX.of pol) < count || zero then
      (s.dropFault p (pkSrc k) red (bits (pkArg k) 0 37) (pkStep k)).vetoStep p c 3
    else
      ((s.setStep p c { r with drops := r.drops ++ [⟨red, ord, pkSrc k, bits (pkArg k) 0 37⟩] }).bump .RED_DROPS p 0 1).raiseDropped p c k

/-- A packet meets its verdict. -/
def State.obey (s : State) (p c : Nat) (k : Packet) (v : Verdict) : State :=
  match v with
  | .discard => s.bump .RED_DISCARD p 0 1
  | .timeout w =>
    let s := s.bump .RED_LATE p 0 1
    (match w with | some w => s.bump .SCHED_WIN_LATE p w 1 | none => s).reply k .timeout
  | .hold => s.holdPacket p c k
  | .epoch => (s.bump .RED_BOUNCE_EPOCH p 0 1).reply k .epoch
  | .illegal => s.reply k .illegal
  | .overfull t => s.overDeliver p c t k
  | .accept t => if pkType k = 1 then s.addReduce p c t k else s.addCalib p c t k
  | .drop => s.addDrop p c k

/-- The owners of a RED_ID in a context's active owner table. -/
def State.ownersOf (s : State) (p c red : Nat) : List Nat :=
  let b := s.fld TBL_SWITCH_STATUS.ACTIVE p 0
  (((List.range 8192).filter (fun e =>
    let j := b * 8192 + e
    s.fld OWN_CTRL.VALID p j = 1 && s.fld OWN_CTRL.CTX p j = c && s.fld OWN_ID.RED_ID p j = red && 0 < s.fld OWN_COUNT.BLOCKS p j)).map
    (fun e => s.fld OWN_ID.OWNER p (b * 8192 + e))).eraseDups

/-- The contexts that a REDUCE, DROP or CALIB packet is for: that of its first block; of a DROP, which names no block, each context of its
job with slots of its STEP and RED_ID or to which the owner table gives blocks of the RED_ID here (R193; DEDUCED, log entry 115). -/
def State.redCtxs (s : State) (k : Packet) : List (Nat × Nat) :=
  let first := s.rxCtx (pkJob k) (pkRed k) (pkBlock k)
  if pkType k = 2 then
    match (s.ctxsOfJob (pkJob k)).filter (fun c => s.slotsFor c.1 c.2 (pkStep k) (pkRed k) ≠ []
        || (s.ownersOf c.1 c.2 (pkRed k)).contains Config.deviceId.toNat) with
    | [] => [first]
    | cs => cs
  else [first]

/-- A REDUCE, DROP or CALIB packet that has passed R179 is matched. -/
def State.matchRed (s : State) (k : Packet) : State :=
  (s.redCtxs k).foldl (fun s c => s.obey c.1 c.2 k (s.verdict c.1 c.2 k none)) s

/-- A held packet that no longer has to wait leaves the hold and meets its verdict (R190). -/
def State.release1 (s : State) (h : Held) : State :=
  if pkType h.pk = 5 then s
  else
    let v := s.verdict h.part h.ctx h.pk (some h.since)
    if v = .hold then s
    else ({ s with heldPackets := s.heldPackets.erase h }).obey h.part h.ctx h.pk v

/-- Every held packet of a context, in order of arrival, is matched again. -/
def State.rematch (s : State) (p c : Nat) : State :=
  (s.heldPackets.filter (fun h => h.part = p && h.ctx = c)).foldl State.release1 s

/-! ### Windows (R286, R287) -/

/-- A slot in CLOSING that no held packet can complete is short: the step is vetoed and the slot enters ABORTED (R287). -/
def State.shortSlot (s : State) (p c t : Nat) : State :=
  if s.fld RED_SLOT_CTRL.STATE t 0 ≠ 2 || s.slotComplete p c t then s
  else
    let w := s.fld RED_SLOT_WINDOW.WINDOW t 0
    let miss := s.slotGoal t - (s.slot t).accepted
    let s := (s.setFld SCHED_WIN_STATUS.SHORT p w 1).bumpFld SCHED_WIN_STATUS.SLOTS_SHORT p w 1
    let s := s.logRec p 0x0102 p (leBytes 2 (s.fld RED_SLOT_ID.RED_ID t 0) ++ leBytes 4 (s.reg .RED_SLOT_STEP t 0) ++ leBytes 4 miss)
    let s := ((s.alarm 0x26).slotTo p t 5)
    s.vetoStep p c 3

/-- An OPEN slot whose window has closed enters CLOSING; the packets held for it are matched, and it is short if they do not
complete it. A slot that still clears waits for that. -/
def State.closeSlot (s : State) (p c t : Nat) : State :=
  if s.fld RED_SLOT_CTRL.STATE t 0 = 1 && s.windowClosed p t && !(s.slot t).clearing then
    (((s.slotTo p t 2).rematch p c).shortSlot p c t)
  else s

/-- Every window whose close pick has come closes (R287). -/
def State.closeWindows (s : State) (p : Nat) : State :=
  let due := (List.range 4096).filter (fun w => s.reg .SCHED_WIN_CLOSE p w ≠ 0 && s.reg .SCHED_WIN_CLOSE p w ≤ s.pick
    && s.fld SCHED_WIN_STATUS.CLOSED p w = 0)
  let s := due.foldl (fun s w => (s.setFld SCHED_WIN_STATUS.CLOSED p w 1).setFld SCHED_WIN_STATUS.SLOTS_SHORT p w 0) s
  (s.ctxsOfPart p).foldl (fun s c => (s.slotsOf p c).foldl (fun s t =>
    if due.contains (s.fld RED_SLOT_WINDOW.WINDOW t 0) then s.closeSlot p c t else s) s) s

/-! ### Exponents arriving (R184, R185) -/

/-- The clamp of an agreed exponent (R67). -/
def clampE (x : Int) : Int := max (-128) (min 127 x)

/-- The back copy of a RED_ID and its mark are kept before the step fills it (R184, R227). -/
def State.saveBack (s : State) (p c red : Nat) (row : PeerRow) (back : Nat) : State :=
  let r := s.stepOf p c
  if r.backs.any (fun b => b.1 = red) then s
  else match s.planeRead p c row back 0 row.blocks with
    | (.ok, es, s) =>
      match s.calibMarks p c row with
      | (.ok, m, s) => s.setStep p c { r with backs := (red, bits m back 1, es) :: r.backs }
      | (_, _, s) => s
    | (_, _, s) => s

/-- The back copy of a RED_ID is filled once every block's entry is there (R184). -/
def State.fillBack (s : State) (p c red : Nat) (row : PeerRow) : Status × State :=
  let got := (s.stepOf p c).expmax.filter (fun x => x.1 = red)
  let all := (List.range row.blocks).map (fun b => ((got.find? (fun x => x.2.1 = b)).map (fun x => x.2.2)))
  if all.any Option.isNone then (.ok, s)
  else
    let ph := s.phase p c
    match s.planeRead p c row ph 0 row.blocks with
    | (.ok, es, s) =>
      let e1 := (all.zip es).map (fun x => match x.1 with | some d => if d = 0xF then none else some (clampE (x.2 + d - 5)) | none => none)
      let known := e1.filterMap id
      let back := (ph + 1) % 3
      let s := s.saveBack p c red row back
      match known with
      | [] => (.ok, s.setCalib p c row back 1)
      | e :: es' =>
        let top := es'.foldl max e
        match s.planeWrite p c row back ((List.range row.blocks).zip (e1.map (fun x => x.getD top))) with
        | (.ok, s) => (.ok, s.setCalib p c row back 0)
        | x => x
    | (e, _, s) => (e, s)

/-- Entry `i` of an EXPMAX payload (R184). -/
def expNibble (k : Packet) (i : Nat) : Nat := bits (pkByte k (i / 2)) (4 * (i % 2)) 4

/-- A packet that contexts have taken is answered where one of them has met a status. -/
def State.endTake (k : Packet) (x : Status × State) : State := if x.1 = .ok then x.2 else x.2.reply k x.1

/-- The contexts of a job whose open step has a number. -/
def State.openCtxs (s : State) (job step : Nat) : List (Nat × Nat) :=
  (s.ctxsOfJob job).filter (fun c => s.stepState c.1 c.2 ≠ 0 && s.reg .BAT_STEP_NUM c.1 c.2 = step)

/-- A context takes an EXPMAX packet's entries. The status is the first that is not OK. -/
def State.takeExpmax (k : Packet) (x : Status × State) (c : Nat × Nat) : Status × State :=
  let s := x.2
  let n := pkCount k
  let (e, row, s) := s.peerRow c.1 c.2 (pkRed k)
  if e ≠ .ok then (if x.1 = .ok then e else x.1, s)
  else
    let r := s.stepOf c.1 c.2
    let kept := r.expmax.filter (fun y => !(y.1 = pkRed k && pkBlock k ≤ y.2.1 && y.2.1 < pkBlock k + n))
    let s := s.setStep c.1 c.2 { r with expmax := kept ++ (List.range n).map (fun i => (pkRed k, pkBlock k + i, expNibble k i)) }
    let (e, s) := s.fillBack c.1 c.2 (pkRed k) row
    (if x.1 = .ok then e else x.1, s)

/-- The contexts that an EXPMAX packet is for: those of its job with the open step that send its RED_ID, or with none of these all of them
(R184). -/
def State.expmaxCtxs (s : State) (k : Packet) : List (Nat × Nat) :=
  let all := s.openCtxs (pkJob k) (pkStep k)
  match all.filter (fun c => (s.peerRow c.1 c.2 (pkRed k)).1 = .ok) with
  | [] => all
  | cs => cs

/-- The effect of an EXPMAX packet that has passed R179: it is for the contexts of its job that send its RED_ID, whose peer entry is valid
(R184, R201). -/
def State.matchExpmax (s : State) (k : Packet) : State :=
  if s.expmaxCtxs k = [] then s.reply k .timeout
  else if (List.range (pkCount k)).any (fun i => 8 ≤ expNibble k i && expNibble k i ≤ 14) then s.reply k .illegal
  else State.endTake k ((s.expmaxCtxs k).foldl (State.takeExpmax k) (.ok, s))

/-- The contexts that an EXPSET packet is for: those of its job that send its RED_ID, with the open step or a front copy that is marked
for calibration (R185). -/
def State.expsetCtxs (s : State) (k : Packet) : List (Nat × Nat) :=
  (s.ctxsOfJob (pkJob k)).filter (fun c =>
    match s.peerRow c.1 c.2 (pkRed k) with
    | (.ok, row, _) =>
      (s.stepState c.1 c.2 ≠ 0 && s.reg .BAT_STEP_NUM c.1 c.2 = pkStep k)
        || bit (s.calibMarks c.1 c.2 row).2.1 (s.phase c.1 c.2)
    | _ => false)

/-- The front copy of a RED_ID once every EXPSET value has come: its −128 entries are filled and its mark clears (R185). -/
def State.fillFront (s : State) (p c red : Nat) (row : PeerRow) : State :=
  let got := (s.stepOf p c).expset.filter (fun x => x.1 = red)
  if (List.range row.blocks).all (fun b => got.any (fun x => x.2 = b)) then
    let ph := s.phase p c
    match s.planeRead p c row ph 0 row.blocks with
    | (.ok, es, s) =>
      let top := match es.filter (· ≠ -128) with | [] => 0 | e :: t => t.foldl max e
      let s := (s.planeWrite p c row ph ((List.range row.blocks).zip (es.map (fun e => if e = -128 then top else e)))).2
      let r := s.stepOf p c
      (s.setStep p c { r with expset := r.expset.filter (fun x => x.1 ≠ red) }).setCalib p c row ph 0
    | (_, _, s) => s
  else s

/-- A context takes an EXPSET packet's values. The status is the first that is not OK. -/
def State.takeExpset (k : Packet) (x : Status × State) (c : Nat × Nat) : Status × State :=
  let s := x.2
  let n := pkCount k
  let (_, row, s) := s.peerRow c.1 c.2 (pkRed k)
  match s.planeWrite c.1 c.2 row (s.phase c.1 c.2) ((List.range n).map (fun i => (pkBlock k + i, signed 8 (pkByte k i)))) with
  | (.ok, s) =>
    let r := s.stepOf c.1 c.2
    let s := s.setStep c.1 c.2 { r with expset := (r.expset ++ (List.range n).map (fun i => (pkRed k, pkBlock k + i))).eraseDups }
    (x.1, s.fillFront c.1 c.2 (pkRed k) row)
  | (e, s) => (if x.1 = .ok then e else x.1, s)

/-- The effect of an EXPSET packet that has passed R179. -/
def State.matchExpset (s : State) (k : Packet) : State :=
  if s.expsetCtxs k = [] then s.reply k .timeout
  else State.endTake k ((s.expsetCtxs k).foldl (State.takeExpset k) (.ok, s))

/-! ### Gathering (R195) -/

/-- Whether a layer's next front copy is built wide: it is wide, and does not return to narrow at the commit (R124; DEDUCED, log entry
94). -/
def State.nextWide (s : State) (p l : Nat) : Bool := s.fld TEN_LAYER_STATE.WIDE p l = 1 && s.fld TEN_LAYER_CFG.NARROW p l = 0

/-- The area that a layer's next front copy is built in, where it is built wide (R124). -/
def State.wideArea (s : State) (p c l : Nat) : Option WideArea :=
  if s.nextWide p l then s.areaOf p c l else none

/-- The forward-copy entries of a context that expect GATHER. -/
def State.copies (s : State) (p c : Nat) : List Nat :=
  (s.validEntries p c).filter (fun e => s.ent BAT_REG_CTRL.KIND p e = 1 && s.fld BAT_REG_CTRL.FROZEN_ACTIVE p e = 0)

/-- The bytes of one tile of an entry's next front copy. -/
def State.copyTile (s : State) (p c e : Nat) : Nat :=
  if (s.wideArea p c (s.ent BAT_REG_ID.LAYER p e)).isSome then 16896 else tileBytes (s.ent BAT_REG_CTRL.FWD_FMT p e)

/-- The tiles of a layer's forward copy that lie in entries before e (R123): its index i runs over them in order. -/
def State.layerBase (s : State) (p c e : Nat) : Nat :=
  (((s.layerEntries p c (s.ent BAT_REG_ID.LAYER p e)).filter (fun d => d < e)).map (fun d => s.ent BAT_REG_LEN.TILES p d)).sum

/-- Bytes of entry e's next front copy are written from byte `off` on: into its back slot, or into the half of its layer's reserve that
becomes front (R124, R195). -/
def State.copyWrite (s : State) (w : Who) (p c e off : Nat) (bytes : List Byte) : Status × State :=
  match s.wideArea p c (s.ent BAT_REG_ID.LAYER p e) with
  | some a => s.wideWrite w a (1 - a.front) (s.layerBase p c e * 16896 + off) bytes
  | none => s.hbmWrite w (s.slotAddr p e (s.fld BAT_REG_SLOTS.BACK p e) + off) bytes

/-- Bytes of entry e's next front copy are read back. -/
def State.copyRead (s : State) (w : Who) (p c e off n : Nat) : Status × List Byte × State :=
  match s.wideArea p c (s.ent BAT_REG_ID.LAYER p e) with
  | some a => s.wideRead w a (1 - a.front) (s.layerBase p c e * 16896 + off) n
  | none => s.hbmRead w (s.slotAddr p e (s.fld BAT_REG_SLOTS.BACK p e) + off) n

/-- Whether an open pass holds the place that entry e's next front copy is built in: its back slot, or the half of its layer's reserve
(R124, R230). -/
def State.copyHeld (s : State) (p c e : Nat) : Bool :=
  match s.wideArea p c (s.ent BAT_REG_ID.LAYER p e) with
  | some a => s.passes.any (fun q => q.src = cidx p c && q.halves.contains (a.layer, 1 - a.front))
  | none => s.backHeld p e

/-- The bytes that a context's next front copies take. -/
def State.gatherTotal (s : State) (p c : Nat) : Nat :=
  ((s.copies p c).map (fun e => s.ent BAT_REG_LEN.TILES p e * s.copyTile p c e)).sum

/-- When the bytes counted for a step of a job on the device equal the total of all the job's contexts there, each gather knot of that step takes
1 (R195). -/
def State.gatherCheck (s : State) (job : Nat) : State :=
  let cs := s.ctxsOfJob job
  let total := (cs.map (fun c => s.gatherTotal c.1 c.2)).sum
  let opened := cs.filter (fun c => s.stepState c.1 c.2 ≠ 0)
  let got := fun c : Nat × Nat => ((opened.filter (fun d => s.reg .BAT_STEP_NUM d.1 d.2 = s.reg .BAT_STEP_NUM c.1 c.2)).map (fun d =>
    (s.stepOf d.1 d.2).gathered)).sum
  (opened.filter (fun c => got c = total && !(s.stepOf c.1 c.2).gatherDone)).foldl (fun s c =>
    (s.setStep c.1 c.2 { s.stepOf c.1 c.2 with gatherDone := true }).knotAdd c.1 (s.fld PART_CTX_GATHER.KNOT c.1 c.2) 1) s

/-- Bytes of entry e's next front copy are written and counted. The status is PROTECTION where the cards refuse them; `none` where
they overlap bytes already written in the step, and the fault report then names `dev`, which sent the bytes (R195, R199). -/
def State.gatherWrite (s : State) (w : Who) (dev p c e off : Nat) (bytes : List Byte) : Status × State :=
  let r := s.stepOf p c
  if r.written.any (fun x => x.1 = e && x.2.1 < off + bytes.length && off < x.2.1 + x.2.2) then
    let red := s.ent BAT_REG_ID.RED_ID p e
    (.veto, (s.redFault p dev 3 red 0 0 (s.reg .BAT_STEP_NUM p c)).vetoStep p c 3)
  else match s.copyWrite w p c e off bytes with
    | (.ok, s) => (.ok, s.setStep p c { r with written := (e, off, bytes.length) :: r.written, gathered := r.gathered + bytes.length })
    | (st, s) => (st, s)

/-- The parts of a run of an object's bytes that fall in an entry: offset in the entry's copy, and the bytes. -/
def State.gatherPart (s : State) (p c e arg : Nat) (payload : List Byte) : Nat × List Byte :=
  let b := s.ent BAT_REG_BASE.TILE p e * s.copyTile p c e
  let n := s.ent BAT_REG_LEN.TILES p e * s.copyTile p c e
  let lo := max arg b
  let hi := min (arg + payload.length) (b + n)
  (lo - b, ((payload.drop (lo - arg)).take (hi - lo)))

/-- Whether an open pass holds a slot that a GATHER packet would write (R230). `cs`: the contexts with copies of its RED_ID. -/
def State.gatherWaits (s : State) (cs : List (Nat × Nat)) (k : Packet) : Bool :=
  cs.any (fun c => (s.copies c.1 c.2).any (fun e => s.ent BAT_REG_ID.RED_ID c.1 e = pkRed k && s.copyHeld c.1 c.2 e
    && (s.gatherPart c.1 c.2 e (pkArg k) k.payload).2 ≠ []))

/-- The contexts of a GATHER packet's job with copies of its RED_ID. -/
def State.gatherCtxs (s : State) (k : Packet) : List (Nat × Nat) :=
  (s.ctxsOfJob (pkJob k)).filter (fun c => (s.copies c.1 c.2).any (fun e => s.ent BAT_REG_ID.RED_ID c.1 e = pkRed k))

/-- A context takes the parts of a GATHER packet that fall in its next front copies: the status, the bytes written and the state. -/
def State.takeGather (k : Packet) (x : Status × Nat × State) (c : Nat × Nat) : Status × Nat × State :=
  ((x.2.2.copies c.1 c.2).filter (fun e => x.2.2.ent BAT_REG_ID.RED_ID c.1 e = pkRed k)).foldl (fun x e =>
    let (off, bytes) := x.2.2.gatherPart c.1 c.2 e (pkArg k) k.payload
    if bytes = [] || x.1 ≠ .ok then x
    else
      let (st, s) := x.2.2.gatherWrite (.job 2 (pkJob k)) (pkSrc k) c.1 c.2 e off bytes
      (st, x.2.1 + (if st = .ok then bytes.length else 0), s)) x

/-- A GATHER packet's bytes have been taken: they are counted, the gather knot is looked at, and a refusal is answered (R195, R199). -/
def State.endGather (p : Nat) (k : Packet) (x : Status × Nat × State) : State :=
  let s := x.2.2.bump .RED_GATHER_BYTES p 0 x.2.1
  if x.1 = .ok then s.gatherCheck (pkJob k) else if x.1 = .veto then s else s.reply k x.1

/-- The effect of a GATHER packet that has passed R179. -/
def State.matchGather (s : State) (k : Packet) : State :=
  let cs := s.gatherCtxs k
  match cs with
  | [] => s.reply k .illegal
  | (p, c) :: _ =>
    let step := pkStep k
    let num := s.reg .BAT_STEP_NUM p c
    if num < step then s.holdPacket p c k
    else if step < num || s.stepState p c = 0 then s.reply k .timeout
    else if s.gatherWaits cs k then
      (s.bump .BAT_HANDOVER_WAITS p 0 1).holdPacket p c k
    else State.endGather p k (cs.foldl (State.takeGather k) (.ok, 0, s))

/-! ### Sending (R263, R288, R192) -/

/-- The operand of a send: first block, count and contributor ordinal. -/
structure SendArgs where
  first : Nat
  count : Nat
  ord : Nat
  fmt : Nat
  red : Nat
  src : Nat
  deriving DecidableEq, Repr

/-- Bytes of an element of a send's source. -/
def srcBytes (fmt : Nat) : Nat := if fmt = 8 then 2 else 4

/-- Element `i` of a send's source. -/
def srcElem (fmt : Nat) (b : List Byte) (i : Nat) : FVal :=
  let x := leNat ((b.drop (i * srcBytes fmt)).take (srcBytes fmt))
  if fmt = 8 then Fmt.bf16.decode x else if fmt = 9 then Fmt.fp32.decode x else Fmt.a24.decode (x % 2 ^ 24)

/-- The wire code of an element, and whether it saturated (R68). -/
def wireCode (v : FVal) (e : Int) (u : Nat) : Int × Bool :=
  if v.nonFinite then (-128, false)
  else
    let r := stochasticInt u ⟨v.dy.m, v.dy.e - e⟩
    if 127 < r then (127, true) else if r < -127 then (-127, true) else (r, false)

/-- The blocks from `first` on with their owners, in runs of one owner and at most `n` blocks: first block, count, owner. -/
def ownerRuns (owner : Nat → Nat) (n : Nat) (first count : Nat) : List (Nat × Nat × Nat) :=
  ((List.range count).foldl (fun (l : List (Nat × Nat × Nat)) i =>
    let b := first + i
    match l with
    | (f, k, o) :: t => if o = owner b && k < n then (f, k + 1, o) :: t else (b, 1, owner b) :: l
    | [] => [(b, 1, owner b)]) []).reverse

/-- One DROP of an ordinal to each owner of a RED_ID (R192, R288). -/
def State.sendDrops (s : State) (p c red ord mark op : Nat) : State :=
  (s.ownersOf p c red).foldl (fun s d =>
    s.sendPacket (newPacket (s.jobOf p c) d 2 (s.reg .BAT_STEP_NUM p c) red (s.epoch p) 0 (mark % 2 ^ 37 + ord * 2 ^ 37) 0 []) op 0) s

/-- The checks at issue that RSEND, RSCAN and RCALIB share, in the order of R263, R201 and R192. What their reads of HBM count, they count when
the operation starts (DESIGN CHOICE, log entry 133). -/
def State.sendCheck (s : State) (p c kind : Nat) (a : SendArgs) (sb sc : Nat) (kv : Bool) (knot : Nat) : Status :=
  if a.fmt ≠ 8 && a.fmt ≠ 9 && a.fmt ≠ 12 then .illegal
  else if bits sb 56 8 ≠ 0 || a.count = 0 || bits sc 16 48 ≠ 0 then .illegal
  else if kv && !s.ownsKnot p c knot then .protection
  else if kind ≠ 2 && s.stepState p c ≠ 1 then .illegal
  else if kind ≠ 1 && !(List.range a.count).all (fun i => (s.ownerOf p c a.red (a.first + i)).isSome) then .illegal
  else
    let (e, row, s) := s.peerRow p c a.red
    if e ≠ .ok then e
    else if kind = 0 && row.blocks < a.first + a.count then .illegal
    else if kind = 0 then
      match s.calibMarks p c row with
      | (.ok, m, _) =>
        if bit m (s.phase p c) then .illegal
        else if RED_POLICY.POISON.of (s.policy p c) = 1
            && !(s.stepOf p c).scans.any (fun x => x.red = a.red && x.ord = a.ord) then .illegal
        else if (s.keySet (s.jobOf p c)).isNone then .protection
        else .ok
      | (e, _, _) => e
    else if kind = 2 && (s.keySet (s.jobOf p c)).isNone then .protection
    else .ok

/-- Whether the RSENDs of a RED_ID are late in this step, decided when the first starts (R288). -/
def State.lateness (s : State) (p c red : Nat) : Bool × State :=
  let r := s.stepOf p c
  match r.lateness.find? (fun x => x.1 = red) with
  | some x => (x.2, s)
  | none =>
    let dl := s.reg .SCHED_CTX_SEND_DL p c
    let late := dl ≠ 0 && dl ≤ s.pick && s.fld SCHED_CTX_SEND_POL.POLICY p c = 1
    (late, s.setStep p c { r with lateness := (red, late) :: r.lateness })

/-- A send that sends no codes: one DROP of its ordinal goes to each owner of its RED_ID, once in a step (R192, R288). -/
def State.dropOnce (s : State) (p c : Nat) (a : SendArgs) (mark : Nat) (o : AsyncOp) : State :=
  let op := s.nextOp
  let r := s.stepOf p c
  let s := s.startAsync o
  if r.dropSent.contains (a.red, a.ord) then s
  else (s.setStep p c { r with dropSent := (a.red, a.ord) :: r.dropSent }).sendDrops p c a.red a.ord mark op

/-- RSEND starts: the operation, and the packets it sends (R68, R176, R192, R263, R288). -/
def State.rsend (s : State) (p c e : Nat) (a : SendArgs) (o : AsyncOp) : State :=
  let (_, row, s) := s.peerRow p c a.red
  let (_, _, s) := s.calibMarks p c row
  let (late, s) := s.lateness p c a.red
  let r := s.stepOf p c
  let op := s.nextOp
  if late then s.dropOnce p c a (2 ^ 37 - 1) { o with status := some .timeout }
  else match (if RED_POLICY.POISON.of (s.policy p c) = 1 then
      (r.scans.find? (fun x => x.red = a.red && x.ord = a.ord)).bind (fun x => x.first) else none) with
    | some g => s.dropOnce p c a g { o with status := some .poison }
    | none =>
      match s.readLoc p c (locOf e a.src) (32 * a.count * srcBytes a.fmt) with
      | (.ok, data, s) =>
        match s.planeRead p c row (s.phase p c) a.first a.count with
        | (.ok, es, s) =>
          let job := s.jobOf p c
          let step := s.reg .BAT_STEP_NUM p c
          let seed := s.seed job
          let codes := (List.range (32 * a.count)).map (fun i =>
            wireCode (srcElem a.fmt data i) (es.getD (i / 32) 0) (draw seed 3 r.pos (a.ord * 2 ^ 40 + 32 * a.first + i) % 65536))
          let sat := (codes.filter (fun x => x.2)).length
          let bytes := codes.map (fun x => BitVec.ofNat 8 (unsigned 8 x.1))
          let h := s.redH job step a.red
          let s := s.startAsync { o with status := if sat = 0 then none else some .saturated }
          let s := s.bump .RED_SEND_SATURATED p 0 sat
          (ownerRuns (fun b => (s.ownerOf p c a.red b).getD 0) 256 a.first a.count).foldl (fun s x =>
            let body := (bytes.drop (32 * (x.1 - a.first))).take (32 * x.2.1)
            s.sendPacket (newPacket job x.2.2 1 step a.red (s.epoch p) x.1 0 (reduceCheck h x.1 body) body) op 0) s
        | (st, _, s) => s.startAsync { o with status := some st }
      | (st, _, s) => s.startAsync { o with status := some st }

/-- RSCAN starts: the scan's outcome is held when it completes (R192). -/
def State.rscan (s : State) (p c e : Nat) (a : SendArgs) (o : AsyncOp) : State :=
  let (_, _, s) := s.peerRow p c a.red
  match s.readLoc p c (locOf e a.src) (32 * a.count * srcBytes a.fmt) with
  | (.ok, data, s) =>
    let first := ((List.range (32 * a.count)).find? (fun i => (srcElem a.fmt data i).nonFinite)).map (fun i => 32 * a.first + i)
    s.startAsync { o with work := .scan a.red a.ord first }
  | (st, _, s) => s.startAsync { o with work := .scan a.red a.ord none, status := some st }

/-- The calibration byte of a block (R185). -/
def calibByte (vs : List FVal) : Int :=
  match (vs.filter (fun v => !v.nonFinite && v.dy.m ≠ 0)).map (fun v => v.dy.abs) with
  | [] => -128
  | d :: t => max (-127) (min 127 ((t.foldl Dy.max d).clog2 - 5))

/-- RCALIB starts: CALIB bytes for the source's blocks go to their owners (R185). -/
def State.rcalib (s : State) (p c e : Nat) (a : SendArgs) (o : AsyncOp) : State :=
  let op := s.nextOp
  let (_, _, s) := s.peerRow p c a.red
  match s.readLoc p c (locOf e a.src) (32 * a.count * srcBytes a.fmt) with
  | (.ok, data, s) =>
    let bs := (List.range a.count).map (fun b =>
      BitVec.ofNat 8 (unsigned 8 (calibByte ((List.range 32).map (fun i => srcElem a.fmt data (32 * b + i))))))
    let s := s.startAsync o
    (ownerRuns (fun b => (s.ownerOf p c a.red b).getD 0) 8192 a.first a.count).foldl (fun s x =>
      let body := padUnits 0x80 ((bs.drop (x.1 - a.first)).take x.2.1)
      s.sendPacket (newPacket (s.jobOf p c) x.2.2 3 (s.reg .BAT_STEP_NUM p c) a.red (s.epoch p) x.1 x.2.1 0 body) op 0) s
  | (st, _, s) => s.startAsync { o with status := some st }

/-! ### Replies (R181, R188, R263) -/

/-- A sent packet is sent again, under a new SEQ. -/
def State.resend (s : State) (x : Sent) (k : Packet) (fails : Nat) : State :=
  ({ s with sent := s.sent.filter (fun y => !(y.seq = x.seq && y.job = x.job)) }).sendPacket k x.op fails

/-- A bounced packet's blocks go to the owners that the new table names, one packet for each (R188). CHECKSUM replies go on counting for the
same first block and owner alone (R181). -/
def State.rebounce (s : State) (x : Sent) : State :=
  match s.async x.op with
  | none => { s with sent := s.sent.filter (fun y => !(y.seq = x.seq && y.job = x.job)) }
  | some o =>
    let k := x.pk
    let p := o.part
    let s := { s with sent := s.sent.filter (fun y => !(y.seq = x.seq && y.job = x.job)) }
    let h := s.redH (pkJob k) (pkStep k) (pkRed k)
    if pkType k = 2 then
      s.sendPacket (newPacket (pkJob k) (pkDst k) 2 (pkStep k) (pkRed k) (s.epoch p) 0 (pkArg k) 0 []) x.op x.fails
    else
      (ownerRuns (fun b => (s.ownerOf p o.ctx (pkRed k) b).getD (pkDst k)) 8192 (pkBlock k) (pkBlocks k)).foldl (fun s r =>
        let u := if pkType k = 1 then 32 else 1
        let body := (k.payload.drop (u * (r.1 - pkBlock k))).take (u * r.2.1)
        let body := if pkType k = 1 then body else padUnits 0x80 body
        s.sendPacket (newPacket (pkJob k) r.2.2 (pkType k) (pkStep k) (pkRed k) (s.epoch p) r.1
          (if pkType k = 1 then 0 else r.2.1) (if pkType k = 1 then reduceCheck h r.1 body else 0) body) x.op
          (if r.1 = pkBlock k && r.2.2 = pkDst k then x.fails else 0)) s

/-- The bounced packets whose sender's table has switched are sent again. -/
def State.resendBounced (s : State) (p : Nat) : State :=
  (s.sent.filter (fun x => x.bounced)).foldl (fun s x =>
    match s.async x.op with
    | some o => if o.part = p then s.rebounce x else s
    | none => s) s

/-- A status reaches an operation: the first that is no OK, SATURATED or POISON stays (R263). -/
def State.opStatus (s : State) (id : Nat) (st : Status) : State :=
  { s with asyncs := s.asyncs.map (fun o => if o.id = id && (o.status.getD .ok).good then { o with status := some st } else o) }

/-- A STATUS packet that has passed R179 resolves the packet it answers. -/
def State.matchStatus (s : State) (k : Packet) : State :=
  match s.sent.find? (fun x => x.seq = pkArg k && x.job = pkJob k) with
  | none => s
  | some x =>
    let st := Status.ofCode (pkBlock k)
    let t := pkType x.pk
    let gone := { s with sent := s.sent.filter (fun y => !(y.seq = x.seq && y.job = x.job)) }
    if st = .checksum && (t = 1 || t = 3 || t = 5) then
      if x.fails < 2 then s.resend x x.pk (x.fails + 1)
      else
        let s := gone.opStatus x.op .checksum
        match s.async x.op with
        | some o => (s.alarm 0x25).vetoStep o.part o.ctx 3
        | none => (s.openCtxs (pkJob x.pk) (pkStep x.pk)).foldl (fun s c => s.vetoStep c.1 c.2 3) (s.alarm 0x25)
    else if st = .epoch && (t = 1 || t = 2 || t = 3) then
      match s.async x.op with
      | some o =>
        if newer (s.epoch o.part) (pkEpoch x.pk) then s.rebounce x
        else { s with sent := s.sent.map (fun y => if y.seq = x.seq && y.job = x.job then { y with bounced := true } else y) }
      | none => gone
    else if t = 6 then
      match gone.async x.op with
      | some o => gone.endAsync o st (decide (st = Status.ok))
      | none => gone
    else gone.opStatus x.op st

/-! ### The commands -/

/-- STATUS (R178). -/
def execStatusPacket (pk : Packet) (s : State) : Host.Outcome State Fault Refusal :=
  let k := asType 0 pk
  .next (s.receive k (fun s => s.matchStatus k))

/-- REDUCE (R189). -/
def execReduce (pk : Packet) (s : State) : Host.Outcome State Fault Refusal :=
  let k := asType 1 pk
  .next (s.receive k (fun s => s.matchRed k))

/-- DROP (R193). -/
def execDrop (pk : Packet) (s : State) : Host.Outcome State Fault Refusal :=
  let k := asType 2 pk
  .next (s.receive k (fun s => s.matchRed k))

/-- CALIB (R185). -/
def execCalib (pk : Packet) (s : State) : Host.Outcome State Fault Refusal :=
  let k := asType 3 pk
  .next (s.receive k (fun s => s.matchRed k))

/-- EXPMAX (R184). -/
def execExpmax (pk : Packet) (s : State) : Host.Outcome State Fault Refusal :=
  let k := asType 4 pk
  .next (s.receive k (fun s => s.matchExpmax k))

/-- EXPSET (R185). -/
def execExpset (pk : Packet) (s : State) : Host.Outcome State Fault Refusal :=
  let k := asType 7 pk
  .next (s.receive k (fun s => s.matchExpset k))

/-- GATHER (R195). -/
def execGather (pk : Packet) (s : State) : Host.Outcome State Fault Refusal :=
  let k := asType 5 pk
  .next (s.receive k (fun s => s.matchGather k))

/-- A KNOT packet with OP 0x0 that has passed R179 (R278). -/
def State.remoteAdd (s : State) (k : Packet) : State :=
  let a := pkArg k
  let p := bits a 11 3
  let i := bits a 0 11
  if s.fld KNOT_CFG.OWNED p i = 1 && s.jobOf p (s.fld KNOT_CFG.CTX p i) = pkJob k && s.fld KNOT_CFG.REMOTE p i = 1 then
    s.knotAdd p i (bits a 32 32)
  else s.reply k .protection

/-- REMOTE_KNOT_ADD (R278). -/
def execRemoteKnotAdd (pk : Packet) (s : State) : Host.Outcome State Fault Refusal :=
  let k := asKnot 0 pk
  .next (s.receive k (fun s => s.remoteAdd k))

/-- A write of RED_SLOT_CTRL through partition p (R182, R186, R198): OP is written while the slot is FREE; CMD 0x1 opens it and 0x2
releases it. A slot of another partition is not there (R14). -/
def State.writeSlotCtrl (s : State) (p slot v : Nat) : State :=
  match s.slotOwner slot with
  | some (q, c) =>
    if q = p then
      let s := if s.fld RED_SLOT_CTRL.STATE slot 0 = 0 then s.setFld RED_SLOT_CTRL.OP slot 0 (bits v 2 1) else s
      if v % 4 = 1 then (s.openSlot p c slot).2 else if v % 4 = 2 then (s.releaseSlot p slot).2 else s
    else s
  | none => s

/-- SLOT_OPEN (R182): a write of RED_SLOT_CTRL with CMD 0x1. -/
def execSlotOpen (bar : Bar) (slot : Fin 4096) (v : W32) (s : State) : Host.Outcome State Fault Refusal :=
  .next (s.viaPhysical bar (fun p => s.writeSlotCtrl p slot.val (setBits v.toNat 0 2 1)))

/-- SLOT_CLEAR_COMPLETE (R182): packets held for the slot are matched, and a slot whose window has closed enters CLOSING. -/
def execSlotClearComplete (slot : Fin 4096) (s : State) : Host.Outcome State Fault Refusal :=
  let t := slot.val
  .next (match s.slotOwner t with
    | some (p, c) =>
      if (s.slot t).clearing then
        let s := s.setSlot t { s.slot t with clearing := false }
        if s.windowClosed p t then s.closeSlot p c t else s.rematch p c
      else s
    | none => s)

/-- SLOT_RELEASE (R186): a write of RED_SLOT_CTRL with CMD 0x2. -/
def execSlotRelease (bar : Bar) (slot : Fin 4096) (v : W32) (s : State) : Host.Outcome State Fault Refusal :=
  .next (s.viaPhysical bar (fun p => s.writeSlotCtrl p slot.val (setBits v.toNat 0 2 2)))

/-- SUM_CHECK_COMPLETE (R183). -/
def execSumCheckComplete (slot : Fin 4096) (s : State) : Host.Outcome State Fault Refusal := .next (s.sumCheck slot.val)

/-- Whether a held packet need wait no longer (R190, R195). -/
def State.heldDue (s : State) (h : Held) : Bool :=
  if pkType h.pk = 5 then
    let num := s.reg .BAT_STEP_NUM h.part h.ctx
    pkStep h.pk < num || (pkStep h.pk = num && !s.gatherWaits (s.gatherCtxs h.pk) h.pk)
  else s.verdict h.part h.ctx h.pk (some h.since) ≠ .hold

/-- HOLD_RELEASE (R190): the held packet that came first of those that need wait no longer leaves the hold. -/
def execHoldRelease (s : State) : Host.Outcome State Fault Refusal :=
  .next (match s.heldPackets.find? s.heldDue with
    | some h =>
      if pkType h.pk = 5 then ({ s with heldPackets := s.heldPackets.erase h }).matchGather h.pk else s.release1 h
    | none => s)

/-- HOLD_TIMEOUT (R190): the n-th held packet, if it has been held too long, is answered. -/
def execHoldTimeout (n : Nat) (s : State) : Host.Outcome State Fault Refusal :=
  .next (match s.heldPackets[n]? with
    | some h =>
      if RED_POLICY.HOLD_PICKS.of (s.policy h.part h.ctx) < s.pick - h.since then
        ({ s with heldPackets := s.heldPackets.erase h }).answerHeld h.part h.pk
      else s
    | none => s)

/-- REPLY_WINDOW_EXPIRY (R263): a packet that no STATUS has answered is resolved for its sender. -/
def execReplyWindowExpiry (seq : W64) (s : State) : Host.Outcome State Fault Refusal :=
  .next (match s.sent.find? (fun x => x.seq = seq.toNat && !x.bounced && pkType x.pk ≠ 6) with
    | some x => { s with sent := s.sent.erase x }
    | none => s)

/-- The reduction counters in the order of R200. -/
def redCounters : List RegName :=
  [.RED_RX_PACKETS, .RED_RX_BLOCKS, .RED_CHECK_FAIL, .RED_SUM_FAIL, .RED_HELD, .RED_BOUNCE_EPOCH, .RED_LATE, .RED_DISCARD,
   .RED_POISON_CODES, .RED_DROPS, .RED_SEND_SATURATED, .RED_MAX127, .RED_GATHER_BYTES]

/-- RED_COUNTER_CLEAR (R200). -/
def execRedCounterClear (bar : Bar) (v : W32) (s : State) : Host.Outcome State Fault Refusal :=
  .next (s.viaPhysical bar (fun p => s.clearSelected redCounters p v.toNat))

/-- A write of SCHED_WIN_CLOSE (R286): the close pick takes effect at once and CLOSED clears. A pick that has begun takes effect at the
next pick boundary. -/
def State.writeClose (s : State) (p w v : Nat) : State := (s.setReg .SCHED_WIN_CLOSE p w v).setFld SCHED_WIN_STATUS.CLOSED p w 0

/-- WINDOW_CLOSE_WRITE (R286). -/
def execWindowCloseWrite (bar : Bar) (w : Fin 4096) (v : W64) (s : State) : Host.Outcome State Fault Refusal :=
  .next (s.viaPhysical bar (fun p => s.writeClose p w.val v.toNat))

end Sys2Proof.Machine
end

