-- ==== Sys2Proof/Machine/Tension.lean ====
section
/-! DEFINITION. The tension monitor's evaluation at a micro-step's close (R120 to R123, R155, R156), widening, and the opening of a
micro-step (R285). -/

namespace Sys2Proof.Machine
open Sys2Proof

/-! ### Widening (R123, R124) -/

/-- The units of a context's reserve that its layers hold, as runs. -/
def State.reserveTaken (s : State) (p c : Nat) : List (Nat × Nat) :=
  (s.wideAreas.filter (fun w => w.part = p && w.ctx = c && !w.gone)).flatMap (·.units)

/-- How many units are free from unit `o` on, over runs that are taken in a reserve of `size` units. -/
def freeFrom (taken : List (Nat × Nat)) (size o : Nat) : Nat :=
  if taken.any (fun r => r.1 ≤ o && o < r.1 + r.2) then 0
  else ((taken.filter (fun r => o < r.1)).map (·.1)).foldl min size - o

/-- `need` units of the free ones, as runs: every free run begins at the start of the reserve or after a taken one. -/
def takeFree (taken : List (Nat × Nat)) (size need : Nat) : List (Nat × Nat) :=
  ((0 :: taken.map (fun r => r.1 + r.2)).eraseDups.foldl (fun (x : Nat × List (Nat × Nat)) o =>
    let n := min x.1 (freeFrom taken size o)
    if n = 0 then x else (x.1 - n, x.2 ++ [(o, n)])) (need, [])).2

/-- A layer is widened: its reserve is taken and its copy is to be packed, or it falls short (R123). The flag says that it fell short.
A layer that is wide, pending or sensitive stays as it is. -/
def State.widen (s : State) (p c l : Nat) : Bool × State :=
  if s.fld TEN_LAYER_CFG.SENSITIVE p l = 1 || s.fld TEN_LAYER_STATE.WIDE p l = 1 || s.fld TEN_LAYER_STATE.WIDE_PENDING p l = 1 then
    (false, s)
  else
    let u := wideUnits (s.layerTiles p c l)
    let used := s.fld TEN_CTX_RESV_USED.USED p c
    let size := s.fld TEN_CTX_RESV_SIZE.SIZE p c
    if used + u ≤ size then
      let area : WideArea := ⟨p, c, l, takeFree (s.reserveTaken p c) size u, 0, false⟩
      let s := (s.setFld TEN_LAYER_STATE.WIDE_PENDING p l 1).setFld TEN_CTX_RESV_USED.USED p c (used + u)
      (false, { s with wideAreas := s.wideAreas.filter (fun w => !(w.part = p && w.ctx = c && w.layer = l)) ++ [area] })
    else
      let s := s.setFld TEN_LAYER_STATE.SHORT p l 1
      (true, (s.logRec p 0x0100 p (leBytes 2 l ++ leBytes 4 (max 1 (used + u - size)))).alarm 0x20)

/-- The shard entry of a job on the device that holds a tile of a RED_ID (R123). -/
def State.shardOf (s : State) (job red tile : Nat) : Option (Nat × Nat × Nat) :=
  ((s.ctxsOfJob job).flatMap (fun c => (s.validEntries c.1 c.2).map (fun e => (c.1, c.2, e)))).find? (fun x =>
    s.ent BAT_REG_CTRL.KIND x.1 x.2.2 = 0 && s.ent BAT_REG_ID.RED_ID x.1 x.2.2 = red && s.ent BAT_REG_BASE.TILE x.1 x.2.2 ≤ tile
      && tile < s.ent BAT_REG_BASE.TILE x.1 x.2.2 + s.ent BAT_REG_LEN.TILES x.1 x.2.2)

/-- Row r of a tile of BF16 master weights. -/
def bf16Row (b : List Byte) (r : Nat) : Array FVal :=
  ((List.range 128).map (fun k => Fmt.bf16.decode (leNat ((b.drop (2 * (128 * r + k))).take 2)))).toArray

/-- The batten's packing path loads a tile of a forward copy: its K groups are checked, row by row, and the first that is not well formed ends
what it was loaded for, is counted, and is recorded with ENGINE 63 (R54, R92, R97). -/
def State.battenLoad (s : State) (p f : Nat) (t : Tile) : Bool × State :=
  match (if isK f then (List.range 128).find? (fun r => !t.groupOk f r) else none) with
  | some r => (false, (s.bump .CNV_ILLEGAL p 0 1).post (.fault p (faultWord 63 r (groupFault t f r))))
  | none => (true, s)

/-- The rows of tile t of forward-copy entry e, as a widened copy takes them: the front master weights where the device owns the tile,
else the front forward copy (R123). ILLEGAL: a group of it is not well formed. -/
def State.wideRows (s : State) (p c e t : Nat) : Status × List (Array FVal) × State :=
  let tile := s.ent BAT_REG_BASE.TILE p e + t
  match s.shardOf (s.jobOf p c) (s.ent BAT_REG_ID.RED_ID p e) tile with
  | some (q, d, x) =>
    let a := s.slotAddr q x (s.fld BAT_REG_SLOTS.FRONT q x) + 32768 * (tile - s.ent BAT_REG_BASE.TILE q x)
    match s.hbmRead (.ctx 1 q d) a 32768 with
    | (.ok, b, s) => (.ok, (List.range 128).map (bf16Row b), s)
    | (e, _, s) => (e, [], s)
  | none =>
    let f := s.ent BAT_REG_CTRL.FWD_FMT p e
    let a := s.slotAddr p e (s.fld BAT_REG_SLOTS.FRONT p e) + t * tileBytes f
    match s.hbmRead (.ctx 1 p c) a (tileBytes f) with
    | (.ok, b, s) =>
      let tl : Tile := b.toArray
      let (ok, s) := s.battenLoad p f tl
      if ok then (.ok, (List.range 128).map (fun r => ((List.range 128).map (fun k => tl.val f r k)).toArray), s) else (.illegal, [], s)
    | (e, _, s) => (e, [], s)

/-- A tile packed into `f`, as bytes of the tile's image. -/
def tileImage (f : Nat) (rows : List PackedRow) : List Byte :=
  let pieces := (rows.zipIdx).flatMap (fun x => rowPieces f x.2 x.1.codes x.1.scales x.1.entries) ++ padPieces f
  let m : SMap Byte := pieces.foldl (fun m b => writeBytes m b.1 b.2) []
  readBytes m 0 (tileBytes f)

/-- The widened copy of a layer is packed into the front half of its area (R123). -/
def State.packWide (s : State) (w : WideArea) : Status × State :=
  ((s.layerTileList w.part w.ctx w.layer).zipIdx).foldl (fun x t =>
    match x with
    | (.ok, s) =>
      match s.wideRows w.part w.ctx t.1.1 t.1.2 with
      | (.ok, rows, s) =>
        let packed := rows.map (packMX fE4M3)
        let s := (packPosts w.part w.layer (s.cnvSettings w.part).2 packed).foldl State.post s
        s.wideWrite (.ctx 1 w.part w.ctx) w w.front (16896 * t.2) (tileImage fE4M3 packed)
      | (e, _, s) => (e, s)
    | x => x) (.ok, s)

/-- The widening that a commit's union asked for, rather than one decided since: it was pending at the last commit (R124, R125). -/
def State.unionPending (s : State) (p c l : Nat) : Bool :=
  TEN_LAYER_STATE.WIDE_PENDING.of (((SMap.find (s.stepOf p c).saved (regKey .TEN_LAYER_STATE p l)).map BitVec.toNat).getD 0) = 1

/-- A layer's copy is packed, and the layer is wide (R123, R124). A widening that the last commit's union asked for holds for the generating
contexts too from here on; one decided since waits for its commit (R116, R117). -/
def State.widened (s : State) (w : WideArea) : State :=
  let s := (s.setFld TEN_LAYER_STATE.WIDE w.part w.layer 1).setFld TEN_LAYER_STATE.WIDE_PENDING w.part w.layer 0
  let s := (s.bump .TEN_FWD_WIDEN w.part 0 1).alarm 0x22
  if s.unionPending w.part w.ctx w.layer then
    let r := s.stepOf w.part w.ctx
    s.followWide w.part w.ctx (w.layer :: r.committedWide)
  else s

/-- WIDEN_COPY_COMPLETE (R123): the copy is complete and the layer runs wide from the first micro-step that opens after it. A layer that has
become sensitive is not widened, and its reserve returns (R118; DEDUCED, log entry 113). A group of its forward copy that is not well formed
leaves the widening pending (R54; DESIGN CHOICE, log entry 111), and a failed read or write vetoes (R304). -/
def execWidenCopyComplete (p : Fin 8) (layer : Fin 4096) (s : State) : Host.Outcome State Fault Refusal :=
  .next (match s.wideAreas.find? (fun w => w.part = p.val && w.layer = layer.val && !w.gone) with
    | none => s
    | some w =>
      if s.fld TEN_LAYER_STATE.WIDE_PENDING p.val layer.val = 0 then s
      else if s.fld TEN_LAYER_CFG.SENSITIVE p.val layer.val = 1 then
        (s.setFld TEN_LAYER_STATE.WIDE_PENDING p.val layer.val 0).releaseWide w.part w.ctx w.layer false
      else
        match s.packWide w with
        | (.ok, s) => s.widened w
        | (.illegal, s) => s
        | (_, s) => s.vetoStep w.part w.ctx 4)

/-! ### The evaluation (R120, R121, R155, R156) -/

/-- The key of a layer's watch. -/
def watchKey (grad : Bool) (p l : Nat) : Nat := (p * 4096 + l) * 2 + b2n grad

/-- The FP32 mean square of a layer's watched outputs. -/
def State.meanSquare (s : State) (grad : Bool) (p l : Nat) : Nat × State :=
  let (sum, n, above) := SMap.get (⟨0, 0⟩, 0, 0) s.tension (watchKey grad p l)
  if above ≠ 0 then (let (v, s) := s.fresh; (v % 2 ^ 32, s))
  else if n = 0 || sum.m = 0 then (0, s)
  else ((Fmt.fp32.roundMag true .tiesToEven false (Mag.ofDiv sum ⟨n, 0⟩)).1, s)

/-- Whether a norm jumps from its reference: J not 0, the reference not 0, and the norm beyond 2^J times it, or below it divided by
2^J. -/
def jumps (norm ref j : Nat) : Bool :=
  let r := Fmt.fp32.decode ref
  let v := Fmt.fp32.decode norm
  !(j = 0 || r.isZero) && ((r.scale2 j).ltNum v || v.ltNum (r.scale2 (-(j : Int))))

/-- What an evaluation asks for a layer. -/
structure Verdicts where
  fwdVeto : Bool
  bwdVeto : Bool
  widen : Bool
  deriving DecidableEq, Repr

/-- One layer is evaluated: its norms, references, jumps and counts, and the actions that they call for (R121, R122, R156). Outside an open step
a veto action acts as 0x0 (R450). -/
def State.evalLayer (s : State) (p c l : Nat) : Verdicts × State :=
  let gc := s.gcfg p c l
  let (fn, s) := s.meanSquare false p l
  let (gn, s) := s.meanSquare true p l
  let fj := jumps fn (s.reg .TEN_LAYER_FREF p l) (s.fld TEN_LAYER_CFG.JUMP_LOG2 p l)
  let gj := jumps gn (s.reg .TEN_LAYER_GREF p l) (TEN_LAYER_GCFG.GJUMP_LOG2.of gc)
  let ovf := s.fld TEN_LAYER_CFG.WIDEN_TILES p l < s.fld TEN_LAYER_STATE.OVF_TILES p l
  let nf := 0 < s.fld TEN_LAYER_GSTATE.NF p l
  let acts := (if fj then [s.fld TEN_LAYER_CFG.JUMP_ACTION p l] else []) ++ (if ovf then [s.fld TEN_LAYER_CFG.OVF_ACTION p l] else [])
  let gjact := if gj then TEN_LAYER_GCFG.GJUMP_ACTION.of gc else 0
  let nfact := if nf then TEN_LAYER_GCFG.NF_ACTION.of gc else 0
  let s := (s.setReg .TEN_LAYER_FNORM p l fn).setReg .TEN_LAYER_GNORM p l gn
  let s := if fj then (s.bumpFld TEN_LAYER_STATE.JUMPS p l 1).bump .TEN_FWD_JUMPS p 0 1 else s.setReg .TEN_LAYER_FREF p l fn
  let s := if gj then (s.bumpFld TEN_LAYER_GSTATE.GJUMPS p l 1).bump .TEN_BWD_JUMPS p 0 1 else s.setReg .TEN_LAYER_GREF p l gn
  let s := (s.setFld TEN_LAYER_STATE.OVF_TILES p l 0).setFld TEN_LAYER_GSTATE.NF p l 0
  let s := { s with tension := SMap.erase (SMap.erase s.tension (watchKey false p l)) (watchKey true p l) }
  let inert := s.role p c = 1 || s.fld TEN_LAYER_CFG.SENSITIVE p l = 1
  let vetoes := !inert && s.stepState p c = 1
  let fv := vetoes && acts.contains 2
  let bv := vetoes && (gjact = 2 || nfact = 2)
  (⟨fv, bv, !inert && !fv && !bv && (acts.contains 1 || gjact = 1)⟩, s)

/-- The evaluation of every layer of a context at a micro-step's close; widenings follow in order, and one veto at the end. -/
def State.evaluate (s : State) (p c : Nat) : State :=
  let (vs, s) := (s.layersOf p c).foldl (fun (x : List (Nat × Verdicts) × State) l =>
    let (v, s) := x.2.evalLayer p c l
    (x.1 ++ [(l, v)], s)) ([], s)
  let (short, s) := (vs.filter (fun v => v.2.widen)).foldl (fun (x : Bool × State) v =>
    let (b, s) := x.2.widen p c v.1
    (x.1 || b, s)) (false, s)
  let s := if s.nfRose.contains p then { (s.alarm 0x23) with nfRose := s.nfRose.filter (fun q => q ≠ p) } else s
  let fv := short || vs.any (fun v => v.2.fwdVeto)
  let bv := vs.any (fun v => v.2.bwdVeto)
  if s.stepState p c = 1 && (fv || bv) then
    let s := if fv then s.bump .TEN_FWD_VETOES p 0 1 else s
    let s := if bv then s.bump .TEN_BWD_VETOES p 0 1 else s
    (s.alarm 0x21).vetoStep p c 2
  else s

/-! ### Micro-steps -/

/-- A micro-step opens: the wide layers, the gradient-side configuration and the cursor it runs with are taken; a locked training
context that runs a layer wide before its commit breaks the lock (R117, R123, R158). -/
def State.openMicro (s : State) (p c : Nat) : State :=
  let ls := s.layersOf p c
  let wide := ls.filter (fun l => s.fld TEN_LAYER_STATE.WIDE p l = 1)
  let r := s.stepOf p c
  let s := (wide.filter (fun l => !r.wideNow.contains l && !r.committedWide.contains l)).foldl (fun s l =>
    if s.role p c ≠ 1 && s.fld TEN_CTX_LOCK.LOCK_ACTIVE p c = 1 then
      (s.setFld TEN_LAYER_STATE.LOCK_BROKEN p l 1).bump .TEN_FWD_LOCK_BREAKS p 0 1
    else s) s
  s.setStep p c { r with microPos := s.reg .BAT_CURSOR_PROV p c, microOpen := true, wideNow := wide,
                         gcfg := (ls.map (fun l => (l, BitVec.ofNat 64 (s.reg .TEN_LAYER_GCFG p l)))) }

/-- The context's micro-step closes, is evaluated, and the next opens (R285). -/
def State.closeMicro (s : State) (p c : Nat) : State := (s.evaluate p c).openMicro p c

/-! ### The commands -/

/-- Whether the layers of a function's contexts include a layer (R119). -/
def State.layerSeen (s : State) (p l : Nat) : Bool := (s.ctxsOfPart p).any (fun c => (s.layersOf p c).contains l)

/-- A write of a reference norm (R130): a value that is non-finite or negative is stored as 0. A layer of no context of the partition is
not there (R119). -/
def State.writeReference (s : State) (p layer : Nat) (grad : Bool) (v : Nat) : State :=
  if s.layerSeen p layer then
    let x := Fmt.fp32.decode v
    s.setReg (if grad then .TEN_LAYER_GREF else .TEN_LAYER_FREF) p layer (if x.nonFinite || x.sign then 0 else v)
  else s

/-- TEN_REFERENCE_WRITE (R130). -/
def execTenReferenceWrite (bar : Bar) (layer : Fin 4096) (grad : Bool) (v : W32) (s : State) : Host.Outcome State Fault Refusal :=
  .next (s.viaPhysical bar (fun p => s.writeReference p layer.val grad v.toNat))

/-- The forward-side counters in the order of R132. -/
def fwdCounters : List RegName :=
  [.TEN_FWD_NONFINITE, .TEN_FWD_JUMPS, .TEN_FWD_WIDEN, .TEN_FWD_VETOES, .TEN_FWD_LOCK_BREAKS, .TEN_FWD_WIDE_BYPASS]

/-- TEN_FWD_COUNTER_CLEAR (R132). -/
def execTenFwdCounterClear (bar : Bar) (v : W32) (s : State) : Host.Outcome State Fault Refusal :=
  .next (s.viaPhysical bar (fun p => s.clearSelected fwdCounters p v.toNat))

/-- The gradient-side counters in the order of R162. -/
def bwdCounters : List RegName :=
  [.TEN_BWD_NONFINITE, .TEN_BWD_JUMPS, .TEN_BWD_VETOES, .TEN_BWD_WGRAD_SKIPPED, .TEN_A24_OVF, .TEN_MX_RANGE, .TEN_BWD_RT_ILLEGAL]

/-- TEN_BWD_COUNTER_CLEAR (R162). -/
def execTenBwdCounterClear (bar : Bar) (v : W32) (s : State) : Host.Outcome State Fault Refusal :=
  .next (s.viaPhysical bar (fun p => s.clearSelected bwdCounters p v.toNat))

end Sys2Proof.Machine
end

