-- ==== Sys2Proof/Machine/Mirror.lean ====
section
/-! DEFINITION. Mirroring: what a context streams to its twin at a commit (R343 to R345, R353), and what the twin stores and folds
(R345, R347). -/

namespace Sys2Proof.Machine
open Sys2Proof

/-! ### The context record (R353) -/

/-- The queues of a context's run. -/
def State.queueRun (s : State) (p c : Nat) : List Nat :=
  (List.range (s.fld PART_CTX_QUEUES.COUNT p c)).map (fun i => s.fld PART_CTX_QUEUES.BASE p c + i)

/-- The knots of a context's run (R277). -/
def State.knotRun (s : State) (p c : Nat) : List Nat :=
  ((List.range (s.fld PART_CTX_KNOTS.COUNT p c)).map (fun i => s.fld PART_CTX_KNOTS.BASE p c + i)).filter (· < 2048)

/-- The 16 KiB record of a context. -/
def State.ctxRecord (s : State) (p c : Nat) : List Byte :=
  let table := (List.range 16).flatMap (fun i => leBytes 4 (s.reg .SNAP_STREAM_ID p (c * 16 + i))
    ++ leBytes 4 (s.reg .SNAP_STREAM_DRAWS p (c * 16 + i)) ++ leBytes 8 (s.reg .SNAP_STREAM_POS p (c * 16 + i)))
  let qs := (s.queuesOf p c).flatMap (fun q => leBytes 8 (s.reg .Q_CFG_CTRL p q) ++ leBytes 8 (s.reg .Q_CFG_RING p q)
    ++ leBytes 8 (s.reg .Q_CFG_CPL p q) ++ leBytes 8 0)
  let ks := (s.knotRun p c).flatMap (fun k => leBytes 4 (s.reg .KNOT_COUNT p k))
  leBytes 8 (s.reg .BAT_COMMIT_COUNT p c) ++ leBytes 8 (s.reg .BAT_CURSOR_COMMITTED p c) ++ leBytes 8 (s.reg .SNAP_PREV_CURSOR p c)
    ++ leBytes 4 (s.reg .BAT_STEP_NUM p c) ++ leBytes 4 0
    ++ toLen 256 (if s.fld SNAP_CTX_CFG.LEAD p c = 1 then table else [])
    ++ toLen 4096 qs ++ toLen 8192 ks ++ List.replicate 3808 0

/-! ### The sender (R344, R345) -/

/-- Word 2 of a selvage header: the sender's entry, context and partition (R339). -/
def selvWord (p c e : Nat) : Nat := e + c * 2 ^ 16 + p * 2 ^ 22

/-- Whether an entry of a mirrored context is mirrored: a valid shard in three-slot mode that is not asked out (R343, R362). -/
def State.mirrored (s : State) (p e : Nat) : Bool :=
  s.fld BAT_REG_CTRL.VALID p e = 1 && s.ent BAT_REG_CTRL.KIND p e = 0 && s.ent BAT_REG_CTRL.SLOTS p e = 1
    && s.fld SNAP_ENTRY.METHOD_REQ p e ≠ 3

/-- The 4 KiB units of a shard's image that differ between two of its physical slots. -/
def State.changedUnits (s : State) (p e a b : Nat) : List Nat :=
  let n := s.slotBytes p e
  (List.range (ceilDiv n 4096)).filter (fun i =>
    let m := min 4096 (n - 4096 * i)
    readBytes s.hbm (s.slotAddr p e a + 4096 * i) m ≠ readBytes s.hbm (s.slotAddr p e b + 4096 * i) m)

/-- RATE after a commit that changed x of 256ths of an entry (R344). -/
def nextRate (rate x : Nat) : Nat := ((rate : Int) + Int.fdiv ((x : Int) - rate) 8).toNat

/-- What an entry sends: nothing, its whole image as MIRROR data, or units as DELTA. -/
inductive Sending where
  | nothing
  | image
  | units (l : List Nat)
  deriving DecidableEq, Repr

/-- RATE and METHOD of an entry follow a commit, in which its front slot was `old` before (R344); and what it sends. -/
def State.decideMethod (s : State) (p c e old : Nat) (full : Bool) : Sending × State :=
  if !s.mirrored p e then (.nothing, s.setFld SNAP_ENTRY.METHOD p e 3)
  else
    let n := s.slotBytes p e
    let all := ceilDiv n 4096
    let front := s.fld BAT_REG_SLOTS.FRONT p e
    let ch := if front = old then [] else s.changedUnits p e old front
    let rate := nextRate (s.fld SNAP_ENTRY.RATE p e) (256 * ch.length / all)
    let req := s.fld SNAP_ENTRY.METHOD_REQ p e
    let again := s.mirrorFull.contains (p * 4096 + e)
    let m := if again then 1 else if req = 1 || req = 2 then req
      else if s.fld BAT_REG_CTRL.FROZEN_ACTIVE p e = 1
          || (s.fld SNAP_AUTO.MIN_UNITS p c * 65536 ≤ n && rate ≤ s.fld SNAP_AUTO.RATE_MAX p c) then 2
      else 1
    let was := s.fld SNAP_ENTRY.METHOD p e
    let s := (s.setFld SNAP_ENTRY.RATE p e rate).setFld SNAP_ENTRY.METHOD p e m
    if again then
      (.image, { s with mirrorFull := s.mirrorFull.filter (fun x => x ≠ p * 4096 + e) })
    else if m = 1 then (.image, s)
    else (.units (if full || was ≠ m then List.range all else ch), s)

/-- Bytes of an entry's front slot go out as packets of a type; the count of payload bytes rises (R345). A part that the selvage
agent cannot read is not sent (DEDUCED, log entry 31). -/
def State.sendPart (s : State) (p c e type off n sent : Nat) : Nat × State :=
  let job := s.jobOf p c
  match s.hbmRead (.job 4 job) (s.slotAddr p e (s.fld BAT_REG_SLOTS.FRONT p e) + off) n with
  | (.ok, b, s) =>
    let b := if type = 2 then toLen 4096 b else b
    (sent + b.length, s.sendSelvage type job (s.reg .BAT_COMMIT_COUNT p c) (selvWord p c e)
      (s.fld SNAP_ENTRY.MIR_OFF p e * 65536 + off) 0 b)
  | (_, _, s) => (sent, s)

/-- What an entry sends leaves. -/
def State.sendEntry (s : State) (p c e : Nat) (w : Sending) (sent : Nat) : Nat × State :=
  let n := s.slotBytes p e
  match w with
  | .nothing => (sent, s)
  | .image => (List.range (ceilDiv n 8192)).foldl (fun x i => x.2.sendPart p c e 1 (8192 * i) (min 8192 (n - 8192 * i)) x.1) (sent, s)
  | .units l => l.foldl (fun x i => x.2.sendPart p c e 2 (4096 * i) (min 4096 (n - 4096 * i)) x.1) (sent, s)

/-- The record and the POINT of a context's commit leave after its entries. -/
def State.sendTail (s : State) (p c sent : Nat) : State :=
  let job := s.jobOf p c
  let k := s.reg .BAT_COMMIT_COUNT p c
  let rec' := s.ctxRecord p c
  let s := s.sendSelvage 4 job k (selvWord p c 0) 0 0 (rec'.take 8192)
  let s := s.sendSelvage 4 job k (selvWord p c 0) 8192 0 (rec'.drop 8192)
  s.sendSelvage 3 job k (selvWord p c 0) 0 (sent + 16384) []

/-- A mirrored context streams its commit to the twin while the pair is PAIRED (R345). `old`: the front slot of each entry before the
flip. The first stream of a pair carries every entry in full (R337). -/
def State.streamCommit (s : State) (p c : Nat) (old : Nat → Nat) : State :=
  if s.fld SNAP_CTX_CFG.MIRROR p c = 1 then
    let full := !s.streamed.contains (cidx p c)
    let (ws, s) := (s.validEntries p c).foldl (fun (x : List (Nat × Sending) × State) e =>
      let (w, s) := x.2.decideMethod p c e (old e) full
      (x.1 ++ [(e, w)], s)) ([], s)
    if s.paired && (s.keySet (s.jobOf p c)).isSome then
      let (n, s) := ws.foldl (fun x w => x.2.sendEntry p c w.1 w.2 x.1) (0, s)
      let s := { s with restreaming := s.restreaming.filter (fun x => x ≠ cidx p c) }
      (if full then { s with streamed := cidx p c :: s.streamed } else s).sendTail p c n
    else s
  else s

/-- A commit is streamed again in full (R340). -/
def State.restream (s : State) (p c : Nat) : State :=
  if s.paired && s.fld SNAP_CTX_CFG.MIRROR p c = 1 && (s.keySet (s.jobOf p c)).isSome then
    let s := { s with restreaming := cidx p c :: s.restreaming.filter (fun x => x ≠ cidx p c) }
    let (n, s) := (s.validEntries p c).foldl (fun (x : Nat × State) e =>
      let m := x.2.fld SNAP_ENTRY.METHOD p e
      if !x.2.mirrored p e then x
      else x.2.sendEntry p c e (if m = 2 then .units (List.range (ceilDiv (x.2.slotBytes p e) 4096)) else .image) x.1) (0, s)
    ({ s with streamed := cidx p c :: s.streamed.filter (fun x => x ≠ cidx p c) }).sendTail p c n
  else s

/-- Whether a packet belongs to a context's stream. -/
def TxPacket.streams (t : TxPacket) : Bool := 1 ≤ pkType t.pk && pkType t.pk ≤ 4

/-- Streaming stops: what waits of it does not go (R342). -/
def State.stopStreams (s : State) : State :=
  let x := s.port 16
  { s.setPort 16 { x with queue := x.queue.filter (fun t => !t.streams) } with restreaming := [] }

/-- The unfinished streams of the latest commits go ahead of any full restream (R350); a packet part of which has gone goes on. -/
def State.streamFirst (s : State) : State :=
  let x := s.port 16
  let first := fun (t : TxPacket) => !t.streams || t.left.length < 80 + t.pk.payload.length
    || !s.restreaming.contains (cidx (bits t.pk.w2.toNat 22 3) (bits t.pk.w2.toNat 16 6))
  s.setPort 16 { x with queue := x.queue.filter first ++ x.queue.filter (fun t => !first t) }

/-! ### The receiver (R345) -/

/-- A selvage packet's COMMIT. -/
def skCommit (k : Packet) : Nat := k.w1.toNat
/-- Its context. -/
def skCtx (k : Packet) : Nat := bits k.w2.toNat 16 6
/-- Its partition. -/
def skPart (k : Packet) : Nat := bits k.w2.toNat 22 3
/-- Its entry. -/
def skEntry (k : Packet) : Nat := bits k.w2.toNat 0 12
/-- Its STATUS. -/
def skStatus (k : Packet) : Nat := bits k.w2.toNat 48 8
/-- Its OFFSET. -/
def skOffset (k : Packet) : Nat := bits k.w3.toNat 0 48

/-- The context of a job that the sender of a selvage packet mirrors into: the mirrored one that names the sender's (R343). -/
def State.peerOf (s : State) (k : Packet) : Option (Nat × Nat) :=
  (s.ctxsOfJob (pkJob k)).find? (fun c => s.fld SNAP_CTX_CFG.MIRROR c.1 c.2 = 1 && s.fld SNAP_CTX_CFG.PEER_CTX c.1 c.2 = skCtx k
    && s.fld SNAP_CTX_CFG.PEER_PART c.1 c.2 = skPart k)

/-- The K_MIRROR and key generation under which a packet came (R365, R367). -/
def State.mirrorKey (s : State) (k : Packet) : List Byte × Nat :=
  match s.keySet (pkJob k) with
  | none => ([], 0)
  | some x => if k.oldKey then ((x.old.drop 32).take 32, (x.gen + 255) % 256) else ((x.keys.drop 32).take 32, x.gen % 256)

/-- A payload as it is stored, encrypted under the mirror key, and its 96 B side record (R345). -/
def State.stored (s : State) (k : Packet) : List Byte × List Byte :=
  let (key, gen) := s.mirrorKey k
  let c := gcmCrypt key (nonceOf k) k.payload
  (c, headerBytes k ++ toLen 16 (Config.gcmTag key (nonceOf k) (headerBytes k) c) ++ leBytes 1 gen ++ List.replicate 15 0)

/-- The base of mirror slot m of a context. -/
def State.mirrorSlot (s : State) (p c m : Nat) : Nat := s.reg .SNAP_RX_BASE p c + m * s.reg .SNAP_RX_SLOT p c * 65536

/-- Where the side record of position q lies within an area whose positions take `per` bytes each. -/
def State.sideAt (s : State) (p c base q per : Nat) : Nat := base + s.reg .SNAP_RX_SIDE p c * 65536 + 96 * (q / per)

/-- Where the context record of a commit lies. -/
def State.recordAt (s : State) (p c k : Nat) : Nat :=
  s.reg .SNAP_RX_BASE p c + 2 * s.reg .SNAP_RX_SLOT p c * 65536 + k % 2 * 16384

/-- The deltas of a context. -/
def State.deltasOf (s : State) (p c : Nat) : List Delta := s.deltas.filter (fun d => d.part = p && d.ctx = c)

/-- How many deltas a context's delta area holds. -/
def State.deltaRoom (s : State) (p c : Nat) : Nat := s.reg .SNAP_DELTA_SIZE p c * 65536 / 4224

/-- The first free slot of a delta area. -/
def State.deltaFree (s : State) (p c : Nat) : Option Nat :=
  (List.range (s.deltaRoom p c)).find? (fun i => !(s.deltasOf p c).any (fun d => d.slot = i))

/-- Payload bytes of a commit have come. -/
def State.countRx (s : State) (p c commit n : Nat) : State :=
  let (k, m) := SMap.get (0, 0) s.rxStream (cidx p c)
  { s with rxStream := SMap.set (0, 0) s.rxStream (cidx p c) (commit, (if k = commit then m else 0) + n) }

/-! ### Folding (R347) -/

/-- One delta is written into its image with its side record; it is freed. A delta that the board tier refuses stays. -/
def State.foldDelta (s : State) (p c : Nat) (d : Delta) : State :=
  let job := s.jobOf p c
  let a := s.reg .SNAP_DELTA_BASE p c + 4224 * d.slot
  match s.hbmRead (.job 4 job) a 4192 with
  | (.ok, b, s) =>
    let base := s.reg .SNAP_BOARD_BASE p c
    match s.boardWrite (.job 4 job) (base + d.off) (b.take 4096) with
    | (.ok, s) =>
      match s.boardWrite (.job 4 job) (s.sideAt p c base d.off 4096) (b.drop 4096) with
      | (.ok, s) => { s with deltas := s.deltas.erase d }
      | (_, s) => s
    | (_, s) => s
  | (_, _, s) => s

/-- A delta is put before the first of a later commit. -/
def insertDelta (d : Delta) : List Delta → List Delta
  | [] => [d]
  | x :: t => if d.commit < x.commit then d :: x :: t else x :: insertDelta d t

/-- Deltas in ascending commit order. -/
def byCommit (l : List Delta) : List Delta := l.foldl (fun r d => insertDelta d r) []

/-- A fold of a context's deltas whose commit is at most SNAP_RX_POINT − 1 and `top` (R340). -/
def State.fold (s : State) (p c top : Nat) : State :=
  let point := s.reg .SNAP_RX_POINT p c
  let s := (byCommit ((s.deltasOf p c).filter (fun d => d.commit + 1 ≤ point && d.commit ≤ top))).foldl (fun s d => s.foldDelta p c d) s
  { (s.bump .SNAP_FOLDS p c 1) with lastFold := SMap.set 0 s.lastFold (cidx p c) (BitVec.ofNat 64 point) }

end Sys2Proof.Machine
end

