-- ==== Sys2Proof/Machine/Commit.lean ====
section
/-! DEFINITION. The step and its job-wide commit (R219 to R228): OPEN, COMMIT and VETO, the signal, the home's decision and its twin's
record, the member's outcome, and the flip. -/

namespace Sys2Proof.Machine
open Sys2Proof

/-! ### OPEN, COMMIT, VETO (R220, R221, R226) -/

/-- The words of a parameter set, in order (R232). -/
def psetRegs : List RegName :=
  [.BAT_PSET_SCHED, .BAT_PSET_BETA1, .BAT_PSET_BETA2, .BAT_PSET_EPS, .BAT_PSET_DECAY, .BAT_PSET_BIAS1, .BAT_PSET_BIAS2,
   .BAT_PSET_CLIP_NORM, .BAT_PSET_SCALE_LR, .BAT_PSET_W9, .BAT_PSET_W10, .BAT_PSET_W11, .BAT_PSET_W12, .BAT_PSET_W13,
   .BAT_PSET_W14, .BAT_PSET_W15]

/-- Whether a register key is a parameter-set word of a context. -/
def isPset (p c key : Nat) : Bool :=
  psetRegs.any (fun r => r.ctorIdx = key / 2 ^ 40) && key / 2 ^ 20 % 2 ^ 20 = p && key % 2 ^ 20 / 16 = c

/-- The sequence store of a partition as it stands, its words at zero unlisted. -/
def State.seqStore (s : State) (p : Nat) : SMap W32 :=
  (s.regs.filter (fun x => x.1 / 2 ^ 40 = RegName.BAT_SEQ.ctorIdx && x.1 / 2 ^ 20 % 2 ^ 20 = p)).map
    (fun x => (x.1 % 2 ^ 20, x.2.truncate 32))

/-- OPEN is accepted (R220): a new STEP, and all that the step latches. -/
def State.openStep (s : State) (p c : Nat) : State :=
  let r := s.stepOf p c
  let pos := s.reg .BAT_CURSOR_COMMITTED p c
  let s := s.setReg .BAT_STEP_NUM p c (s.reg .BAT_STEP_NUM p c + 1)
  let s := (s.setStep p c { latchedGather := s.reg .KNOT_COUNT p (s.fld PART_CTX_GATHER.KNOT p c),
                            psets := s.regs.filter (fun x => isPset p c x.1), sequence := s.seqStore p, pos := pos,
                            policy := some (s.reg .RED_POLICY p c), expset := r.expset, ended := r.ended, saved := r.saved,
                            wideNow := r.wideNow, committedWide := r.committedWide, gcfg := r.gcfg }).clearWatch p c
  (((s.setStepStatus p c 1 0 0).openMicro p c).gatherCheck (s.jobOf p c))

/-- OPEN (R220): accepted only in IDLE and never in a generating context. -/
def State.openCmd (s : State) (p c : Nat) : Status × State :=
  if s.admitted p c && s.stepState p c = 0 && s.role p c ≠ 1 then (.ok, s.openStep p c)
  else (.illegal, s.setFld BAT_STEP_STATUS.RESULT p c 3)

/-- COMMIT (R221): the request is recorded in OPEN. -/
def State.commitCmd (s : State) (p c : Nat) : Status × State :=
  if s.stepState p c = 1 then
    (.ok, (s.setStep p c { s.stepOf p c with commitReq := true }).setFld BAT_STEP_STATUS.RESULT p c 0)
  else (.illegal, s.setFld BAT_STEP_STATUS.RESULT p c 3)

/-- VETO (R226, R450). -/
def State.vetoCmd (s : State) (p c : Nat) : Status × State := (.ok, s.vetoStep p c 1)

/-- A write to BAT_STEP_CMD through a BAR, for a context of the partition. -/
def State.stepWrite (s : State) (bar : Bar) (c : Nat) (f : State → Nat → Nat → Status × State) : State :=
  s.viaPhysical bar (fun p => if s.present p c then (f s p c).2 else s)

/-- STEP_OPEN (R220). -/
def execStepOpen (bar : Bar) (c : Fin 64) (_v : W32) (s : State) : Host.Outcome State Fault Refusal :=
  .next (s.stepWrite bar c.val State.openCmd)

/-- STEP_COMMIT (R221). -/
def execStepCommit (bar : Bar) (c : Fin 64) (_v : W32) (s : State) : Host.Outcome State Fault Refusal :=
  .next (s.stepWrite bar c.val State.commitCmd)

/-- STEP_VETO (R226). -/
def execStepVeto (bar : Bar) (c : Fin 64) (_v : W32) (s : State) : Host.Outcome State Fault Refusal :=
  .next (s.stepWrite bar c.val State.vetoCmd)

/-- A write of PART_COMMIT_VETO (R235): a 1 in VETO vetoes the open step of every training or unrestricted context of the partition,
cause 0x5. -/
def State.writeVeto (s : State) (p v : Nat) : State :=
  if bit v 0 && !s.mgmtStopped then ((s.ctxsOfPart p).filter (fun c => s.role p c ≠ 1)).foldl (fun s c => s.vetoStep p c 5) s else s

/-- COMMIT_VETO (R235). -/
def execCommitVeto (p : Fin 8) (v : W32) (s : State) : Host.Outcome State Fault Refusal := .next (s.writeVeto p.val v.toNat)

/-! ### The signal (R221, R225) -/

/-- The widen set of a context: its wide and pending layers, less those that return to narrow, by ordinal (R124, R225). -/
def State.widenSet (s : State) (p c : Nat) : List Nat :=
  (List.range (s.layersOf p c).length).filter (fun o =>
    let l := s.fld PART_CTX_LAYERS.BASE p c + o
    (s.fld TEN_LAYER_STATE.WIDE p l = 1 || s.fld TEN_LAYER_STATE.WIDE_PENDING p l = 1) && s.fld TEN_LAYER_CFG.NARROW p l = 0)

/-- A set of layer ordinals as a bitmap of 4,096 bits. -/
def bitmap (l : List Nat) : List Byte := leBytes 512 ((List.range 4096).foldl (fun a o => if l.contains o then a + 2 ^ o else a) 0)

/-- Whether a bitmap names an ordinal. -/
def inBitmap (b : List Byte) (o : Nat) : Bool := bit (b.getD (o / 8) 0).toNat (o % 8)

/-- Whether a context may signal (R221): COMMIT written, every shard updated, and the gather knot above what OPEN latched. -/
def State.maySignal (s : State) (p c : Nat) : Bool :=
  let r := s.stepOf p c
  s.stepState p c = 1 && r.commitReq
    && ((s.validEntries p c).filter (fun e => s.ent BAT_REG_CTRL.KIND p e = 0 && s.fld BAT_REG_CTRL.FROZEN_ACTIVE p e = 0)).all
        (fun e => r.updated.contains e)
    && r.latchedGather < s.reg .KNOT_COUNT p (s.fld PART_CTX_GATHER.KNOT p c)

/-- COMMIT_SIGNAL (R221): the context signals its home and enters SIGNALLED. -/
def execCommitSignal (c : CtxId) (s : State) : Host.Outcome State Fault Refusal :=
  let p := c.part.val
  let x := c.ctx.val
  .next (if s.maySignal p x then
    let set := s.widenSet p x
    let cfg := s.fld BAT_COMMIT_CFG.MEMBERS p x * 2 ^ 20 + s.fld BAT_COMMIT_CFG.FLIP_LEAD p x * 2 ^ 40
    let s := s.sendCommit p x 1 (s.fld BAT_COMMIT_HOME.HOME p x) (s.reg .BAT_STEP_NUM p x) cfg (if set = [] then [] else bitmap set)
    let s := s.setStep p x { s.stepOf p x with signalPick := s.pick, queryPick := none }
    s.setStepStatus p x 2 0 0
  else s)

/-- DEADLINE of a context; 0 acts as 1 (R231). -/
def State.deadline (s : State) (p c : Nat) : Nat := max 1 (s.fld BAT_COMMIT_CFG.DEADLINE p c)

/-- COMMIT_DEADLINE (R223): a member without an outcome asks the home's twin. -/
def execCommitDeadline (c : CtxId) (s : State) : Host.Outcome State Fault Refusal :=
  let p := c.part.val
  let x := c.ctx.val
  let r := s.stepOf p x
  .next (if s.stepState p x = 2 && r.queryPick.isNone && r.signalPick + s.deadline p x ≤ s.pick then
    (s.sendCommit p x 4 (s.fld BAT_COMMIT_HOME.HOME_TWIN p x) (s.reg .BAT_STEP_NUM p x) 0 []).setStep p x
      { r with queryPick := some s.pick }
  else s)

/-- QUERY_DEADLINE (R223): a twin that does not answer leaves the member UNDECIDED. -/
def execQueryDeadline (c : CtxId) (s : State) : Host.Outcome State Fault Refusal :=
  let p := c.part.val
  let x := c.ctx.val
  .next (match (s.stepOf p x).queryPick with
    | some q => if s.stepState p x = 2 && q + s.deadline p x ≤ s.pick then (s.setFld BAT_STEP_STATUS.STATE p x 4).settle else s
    | none => s)

/-! ### The home (R222, R225, R279) -/

/-- A decision's code. -/
abbrev dCommit : Nat := 0
/-- VETO. -/
abbrev dVeto : Nat := 1
/-- ABORT. -/
abbrev dAbort : Nat := 2

/-- The payload of OUTCOME, ANSWER and DECISION (R279). -/
def outcomeBody (dec flip cause : Nat) (union : List Byte) : List Byte :=
  leBytes 8 flip ++ leBytes 1 dec ++ leBytes 1 cause ++ List.replicate 22 0 ++ (if dec = dCommit then toLen 512 union else [])

/-- The union of two bitmaps. -/
def orBytes (a b : List Byte) : List Byte := List.zipWith (· ||| ·) (toLen 512 a) (toLen 512 b)

/-- The home's record of a STEP of a job. -/
def State.homeOf (s : State) (job step : Nat) : Home :=
  (s.homes.find? (fun h => h.job = job && h.step = step)).getD
    { job := job, step := step, members := 0, lead := 0, twin := 0, signals := [], union := [], decision := none, sent := false }

/-- It takes a value. -/
def State.setHome (s : State) (h : Home) : State :=
  { s with homes := s.homes.filter (fun x => !(x.job = h.job && x.step = h.step)) ++ [h] }

/-- The outcome of a decided STEP goes to one member. -/
def State.sendOutcome (s : State) (h : Home) (m : Nat × Nat) : State :=
  match h.decision with
  | none => s
  | some (dec, flip, cause) =>
    s.sendPacket (newPacket h.job m.1 6 h.step 0 0 0 (commitArg (m.2 / 64) (m.2 % 64) 3) 0 (outcomeBody dec flip cause h.union)) 0 0

/-- The outcome goes to every member that has signalled. -/
def State.sendOutcomes (s : State) (h : Home) : State :=
  h.signals.foldl (fun s m => s.sendOutcome h m) (s.setHome { h with sent := true })

/-- The context that stands for a job's home in counters: its lowest on the device. -/
def State.homeCtx (s : State) (job : Nat) : Nat × Nat := (s.ctxsOfJob job).getD 0 (0, 0)

/-- A decision taken without a record goes out at once and is counted (R356). -/
def State.unrecorded (s : State) (h : Home) : State :=
  (s.bump .SNAP_UNRECORDED (s.homeCtx h.job).1 (s.homeCtx h.job).2 1).sendOutcomes h

/-- The home decides a STEP: it records the decision with its twin and sends the outcome when the twin acknowledges (R222). -/
def State.decide (s : State) (h : Home) (dec flip cause : Nat) : State :=
  let h := { h with decision := some (dec, flip, cause) }
  if s.paired && (s.keySet h.job).isSome then
    (s.setHome h).sendSelvage 5 h.job 0 0 0 h.step (outcomeBody dec flip cause h.union)
  else s.unrecorded h

/-- The twin has answered the home's record of a STEP: the outcome goes out; an ABORT recorded by the twin prevails (R222). -/
def State.twinAnswered (s : State) (job step : Nat) (st : Status) : State :=
  let h := s.homeOf job step
  if h.decision.isNone || h.sent then s
  else if st = .ok then s.sendOutcomes h
  else s.sendOutcomes { h with decision := some (dAbort, 0, 6) }

/-- The decisions that wait for a lost twin's acknowledgement go out unrecorded (R356). -/
def State.flushDecisions (s : State) : State :=
  (s.homes.filter (fun h => h.decision.isSome && !h.sent)).foldl (fun s h => s.unrecorded h) s

/-- A veto or signal comes after the decision (R222, R225). -/
def State.lateVeto (s : State) (job : Nat) : State := s.bump .BAT_VETO_LATE (s.homeCtx job).1 0 1

/-- A SIGNAL that has passed R179. The first that the home accepts for a STEP gives MEMBERS and FLIP_LEAD, after a decision too (R225). -/
def State.matchSignal (s : State) (k : Packet) : State :=
  let a := pkArg k
  let h := s.homeOf (pkJob k) (pkStep k)
  let who := (pkSrc k, bits a 11 3 * 64 + bits a 0 6)
  let mem := bits a 20 20
  let lead := bits a 40 4
  let first := h.signals = []
  match h.decision with
  | some _ =>
    if !first && (mem ≠ h.members || lead ≠ h.lead) then s.lateVeto h.job
    else if h.signals.contains who then s
    else
      let h := { h with members := mem, lead := lead, signals := h.signals ++ [who] }
      if h.sent then (s.setHome h).sendOutcome h who else s.setHome h
  | none =>
    if h.signals.contains who && mem = h.members && lead = h.lead then s
    else
      let signals := if h.signals.contains who then h.signals else h.signals ++ [who]
      if !first && (mem ≠ h.members || lead ≠ h.lead) then s.decide { h with signals := signals } dVeto 0 9
      else
        let h := { h with members := mem, lead := lead, signals := signals, union := orBytes h.union k.payload }
        if mem ≤ signals.length then s.decide h dCommit (s.pick + max 1 lead) 0 else s.setHome h

/-- SIGNAL (R222). -/
def execSignal (pk : Packet) (s : State) : Host.Outcome State Fault Refusal :=
  let k := asKnot 1 pk
  .next (s.receive k (fun s => s.matchSignal k))

/-- A VETO that has passed R179. -/
def State.matchVeto (s : State) (k : Packet) : State :=
  let h := s.homeOf (pkJob k) (pkStep k)
  if h.decision.isSome then s.lateVeto h.job else s.decide h dVeto 0 6

/-- VETO (R222). -/
def execVeto (pk : Packet) (s : State) : Host.Outcome State Fault Refusal :=
  let k := asKnot 2 pk
  .next (s.receive k (fun s => s.matchVeto k))

/-! ### The home's twin (R222, R223) -/

/-- What the twin records for a STEP of a job. -/
def State.twinRec (s : State) (job step : Nat) : Option TwinRec := s.twinRecs.find? (fun r => r.job = job && r.step = step)

/-- A QUERY that has passed R179: the recorded decision is answered; with none, ABORT is recorded and answered. -/
def State.matchQuery (s : State) (k : Packet) : State :=
  let (r, s) := match s.twinRec (pkJob k) (pkStep k) with
    | some r => (r, s)
    | none =>
      let r : TwinRec := ⟨s.fld SELV_PAIR_CTRL.TWIN 0 0, pkJob k, pkStep k, dAbort, 0, 7, []⟩
      (r, { s with twinRecs := s.twinRecs ++ [r] })
  s.sendPacket (newPacket (pkJob k) (pkSrc k) 6 (pkStep k) 0 0 0 (commitArg (bits (pkArg k) 11 3) (bits (pkArg k) 0 6) 5) 0
    (outcomeBody r.decision r.flip r.cause r.union)) 0 0

/-- QUERY (R223). -/
def execQuery (pk : Packet) (s : State) : Host.Outcome State Fault Refusal :=
  let k := asKnot 4 pk
  .next (s.receive k (fun s => s.matchQuery k))

/-! ### The member (R223, R224) -/

/-- A decision reaches a member: COMMIT sets its flip, late when F has begun; VETO or ABORT ends its step. -/
def State.learn (s : State) (p c dec flip cause : Nat) (union : List Byte) : State :=
  let st := s.stepState p c
  if dec = dCommit then
    if st = 2 then
      let late := flip ≤ s.pick
      let s := if late then s.bump .BAT_FLIP_LATE p 0 1 else s
      (s.setStep p c { s.stepOf p c with flip := some (if late then s.pick + 1 else flip), union := union }).setStepStatus p c 3 0 0
    else s
  else if st = 1 || st = 2 then s.endStep p c (if dec = dVeto then .veto else .aborted) cause
  else s

/-- An OUTCOME or ANSWER that has passed R179 reaches a member. -/
def State.matchOutcome (s : State) (k : Packet) : State :=
  let c := bits (pkArg k) 0 6
  let p := bits (pkArg k) 11 3
  let dec := pkByte k 8
  let cause := pkByte k 9
  if !(s.present p c && s.jobOf p c = pkJob k) then s.reply k .protection
  else if 2 < dec then s.reply k .illegal
  else if s.reg .BAT_STEP_NUM p c ≠ pkStep k then s
  else s.learn p c dec (leNat (k.payload.take 8))
    (if pkOp k = 5 && dec = dAbort then 7 else if pkOp k = 3 && cause ≠ 9 then 6 else if 1 ≤ cause && cause ≤ 9 then cause else 6)
    (k.payload.drop 32)

/-- OUTCOME (R224). -/
def execOutcome (pk : Packet) (s : State) : Host.Outcome State Fault Refusal :=
  let k := asKnot 3 pk
  .next (s.receive k (fun s => s.matchOutcome k))

/-- ANSWER (R223). -/
def execAnswer (pk : Packet) (s : State) : Host.Outcome State Fault Refusal :=
  let k := asKnot 5 pk
  .next (s.receive k (fun s => s.matchOutcome k))

/-! ### The flip (R216 to R218, R224) -/

/-- An entry's physical slots rotate (R216). -/
def State.rotate (s : State) (p e : Nat) (hold : Bool) : State :=
  let f := s.fld BAT_REG_SLOTS.FRONT p e
  let b := s.fld BAT_REG_SLOTS.BACK p e
  let n := s.fld BAT_REG_SLOTS.SNAP p e
  s.setReg .BAT_REG_SLOTS p e
    (if s.ent BAT_REG_CTRL.SLOTS p e = 1 && !hold then b + n * 4 + f * 16 else b + f * 4 + n * 16)

/-- The hold follows its request (R217). -/
def State.followHold (s : State) (p c old : Nat) : State :=
  if s.fld BAT_SNAP_HOLD.HOLD p c = 1 then
    if s.fld BAT_SNAP_HOLD.ACTIVE p c = 1 then s
    else if (s.validEntries p c).all (fun e => s.ent BAT_REG_CTRL.SLOTS p e = 0) then s.setFld BAT_REG_ERR.BUSY p 0 1
    else
      let cursor := BitVec.ofNat 64 (s.reg .BAT_CURSOR_COMMITTED p c)
      { (s.setFld BAT_SNAP_HOLD.ACTIVE p c 1).setReg .BAT_SNAP_COMMIT p c old with holdCursor := SMap.set 0 s.holdCursor (cidx p c) cursor }
  else s.setFld BAT_SNAP_HOLD.ACTIVE p c 0

/-- The widen set applies to a layer at the flip (R124): NARROW returns it to narrow; a wide layer's next copy becomes front; a layer that
the union names and that is not wide is widened; a sensitive layer stays as it is (R118). `built`: whether the step has built a next copy
of a layer, as it does of one that is not frozen (R218). -/
def State.flipLayer (s : State) (p c o : Nat) (union : List Byte) (built : Nat → Bool) : State :=
  let l := s.fld PART_CTX_LAYERS.BASE p c + o
  let s := s.setFld TEN_LAYER_STATE.LOCK_BROKEN p l 0
  let s := (s.setFld TEN_LAYER_STATE.JUMPS p l 0).setFld TEN_LAYER_GSTATE.GJUMPS p l 0
  let s := s.setFld TEN_LAYER_GSTATE.FROZEN_ACTIVE p l (s.fld TEN_LAYER_GCFG.FROZEN p l)
  if s.fld TEN_LAYER_CFG.SENSITIVE p l = 1 then s
  else if s.fld TEN_LAYER_CFG.NARROW p l = 1 then
    (((s.releaseWide p c l true).setFld TEN_LAYER_STATE.WIDE p l 0).setFld TEN_LAYER_STATE.WIDE_PENDING p l 0).setFld
      TEN_LAYER_CFG.NARROW p l 0
  else if s.fld TEN_LAYER_STATE.WIDE p l = 1 then
    { s with wideAreas := s.wideAreas.map (fun w =>
        if w.part = p && w.ctx = c && w.layer = l && !w.gone && built l then { w with front := 1 - w.front } else w) }
  else if inBitmap union o then (s.widen p c l).2
  else s

/-- Noise statistics are published (R209). -/
def State.publishNoise (s : State) (p c : Nat) : State :=
  (s.stepOf p c).noise.foldl (fun s n =>
    ((s.setReg .BAT_NOISE_CONTRIB p n.group (Fmt.fp32.rne n.contrib)).setReg .BAT_NOISE_REDUCED p n.group
      (Fmt.fp32.rne n.reduced)).setReg .BAT_NOISE_BLOCKS p n.group n.blocks) s

/-- The layers of a context that are wide. -/
def State.wideLayers (s : State) (p c : Nat) : List Nat := (s.layersOf p c).filter (fun l => s.fld TEN_LAYER_STATE.WIDE p l = 1)

/-- The lock and frozen state that a commit may change, beside the layers that run wide (R357). -/
def State.lockState (s : State) (p c : Nat) : Nat × List Nat × List Nat :=
  (s.fld TEN_CTX_LOCK.LOCK_ACTIVE p c, (s.layersOf p c).map (fun l => s.fld TEN_LAYER_GSTATE.FROZEN_ACTIVE p l),
    (s.validEntries p c).map (fun e => s.fld BAT_REG_CTRL.FROZEN_ACTIVE p e))

/-- Whether ROLLBACK would be accepted: the context stands in IDLE, it trains, no hold is active, and nothing since its last commit rules it
out (R357). -/
def State.rollbackOk (s : State) (p c : Nat) : Bool :=
  s.fld SNAP_CTX_STATUS.ROLLBACK_OK p c = 1 && s.stepState p c = 0 && s.role p c ≠ 1 && s.fld BAT_SNAP_HOLD.ACTIVE p c = 0

/-- A commit of a context, as one change (R224). -/
def State.flip (s0 : State) (p c : Nat) : State :=
  let r := s0.stepOf p c
  let old := fun e => s0.fld BAT_REG_SLOTS.FRONT p e
  let k := s0.reg .BAT_COMMIT_COUNT p c
  let hold := s0.fld BAT_SNAP_HOLD.ACTIVE p c = 1
  let built := fun l => (s0.copies p c).any (fun e => s0.ent BAT_REG_ID.LAYER p e = l)
  let s := (s0.moving p c).foldl (fun s e => s.rotate p e hold) s0
  let s := s.followHold p c k
  let s := s.setFld RED_PLANE_CFG.PHASE p c ((s.phase p c + 1) % 3)
  let s := s.setFld TEN_CTX_LOCK.LOCK_ACTIVE p c (s.fld TEN_CTX_LOCK.LOCK p c)
  let s := (s.validEntries p c).foldl (fun s e => s.setFld BAT_REG_CTRL.FROZEN_ACTIVE p e (s.ent BAT_REG_CTRL.FROZEN p e)) s
  let s := (List.range (s.layersOf p c).length).foldl (fun s o => s.flipLayer p c o r.union built) s
  let s := s.followWide p c (s.wideLayers p c)
  let s := s.setReg .SNAP_PREV_CURSOR p c (s.reg .BAT_CURSOR_COMMITTED p c)
  let s := s.setReg .BAT_CURSOR_COMMITTED p c (s.reg .BAT_CURSOR_PROV p c)
  let s := (s.bump .BAT_COMMIT_COUNT p c 1).bump .BAT_COMMITS p 0 1
  let s := s.publishNoise p c
  let s := s.setStep p c { ended := r.ended, microPos := r.microPos, microOpen := r.microOpen, expset := r.expset, wideNow := r.wideNow,
                           gcfg := r.gcfg, policy := r.policy, committedWide := s.wideLayers p c }
  let s := s.saveLayers p c
  let s := s.setStepStatus p c 0 0 0
  let ok := !hold && s.fld BAT_SNAP_HOLD.ACTIVE p c = 0 && s.lockState p c = s0.lockState p c && s.wideLayers p c = r.committedWide
  let s := s.setFld SNAP_CTX_STATUS.ROLLBACK_OK p c (b2n ok)
  ((s.stepEnd p c .ok 0).streamCommit p c old).settle

/-- Every member whose flip pick has come flips (R224). -/
def State.flips (s : State) : State :=
  (allCtx.filter (fun c => s.stepState c.1 c.2 = 3 && (match (s.stepOf c.1 c.2).flip with | some f => f ≤ s.pick | none => false))).foldl
    (fun s c => s.flip c.1 c.2) s

end Sys2Proof.Machine
end

