-- ==== Sys2Proof/Machine/Link.lean ====
section
/-! DEFINITION. The weft ports' and the selvage link's lanes, negotiation and flits (R163 to R168, R175, R338). Links 0 to 15 are the
weft ports and link 16 the selvage link. -/

namespace Sys2Proof.Machine
open Sys2Proof

/-! ### States of a link -/

/-- Whether the device takes fabric time from its IEEE 1588 clock: ROOT is 1 and no conflict has demoted it (R281, R282). -/
def State.actsRoot (s : State) : Bool := s.fld TIME_CFG.ROOT 0 0 = 1 && !s.demoted

/-- The UP port whose partner reports the fewest hops, the lowest of equals (R173). -/
def State.bestPort (s : State) : Option Nat :=
  (List.range 16).foldl (fun (b : Option Nat) l =>
    if s.linkUp l && s.fld WEFT_PORT_TIME.HOPS l 0 < 7 then
      match b with
      | none => some l
      | some x => if s.fld WEFT_PORT_TIME.HOPS l 0 < s.fld WEFT_PORT_TIME.HOPS x 0 then some l else b
    else b) none

/-- The upstream port is chosen anew; each UP port takes its role (R173, R175). -/
def State.chooseUpstream (s : State) : State :=
  let best := if s.actsRoot then none else s.bestPort
  let s := (List.range 16).foldl (fun s l => s.setFld WEFT_PORT_TIME.ROLE l 0
    (if !s.linkUp l then 0 else if best = some l then 1 else if s.actsRoot || best.isSome then 2 else 0)) s
  match best with
  | some l =>
    let s := if s.fld TIME_STATUS.UPSTREAM 0 0 = l then s else { s with goodExchanges := 0 }
    (s.setFld TIME_STATUS.UPSTREAM 0 0 l).setFld TIME_STATUS.HOPS 0 0 (min 7 (s.fld WEFT_PORT_TIME.HOPS l 0 + 1))
  | none => s.setFld TIME_STATUS.HOPS 0 0 (if s.actsRoot then 0 else 7)

/-- A link's state changes: a trace event of the operator's ring (R405). A port that is not UP has no level, role or hops. -/
def State.linkTo (s : State) (l st : Nat) : State :=
  if l < 16 then
    let s := s.setFld WEFT_PORT_STATUS.STATE l 0 st
    let s := if st = 3 || st = 4 then s.setFld WEFT_PORT_STATUS.LEVEL l 0 1
      else (((s.setFld WEFT_PORT_STATUS.LEVEL l 0 0).setFld WEFT_PORT_TIME.ROLE l 0 0).setFld WEFT_PORT_TIME.HOPS l 0 7).setFld
        WEFT_PORT_TIME.LOCK l 0 0
    (s.trace 8 3 (0x10 + l / 8) (leBytes 4 (s.reg .WEFT_PORT_STATUS l 0))).chooseUpstream
  else { s with selvLink := setBits s.selvLink 0 3 st }.trace 8 3 0x10 (leBytes 4 (setBits s.selvLink 0 3 st))

/-- The lanes of the last training. -/
def State.setLanes (s : State) (l m : Nat) : State := if l < 16 then s.setFld WEFT_PORT_STATUS.LANES l 0 m else s

/-- The lanes on which a link runs with these good: all, else lanes 0 to 3, else lanes 4 to 7, else none; the selvage link never runs at
reduced width (R164, R338). -/
def widthOf (l m : Nat) : Option Nat :=
  if m = 0xFF then some 0xFF
  else if 16 ≤ l then none
  else if m &&& 0x0F = 0x0F then some 0x0F
  else if m &&& 0xF0 = 0xF0 then some 0xF0
  else none

/-- Whether a link may train: ENABLE, which the selvage link does not have, and the generation in force let it (R433). -/
def State.linkEnabled (s : State) (l : Nat) : Bool :=
  (16 ≤ l || (s.fld WEFT_PORT_CTRL.ENABLE l 0 = 1 && !bit s.heldPorts l)) && s.refclk ≠ 2

/-- Lane training starts: the link layer begins anew, and the packets that wait whole still wait (R167; DESIGN CHOICE, log entry 114). -/
def State.train (s : State) (l : Nat) : State :=
  (s.setPort l { queue := (s.port l).queue.filter (fun t => t.left.length = 80 + t.pk.payload.length) }).linkTo l 1

/-- A link comes UP or UP_HALF by the lanes it runs on, and what waits there goes. -/
def State.linkOpen (s : State) (l : Nat) : State :=
  (s.linkTo l (if 16 ≤ l || s.fld WEFT_PORT_STATUS.LANES l 0 = 0xFF then 3 else 4)).pump l

/-! ### Training -/

/-- A write to WEFT_PORT_CTRL (R175): 0 holds the port DOWN, and a change from 0 to 1 starts training. -/
def State.writePortCtrl (s : State) (l v : Nat) : State :=
  let old := s.fld WEFT_PORT_CTRL.ENABLE l 0
  let s := s.setFld WEFT_PORT_CTRL.ENABLE l 0 v
  if v % 2 = 0 then s.linkTo l 0 else if old = 0 && s.linkEnabled l then s.train l else s

/-- PORT_ENABLE (R175). -/
def execPortEnable (port : Fin 16) (v : W32) (s : State) : Host.Outcome State Fault Refusal := .next (s.writePortCtrl port.val v.toNat)

/-- PARTNER_SIGNAL_DETECT (R168): a DOWN port trains, unless three failed retrains keep it DOWN (R167). -/
def execPartnerSignalDetect (port : Fin 17) (s : State) : Host.Outcome State Fault Refusal :=
  .next (if s.linkState port.val = 0 && s.linkEnabled port.val && (s.port port.val).failures < 3 then s.train port.val else s)

/-- TRAINING_COMPLETE (R164): negotiation begins at full width, or at half width after the retraining of the half chosen, or the port stays
DOWN. -/
def execTrainingComplete (port : Fin 17) (r : TrainEnd) (s : State) : Host.Outcome State Fault Refusal :=
  let l := port.val
  .next (if s.linkState l ≠ 1 then s
    else match r with
      | .done good =>
        match widthOf l good.toNat with
        | some w => (s.setLanes l w).linkTo l 2
        | none => (s.setLanes l good.toNat).linkTo l 0
      | .failed => s.linkTo l 0)

/-- TRAINING_TIMEOUT (R168): as training that leaves no usable half. -/
def execTrainingTimeout (port : Fin 17) (s : State) : Host.Outcome State Fault Refusal :=
  .next (if s.linkState port.val = 1 then s.linkTo port.val 0 else s)

/-! ### Flits (R165, R166) -/

/-- Whether a link exchanges flits: UP, negotiating or retraining. -/
def State.linkAlive (s : State) (l : Nat) : Bool := s.linkUp l || s.linkState l = 2 || s.linkState l = 5

/-- A millisecond in units of 2^−3 ns. -/
abbrev msUnits : Nat := 8000000

/-- `n` replays or uncorrectable codewords of a link, which R167 counts over 1 ms of fabric time, by the starts of picks (DESIGN CHOICE, log
entry 114). -/
def State.linkFault (s : State) (l : Nat) (fec : Bool) (n : Nat) : State :=
  let t := s.reg .TIME_FABRIC 0 0
  let x := s.port l
  s.setPort l { x with faults := x.faults.filter (fun f => f.1 ≤ t && t ≤ f.1 + msUnits) ++ List.replicate (min n 17) (t, fec) }

/-- A link with nothing else to send answers with an IDLE, whose header carries ACK and credits (R165). -/
def State.idleFlit (s : State) (l : Nat) : State :=
  let x := s.port l
  if x.ctl = [] && (x.choose (l < 16) s.tcWeights).isNone then s.sendFlit l .idle else s.pump l

/-- A good flit in sequence: its ACK frees the replay buffer, and the credits it returns count (R165, R166, R169). -/
def Port.took (x : Port) (h : Nat) : Port :=
  let ack := bits h 14 12
  let un := if x.unacked.any (fun f => f.seq = ack) then ((x.unacked.dropWhile (fun f => f.seq ≠ ack)).drop 1) else x.unacked
  let tc := bits h 26 3
  { x with rxNext := (x.rxNext + 1) % 4096, unacked := un, credits := x.credits.set tc (x.credits.getD tc 0 + bits h 29 12) }

/-- FLIT_RECEIVE (R165, R166): a flit that fails its check or comes out of sequence is discarded and RETRY_REQ names the first one
missing; a good one delivers its ACK and credits, and what waited for them goes. `uncorr`: the FEC codewords of it that could not be
corrected. -/
def execFlitReceive (port : Fin 17) (hdr : W64) (payload : List Byte) (check : W64) (uncorr : Nat) (s : State) :
    Host.Outcome State Fault Refusal :=
  let l := port.val
  let h := hdr.toNat
  .next (if !s.linkAlive l then s
    else
      let s := (if l < 16 then s.bump .WEFT_PORT_FEC_UNCORR l 0 uncorr else s).linkFault l true uncorr
      let x := s.port l
      if bits h 0 2 ≥ 2 || payload.length ≠ 496 || uncorr ≠ 0 || crc64 (leBytes 8 h ++ payload) ≠ check.toNat
          || bits h 2 12 ≠ x.rxNext then
        s.sendFlit l (.retryReq x.rxNext)
      else
        let s := s.setPort l (x.took h)
        if bits h 0 2 = 0 then s.idleFlit l else s.pump l)

/-- RETRY_REQ (R166): every flit from the one named onwards goes again, in order, under the present ACK. -/
def execRetryReq (port : Fin 17) (seq : BitVec 12) (s : State) : Host.Outcome State Fault Refusal :=
  let l := port.val
  let x := s.port l
  .next (if !s.linkAlive l then s
    else
      let s := (if l < 16 then s.bump .WEFT_PORT_REPLAYS l 0 1 else s).linkFault l false 1
      { s with outs := s.outs ++ (x.unacked.dropWhile (fun f => f.seq ≠ seq.toNat)).map (Flit.out l x.ack) })

/-! ### Negotiation (R168) -/

/-- The protocol level the device advertises on a link (R2). -/
def State.ownLevel (s : State) (l : Nat) : Nat := if l < 16 then s.fld DEV_IF_LEVEL.WEFT_LEVEL 0 0 else s.fld DEV_IF_LEVEL.SELV_LEVEL 0 0

/-- NEGOTIATE_SEND (R168): after a training or within a retrain, until one has come. -/
def execNegotiateSend (port : Fin 17) (s : State) : Host.Outcome State Fault Refusal :=
  let l := port.val
  .next (if (s.linkState l = 2 || s.linkState l = 5) && !(s.port l).heard then
      s.sendFlit l (.negotiate (s.ownLevel l) Config.deviceId.toNat false (if l < 16 then s.fld WEFT_PORT_STATUS.LANES l 0 else 0xFF))
    else s)

/-- The partner of a link and the level in force. -/
def State.setPartner (s : State) (l partner : Nat) : State :=
  if l < 16 then s.setFld WEFT_PORT_STATUS.PARTNER l 0 partner
  else { s with selvLink := setBits (setBits s.selvLink 16 16 partner) 12 4 1 }

/-- NEGOTIATE (R168): the first failing check refuses the partner with its alarm. -/
def execNegotiate (port : Fin 17) (level : BitVec 4) (partner : BitVec 16) (_isSwitch : Bool) (_lanes : BitVec 8) (s : State) :
    Host.Outcome State Fault Refusal :=
  let l := port.val
  let st := s.linkState l
  .next (if st ≠ 2 && st ≠ 5 then s
    else
      let s := s.setPort l { s.port l with heard := true }
      if partner = Config.deviceId then (s.linkTo l 6).alarm 0x0D
      else if level = 0 then (s.linkTo l 6).alarm 0x0C
      else
        let s := s.setPartner l partner.toNat
        if st = 2 then s.linkOpen l else s)

/-- NEGOTIATE_TIMEOUT (R163, R168): no negotiation at all. -/
def execNegotiateTimeout (port : Fin 17) (s : State) : Host.Outcome State Fault Refusal :=
  .next (if s.linkState port.val = 2 && !(s.port port.val).heard then (s.linkTo port.val 6).alarm 0x0D else s)

/-! ### Retraining (R167) -/

/-- A retrain begins: it is counted, and its alarm feeds the risk estimator. It negotiates anew. -/
def State.retrain (s : State) (l : Nat) : State :=
  let s := s.setPort l { s.port l with heard := false, faults := [] }
  ((if l < 16 then s.bump .WEFT_PORT_RETRAINS l 0 1 else s).linkTo l 5).alarm 0x0E

/-- Whether more than 16 replays, or more than 16 uncorrectable codewords, have come within 1 ms. -/
def State.mustRetrain (s : State) (l : Nat) : Bool :=
  let t := s.reg .TIME_FABRIC 0 0
  let n := fun fec => ((s.port l).faults.filter (fun f => f.2 = fec && f.1 ≤ t && t ≤ f.1 + msUnits)).length
  Decidable.decide (16 < n false) || Decidable.decide (16 < n true)

/-- RETRAIN (R167): in either of its two cases. -/
def execRetrain (port : Fin 17) (s : State) : Host.Outcome State Fault Refusal :=
  .next (if s.linkUp port.val && s.mustRetrain port.val then s.retrain port.val else s)

/-- A retrain ends: with lanes to run on traffic resumes, else after three failures in a row the port stays DOWN. -/
def State.endRetrain (s : State) (l : Nat) (good : Option Nat) : State :=
  match good with
  | some w => ((s.setPort l { s.port l with failures := 0 }).setLanes l w).linkOpen l
  | none =>
    let n := (s.port l).failures + 1
    let s := s.setPort l { s.port l with failures := n }
    if 3 ≤ n then s.linkTo l 0 else s.retrain l

end Sys2Proof.Machine
end

