-- ==== Sys2Proof/Machine/Batten.lean ====
section
/-! DEFINITION. The batten (R202 to R215, R233, R234): registration, and the update of a shard: gradients, clipping, noise statistics,
optimiser sequences, moments, learned scales, and the back forward copy. -/

namespace Sys2Proof.Machine
open Sys2Proof

/-! ### Registration (R203 to R206) -/

/-- The registers of a registration entry whose RW fields VALIDATE takes. -/
def entryRegs : List RegName :=
  [.BAT_REG_CTRL, .BAT_REG_ID, .BAT_REG_BASE, .BAT_REG_LEN, .BAT_REG_AREA, .BAT_REG_STRIDE, .BAT_REG_LR, .BAT_REG_CLIP, .BAT_REG_GRAD]

/-- The entry's words as they stand are taken. -/
def State.takeEntry (s : State) (p e : Nat) : State :=
  { s with validated := entryRegs.foldl (fun m r => SMap.set r.resetWord m (regKey r p e) (BitVec.ofNat 64 (s.reg r p e))) s.validated }

/-- Whether every field of a micro-operation word is one that R210 defines. -/
def wordOk (w : Nat) : Bool :=
  let op := w % 256
  (op ≤ 0x0A || op = 0x10 || op = 0x11 || op = 0x12) && bits w 8 4 < 8 && bits w 12 4 ≤ 12 && bits w 16 4 ≤ 12 && bits w 20 4 ≤ 12
    && bits w 28 4 = 0

/-- Whether the sequence at `base` passes R211. -/
def seqOk (word : Nat → Nat) (base : Nat) : Bool :=
  let body := seqBody word 32 base
  let n := body.length
  let count := fun op => (body.filter (fun w => w % 256 = op)).length
  n < 32 && base + n < 1023 && word (base + n) % 256 = 0 && (body ++ [word (base + n)]).all wordOk
    && count 0x12 = 1 && count 0x10 ≤ 1 && count 0x11 ≤ 1

/-- The physical slots of an entry. -/
def State.slotCount (s : State) (p e : Nat) : Nat := 2 + s.ent BAT_REG_CTRL.SLOTS p e

/-- The slots of an entry as address and length. -/
def State.slotRanges (s : State) (p e : Nat) : List (Nat × Nat) :=
  (List.range (s.slotCount p e)).map (fun i => (s.slotAddr p e i, s.slotBytes p e))

/-- Whether two ranges share a byte. -/
def shares (a b : Nat × Nat) : Bool := a.1 < b.1 + b.2 && b.1 < a.1 + a.2 && 0 < a.2 && 0 < b.2

/-- The bytes of an element of the local gradient. -/
def State.gradBytes (s : State) (p e : Nat) : Nat := if s.ent BAT_REG_CTRL.GRAD_FMT p e = 1 then 2 else 4

/-- Whether a shard's run ends at the end of its tensor: at PLANE_BLOCKS of the RED_ID, where the peer table gives it. -/
def State.tensorEnd (s : State) (p c e : Nat) : Bool :=
  match s.peerRow p c (s.ent BAT_REG_ID.RED_ID p e) with
  | (.ok, row, _) => s.ent BAT_REG_BASE.TILE p e + s.ent BAT_REG_LEN.TILES p e = ceilDiv row.blocks 512
  | _ => true

/-- The first check of R205 that an entry fails, as the bit of BAT_REG_ERR; `s` holds the entry's words as taken. -/
def State.entryError (s : State) (p c e : Nat) : Option Nat :=
  let f := s.ent BAT_REG_CTRL.FWD_FMT p e
  let shard := s.ent BAT_REG_CTRL.KIND p e = 0
  let area := s.ent BAT_REG_AREA.ADDR p e
  let grad := s.ent BAT_REG_GRAD.ADDR p e
  let base := s.ent BAT_REG_BASE.TILE p e
  let tiles := s.ent BAT_REG_LEN.TILES p e
  let unit := 2 ^ s.ent BAT_REG_CLIP.UNIT_LOG2 p e
  let red := s.ent BAT_REG_ID.RED_ID p e
  let others := (s.validEntries p c).filter (fun d => d ≠ e)
  let shards := (s.ctxsOfJob (s.jobOf p c)).flatMap (fun x =>
    ((s.validEntries x.1 x.2).filter (fun d => !(x.1 = p && d = e) && s.ent BAT_REG_CTRL.KIND x.1 d = 0)).map (fun d => (x.1, d)))
  let rot := (SMap.get 0 s.rots (cidx p c * 65536 + red)).toNat
  if s.stepState p c ≠ 0 || s.role p c = 1 then some 6
  else if 3 < s.ent BAT_REG_CTRL.OPT p e || s.ent BAT_REG_CTRL.MOM_FMT p e = 3 || s.ent BAT_REG_CTRL.CLIP p e = 3
      || !(f = 0 || f = 1 || f = 8) || 4 < s.ent BAT_REG_CTRL.ROT p e then some 1
  else if tiles = 0 || s.ent BAT_REG_STRIDE.UNITS p e * 65536 < s.slotBytes p e || area % 65536 ≠ 0 || bits area 40 24 ≠ 0
      || bits grad 40 24 ≠ 0 then some 3
  else if !(s.slotRanges p e).all (fun r => r.1 + r.2 ≤ 2 ^ 40 && s.cardsOk (.ctx 1 p c) false r.1 r.2 && s.cardsOk (.ctx 1 p c) true r.1 r.2)
      || (shard && s.ent BAT_REG_CTRL.GRAD_SRC p e = 1
          && !(grad + s.elems p e * s.gradBytes p e ≤ 2 ^ 40 && s.cardsOk (.ctx 1 p c) false grad (s.elems p e * s.gradBytes p e))) then some 7
  else if shard && (base % unit ≠ 0 || ((base + tiles) % unit ≠ 0 && !s.tensorEnd p c e)) then some 4
  else if rot ≠ 0 && rot ≠ s.ent BAT_REG_CTRL.ROT p e + 1 then some 2
  else if others.any (fun d => (s.slotRanges p d).any (fun a => (s.slotRanges p e).any (shares a)))
      || (shard && shards.any (fun x => s.ent BAT_REG_ID.RED_ID x.1 x.2 = red
          && shares (base, tiles) (s.ent BAT_REG_BASE.TILE x.1 x.2, s.ent BAT_REG_LEN.TILES x.1 x.2))) then some 0
  else if s.ent BAT_REG_CTRL.OPT p e = 3 && !seqOk (s.seqWord p) (s.ent BAT_REG_CLIP.SEQ_BASE p e) then some 5
  else none

/-- A refusal of BAT_REG_CMD is recorded. -/
def State.regError (s : State) (p e b : Nat) : State :=
  (s.setReg .BAT_REG_ERR p 0 (setBits (s.reg .BAT_REG_ERR p 0) b 1 1)).setFld BAT_REG_ERR.ENTRY p 0 e

/-- VALIDATE (R205, R206): the entry's words take effect, its slots take their first places, its ROT is recorded, and the METHOD of a shard in
two-slot mode is NONE (R343). An entry of no
context is not commanded (R202). -/
def State.validate (s : State) (p e : Nat) : State :=
  match s.entryOwner p e with
  | none => s
  | some c =>
    let t := s.takeEntry p e
    match t.entryError p c e with
    | some b => s.regError p e b
    | none =>
      let t := { t with rots := SMap.set 0 t.rots (cidx p c * 65536 + t.ent BAT_REG_ID.RED_ID p e)
                                  (BitVec.ofNat 32 (t.ent BAT_REG_CTRL.ROT p e + 1)) }
      let t := if t.ent BAT_REG_CTRL.SLOTS p e = 0 then t.setFld SNAP_CTX_STATUS.ROLLBACK_OK p c 0 else t
      let t := if t.ent BAT_REG_CTRL.SLOTS p e = 0 && t.ent BAT_REG_CTRL.KIND p e = 0 then t.setFld SNAP_ENTRY.METHOD p e 3 else t
      (t.setFld BAT_REG_CTRL.VALID p e 1).setReg .BAT_REG_SLOTS p e (4 + (if t.ent BAT_REG_CTRL.SLOTS p e = 1 then 2 else 3) * 16)

/-- INVALIDATE (R205): refused while a step is open. -/
def State.invalidate (s : State) (p e : Nat) : State :=
  match s.entryOwner p e with
  | none => s
  | some c => if s.stepState p c ≠ 0 then s.regError p e 6 else s.setFld BAT_REG_CTRL.VALID p e 0

/-- VALIDATE. -/
def execValidate (bar : Bar) (v : W32) (s : State) : Host.Outcome State Fault Refusal :=
  .next (s.viaPhysical bar (fun p => s.validate p (BAT_REG_CMD.ENTRY.of v.toNat)))

/-- INVALIDATE. -/
def execInvalidate (bar : Bar) (v : W32) (s : State) : Host.Outcome State Fault Refusal :=
  .next (s.viaPhysical bar (fun p => s.invalidate p (BAT_REG_CMD.ENTRY.of v.toNat)))

/-! ### Optimiser sequences (R210, R211) -/

/-- A micro-operation word. -/
def mop (op d a b c k : Nat) : Nat := op + d * 2 ^ 8 + a * 2 ^ 12 + b * 2 ^ 16 + c * 2 ^ 20 + k * 2 ^ 24

/-- AdamW. -/
def seqAdamW : List Nat :=
  [mop 2 0 10 8 0 0, mop 4 0 12 0 8 1, mop 0x10 0 0 0 0 0, mop 3 1 8 8 0 0, mop 2 2 11 1 0 0, mop 4 1 12 2 1 2, mop 0x11 0 1 0 0 0,
   mop 3 2 0 12 0 5, mop 3 3 1 12 0 6, mop 6 3 3 0 0 0, mop 1 3 3 12 0 3, mop 5 2 2 3 0 0, mop 4 2 12 9 2 4, mop 0x12 0 2 0 0 0]

/-- Lion. -/
def seqLion : List Nat :=
  [mop 2 0 10 8 0 0, mop 4 1 12 0 8 1, mop 7 1 1 0 0 0, mop 4 1 12 9 1 4, mop 0x12 0 1 0 0 0, mop 4 2 12 0 8 2, mop 0x10 0 2 0 0 0]

/-- SGD with momentum. -/
def seqSgd : List Nat := [mop 4 0 12 10 8 1, mop 0x10 0 0 0 0 0, mop 4 1 12 9 0 4, mop 0x12 0 1 0 0 0]

/-- U0 to U7, and what the sequence has stored so far: the opcode and its operand. -/
structure Micro where
  u : List FVal
  out : List (Nat × FVal)

/-- +1, −1 or +0 by the sign of a number. -/
def signOf (a : FVal) : FVal := if a.isNaN then a else if a.isZero then .fin false ⟨0, 0⟩ else .fin a.sign ⟨if a.sign then -1 else 1, 0⟩

/-- The result of an arithmetic micro-operation (R210). -/
def microOp (op : Nat) (a b c : FVal) : FVal :=
  if op = 1 then f32 (addExact .tiesToEven a b)
  else if op = 2 then f32 (addExact .tiesToEven a b.negate)
  else if op = 3 then f32 (mulExact a b)
  else if op = 4 then f32 (fmaExact .tiesToEven a b c)
  else if op = 5 then f32 (divExact a b)
  else if op = 6 then f32 (sqrtExact a)
  else if op = 7 then signOf a
  else if op = 8 then f32 (minExact true a b)
  else if op = 9 then f32 (minExact false a b)
  else match a with
    | .fin _ d => .fin false d.abs
    | .inf _ => .inf false
    | .nan s => .nan s

/-- One micro-operation; a value that is not finite ends the element (R215). `src`: the source fields from 8 on, by K. -/
def microStep (src : Nat → Nat → FVal) (m : Option Micro) (w : Nat) : Option Micro :=
  m.bind (fun m =>
    let op := w % 256
    let get := fun lo => let x := bits w lo 4; if x < 8 then m.u.getD x (.nan false) else src x (bits w 24 4)
    let a := get 12
    let two := op = 1 || op = 2 || op = 3 || op = 4 || op = 5 || op = 8 || op = 9
    if a.nonFinite || (two && (get 16).nonFinite) || (op = 4 && (get 20).nonFinite) then none
    else if 0x10 ≤ op then some { m with out := m.out ++ [(op, a)] }
    else
      let r := microOp op a (get 16) (get 20)
      if r.nonFinite then none else some { m with u := m.u.set (bits w 8 4) r })

/-! ### What an update reads -/

/-- The exact gradient of an element: A × 2^E / n of the slot that covers it, or the local value, which may be −0 (R207). -/
structure GradSrc where
  num : Dy
  den : Nat
  neg : Bool := false
  deriving DecidableEq, Repr

/-- What a shard's update works with. -/
structure Shard where
  part : Nat
  ctx : Nat
  entry : Nat
  job : Nat
  pos : Nat
  n : Nat
  first : Nat
  fwd : Nat
  mom : Nat
  m2 : Bool
  seed : List Byte
  front : Array Byte
  grad : Array GradSrc
  const : Nat → FVal
  seq : List Nat
  u0 : List FVal

/-- A number of `k` bytes in an array. -/
def arrLE (a : Array Byte) (i k : Nat) : Nat := leNat ((List.range k).map (fun j => a.getD (i + j) 0))

/-- The front master weight of an element. -/
def Shard.w (x : Shard) (i : Nat) : FVal := Fmt.bf16.decode (arrLE x.front (2 * i) 2)

/-- Where moment m (0 or 1) begins in a slot. -/
def Shard.momAt (x : Shard) (m : Nat) : Nat := 2 * x.n + m * (if x.mom = 0 then 2 * x.n else x.n + x.n / 32)

/-- The front moment m of an element; zero where the entry has none (R211). -/
def Shard.moment (x : Shard) (m i : Nat) : FVal :=
  if m = 1 && !x.m2 then .fin false ⟨0, 0⟩
  else if x.mom = 0 then Fmt.bf16.decode (arrLE x.front (x.momAt m + 2 * i) 2)
  else
    let f := x.mom + 1
    let sc := (x.front.getD (x.momAt m + x.n + i / 32) 0).toNat
    if sc = 255 then .nan false
    else (mxVal f (x.front.getD (x.momAt m + i) 0).toNat).scale2 ((sc : Int) - 127)

/-- The front learned scale of a block of 16. -/
def Shard.scale (x : Shard) (b : Nat) : Nat :=
  (x.front.getD (x.momAt 0 + (x.momAt 1 - x.momAt 0) * (if x.m2 then 2 else 1) + b) 0).toNat

/-- A gradient rounded to FP32. -/
def GradSrc.g (x : GradSrc) : FVal :=
  if x.num.m = 0 then .fin x.neg ⟨0, 0⟩
  else Fmt.fp32.decode (Fmt.fp32.roundMag true .tiesToEven (x.num.m < 0) (Mag.ofDiv x.num.abs ⟨x.den, 0⟩)).1

/-- The READY slots of a context's open step that cover a block of a RED_ID. -/
def State.readySlot (s : State) (p c red block : Nat) : Option Nat :=
  (s.slotsFor p c (s.reg .BAT_STEP_NUM p c) red).find? (fun t => s.fld RED_SLOT_CTRL.STATE t 0 = 3 && s.fld RED_SLOT_CTRL.OP t 0 = 0
    && s.fld RED_SLOT_BASE.BLOCK t 0 ≤ block && block < s.fld RED_SLOT_BASE.BLOCK t 0 + s.fld RED_SLOT_LEN.LEN t 0)

/-- The exact gradients of a slot-source shard, and the state after the reads of its exponents: none while a covering slot is not READY. -/
def State.slotGrads (s : State) (p c e : Nat) : Option (Status × Array GradSrc × State) :=
  let red := s.ent BAT_REG_ID.RED_ID p e
  let b0 := 512 * s.ent BAT_REG_BASE.TILE p e
  let nb := 512 * s.ent BAT_REG_LEN.TILES p e
  let slots := (List.range nb).map (fun i => s.readySlot p c red (b0 + i))
  if slots.any Option.isNone then none
  else
    let (st, row, s) := s.peerRow p c red
    let (st, es, s) := if st = .ok then s.planeRead p c row (s.phase p c) b0 nb else (st, [], s)
    some (st, (((slots.zip es).zipIdx).flatMap (fun x =>
      let t := x.1.1.getD 0
      let n := s.fld RED_SLOT_CONTRIB.EXPECTED t 0 - s.fld RED_SLOT_CONTRIB.DROPPED t 0
      let a := s.accBlock t (b0 + x.2 - s.fld RED_SLOT_BASE.BLOCK t 0)
      (List.range 32).map (fun i => (⟨⟨signed 32 (SMap.get 0 s.acc (32 * a + i)).toNat, x.1.2⟩, n, false⟩ : GradSrc)))).toArray, s)

/-- A local gradient; a value that is not finite ends the update. -/
def localGrad (sz : Nat) (b : Array Byte) (i : Nat) : Option GradSrc :=
  let v := (if sz = 2 then Fmt.bf16 else Fmt.fp32).decode (arrLE b (sz * i) sz)
  if v.nonFinite then none else some ⟨v.dy, 1, v.sign⟩

/-! ### Clipping (R208) -/

/-- The square root of a positive quotient of dyadics. -/
def Mag.ofSqrtDiv (a b : Dy) : Mag :=
  let d := Mag.ofDiv a b
  ⟨Int.fdiv d.top 2, fun k => let (q, ex) := d.floor (2 * k); (Nat.sqrt q, ex && Nat.sqrt q * Nat.sqrt q = q)⟩

/-- The exact sum of the squares of gradients, as a dyadic over a whole number. -/
def sumSquares (l : List GradSrc) : Dy × Nat :=
  let dens := (l.map (fun g => g.den)).eraseDups
  dens.foldl (fun (a : Dy × Nat) d =>
    let t := Dy.sum ((l.filter (fun g => g.den = d)).map (fun g => g.num.mul g.num))
    ((a.1.mul ⟨d * d, 0⟩).add (t.mul ⟨a.2, 0⟩), a.2 * d * d)) (⟨0, 0⟩, 1)

/-- The factor of a clip unit, if it is scaled. -/
def clipFactor (mode : Nat) (c : FVal) (l : List GradSrc) : Option FVal :=
  let (s, d) := sumSquares l
  let cc := c.dy.mul c.dy
  if mode = 0 || s.m = 0 || (mode = 1 && !(cc.mul ⟨d, 0⟩).lt s) then none
  else if cc.m = 0 then some (.fin c.sign ⟨0, 0⟩)
  else some (Fmt.fp32.decode (Fmt.fp32.roundMag true .tiesToEven c.sign (Mag.ofSqrtDiv (cc.mul ⟨d, 0⟩) s)).1)

/-- The clipped gradients of a shard and how many units were scaled. Units are aligned runs of 2^UNIT_LOG2 tiles. -/
def clipped (mode unitLog first : Nat) (c : FVal) (g : Array GradSrc) : List FVal × Nat :=
  let tiles := g.size / 16384
  let units := ((List.range tiles).map (fun t => (first + t) / 2 ^ unitLog)).eraseDups
  units.foldl (fun (a : List FVal × Nat) u =>
    let ts := (List.range tiles).filter (fun t => (first + t) / 2 ^ unitLog = u)
    let l := ts.flatMap (fun t => (List.range 16384).map (fun i => g.getD (16384 * t + i) ⟨⟨0, 0⟩, 1, false⟩))
    match clipFactor mode c l with
    | none => (a.1 ++ l.map GradSrc.g, a.2)
    | some f => (a.1 ++ l.map (fun x => f32 (mulExact x.g f)), a.2 + 1)) ([], 0)

/-! ### The update of an element (R212, R213) -/

/-- What an element's sequence leaves: the new master code and the new moments before they are rounded into their format. -/
structure Elem where
  w : Nat
  m1 : FVal
  m2 : FVal

/-- Stochastic rounding that keeps a zero's sign. -/
def Fmt.stoch (f : Fmt) (u : Nat) (v : FVal) : Nat :=
  if v.isZero then (if v.sign then f.signBit else 0) else f.stochastic u v.dy

/-- A 16-bit draw of one of the batten's streams. -/
def Shard.draw16 (x : Shard) (id idx : Nat) : Nat := draw x.seed id x.pos idx % 65536

/-- One element of a shard: none where a value that is not finite is met. `lr`: SCHED × MANT; `exp`: the learning-rate exponent. -/
def Shard.elem (x : Shard) (lr : FVal) (exp : Int) (g : FVal) (i : Nat) : Option Elem :=
  let src := fun f k =>
    if f = 8 then g else if f = 9 then x.w i else if f = 10 then x.moment 0 i else if f = 11 then x.moment 1 i else x.const k
  if g.nonFinite || lr.nonFinite || (x.w i).nonFinite then none
  else match x.seq.foldl (microStep src) (some ⟨x.u0, []⟩) with
    | none => none
    | some m =>
      let find := fun op => (m.out.find? (fun o => o.1 = op)).map (fun o => o.2)
      let la := f32 (mulExact lr ((find 0x12).getD (.fin false ⟨0, 0⟩)))
      if la.nonFinite then none
      else
        let d := (x.w i).dy.sub ⟨la.dy.m, la.dy.e + exp⟩
        let w := Fmt.bf16.stochastic (x.draw16 5 (16384 * x.first + i)) d
        if (Fmt.bf16.decode w).nonFinite then none
        else some ⟨w, (find 0x10).getD (x.moment 0 i), (find 0x11).getD (x.moment 1 i)⟩

/-- A block of 32 moments in MXFP8: its scale and its codes; none where one rounds to an infinity. -/
def Shard.mxMoments (x : Shard) (id i : Nat) (vs : List FVal) : Option (Nat × List Nat) :=
  let f := x.mom + 1
  let sc := mxScale f ((vs.map (fun v => v.dy.abs)).foldl Dy.max ⟨0, 0⟩)
  let codes := (vs.zipIdx).map (fun v =>
    let y : Dy := ⟨v.1.dy.m, v.1.dy.e - ((sc : Int) - 127)⟩
    let u := x.draw16 id (16384 * x.first + i + v.2)
    let m := (mxFmt f).stochasticMag u y
    (if f = 2 then min m (mxTop 2) else m) + (if y.m < 0 then 128 else 0))
  if vs.all FVal.isZero then some (0, List.replicate 32 0)
  else if f = 3 && codes.any (fun c => mxTop 3 < c % 128) then none
  else some (sc, codes)

/-- The bytes of a moment of a shard (R204, R213); none where a value rounds beyond its range. -/
def Shard.momBytes (x : Shard) (id : Nat) (vs : List FVal) : Option (List Byte) :=
  if x.mom = 0 then
    let codes := (vs.zipIdx).map (fun v => Fmt.bf16.stoch (x.draw16 id (16384 * x.first + v.2)) v.1)
    if codes.any (fun c => (Fmt.bf16.decode c).nonFinite) then none else some (codes.flatMap (leBytes 2))
  else
    let bs := (runs 32 vs).map (fun r => x.mxMoments id r.1 r.2)
    if bs.any Option.isNone then none
    else
      let bs := bs.filterMap (fun b => b)
      some ((bs.flatMap (fun b => packBits 8 b.2)) ++ packBits 8 (bs.map (fun b => b.1)))

/-! ### Learned scales (R214) -/

/-- An E5M3 code by stochastic rounding, held to codes 0x01 to 0xFE. -/
def scaleCode (u : Nat) (v : Dy) : Nat :=
  if v.le (e5m3 1) then 1
  else if (e5m3 0xFE).le v then 0xFE
  else
    let c := ((List.range 0xFE).filter (fun k => (e5m3 k).le v)).length - 1
    let d := (e5m3 (c + 1)).sub (e5m3 c)
    let f := ((Mag.ofDiv (v.sub (e5m3 c)) d).floor (-16)).1
    if Dy.eq (e5m3 c) v then c else if u < f then c + 1 else c

/-- The learned scale of a block after an update: none where a value that is not finite is met or the code is 0xFF. `codes`: the
block's codes in the front forward copy. -/
def Shard.newScale (x : Shard) (lr : FVal) (gs : List FVal) (codes : List Nat) (b : Nat) : Option Nat :=
  let s := x.scale b
  if s = 0xFF then none
  else if s = 0 then some 0
  else
    let t := Dy.sum ((gs.zip codes).map (fun y => if y.2 = kEscape x.fwd then ⟨0, 0⟩ else y.1.dy.mul (kVal x.fwd y.2)))
    let prod := f32 (mulExact lr (.ofDy t))
    let r := f32 (addExact .tiesToEven (.fin false (e5m3 s)) prod.negate)
    if lr.nonFinite || prod.nonFinite || r.nonFinite then none
    else some (scaleCode (x.draw16 8 (1024 * x.first + b)) r.dy)

/-! ### The update (R207 to R215) -/

/-- The batten meets a value that is not finite: counted, alarmed, and the step is vetoed (R215). -/
def State.battenBad (s : State) (p c : Nat) : State := ((s.bump .BAT_NONFINITE p 0 1).alarm 0x27).vetoStep p c 4

/-- The codes of a tile of a K format in the front forward copy: from a copy of that format that the device holds, or as the front master
weights pack under the front scales (R214; DEDUCED, log entry 94). None where the copy cannot be read (R304), or where a group of it is not
well formed (R54, R97; DESIGN CHOICE, log entry 111). -/
def State.frontCodes (s : State) (x : Shard) (t : Nat) : Option Tile × State :=
  let tile := x.first + t
  let red := s.ent BAT_REG_ID.RED_ID x.part x.entry
  let held := ((s.ctxsOfJob x.job).flatMap (fun q => (s.validEntries q.1 q.2).map (fun e => (q.1, q.2, e)))).find? (fun y =>
    s.ent BAT_REG_CTRL.KIND y.1 y.2.2 = 1 && s.ent BAT_REG_ID.RED_ID y.1 y.2.2 = red && s.ent BAT_REG_CTRL.FWD_FMT y.1 y.2.2 = x.fwd
      && !(s.stepOf y.1 y.2.1).committedWide.contains (s.ent BAT_REG_ID.LAYER y.1 y.2.2)
      && s.ent BAT_REG_BASE.TILE y.1 y.2.2 ≤ tile && tile < s.ent BAT_REG_BASE.TILE y.1 y.2.2 + s.ent BAT_REG_LEN.TILES y.1 y.2.2)
  let repack : Tile := (tileImage x.fwd ((List.range 128).map (fun r =>
    packRow x.fwd (s.fld CNV_KAPPA.MUL x.part 0) .learned ((List.range 8).map (fun b => x.scale (1024 * t + 8 * r + b)))
      ((List.range 128).map (fun k => x.w (16384 * t + 128 * r + k))).toArray))).toArray
  match held with
  | none => (some repack, s)
  | some (q, d, e) =>
    match s.hbmRead (.ctx 1 q d) (s.slotAddr q e (s.fld BAT_REG_SLOTS.FRONT q e) + (tile - s.ent BAT_REG_BASE.TILE q e) * tileBytes x.fwd)
        (tileBytes x.fwd) with
    | (.ok, b, s) =>
      let tl : Tile := b.toArray
      let (ok, s) := s.battenLoad x.part x.fwd tl
      (if ok then some tl else none, s)
    | (_, _, s) => (none, s)

/-- A tile's image in the next front copy, its rows, and the scale codes after it (R124, R215). -/
def packTile (f kappa : Nat) (wide : Bool) (w : List FVal) (scales : List Nat) : List PackedRow :=
  (List.range 128).map (fun r =>
    let x := ((w.drop (128 * r)).take 128).toArray
    if wide then packMX fE4M3 x else packRow f kappa .learned ((scales.drop (8 * r)).take 8) x)

/-- Bytes of the next front copy of a tile reach the device's own copies (R215). -/
def State.ownCopies (s : State) (job red tile size : Nat) (img : List Byte) : Status × State :=
  let cs := (s.ctxsOfJob job).flatMap (fun q => (s.copies q.1 q.2).map (fun e => (q.1, q.2, e)))
  cs.foldl (fun (x : Status × State) y =>
    let s := x.2
    let b := s.ent BAT_REG_BASE.TILE y.1 y.2.2
    if x.1 = .ok && s.ent BAT_REG_ID.RED_ID y.1 y.2.2 = red && b ≤ tile && tile < b + s.ent BAT_REG_LEN.TILES y.1 y.2.2 then
      let s := if s.ent BAT_REG_CTRL.SLOTS y.1 y.2.2 = 0 then s.setFld SNAP_CTX_STATUS.ROLLBACK_OK y.1 y.2.1 0 else s
      s.gatherWrite (.ctx 1 y.1 y.2.1) Config.deviceId.toNat y.1 y.2.1 y.2.2 ((tile - b) * size) img
    else x) (.ok, s)

/-- The device's own copy of a tile of a RED_ID, as context, entry and offset of the tile in the next front copy. -/
def State.ownCopy (s : State) (job red tile size : Nat) : Option (Nat × Nat × Nat × Nat) :=
  ((s.ctxsOfJob job).flatMap (fun q => (s.copies q.1 q.2).map (fun e => (q.1, q.2, e, (tile - s.ent BAT_REG_BASE.TILE q.1 e) * size)))).find?
    (fun y => s.ent BAT_REG_ID.RED_ID y.1 y.2.2.1 = red && s.ent BAT_REG_BASE.TILE y.1 y.2.2.1 ≤ tile
      && tile < s.ent BAT_REG_BASE.TILE y.1 y.2.2.1 + s.ent BAT_REG_LEN.TILES y.1 y.2.2.1)

/-- The reduction engine reads bytes of a tile for GATHER from the device's own copy; where it holds none, they come from the batten's packing
path (R194, R304). -/
def State.gatherBytes (s : State) (job red tile size off : Nat) (img : List Byte) : Status × List Byte × State :=
  match s.ownCopy job red tile size with
  | some (q, d, e, at') => s.copyRead (.job 2 job) q d e (at' + off) img.length
  | none => (.ok, img, s)

/-- GATHER packets of a tile go to the RED_ID's other holders (R194). Bytes that cannot be read are not sent, and the flag says so
(R304). -/
def State.sendGather (s : State) (p c red tile size : Nat) (holders : List Nat) (img : List Byte) : Bool × State :=
  let job := s.jobOf p c
  let step := s.reg .BAT_STEP_NUM p c
  let h := s.redH job step red
  let others := holders.filter (fun d => d ≠ Config.deviceId.toNat)
  if others = [] then (true, s)
  else (runs 8192 img).foldl (fun (x : Bool × State) r =>
    match x.2.gatherBytes job red tile size r.1 r.2 with
    | (.ok, b, s) =>
      let arg := tile * size + r.1
      (x.1, others.foldl (fun s d =>
        s.sendPacket (newPacket job d 5 step red (s.epoch p) 0 arg (Machine.gatherCheck h arg b) b) 0 0) s)
    | (_, _, s) => (false, s)) (true, s)

/-- Whether a slot's elements have all been updated: the updated shard entries of the context, which share no element, cover it. -/
def State.slotSpent (s : State) (p c t : Nat) : Bool :=
  let lo := s.fld RED_SLOT_BASE.BLOCK t 0
  let hi := lo + s.fld RED_SLOT_LEN.LEN t 0
  (((s.moving p c).filter (fun e => s.ent BAT_REG_CTRL.KIND p e = 0 && s.ent BAT_REG_CTRL.GRAD_SRC p e = 0
      && s.ent BAT_REG_ID.RED_ID p e = s.fld RED_SLOT_ID.RED_ID t 0 && (s.stepOf p c).updated.contains e)).map (fun e =>
    let a := 512 * s.ent BAT_REG_BASE.TILE p e
    min hi (a + 512 * s.ent BAT_REG_LEN.TILES p e) - max lo a)).sum = hi - lo

/-- Slots whose every element has been updated are released (R207). -/
def State.releaseSpent (s : State) (p c red : Nat) : State :=
  (s.slotsFor p c (s.reg .BAT_STEP_NUM p c) red).foldl (fun s t =>
    if s.fld RED_SLOT_CTRL.STATE t 0 = 3 && s.fld RED_SLOT_CTRL.OP t 0 = 0 && s.slotSpent p c t then (s.releaseSlot p t).2 else s) s

/-- Noise statistics of a slot-source shard (R209). -/
def State.addNoise (s : State) (p c e : Nat) (g : Array GradSrc) : State :=
  let red := s.ent BAT_REG_ID.RED_ID p e
  let grp := s.ent BAT_REG_CLIP.GROUP p e
  let b0 := 512 * s.ent BAT_REG_BASE.TILE p e
  let nb := 512 * s.ent BAT_REG_LEN.TILES p e
  let parts := (List.range nb).map (fun i =>
    match s.readySlot p c red (b0 + i) with
    | some t => SMap.get ((⟨0, 0⟩ : Dy), 0) (s.slot t).noise (b0 + i - s.fld RED_SLOT_BASE.BLOCK t 0)
    | none => ((⟨0, 0⟩ : Dy), 0))
  let con := Dy.sum (parts.map (fun x => x.1))
  let blocks := (parts.map (fun x => x.2)).sum
  let reduced := Dy.sum (g.toList.map (fun x => x.num.mul x.num))
  let r := s.stepOf p c
  let old : Noise := (r.noise.find? (fun n => n.group = grp)).getD ⟨grp, ⟨0, 0⟩, ⟨0, 0⟩, 0⟩
  s.setStep p c { r with noise := r.noise.filter (fun n => n.group ≠ grp)
                            ++ [⟨grp, old.contrib.add con, old.reduced.add reduced, old.blocks + blocks⟩] }

/-- The parameter-set word of a context as OPEN latched it. -/
def State.latched (s : State) (p c k w : Nat) : Nat :=
  let r := psetRegs.getD w .BAT_PSET_W15
  (SMap.get r.resetWord (s.stepOf p c).psets (regKey r p (c * 16 + k))).toNat

/-- The optimiser sequence of an entry (R211). -/
def State.sequenceOf (s : State) (p e : Nat) : List Nat :=
  let o := s.ent BAT_REG_CTRL.OPT p e
  if o = 0 then seqAdamW else if o = 1 then seqLion else if o = 2 then seqSgd
  else s.entrySeq p e

/-- A shard whose gradients are there and whose writes need not wait is updated, its back forward copy packed and sent (R207 to
R215). -/
def State.updateShard (s : State) (p c e : Nat) (grads : Array GradSrc) : State :=
  let n := s.elems p e
  let f := s.ent BAT_REG_CTRL.FWD_FMT p e
  let red := s.ent BAT_REG_ID.RED_ID p e
  let job := s.jobOf p c
  let k := s.ent BAT_REG_CTRL.PSET p e
  let const := fun w => Fmt.fp32.decode (s.latched p c k w)
  let slotSrc := s.ent BAT_REG_CTRL.GRAD_SRC p e = 0
  match s.keySet job, s.hbmRead (.ctx 1 p c) (s.slotAddr p e (s.fld BAT_REG_SLOTS.FRONT p e)) (s.slotBytes p e) with
  | some _, (.ok, front, s) =>
    let u0 := (List.range 8).map (fun i => Fmt.fp32.decode (Config.freeNat (s.free + i) % 2 ^ 32))
    let s := { s with free := s.free + 8 }
    let x : Shard := { part := p, ctx := c, entry := e, job := job, pos := (s.stepOf p c).pos, n := n, first := s.ent BAT_REG_BASE.TILE p e,
                       fwd := f, mom := s.ent BAT_REG_CTRL.MOM_FMT p e, m2 := s.hasM2 p e, seed := s.seed job, front := front.toArray,
                       grad := grads, const := const, seq := s.sequenceOf p e, u0 := u0 }
    let mode := s.ent BAT_REG_CTRL.CLIP p e
    let (gs, units) := clipped mode (s.ent BAT_REG_CLIP.UNIT_LOG2 p e) x.first (const 7) grads
    let ga := gs.toArray
    let lr := f32 (mulExact (const 0) (Fmt.bf16.decode (s.ent BAT_REG_LR.MANT p e)))
    let exp := signed 8 (s.ent BAT_REG_LR.EXP p e)
    let elems := (gs.zipIdx).map (fun g => x.elem lr exp g.1 g.2)
    let s := s.bump .BAT_CLIPPED p 0 units
    if (const 0).nonFinite || (mode ≠ 0 && (const 7).nonFinite) || elems.any Option.isNone then s.battenBad p c
    else
      let es := elems.filterMap (fun y => y)
      let master := es.map (fun y => y.w)
      match x.momBytes 6 (es.map (fun y => y.m1)), (if x.m2 then x.momBytes 7 (es.map (fun y => y.m2)) else some []) with
      | some b1, some b2 =>
        let tiles := n / 16384
        let (read, scales, s) := if isK f then
            (List.range tiles).foldl (fun (y : Bool × List (Option Nat) × State) t =>
              match (if y.1 then y.2.2.frontCodes x t else (none, y.2.2)) with
              | (some tl, s) => (true, y.2.1 ++ (List.range 1024).map (fun b =>
                x.newScale (const 8) ((List.range 16).map (fun i => ga.getD (16384 * t + 16 * b + i) (.nan false)))
                  ((List.range 16).map (fun i => tl.code f (b / 8) (16 * (b % 8) + i))) (1024 * t + b)), s)
              | (none, s) => (false, y.2.1, s)) (true, [], s)
          else (true, [], s)
        if !read then s.vetoStep p c 4
        else if scales.any Option.isNone then s.battenBad p c
        else
          let sc := scales.filterMap (fun y => y)
          let moves := ((sc.zipIdx).filter (fun y => y.1 ≠ x.scale y.2)).length
          let s := (s.bump .BAT_SCALE_MOVES p 0 moves).bump .BAT_ELEMENTS_UPDATED p 0 n
          let layer := s.ent BAT_REG_ID.LAYER p e
          let wide := s.nextWide p layer
          let wv := master.map Fmt.bf16.decode
          let tilesOut := (List.range tiles).map (fun t =>
            packTile f (s.fld CNV_KAPPA.MUL p 0) wide ((wv.drop (16384 * t)).take 16384) ((sc.drop (1024 * t)).take 1024))
          let narrow := f = 8 && !wide
          let imgs := (tilesOut.zipIdx).map (fun t =>
            if narrow then ((master.drop (16384 * t.2)).take 16384).flatMap (leBytes 2) else tileImage (if wide then fE4M3 else f) t.1)
          let plane := if !isK f then [] else if wide then sc else tilesOut.flatMap (fun t => t.flatMap (fun r => r.plane))
          let size := if wide then 16896 else tileBytes f
          let s := if narrow then s else tilesOut.foldl (fun s t => (packPosts p layer (s.cnvSettings p).2 t).foldl State.post s) s
          let back := s.slotAddr p e (s.fld BAT_REG_SLOTS.BACK p e)
          let s := if s.ent BAT_REG_CTRL.SLOTS p e = 0 then s.setFld SNAP_CTX_STATUS.ROLLBACK_OK p c 0 else s
          match s.hbmWrite (.ctx 1 p c) back (master.flatMap (leBytes 2) ++ b1 ++ b2 ++ packBits 8 plane) with
          | (.ok, s) =>
            let (st, row, s) := s.peerRow p c red
            let (st, holders, s) := if st = .ok then s.peerList p c row.hOff row.hN else (st, [], s)
            if st ≠ .ok then s.vetoStep p c 3
            else
              let (st, sent, s) := (imgs.zipIdx).foldl (fun (y : Status × Bool × State) t =>
                if y.1 ≠ .ok then y
                else
                  let (st, s) := y.2.2.ownCopies job red (x.first + t.2) size t.1
                  if st = .ok then
                    let (ok, s) := s.sendGather p c red (x.first + t.2) size holders t.1
                    (.ok, y.2.1 && ok, s)
                  else (st, y.2.1, s)) (.ok, true, s)
              if st = .veto then s
              else if st ≠ .ok then s.vetoStep p c 4
              else if !sent then s.vetoStep p c 3
              else
                let s := if slotSrc then s.addNoise p c e grads else s
                let r := s.stepOf p c
                let s := s.setStep p c { r with updated := e :: r.updated }
                (if slotSrc then s.releaseSpent p c red else s).gatherCheck job
          | (_, s) => s.vetoStep p c 4
      | _, _ => s.battenBad p c
  | some _, (_, _, s) => s.vetoStep p c 4
  | none, _ => s.vetoStep p c 4

/-- A write of a shard waits: counted once in the step (R230, R346). -/
def State.waitOnce (s : State) (p c e : Nat) (mirror : Bool) : State :=
  let r := s.stepOf p c
  if r.waited.contains (e, mirror) then s
  else
    let s := s.setStep p c { r with waited := (e, mirror) :: r.waited }
    if mirror then s.bump .SNAP_MIR_WAITS p c 1 else s.bump .BAT_HANDOVER_WAITS p 0 1

/-- Whether the twin's mirror lets a context's shards be written (R346). -/
def State.mirrorLets (s : State) (p c : Nat) : Bool :=
  let k := s.reg .BAT_COMMIT_COUNT p c
  !(s.paired && s.fld SNAP_CTX_CFG.MIRROR p c = 1) || (k ≤ s.reg .SNAP_TX_POINT p c && k ≤ s.reg .SNAP_RX_POINT p c)

/-- Whether the device's own copies of a shard's tiles may be written: their contexts have a step open, and no pass holds their back
slots (R230). -/
def State.copiesReady (s : State) (p c e : Nat) : Bool × Bool :=
  let run := (s.ent BAT_REG_BASE.TILE p e, s.ent BAT_REG_LEN.TILES p e)
  let cs := ((s.ctxsOfJob (s.jobOf p c)).flatMap (fun q => (s.copies q.1 q.2).map (fun d => (q.1, q.2, d)))).filter (fun y =>
    s.ent BAT_REG_ID.RED_ID y.1 y.2.2 = s.ent BAT_REG_ID.RED_ID p e
      && shares run (s.ent BAT_REG_BASE.TILE y.1 y.2.2, s.ent BAT_REG_LEN.TILES y.1 y.2.2))
  (cs.all (fun y => s.stepState y.1 y.2.1 ≠ 0), cs.any (fun y => s.copyHeld y.1 y.2.1 y.2.2))

/-- SHARD_UPDATE (R207): a valid, non-frozen shard of an open step that has not been updated, once its gradients are there. -/
def execShardUpdate (p : Fin 8) (entry : Fin 4096) (s : State) : Host.Outcome State Fault Refusal :=
  let p := p.val
  let e := entry.val
  .next (match s.entryOwner p e with
    | none => s
    | some c =>
      if !(s.stepState p c = 1 && (s.moving p c).contains e && s.ent BAT_REG_CTRL.KIND p e = 0)
          || (s.stepOf p c).updated.contains e then s
      else
        let n := s.elems p e
        let sz := s.gradBytes p e
        let (ready, held) := s.copiesReady p c e
        if !ready then s
        else if held then s.waitOnce p c e false
        else if !s.mirrorLets p c then s.waitOnce p c e true
        else if s.ent BAT_REG_CTRL.GRAD_SRC p e = 0 then
          match s.slotGrads p c e with
          | none => s
          | some (.ok, g, s) => s.updateShard p c e g
          | some (_, _, s) => s.vetoStep p c 3
        else match s.hbmRead (.ctx 1 p c) (s.ent BAT_REG_GRAD.ADDR p e) (n * sz) with
          | (.ok, b, s) =>
            let l := (List.range n).map (localGrad sz b.toArray)
            if l.any Option.isNone then s.battenBad p c else s.updateShard p c e (l.filterMap (fun y => y)).toArray
          | (_, _, s) => s.vetoStep p c 4)

/-- The batten counters in the order of R234. -/
def batCounters : List RegName :=
  [.BAT_ELEMENTS_UPDATED, .BAT_COMMITS, .BAT_VETOES, .BAT_ABORTS, .BAT_CLIPPED, .BAT_NONFINITE, .BAT_SCALE_MOVES, .BAT_VETO_LATE,
   .BAT_FLIP_LATE, .BAT_HANDOVER_WAITS]

/-- BAT_COUNTER_CLEAR (R234). -/
def execBatCounterClear (bar : Bar) (v : W32) (s : State) : Host.Outcome State Fault Refusal :=
  .next (s.viaPhysical bar (fun p => s.clearSelected batCounters p v.toNat))

end Sys2Proof.Machine
end

