-- ==== Sys2Proof/Machine/Onaile.lean ====
section
/-! DEFINITION. Onaile's control, scalar, shuttle, knot, reduction, batten and time instructions (R246 to R254, R262 to R264). -/

namespace Sys2Proof.Machine
open Sys2Proof

/-! ### Shared operations -/

/-- Two's-complement addition of a signed 32-bit offset to a 64-bit number. -/
def addOff (a off : Nat) : Nat := (a + unsigned 64 (signed 32 off)) % 2 ^ 64

/-- An instruction that only changes its program state's registers. -/
def regs1 (f : Iss → Prog) : Iss → State → Issued := fun i s => .go (f i) s

/-- The address of the instruction itself. -/
def Iss.at' (i : Iss) : Nat := i.g.pc - 8

/-- Its address and space, as RESULT reports them. -/
def Iss.place (i : Iss) : Nat := ({ i.g with pc := i.at' } : Prog).place

/-- PC becomes the instruction's address + 8 × OFF. -/
def Iss.branch (i : Iss) (g : Prog) (off : Nat) : Prog := { g with pc := (i.at' + 8 * unsigned 64 (signed 32 off)) % 2 ^ 60 }

/-- The address of a place in the space a program runs from, in the form of R239. -/
def Prog.addrOf (g : Prog) (pc : Nat) : Nat := pc + (if g.beam then 2 else 3) * 2 ^ 60

/-- PC becomes an address of R239: it must lie in the beam store or in HBM, at a multiple of 8. -/
def Prog.jump (g : Prog) (a : Nat) : Option Prog :=
  if a % 8 ≠ 0 then none
  else match locOf 0 a with
    | .beam off => some { g with pc := off, beam := true }
    | .hbm x => some { g with pc := x, beam := false }
    | _ => none

/-! ### Control (R250) -/

/-- NOP (R250). -/
def rowNopInstr : Row := ⟨0x00, fun _ => true, [],
  regs1 (fun i => i.g)⟩

/-- BR (R250). -/
def rowBr : Row := ⟨0x01, fun _ => true, [(49, 3), (48, 1), (0, 32)],
  regs1 (fun i =>
    if i.g.getP (i.f 49 3) % 2 = i.f 48 1 then i.branch i.g (i.f 0 32) else i.g)⟩

/-- JMPA (R250). -/
def rowJmpa : Row := ⟨0x02, fun _ => true, [(48, 4)],
  fun i s =>
    match i.g.jump (i.g.getA (i.f 48 4)) with
    | some g => .go g s
    | none => .raise .illegal⟩

/-- CALL (R250). -/
def rowCall : Row := ⟨0x03, fun _ => true, [(48, 4), (0, 32)],
  regs1 (fun i =>
    i.branch (i.g.setA (i.f 48 4) (i.g.addrOf i.g.pc)) (i.f 0 32))⟩

/-- LOOP (R250). -/
def rowLoop : Row := ⟨0x04, fun _ => true, [(47, 5), (0, 32)],
  regs1 (fun i =>
    let v := (i.g.getS (i.f 47 5) + 2 ^ 64 - 1) % 2 ^ 64
    let g := i.g.setS (i.f 47 5) v
    if v ≠ 0 then i.branch g (i.f 0 32) else g)⟩

/-- WAITU (R250). -/
def rowWaitu : Row := ⟨0x05, fun _ => true, [(46, 6)],
  regs1 (fun i => { i.g with wait := .units (i.f 46 6) })⟩

/-- YIELD (R250): its program state gives up its next turn (R236). -/
def rowYield : Row := ⟨0x06, fun _ => true, [],
  regs1 (fun i => { i.g with yielded := true })⟩

/-- END (R250). -/
def rowEndProgram : Row := ⟨0x07, fun _ => true, [(47, 5)],
  regs1 (fun i => { i.g with wait := .ending (i.f 47 5) })⟩

/-! ### Scalars (R251) -/

/-- A FUNC of SOP and SOPI on two 64-bit numbers; none where it is reserved. -/
def sop (f a b : Nat) : Option Nat :=
  let m := 2 ^ 64
  let sh := b % 64
  let lt := decide (signed 64 a < signed 64 b)
  match f with
  | 0x00 => some ((a + b) % m)
  | 0x01 => some ((a + m - b % m) % m)
  | 0x02 => some (a * b % m)
  | 0x03 => some (a * b / m % m)
  | 0x04 => some (a &&& b)
  | 0x05 => some (a ||| b)
  | 0x06 => some (a ^^^ b)
  | 0x07 => some (a * 2 ^ sh % m)
  | 0x08 => some (a / 2 ^ sh)
  | 0x09 => some (unsigned 64 (Int.fdiv (signed 64 a) (2 ^ sh)))
  | 0x0A => some (if lt then a else b)
  | 0x0B => some (if lt then b else a)
  | 0x0C => some (min a b)
  | 0x0D => some (max a b)
  | _ => none

/-- A COND of SCMP; none where it is reserved. -/
def scond (c a b : Nat) : Option Bool :=
  match c with
  | 0 => some (a = b)
  | 1 => some (a ≠ b)
  | 2 => some (signed 64 a < signed 64 b)
  | 3 => some (signed 64 b ≤ signed 64 a)
  | 4 => some (a < b)
  | 5 => some (b ≤ a)
  | _ => none

/-- SOP (R251). -/
def rowSop : Row := ⟨0x10, fun _ => true, [(47, 5), (42, 5), (37, 5), (32, 5)],
  fun i s =>
    match sop (i.f 32 5) (i.g.getS (i.f 42 5)) (i.g.getS (i.f 37 5)) with
    | some v => .go (i.g.setS (i.f 47 5) v) s
    | none => .raise .level⟩

/-- SOPI (R251). -/
def rowSopi : Row := ⟨0x11, fun _ => true, [(47, 5), (42, 5), (32, 5), (0, 32)],
  fun i s =>
    match sop (i.f 32 5) (i.g.getS (i.f 42 5)) (unsigned 64 (signed 32 (i.f 0 32))) with
    | some v => .go (i.g.setS (i.f 47 5) v) s
    | none => .raise .level⟩

/-- SLI (R251). -/
def rowSli : Row := ⟨0x12, fun _ => true, [(47, 5), (46, 1), (0, 32)],
  regs1 (fun i =>
    i.g.setS (i.f 47 5) (if i.f 46 1 = 1 then i.g.getS (i.f 47 5) % 2 ^ 32 + i.f 0 32 * 2 ^ 32 else unsigned 64 (signed 32 (i.f 0 32))))⟩

/-- A load or store of `n` bytes of the own bobbin at A[X] + OFF: aligned to its size, in the window, and ordered by R243. -/
def Iss.own (i : Iss) (s : State) (a n align : Nat) (write : Bool) (f : Nat → Issued) : Issued :=
  match ownOff a with
  | none => .raise .illegal
  | some off =>
    if a % align ≠ 0 then .raise .illegal
    else if !s.inWindow i [(off, n)] then .raise .protection
    else if s.hazard i.key (if write then [] else [(off, n)]) (if write then [(off, n)] else []) then .hold
    else f off

/-- A[X] + OFF of a load or store. -/
def Iss.addr (i : Iss) : Nat := addOff (i.g.getA (i.f 43 4)) (i.f 0 32)

/-- SLD (R251). -/
def rowSld : Row := ⟨0x13, fun _ => true, [(47, 5), (43, 4), (0, 32)],
  fun i s =>
    i.own s i.addr 8 8 false (fun off => .go (i.g.setS (i.f 47 5) (leNat (s.bobRead i off 8))) s)⟩

/-- SST (R251). -/
def rowSst : Row := ⟨0x14, fun _ => true, [(47, 5), (43, 4), (0, 32)],
  fun i s =>
    i.own s i.addr 8 8 true (fun off => .go i.g (s.bobWrite i off (leBytes 8 (i.g.getS (i.f 47 5)))))⟩

/-- SCMP (R251). -/
def rowScmp : Row := ⟨0x15, fun _ => true, [(47, 3), (42, 5), (37, 5), (32, 3)],
  fun i s =>
    match scond (i.f 32 3) (i.g.getS (i.f 42 5)) (i.g.getS (i.f 37 5)) with
    | some b => .go (i.g.setP (i.f 47 3) (if b then 2 ^ 64 - 1 else 0)) s
    | none => .raise .level⟩

/-- AOP (R251). -/
def rowAop : Row := ⟨0x16, fun _ => true, [(48, 4), (42, 5), (41, 1), (0, 32)],
  fun i s =>
    if i.f 41 1 = 0 && 16 ≤ i.f 42 5 then .raise .illegal
    else
      let base := if i.f 41 1 = 1 then i.g.getS (i.f 42 5) else i.g.getA (i.f 42 5)
      .go (i.g.setA (i.f 48 4) (addOff base (i.f 0 32))) s⟩

/-- AGET (R251). -/
def rowAget : Row := ⟨0x17, fun _ => true, [(47, 5), (43, 4), (0, 32)],
  regs1 (fun i => i.g.setS (i.f 47 5) i.addr)⟩

/-- TLD (R251). -/
def rowTld : Row := ⟨0x18, fun _ => true, [(47, 5), (43, 4), (0, 32)],
  fun i s =>
    i.own s i.addr 16 16 false (fun off => .go (i.g.setT (i.f 47 5) (BitVec.ofNat 128 (leNat (s.bobRead i off 16)))) s)⟩

/-- TST (R251). -/
def rowTst : Row := ⟨0x19, fun _ => true, [(47, 5), (43, 4), (0, 32)],
  fun i s =>
    i.own s i.addr 16 16 true (fun off => .go i.g (s.bobWrite i off (leBytes 16 (i.g.getT (i.f 47 5)).toNat)))⟩

/-- TADJ (R251). -/
def rowTadj : Row := ⟨0x1A, fun _ => true, [(47, 5), (0, 32)],
  fun i s =>
    let t := (i.g.getT (i.f 47 5)).toNat
    let b : Int := (bits t 0 23 : Int) + signed 32 (i.f 0 32)
    if b < 0 || 0x7FFFFF < b || b % 256 ≠ 0 then .raise .illegal
    else .go (i.g.setT (i.f 47 5) (BitVec.ofNat 128 (setBits t 0 23 b.toNat))) s⟩

/-! ### System selectors (R248, R249) -/

/-- What a selector reads as, but for FLAGS; none where it is reserved. -/
def State.sysr (s : State) (i : Iss) (sel : Nat) : Option Nat × State :=
  let p := i.part
  let c := i.ctx
  match sel with
  | 0x00 => (some Config.deviceId.toNat, s)
  | 0x01 => (some (s.jobOf p c), s)
  | 0x02 => (some p, s)
  | 0x03 => (some i.engine, s)
  | 0x04 => (some c, s)
  | 0x05 => (some (i.key % 8), s)
  | 0x06 => (some (s.role p c), s)
  | 0x07 => (some (s.fld TEN_CTX_LOCK.LOCK_ACTIVE p c), s)
  | 0x08 => (some (s.reg .BAT_STEP_NUM p c), s)
  | 0x09 => (some (s.reg .BAT_CURSOR_COMMITTED p c), s)
  | 0x0A => (some (s.windowSize p c i.engine), s)
  | 0x0B => (some i.g.fpcr, s)
  | 0x0D => let (v, s) := s.fresh; (some (v % 2 ^ 64), s)
  | _ => (none, s)

/-- SYSR (R249): FLAGS waits until every vector instruction and asynchronous operation has completed. CYCLES is a free value. -/
def rowSysr : Row := ⟨0x1B, fun _ => true, [(47, 5), (32, 8)],
  fun i s =>
    if i.f 32 8 = 0x0C then .go { i.g with wait := .flags (i.f 47 5) } s
    else match s.sysr i (i.f 32 8) with
      | (some v, s) => .go (i.g.setS (i.f 47 5) v) s
      | (none, _) => .raise .level⟩

/-- SYSW (R248, R249). -/
def rowSysw : Row := ⟨0x1C, fun _ => true, [(47, 5), (32, 8)],
  fun i s =>
    let v := i.g.getS (i.f 47 5)
    if i.f 32 8 = 0x0B then (if v % 8 < 5 then .go { i.g with fpcr := v % 8 } s else .raise .level)
    else if i.f 32 8 = 0x0C then .go { i.g with flags := i.g.flags &&& (0x31F ^^^ (v &&& 0x31F)) } s
    else .raise .level⟩

/-! ### The shuttle (R252 to R254, R332, R333) -/

/-- Whether an address names the board tier. -/
def isBoard (a : Nat) : Bool := bits a 60 4 = 4

/-- The checks that a shuttle operation makes at issue (R252): addresses and length, then the knot. -/
def State.shuttleCheck (s : State) (i : Iss) (addrs : List Nat) (len : Nat) (kv : Bool) (knot : Nat) : Status :=
  firstBad [
    need (addrs.all (fun a => a % 32 = 0)) .illegal,
    need (len % 32 = 0 && 32 ≤ len && len ≤ 2 ^ 32) .illegal,
    need (!kv || s.ownsKnot i.part i.ctx knot) .protection]

/-- A shuttle operation starts. `fixed`: the status with which it completes, where one is settled already (R247, R254, R333). -/
def State.startShuttle (s : State) (i : Iss) (opcode : Nat) (kv : Bool) (knot : Nat) (w : Work) (fixed : Option Status) : State :=
  s.startAsync { id := 0, owner := .prog i.key (i.g.seq - 1) i.place opcode, part := i.part, ctx := i.ctx, engine := i.engine,
                 work := w, knot := if kv then some knot else none, status := fixed }

/-- What a shuttle instruction does: its program state waits while it has 16 operations outstanding (R253); a check that fails at issue is
its exception (R252). -/
def State.shuttle (s : State) (i : Iss) (st : Status) (f : Unit → Issued) : Issued :=
  if 16 ≤ s.asyncHeld i.key 2 then .hold else if st ≠ .ok then .raise st else f ()

/-- Whether a context is admitted in object mode. -/
def State.objectMode (s : State) (i : Iss) : Bool := s.fld PART_CTX_PLACE.MODE i.part i.ctx = 1

/-- COPY (R252, R254). -/
def rowCopy : Row := ⟨0x20, fun _ => true, [(48, 4), (44, 4), (39, 5), (36, 3), (35, 1), (24, 11)],
  fun i s =>
    let d := i.g.getA (i.f 48 4)
    let a := i.g.getA (i.f 44 4)
    let len := i.g.getS (i.f 39 5)
    let kv := i.f 35 1 = 1
    if 4 ≤ i.f 36 3 then .raise .level
    else s.shuttle i (s.shuttleCheck i [d, a] len kv (i.f 24 11)) (fun _ => .go i.g (s.startShuttle i 0x20 kv (i.f 24 11)
      (.copy a d len (if s.objectMode i then 0 else i.f 36 3))
      (if s.objectMode i && (isBoard d || isBoard a) then some .illegal else none)))⟩

/-- FILL (R252, R254). -/
def rowFillInstr : Row := ⟨0x22, fun _ => true, [(48, 4), (39, 5), (35, 1), (24, 11)],
  fun i s =>
    let d := i.g.getA (i.f 48 4)
    let len := i.g.getS (i.f 39 5)
    let kv := i.f 35 1 = 1
    s.shuttle i (s.shuttleCheck i [d] len kv (i.f 24 11)) (fun _ => .go i.g (s.startShuttle i 0x22 kv (i.f 24 11) (.fill d len)
      (if s.objectMode i && isBoard d then some .illegal else none)))⟩

/-- The place that a range of an object resolves to, by its entry's four words, and the hint of its reads (R332, R333). -/
def objectPlace (w : Nat → Nat) (off len : Nat) (toObject : Bool) : Option (Nat × Nat) :=
  let kind := bits (w 0) 1 2
  let win := bits (w 0) 32 6
  let addr := w 1
  let layer := bits (w 3) 0 32
  if !bit (w 0) 0 || kind = 3 || bits (w 0) 6 26 ≠ 0 || bits (w 0) 38 26 ≠ 0 || bits (w 2) 48 16 ≠ 0 || bits (w 3) 32 32 ≠ 0
      || addr % 4096 ≠ 0 || bits (w 2) 0 48 < off + len then none
  else if kind = 2 then
    let b := layer * 65536
    let base := if bits addr 60 4 = 3 then addr else addr + 3 * 2 ^ 60
    if win = 0 || layer = 0 || toObject || (bits addr 60 4 ≠ 3 && bits addr 40 24 ≠ 0) || b < off % b + len then none
    else some (base + off / b % win * b + off % b, bits (w 0) 3 3)
  else if win ≠ 0 || layer ≠ 0 || bits addr 60 4 ≠ 3 + kind then none
  else some (addr + off, bits (w 0) 3 3)

/-- COPYOBJ (R252, R254, R333): the placement entry is read once at issue, as hint 0x1 has it (R323). The object place that S[O] names is
a multiple of 32 exactly where its OFFSET is, since ADDR is one of 4,096 and a layer one of 64 KiB. An OFFSET that is no such multiple is
refused at issue (DEDUCED, log entry 132). -/
def rowCopyobj : Row := ⟨0x21, fun _ => true, [(48, 4), (43, 5), (38, 5), (37, 1), (35, 1), (24, 11)],
  fun i s =>
    let d := i.g.getA (i.f 48 4)
    let o := i.g.getS (i.f 43 5)
    let len := i.g.getS (i.f 38 5)
    let dir := i.f 37 1 = 1
    let kv := i.f 35 1 = 1
    let obj := bits o 48 16
    let ends := fun (s : State) (st : Status) => Issued.go i.g (s.startShuttle i 0x21 kv (i.f 24 11) (.fill d len) (some st))
    s.shuttle i (s.shuttleCheck i [d] len kv (i.f 24 11)) (fun _ =>
    if !s.objectMode i || isBoard d || s.fld PART_CTX_OBJECTS.OBJECTS i.part i.ctx ≤ obj then ends s .illegal
    else if bits o 0 48 % 32 ≠ 0 then .raise .illegal
    else match s.hbmReadAs 1 (.ctx 0 i.part i.ctx) (s.reg .PART_CTX_TABLE i.part i.ctx + 32 * obj) 32 with
      | (.ok, b, s) =>
        match objectPlace (fun k => leNat ((b.drop (8 * k)).take 8)) (bits o 0 48) len dir with
        | none => ends s .illegal
        | some (place, hint) =>
          .go i.g (s.startShuttle i 0x21 kv (i.f 24 11) (if dir then .copy d place len hint else .copy place d len hint) none)
      | (e, _, s) => ends s e)⟩

/-- WAITS (R252). -/
def rowWaits : Row := ⟨0x23, fun _ => true, [(0, 5)],
  regs1 (fun i => { i.g with wait := .shuttle (i.f 0 5) })⟩

/-- The destination of a failed copy: blocks of HBM are poisoned (R303, R304). -/
def State.poisonDest (s : State) (l : Loc) (len : Nat) : State :=
  match l with
  | .hbm a => s.poisonBlocks ((blocksOf a len).filter (fun b => !s.retired (64 * b)))
  | _ => s

/-- A write that an expander refuses leaves unspecified bytes at its destination (R328). -/
def State.spoilBoard (s : State) (d : Loc) (len : Nat) : State :=
  match d with
  | .board a =>
    let k := s.free
    { s with free := s.free + len
             board := (List.range len).foldl (fun m i => SMap.set 0 m (s.boardPlace (a + i)) (Config.freeByte (k + i))) s.board }
  | _ => s

/-- An event of R328 on a port: it is counted, recorded with its address and port, and raises its alarm. -/
def State.boardEvent (s : State) (port addr : Nat) : State :=
  ((s.bump .BTIER_PORT_UE port 0 1).logRec 8 0x0002 (0x10 + port / 2) (leBytes 8 addr ++ leBytes 1 port)).alarm 0x11

/-- The read of a copy meets an uncorrectable error, at `at'` where the source is the board tier: the event is counted where it lies, and the
destination is poisoned (R303, R306, R328). A copy whose source cannot fail so has its write refused. -/
def State.copyFails (s : State) (p : Nat) (src dst : Loc) (at' len : Nat) : State :=
  match src, dst with
  | .board _, _ => (s.boardEvent (s.boardPort at') at').poisonDest dst len
  | .hbm _, .board _ => s.spoilBoard dst len
  | .hbm _, _ => s.poisonDest dst len
  | _, .board _ => s.spoilBoard dst len
  | _, _ => ((s.bump .PART_SRAM_UE p 0 1).alarm 0x16).poisonDest dst len

/-- The first address of a run that a port of the map serves, or the run's first. -/
def State.firstOn (s : State) (a len port : Nat) : Nat :=
  (((List.range ((a + len + 4095) / 4096 - a / 4096)).map (fun i => max a ((a / 4096 + i) * 4096))).find? (fun x => s.boardPort x = port)).getD a

/-- Read a run for a shuttle operation under a hint (R254, R323). -/
def State.readHinted (s : State) (p c hint : Nat) (l : Loc) (n : Nat) : Status × List Byte × State :=
  match l with
  | .hbm a => s.hbmReadAs hint (.ctx 0 p c) a n
  | _ => s.readLoc p c l n

/-- The bytes of a shuttle operation move. `err`: its read met an uncorrectable error, on `port` where it is given, or an expander refused
its write. Its checks are made when it completes, and a refused piece refuses it whole (DESIGN CHOICE, log entry 124). -/
def State.moveBytes (s : State) (o : AsyncOp) (err : Bool) (port : Option Nat := none) : Status × State :=
  match o.status with
  | some st => (st, s)
  | none =>
  match o.work with
  | .copy src dst len hint =>
    let a := locOf o.engine src
    let d := locOf o.engine dst
    match firstBad [s.checkLoc o.part o.ctx false a len, s.checkLoc o.part o.ctx true d len] with
    | .ok =>
      if err then (.busError, s.copyFails o.part a d (match a, port with | .board x, some n => s.firstOn x len n | .board x, none => x | _, _ => 0) len)
      else match s.readHinted o.part o.ctx hint a len with
        | (.ok, b, s) => s.writeLoc o.part o.ctx d b
        | (e, _, s) => (e, s.poisonDest d len)
    | e => (e, s)
  | .fill dst len =>
    let d := locOf o.engine dst
    match s.checkLoc o.part o.ctx true d len with
    | .ok => if err && isBoard dst then (.busError, s.spoilBoard d len) else s.writeLoc o.part o.ctx d (List.replicate len 0)
    | e => (e, s)
  | _ => (.ok, s)

/-- SHUTTLE_COMPLETE (R253): the bytes move or a status is deferred, and the knot receives 1 either way. -/
def execShuttleComplete (op : Nat) (err : Bool) (s : State) : Host.Outcome State Fault Refusal :=
  .next (match s.async op with
    | some o =>
      match o.work with
      | .copy _ _ _ _ | .fill _ _ => let (st, s) := s.moveBytes o err; s.endAsync o st true
      | _ => s
    | none => s)

/-! ### Knots (R262) -/

/-- KSIG with REMOTE = 0 (R262). -/
def rowKsigLocal : Row := ⟨0x70, fun op => bits op 46 1 = 0, [(47, 5), (46, 1), (41, 5), (30, 11)],
  fun i s =>
    if s.ownsKnot i.part i.ctx (i.f 30 11) then .go i.g (s.knotAdd i.part (i.f 30 11) (i.g.getS (i.f 47 5))) else .raise .protection⟩

/-- A remote addition leaves for the knot that a word of R262 names: KNOT, partition and device. -/
def State.sendKnotAdd (s : State) (p c e : Nat) (owner : Owner) (word v : Nat) : State :=
  let op := s.nextOp
  let s := s.startAsync { id := 0, owner := owner, part := p, ctx := c, engine := e, work := .knotAdd, knot := none, status := none }
  s.sendPacket (newPacket (s.jobOf p c) (bits word 16 16) 6 (s.reg .BAT_STEP_NUM p c) 0 0 0 (bits word 0 14 + v % 2 ^ 32 * 2 ^ 32) 0 []) op 0

/-- KSIG with REMOTE = 1 (R262). -/
def rowKsigRemote : Row := ⟨0x70, fun op => bits op 46 1 = 1, [(47, 5), (46, 1), (41, 5), (30, 11)],
  fun i s =>
    let w := i.g.getS (i.f 41 5)
    if bits w 14 2 ≠ 0 || bits w 32 32 ≠ 0 then .raise .illegal
    else if (s.keySet (s.jobOf i.part i.ctx)).isNone then .raise .protection
    else .go i.g (s.sendKnotAdd i.part i.ctx i.engine (.prog i.key (i.g.seq - 1) i.place 0x70) w (i.g.getS (i.f 47 5)))⟩

/-- KSIG_REMOTE_COMPLETE (R262): no STATUS reply has come within the window of a packet that has left or has been delivered. -/
def execKsigRemoteComplete (op : Nat) (s : State) : Host.Outcome State Fault Refusal :=
  .next (match s.async op with
    | some o =>
      if o.work = .knotAdd && !(s.sent.any (fun x => x.op = op && s.loop.contains x.pk)) then
        ({ s with sent := s.sent.filter (fun x => x.op ≠ op) }).endAsync o .ok false
      else s
    | none => s)

/-- KWAIT (R262). -/
def rowKwait : Row := ⟨0x71, fun _ => true, [(47, 5), (30, 11)],
  fun i s =>
    if s.ownsKnot i.part i.ctx (i.f 30 11) then .go { i.g with wait := .knot (i.f 30 11) (i.g.getS (i.f 47 5)) } s
    else .raise .protection⟩

/-- KREAD (R262). -/
def rowKread : Row := ⟨0x72, fun _ => true, [(47, 5), (30, 11)],
  fun i s =>
    if s.ownsKnot i.part i.ctx (i.f 30 11) then .go (i.g.setS (i.f 47 5) (s.reg .KNOT_COUNT i.part (i.f 30 11))) s
    else .raise .protection⟩

/-! ### Reduction (R263, R264) -/

/-- The operand fields of RSEND, RSCAN and RCALIB. -/
def sendFields : List (Nat × Nat) := [(48, 4), (44, 4), (39, 5), (34, 5), (16, 16), (15, 1), (0, 11)]

/-- What a reduction instruction names. -/
def Iss.sendArgs (i : Iss) : SendArgs :=
  let sb := i.g.getS (i.f 39 5)
  { first := bits sb 0 32, count := bits sb 32 24, ord := bits (i.g.getS (i.f 34 5)) 0 16, fmt := i.f 44 4, red := i.f 16 16,
    src := i.g.getA (i.f 48 4) }

/-- The operation of a reduction instruction, not yet started. -/
def Iss.sendOp (i : Iss) (opcode : Nat) : AsyncOp :=
  { id := 0, owner := .prog i.key (i.g.seq - 1) i.place opcode, part := i.part, ctx := i.ctx, engine := i.engine,
    work := .send (i.f 16 16) (bits (i.g.getS (i.f 34 5)) 0 16), knot := if i.f 15 1 = 1 then some (i.f 0 11) else none, status := none }

/-- The checks of a reduction instruction at issue: reserved formats, the address, and those of `State.sendCheck`. `kind`: 0 RSEND, 1
RSCAN, 2 RCALIB. -/
def State.redIssue (s : State) (i : Iss) (kind : Nat) : Status :=
  let a := i.sendArgs
  firstBad [need (a.fmt < 0xD) .level, need (locOf i.engine a.src ≠ .bad) .illegal,
    s.sendCheck i.part i.ctx kind a (i.g.getS (i.f 39 5)) (i.g.getS (i.f 34 5)) (i.f 15 1 = 1) (i.f 0 11)]

/-- RSEND (R263). -/
def rowRsend : Row := ⟨0x80, fun _ => true, sendFields,
  fun i s =>
    match s.redIssue i 0 with
    | .ok => if i.probe then .go i.g s else .go i.g (s.rsend i.part i.ctx i.engine i.sendArgs (i.sendOp 0x80))
    | e => .raise e⟩

/-- The (RED_ID, ordinal) pairs that a context holds scan results for, or scans now. -/
def State.scanPairs (s : State) (p c : Nat) : List (Nat × Nat) :=
  ((s.stepOf p c).scans.map (fun x => (x.red, x.ord)) ++ s.asyncs.filterMap (fun o =>
    match o.work with
    | .scan r n _ => if o.part = p && o.ctx = c then some (r, n) else none
    | _ => none)).eraseDups

/-- RSCAN (R192, R263). -/
def rowRscan : Row := ⟨0x81, fun _ => true, sendFields,
  fun i s =>
    let a := i.sendArgs
    let ps := s.scanPairs i.part i.ctx
    match firstBad [s.redIssue i 1, need (ps.contains (a.red, a.ord) || ps.length < 256) .illegal] with
    | .ok => if i.probe then .go i.g s else .go i.g (s.rscan i.part i.ctx i.engine a (i.sendOp 0x81))
    | e => .raise e⟩

/-- RCALIB (R185, R263). -/
def rowRcalib : Row := ⟨0x82, fun _ => true, sendFields,
  fun i s =>
    match s.redIssue i 2 with
    | .ok => if i.probe then .go i.g s else .go i.g (s.rcalib i.part i.ctx i.engine i.sendArgs (i.sendOp 0x82))
    | e => .raise e⟩

/-- SEND_COMPLETE (R263): every packet of an RSEND or RCALIB is resolved. A send that saturated is alarmed (R400). -/
def execSendComplete (op : Nat) (s : State) : Host.Outcome State Fault Refusal :=
  .next (match s.async op with
    | some o =>
      match o.work with
      | .send _ _ =>
        if s.sent.any (fun x => x.op = op) then s
        else
          let st := o.status.getD .ok
          (if st = .saturated then s.alarm 0x28 else s).endAsync o st true
      | _ => s
    | none => s)

/-- SCAN_COMPLETE (R192): the scan's result is held for the open step. -/
def execScanComplete (op : Nat) (s : State) : Host.Outcome State Fault Refusal :=
  .next (match s.async op with
    | some o =>
      match o.work with
      | .scan red ord first =>
        let r := s.stepOf o.part o.ctx
        let s := if o.status.isNone && s.stepState o.part o.ctx = 1 then
            s.setStep o.part o.ctx { r with scans := r.scans.filter (fun x => !(x.red = red && x.ord = ord)) ++ [⟨red, ord, first⟩] }
          else s
        s.endAsync o (o.status.getD .ok) true
      | _ => s
    | none => s)

/-- The operand fields of RSLOT. -/
def rslotFields : List (Nat × Nat) := [(47, 5), (43, 4), (38, 5), (36, 2)]

/-- The descriptor words +0x04 to +0x1F of a slot. -/
def slotWords : List RegName :=
  [.RED_SLOT_ID, .RED_SLOT_STEP, .RED_SLOT_BASE, .RED_SLOT_LEN, .RED_SLOT_CONTRIB, .RED_SLOT_ACC, .RED_SLOT_WINDOW]

/-- Whether slot S[Y] is granted to the context. -/
def State.ownsSlot (s : State) (i : Iss) : Bool := (s.slotsOf i.part i.ctx).contains (i.g.getS (i.f 38 5))

/-- RSLOT with CMD OPEN (R264): the image's words reach a FREE slot (R198) and the slot opens. -/
def rowRslotOpen : Row := ⟨0x83, fun op => bits op 36 2 = 1, rslotFields,
  fun i s =>
    let t := i.g.getS (i.f 38 5)
    i.own s (i.g.getA (i.f 43 4)) 32 1 false (fun off =>
      if !s.ownsSlot i then .go (i.g.setS (i.f 47 5) Status.protection.code) s
      else
        let img := s.bobRead i off 32
        let s := if s.fld RED_SLOT_CTRL.STATE t 0 = 0 then
            (slotWords.zipIdx).foldl (fun s w => s.writeMasked w.1 t 0 (leNat ((img.drop (4 * w.2 + 4)).take 4))) s
          else s
        let (st, s) := s.openSlot i.part i.ctx t
        .go (i.g.setS (i.f 47 5) st.code) s)⟩

/-- RSLOT with CMD RELEASE (R264). -/
def rowRslotRelease : Row := ⟨0x83, fun op => bits op 36 2 = 2, rslotFields,
  fun i s =>
    if !s.ownsSlot i then .go (i.g.setS (i.f 47 5) Status.protection.code) s
    else
      let (st, s) := s.releaseSlot i.part (i.g.getS (i.f 38 5))
      .go (i.g.setS (i.f 47 5) st.code) s⟩

/-! ### Batten (R262) -/

/-- BSTEP with one of its commands: S[D] takes OK or ILLEGAL. -/
def bstep (f : State → Nat → Nat → Status × State) (i : Iss) (s : State) : Issued :=
  let (st, s) := f s i.part i.ctx
  .go (i.g.setS (i.f 47 5) st.code) s

/-- BSTEP OPEN (R220). -/
def rowBstepOpen : Row := ⟨0x90, fun op => bits op 45 2 = 1, [(47, 5), (45, 2)],
  bstep State.openCmd⟩

/-- BSTEP COMMIT (R221). -/
def rowBstepCommit : Row := ⟨0x90, fun op => bits op 45 2 = 2, [(47, 5), (45, 2)],
  bstep State.commitCmd⟩

/-- BSTEP VETO (R226). -/
def rowBstepVeto : Row := ⟨0x90, fun op => bits op 45 2 = 3, [(47, 5), (45, 2)],
  bstep State.vetoCmd⟩

/-- BSTAT (R262). -/
def rowBstat : Row := ⟨0x91, fun _ => true, [(47, 5), (46, 1)],
  fun i s =>
    if i.f 46 1 = 1 then .go { i.g with wait := .stepState (i.f 47 5) } s
    else .go (i.g.setS (i.f 47 5) (s.reg .BAT_STEP_STATUS i.part i.ctx)) s⟩

/-- BCURSOR OP 0x0 (R262). -/
def rowBcursorReadCommitted : Row := ⟨0x92, fun op => bits op 45 2 = 0, [(47, 5), (45, 2)],
  fun i s => .go (i.g.setS (i.f 47 5) (s.reg .BAT_CURSOR_COMMITTED i.part i.ctx)) s⟩

/-- BCURSOR OP 0x1 (R262). -/
def rowBcursorReadProvisional : Row := ⟨0x92, fun op => bits op 45 2 = 1, [(47, 5), (45, 2)],
  fun i s => .go (i.g.setS (i.f 47 5) (s.reg .BAT_CURSOR_PROV i.part i.ctx)) s⟩

/-- A write of the provisional cursor is discarded outside OPEN (R231). -/
def State.writeCursor (s : State) (p c v : Nat) : State := if s.stepState p c = 1 then s.setReg .BAT_CURSOR_PROV p c v else s

/-- BCURSOR OP 0x2 (R262). -/
def rowBcursorWrite : Row := ⟨0x92, fun op => bits op 45 2 = 2, [(47, 5), (45, 2)],
  fun i s => .go i.g (s.writeCursor i.part i.ctx (i.g.getS (i.f 47 5)))⟩

/-! ### Time (R262) -/

/-- TNOW (R262). -/
def rowTnow : Row := ⟨0xA0, fun _ => true, [(47, 5), (45, 2)],
  fun i s =>
    match i.f 45 2 with
    | 0 => .go (i.g.setS (i.f 47 5) s.pick) s
    | 1 => let (t, s) := s.now; .go (i.g.setS (i.f 47 5) t) s
    | 2 => .go (i.g.setS (i.f 47 5) (s.fld TIME_STATUS.FABRIC_LOCK 0 0)) s
    | _ => .raise .level⟩

/-- TWAITP (R262). -/
def rowTwaitp : Row := ⟨0xA1, fun _ => true, [(47, 5)],
  regs1 (fun i => { i.g with wait := .pick (i.g.getS (i.f 47 5)) })⟩

/-- Whether a partition's table of scheduled signals is full (R280). -/
def State.schedFull (s : State) (p : Nat) : Bool := 512 ≤ (s.sched.filter (fun x => x.part = p)).length

/-- TSCHED (R262, R280). -/
def rowTsched : Row := ⟨0xA2, fun _ => true, [(47, 5), (42, 5), (30, 11)],
  fun i s =>
    if !s.ownsKnot i.part i.ctx (i.f 30 11) then .raise .protection
    else if s.schedFull i.part then .hold
    else .go i.g { s with sched := s.sched ++ [⟨i.part, i.ctx, i.g.getS (i.f 47 5), i.f 30 11, i.g.getS (i.f 42 5), none⟩] }⟩

end Sys2Proof.Machine
end

