-- ==== Sys2Proof/Machine/Queues.lean ====
section
/-! DEFINITION. The hardware queues (R266 to R275): doorbells, enabling, fetching, the start and completion of each type of command,
passes and micro-step closes (R285), and the writes to knots (R276, R277). -/

namespace Sys2Proof.Machine
open Sys2Proof

/-! ### Queue registers -/

/-- Whether a function sees a queue (R17, R266): the physical function sees all. -/
def State.seesQueue (s : State) (p v q : Nat) : Bool := v = 0 || s.fld Q_CFG_CTRL.VF p q = v

/-- Whether the capacity checks of R268 apply to a queue. -/
def State.queueLive (s : State) (p q : Nat) : Bool := s.fld Q_CFG_CTRL.ENABLE p q = 1 && s.fld Q_STATUS.STATE p q ≠ 4

/-- A write to Q_TAIL (R267, R268). -/
def State.writeTail (s : State) (p q v : Nat) : State :=
  let s := s.setReg .Q_TAIL p q v
  if s.queueLive p q then
    if 2 ^ s.fld Q_CFG_CTRL.SIZE_LOG2 p q < (v + 2 ^ 32 - s.reg .Q_CPL_ACK p q) % 2 ^ 32 then s.queueError p q 1 else s.refreshQ p q
  else s

/-- A write to Q_CPL_ACK (R267, R268): beyond the records written, counted on from the acknowledgement before it. -/
def State.writeAck (s : State) (p q v : Nat) : State :=
  let old := s.reg .Q_CPL_ACK p q
  let s := s.setReg .Q_CPL_ACK p q v
  if s.queueLive p q && ((s.queue p q).records + 2 ^ 32 - old) % 2 ^ 32 < (v % 2 ^ 32 + 2 ^ 32 - old) % 2 ^ 32 then s.queueError p q 2 else s

/-- The first failing check of R266, as the ERR that it gives; 0 where every check passes. -/
def State.enableCheck (s : State) (p q : Nat) : Nat :=
  let sz := s.fld Q_CFG_CTRL.SIZE_LOG2 p q
  let ring := s.reg .Q_CFG_RING p q
  let cpl := s.reg .Q_CFG_CPL p q
  if s.fld Q_CFG_CTRL.OWNED p q = 0 || s.fld HANG_CTX_STATUS.STATE p (s.fld Q_CFG_CTRL.CTX p q) = 3 then 5
  else if s.fld Q_HOST_LEVEL.LEVEL p (s.fld Q_CFG_CTRL.VF p q) = 0 then 6
  else if sz < 4 || 16 < sz || ring % 4096 ≠ 0 || cpl % 4096 ≠ 0
      || (s.fld Q_CFG_CTRL.SPACE p q = 1 && (2 ^ 40 ≤ ring || 2 ^ 40 ≤ cpl)) then 5
  else 0

/-- ENABLE is set from 0 (R266). -/
def State.enableQueue (s : State) (p q : Nat) : State :=
  match s.enableCheck p q with
  | 0 =>
    let s := (((s.setFld Q_CFG_CTRL.ENABLE p q 1).setReg .Q_TAIL p q 0).setReg .Q_CPL_ACK p q 0).setReg .Q_FETCHED p q 0
    let s := s.setQueue p q { s.queue p q with records := 0 }
    ((s.setFld Q_STATUS.ERR p q 0).setFld Q_STATUS.STATE p q 1).refreshQ p q
  | e => (if e = 6 then s.alarm 0x0C else s).queueError p q e

/-- A write to Q_CFG_CTRL (R266): the fields other than ENABLE are taken only while the queue is DISABLED. -/
def State.writeQueueCtrl (s : State) (p q v : Nat) : State :=
  let old := s.reg .Q_CFG_CTRL p q
  let en := bit old 0
  let v' := if 16 < Q_CFG_CTRL.VF.of v then setBits v 9 5 (bits old 9 5) else v
  let s := if s.fld Q_STATUS.STATE p q = 0 then s.writeMasked .Q_CFG_CTRL p q (setBits v' 0 1 (b2n en)) else s
  if bit v 0 then (if en then s else s.enableQueue p q) else s.disableQueue p q

/-- DOORBELL (R268). -/
def execDoorbell (bar : Bar) (q : Fin 8192) (v : W32) (s : State) : Host.Outcome State Fault Refusal :=
  .next (s.viaTenant bar (fun p f => if s.seesQueue p f q.val then s.writeTail p q.val v.toNat else s))

/-- CPL_ACK (R268). -/
def execCplAck (bar : Bar) (q : Fin 8192) (v : W32) (s : State) : Host.Outcome State Fault Refusal :=
  .next (s.viaTenant bar (fun p f => if s.seesQueue p f q.val then s.writeAck p q.val v.toNat else s))

/-- QUEUE_ENABLE (R266): a write to Q_CFG_CTRL with ENABLE 1. -/
def execQueueEnable (bar : Bar) (q : Fin 8192) (v : W32) (s : State) : Host.Outcome State Fault Refusal :=
  .next (s.viaTenant bar (fun p f => if s.seesQueue p f q.val then s.writeQueueCtrl p q.val (setBits v.toNat 0 1 1) else s))

/-- QUEUE_DISABLE (R268): a write to Q_CFG_CTRL with ENABLE 0. -/
def execQueueDisable (bar : Bar) (q : Fin 8192) (v : W32) (s : State) : Host.Outcome State Fault Refusal :=
  .next (s.viaTenant bar (fun p f => if s.seesQueue p f q.val then s.writeQueueCtrl p q.val (setBits v.toNat 0 1 0) else s))

/-- A write to Q_HOST_LEVEL (R269). -/
def State.writeHostLevel (s : State) (p f v : Nat) : State :=
  let l := v % 16
  s.setReg .Q_HOST_LEVEL p f (l + min l 1 * 16)

/-- HOST_LEVEL_WRITE (R269): a virtual function sees only its own. -/
def execHostLevelWrite (bar : Bar) (vf : Fin 17) (v : W32) (s : State) : Host.Outcome State Fault Refusal :=
  .next (s.viaTenant bar (fun p f => if f = 0 || f = vf.val then s.writeHostLevel p vf.val v.toNat else s))

/-! ### Fetching (R268) -/

/-- The 64-bit words of a command entry. -/
def cmdWords (b : List Byte) : List W64 := (List.range 8).map (fun i => BitVec.ofNat 64 (leNat ((b.drop (8 * i)).take 8)))

/-- How many entries the next ring read of a queue takes: up to eight that the tail offers, that have room for their records, and that the
ring's end does not cut; none of a queue that is not live. -/
def State.fetchCount (s : State) (p q : Nat) : Nat :=
  let size := 2 ^ s.fld Q_CFG_CTRL.SIZE_LOG2 p q
  let i := s.reg .Q_FETCHED p q
  let avail := (s.reg .Q_TAIL p q + 2 ^ 32 - i) % 2 ^ 32
  let room := size - (i + 2 ^ 32 - s.reg .Q_CPL_ACK p q) % 2 ^ 32
  if !s.queueLive p q || size < avail then 0 else min 8 (min avail (min room (size - i % size)))

/-- The commands of a ring read, `n` of them, join their queue. -/
def State.joinRing (s : State) (p q n : Nat) (b : List Byte) : State :=
  let new : List Cmd := (List.range n).map (fun k => ⟨s.nextOp + k, cmdWords ((b.drop (64 * k)).take 64), false, false, []⟩)
  let y := s.queue p q
  ({ s.setQueue p q { y with cmds := y.cmds ++ new } with nextOp := s.nextOp + n }.setReg .Q_FETCHED p q (s.reg .Q_FETCHED p q + n)).refreshQ p q

/-- COMMAND_FETCH (R268): one ring read of up to eight entries. `err`: it met an uncorrectable error. -/
def execCommandFetch (x : QueueId) (err : Bool) (s : State) : Host.Outcome State Fault Refusal :=
  let p := x.part.val
  let q := x.q.val
  let n := s.fetchCount p q
  .next (if n = 0 then s
    else if err then s.queueError p q 4
    else
      let a := s.reg .Q_CFG_RING p q + 64 * (s.reg .Q_FETCHED p q % 2 ^ s.fld Q_CFG_CTRL.SIZE_LOG2 p q)
      let (st, b, s) := if s.fld Q_CFG_CTRL.SPACE p q = 0 then (Status.ok, readBytes s.host a (64 * n), s)
        else s.hbmRead (.ctx 6 p (s.fld Q_CFG_CTRL.CTX p q)) a (64 * n)
      match st with
      | .ok => s.joinRing p q n b
      | .busError => s.queueError p q 4
      | _ => s.queueError p q 3)

/-! ### The start of a command (R270 to R273) -/

/-- The bits that a type names in each word of a command (R270, R271); a type or KIND that is reserved names none. Word 2 of a local KSIG is
not used, and KNOT of a remote one is zero (DEDUCED, log entry 119). -/
def cmdMasks (c : Cmd) : Option (List Nat) :=
  let m := fieldMask
  let base := [(0, 4), (8, 2), (16, 16)]
  match c.type with
  | 0 => some [m base, 0, 0, 0, 0, 0, 0, 0]
  | 1 => some ([m (base ++ [(32, 24)]), m [(0, 41)]] ++ List.replicate 6 (2 ^ 64 - 1))
  | 2 => some [m (base ++ [(32, 11)]), m [(0, 32)], 0, 0, 0, 0, 0, 0]
  | 3 =>
    if bit (c.word 0) 43 then some [m (base ++ [(43, 1)]), m [(0, 32)], 2 ^ 64 - 1, 0, 0, 0, 0, 0]
    else some [m (base ++ [(32, 11)]), m [(0, 32)], 2 ^ 64 - 1, 0, 0, 0, 0, 0]
  | 4 => some [m (base ++ [(32, 11)]), 2 ^ 64 - 1, m [(0, 32)], 0, 0, 0, 0, 0]
  | 5 => if 1 ≤ bits (c.word 0) 32 3 && bits (c.word 0) 32 3 ≤ 3 then some [m (base ++ [(32, 3)]), 0, 0, 0, 0, 0, 0, 0] else none
  | _ => none

/-- Whether a command is defined at level 1 (R7, R271). Word 2 of a local KSIG may hold any value; KNOT of a remote one is zero (DEDUCED,
log entry 119). -/
def cmdLevelOk (c : Cmd) : Bool :=
  match cmdMasks c with
  | some ms => (List.range 8).all (fun i => c.word i &&& (2 ^ 64 - 1 - ms.getD i 0) = 0)
  | none => false

/-- The command of a queue that is the next to start, where the order of R273 and its FENCE let it start. -/
def State.nextCmd (s : State) (p q : Nat) : Option Cmd :=
  let cs := (s.queue p q).cmds
  if s.fld Q_STATUS.STATE p q = 4 || headWaits cs then none else (cs.dropWhile Cmd.started).head?

/-- A command cannot start yet: its queue waits. -/
def State.blockCmd (s : State) (p q : Nat) (c : Cmd) : State := s.setCmd p q { c with blocked := true }

/-- Whether an engine accepts a LAUNCH of a context: it is not in reset, and where suspects remain on it, the context is the one being
replayed (R395). -/
def State.engineTakes (s : State) (p c e : Nat) : Bool :=
  !s.resetting.contains (2, p * 48 + e) && !s.resetting.contains (3, p) &&
    (match s.suspects.find? (fun x => x.1 = p * 48 + e) with
     | none => true
     | some x => x.2 = c)

/-- The lowest free program state of an engine: one for which no unit still holds an instruction (R386). -/
def State.freeState (s : State) (p e : Nat) : Option Nat :=
  (List.range 8).find? (fun i => (s.prog (progKey p e i)).isNone && !s.unitOps.any (fun o => o.prog = progKey p e i))

/-- The engines that a LAUNCH names. -/
def launchEngines (cmd : Cmd) : List Nat := (List.range (bits (cmd.word 0) 38 6)).map (· + bits (cmd.word 0) 32 6)

/-- The checks of a LAUNCH, in the order of R272. -/
def State.launchCheck (s : State) (p c : Nat) (cmd : Cmd) : Status :=
  let w := cmd.word 0
  let e0 := bits w 32 6
  let n := bits w 38 6
  let es := launchEngines cmd
  firstBad [need (1 ≤ n && n ≤ 48 && e0 + n ≤ 48 && bits (cmd.word 1) 0 40 % 8 = 0) .illegal,
    need (es.all (fun e => s.holdsWindow p c e && 0 < s.fld PART_CTX_JOB.BOB_SIZE p c)) .protection,
    need (!bit w 44 || s.ownsKnot p c (bits w 45 11)) .protection,
    need (!es.any (fun e => bit (s.fld HANG_PART_HELD.MASK p 0) e)) .aborted]

/-- KIND of a MARK. -/
def Cmd.kind (c : Cmd) : Nat := bits (c.word 0) 32 3

/-- A context's open passes. -/
def State.passesOf (s : State) (p c : Nat) : List Pass := s.passes.filter (fun x => x.part = p && x.ctx = c)

/-- Whether the head command of a queue can start (R273, R275): its order and its FENCE let it, its context is no suspect (R395), and what it
takes is free. A command that only completes can always start. -/
def State.canStart (s : State) (p q : Nat) : Bool :=
  match s.nextCmd p q with
  | none => false
  | some cmd =>
    let c := s.fld Q_CFG_CTRL.CTX p q
    s.fld HANG_CTX_STATUS.STATE p c ≠ 1 && (!cmdLevelOk cmd ||
      (if cmd.type = 1 then s.launchCheck p c cmd ≠ .ok || (launchEngines cmd).all (fun e => cmd.copies.any (fun y => y.engine = e)
          || ((s.freeState p e).isSome && s.engineTakes p c e))
       else if cmd.type = 4 then !s.ownsKnot p c (bits (cmd.word 0) 32 11) || !s.schedFull p
       else if cmd.type = 5 then cmd.kind ≠ 1 || Decidable.decide ((s.passesOf p c).length < 16)
       else true))

/-- How far a queue is from the one after the queue last served (R275). After reset queue 0 is first (DESIGN CHOICE, log entry 118). -/
def State.queueDist (s : State) (p q : Nat) : Nat := (q + 8192 - (SMap.get 0 s.nextQueue p).toNat) % 8192

/-- Whether a queue is the one that the sequencer serves: of the queues of its partition whose head can start it has the highest PRIO, and of
equals it comes next (R275). -/
def State.queueDue (s : State) (p q : Nat) : Bool :=
  (s.queues.filter (fun x => x.1 / 8192 = p && x.1 % 8192 ≠ q)).all (fun x =>
    let r := x.1 % 8192
    !s.canStart p r || s.fld Q_CFG_CTRL.PRIO p r < s.fld Q_CFG_CTRL.PRIO p q
      || (s.fld Q_CFG_CTRL.PRIO p r = s.fld Q_CFG_CTRL.PRIO p q && s.queueDist p q < s.queueDist p r))

/-- A queue is served. -/
def State.serve (s : State) (p q : Nat) : State := { s with nextQueue := SMap.set 0 s.nextQueue p (BitVec.ofNat 32 ((q + 1) % 8192)) }

/-- The next command of a queue starts, if it is one that `is` names, the device is in Run (R414) and the queue is the one to be served
(R275). A suspect that is not being replayed starts none (R395); a command that is not defined at level 1 completes with LEVEL (R271). -/
def State.startCmd (s : State) (x : QueueId) (is : Cmd → Bool) (f : State → Nat → Nat → Nat → Cmd → State) : State :=
  let p := x.part.val
  let q := x.q.val
  let c := s.fld Q_CFG_CTRL.CTX p q
  match s.nextCmd p q with
  | some cmd =>
    if !is cmd || s.thermtrip || s.fld PWR_STATE.CURRENT 0 0 ≠ 0 then s
    else if s.fld HANG_CTX_STATUS.STATE p c = 1 then s.blockCmd p q cmd
    else if s.canStart p q && !s.queueDue p q then s
    else
      let s := if s.canStart p q then s.serve p q else s
      if !cmdLevelOk cmd then (s.progress p c).completeBare p q cmd .level
      else f s p q c cmd
  | none => s

/-- NOP_COMMAND (R271): a NOP, and a command whose TYPE is reserved. -/
def execNopCommand (x : QueueId) (s : State) : Host.Outcome State Fault Refusal :=
  .next (s.startCmd x (fun c => c.type = 0 || 6 ≤ c.type) (fun s p q c cmd => (s.progress p c).completeBare p q cmd .ok))

/-! ### LAUNCH (R272) -/

/-- A program at launch (R237). -/
def launchProg (c q : Nat) (cmd : Cmd) : Prog :=
  let g : Prog := { ctx := c, queue := q, cmd := cmd.index, pc := bits (cmd.word 1) 0 40, beam := bit (cmd.word 1) 40 }
  (List.range 6).foldl (fun g i => g.setS (i + 1) (cmd.word (i + 2))) g

/-- Each engine of a LAUNCH that has no copy yet launches one if it has a free program state and takes the context. -/
def State.placeCopies (s : State) (p c q : Nat) (cmd : Cmd) : State × Cmd :=
  ((launchEngines cmd).filter (fun e => !cmd.copies.any (fun y => y.engine = e))).foldl (fun (a : State × Cmd) e =>
    match a.1.freeState p e with
    | some i =>
      if a.1.engineTakes p c e then
        ((a.1.emptyCache (p * 48 + e)).setProg (progKey p e i) (launchProg c q cmd), { a.2 with copies := a.2.copies ++ [⟨e, none⟩] })
      else a
    | none => a) (s, cmd)

/-- LAUNCH (R272): each engine launches its copy when it has a free program state, and the command has started when every copy has. -/
def execLaunch (x : QueueId) (s : State) : Host.Outcome State Fault Refusal :=
  .next (s.startCmd x (fun c => c.type = 1) (fun s p q c cmd =>
    let st := s.launchCheck p c cmd
    if st ≠ .ok then (s.progress p c).completeBare p q cmd st
    else
      let (s, cmd) := s.placeCopies p c q cmd
      if cmd.copies.length = (launchEngines cmd).length then (s.progress p c).setCmd p q { cmd with started := true, blocked := false }
      else s.blockCmd p q cmd))

/-- How a LAUNCH ends: status, FLAGS, deciding engine and RESULT (R272, R274). -/
def launchResult (cmd : Cmd) (ends : List (Nat × Status × Nat × Nat)) : Status × Nat × Nat × Nat :=
  let ends := (List.range 48).filterMap (fun e => ends.find? (fun x => x.1 = e))
  let flags := ends.foldl (fun f x => f ||| x.2.2.1 % 1024) 0
  let first := fun (is : Status → Bool) => ends.find? (fun x => is x.2.1)
  let e0 := bits (cmd.word 0) 32 6
  let own := ((ends.find? (fun x => x.1 = e0)).map (fun x => x.2.2.2)).getD 0
  match first (fun st => !st.good) with
  | some x => (x.2.1, flags, x.1, x.2.2.2)
  | none =>
    match first (fun st => st = .saturated) with
    | some x => (.saturated, flags, x.1, x.2.2.2)
    | none =>
      match first (fun st => st = .poison) with
      | some x => (.poison, flags, x.1, x.2.2.2)
      | none => (.ok, flags, e0, own)

/-- LAUNCH_COMPLETE (R272): the oldest started LAUNCH of a queue of which every copy has ended. -/
def execLaunchComplete (x : QueueId) (s : State) : Host.Outcome State Fault Refusal :=
  let p := x.part.val
  let q := x.q.val
  .next (match (s.queue p q).cmds.find? (fun c => c.started && c.type = 1 && c.copies.all (fun y => y.ended.isSome)) with
    | none => s
    | some cmd =>
      let (st, flags, e, result) := launchResult cmd (cmd.copies.filterMap (fun y => y.ended.map (fun z => (y.engine, z))))
      let s := s.complete p q cmd st flags e result
      if bit (cmd.word 0) 44 && st.good then s.knotAdd p (bits (cmd.word 0) 45 11) 1 else s)

/-! ### Knot and time commands (R271) -/

/-- KWAIT_COMMAND (R271). -/
def execKwaitCommand (x : QueueId) (s : State) : Host.Outcome State Fault Refusal :=
  .next (s.startCmd x (fun c => c.type = 2) (fun s p q c cmd =>
    let k := bits (cmd.word 0) 32 11
    let s := s.progress p c
    if !s.ownsKnot p c k then s.completeBare p q cmd .protection
    else if bits (cmd.word 1) 0 32 ≤ s.reg .KNOT_COUNT p k then s.completeBare p q cmd .ok
    else s.setCmd p q { cmd with started := true, blocked := false }))

/-- KSIG_COMMAND (R271): a local addition is made at once; a remote one completes as the instruction's does. -/
def execKsigCommand (x : QueueId) (s : State) : Host.Outcome State Fault Refusal :=
  .next (s.startCmd x (fun c => c.type = 3) (fun s p q c cmd =>
    let k := bits (cmd.word 0) 32 11
    let v := bits (cmd.word 1) 0 32
    let w := cmd.word 2
    let s := s.progress p c
    if bit (cmd.word 0) 43 then
      if bits w 14 2 ≠ 0 || bits w 32 32 ≠ 0 then s.completeBare p q cmd .illegal
      else if (s.keySet (s.jobOf p c)).isNone then s.completeBare p q cmd .protection
      else (s.setCmd p q { cmd with started := true, blocked := false }).sendKnotAdd p c 0 (.cmd (qkey p q) cmd.index) w v
    else if s.ownsKnot p c k then (s.knotAdd p k v).completeBare p q cmd .ok
    else s.completeBare p q cmd .protection))

/-- TSIG (R271, R280): it completes when its addition is made. -/
def execTsig (x : QueueId) (s : State) : Host.Outcome State Fault Refusal :=
  .next (s.startCmd x (fun c => c.type = 4) (fun s p q c cmd =>
    let k := bits (cmd.word 0) 32 11
    if !s.ownsKnot p c k then (s.progress p c).completeBare p q cmd .protection
    else if s.schedFull p then s.blockCmd p q cmd
    else
      let s := (s.progress p c).setCmd p q { cmd with started := true, blocked := false }
      { s with sched := s.sched ++ [⟨p, c, cmd.word 1, k, bits (cmd.word 2) 0 32, some (q, cmd.index)⟩] }))

/-! ### Passes and micro-steps (R285) -/

/-- The front slots that a pass latches: those of the context's source (R229, R230). -/
def State.passSlots (s : State) (p c : Nat) : Nat × List (Nat × Nat) :=
  let (sp, sc) := s.handSource p c
  (cidx sp sc, if s.fld BAT_HANDOVER.ACTIVE p c = 1 then
    ((s.validEntries sp sc).filter (fun e => s.ent BAT_REG_CTRL.KIND sp e = 1)).map (fun e => (e, s.fld BAT_REG_SLOTS.FRONT sp e)) else [])

/-- The halves of the reserve that stand for those slots: the front half of each wide layer of the source (R124, R230). -/
def State.passHalves (s : State) (p c : Nat) : List (Nat × Nat) :=
  let (sp, sc) := s.handSource p c
  (s.wideAreas.filter (fun w => w.part = sp && w.ctx = sc && !w.gone)).map (fun w => (w.layer, w.front))

/-- PASS_OPEN (R285): a 17th pass of a context waits until one closes. A MARK of a reserved KIND starts here too, and completes with
LEVEL. -/
def execPassOpen (x : QueueId) (s : State) : Host.Outcome State Fault Refusal :=
  .next (s.startCmd x (fun c => c.type = 5 && c.kind ≠ 2 && c.kind ≠ 3) (fun s p q c cmd =>
    if 16 ≤ (s.passesOf p c).length then s.blockCmd p q cmd
    else
      let (src, slots) := s.passSlots p c
      ({ (s.progress p c) with passes := s.passes ++ [(⟨p, c, q, src, slots, s.passHalves p c⟩ : Pass)] } : State).completeBare p q cmd .ok))

/-- PASS_CLOSE (R285). -/
def execPassClose (x : QueueId) (s : State) : Host.Outcome State Fault Refusal :=
  .next (s.startCmd x (fun c => c.type = 5 && c.kind = 2) (fun s p q c cmd =>
    match s.passes.find? (fun y => y.part = p && y.queue = q) with
    | some y => ({ (s.progress p c) with passes := s.passes.erase y } : State).completeBare p q cmd .ok
    | none => (s.progress p c).completeBare p q cmd .illegal))

/-- Whether the state of a context's step lets a micro-step close (R450). -/
def State.mayClose (s : State) (p c : Nat) : Bool := s.stepState p c = 1 || (s.stepState p c = 0 && s.role p c ≠ 0)

/-- MSTEP_CLOSE (R285, R450). -/
def execMstepClose (x : QueueId) (s : State) : Host.Outcome State Fault Refusal :=
  .next (s.startCmd x (fun c => c.type = 5 && c.kind = 3) (fun s p q c cmd =>
    let s := s.progress p c
    if s.mayClose p c then (s.closeMicro p c).completeBare p q cmd .ok else s.completeBare p q cmd .illegal))

/-! ### Knots (R276, R277) -/

/-- Whether a function sees a knot. -/
def State.seesKnot (s : State) (p v k : Nat) : Bool := v = 0 || s.fld KNOT_CFG.VF p k = v

/-- KNOT_WRITE (R277). -/
def execKnotWrite (bar : Bar) (k : Fin 2048) (v : W32) (s : State) : Host.Outcome State Fault Refusal :=
  .next (s.viaTenant bar (fun p f => if s.seesKnot p f k.val then s.knotTo p k.val v.toNat else s))

/-- KNOT_ADD (R277). -/
def execKnotAdd (bar : Bar) (k : Fin 2048) (v : W32) (s : State) : Host.Outcome State Fault Refusal :=
  .next (s.viaTenant bar (fun p f => if s.seesKnot p f k.val then s.knotAdd p k.val v.toNat else s))

end Sys2Proof.Machine
end

