-- ==== Sys2Proof/Machine/Selvage.lean ====
section
/-! DEFINITION. The pair and its heartbeats (R336 to R342), the receiver of selvage packets (R340, R345, R347), risk (R348), and recovery:
resolution, rollback, promotion and restoring a context record (R355 to R358). -/

namespace Sys2Proof.Machine
open Sys2Proof

/-! ### Admission (R336, R337) -/

/-- STATE and RESULT of the pair. With the pair no longer LOST the twin-lost slot is no longer held (R399). -/
def State.pairTo (s : State) (st : Nat) (r : Status) : State :=
  let s := if st = 4 then s else s.setFld ALM_CTRL.HELD 0x17 0 0
  (s.setFld SELV_PAIR_CTRL.STATE 0 0 st).setFld SELV_PAIR_CTRL.RESULT 0 0 r.code

/-- Whether two descriptors share a feed tag. -/
def sharesFeed (a : List Nat) (b : List W64) : Bool := b.any (fun t => a.contains t.toNat)

/-- The first condition of R336 that refuses the pair, or OK. -/
def State.pairCheck (s : State) (m : PairMsg) : Status :=
  match s.tabnex, m.desc with
  | some d, some (role, feeds) =>
    if m.id.toNat ≠ d.twin then .protection
    else if b2n role = d.role then .illegal
    else if sharesFeed d.feeds feeds && !(s.fld SELV_PAIR_CTRL.OVERRIDE 0 0 = 1 && m.override) then .veto
    else .ok
  | _, _ => .protection

/-- The pair is admitted (R336, R337). The pair key that the two ends agree is a free value (R364). -/
def State.pairUp (s : State) (m : PairMsg) (d : Tabnex) (feeds : List W64) : State :=
  let (key, s) := s.freshBytes 32
  let s := { (s.pairTo 2 .ok) with streamed := [], twinFlags := 0, selvSent := [], pairKey := some key }
  let s := (s.setFld SELV_PAIR_CTRL.ROLE 0 0 d.role).setFld SELV_PAIR_CTRL.TWIN 0 0 m.id.toNat
  if sharesFeed d.feeds feeds then ({ s with commonTwin := m.id.toNat }.setFld SELV_PAIR_CTRL.COMMON_FEED 0 0 1).alarm 0x19
  else (s.setFld SELV_PAIR_CTRL.COMMON_FEED 0 0 0).setFld ALM_CTRL.HELD 0x19 0 0

/-- The device sends its identity, and the role and feed tags of its descriptor where that is valid (R336). How the message lies in its flit
the spec does not say (log entry 33). -/
def State.sendPair (s : State) : State :=
  s.sendFlit 16 (.pair Config.deviceId.toNat (s.fld SELV_PAIR_CTRL.OVERRIDE 0 0 = 1) (s.tabnex.map (fun d => (d.role, d.feeds))))

/-- A write to SELV_PAIR_CTRL: OVERRIDE, and with ADMIT the exchange with the partner, whose message is `msg` (R336, R360). Until one
comes, or with the link down, STATE is NEGOTIATING. -/
def State.writePair (s : State) (v : Nat) (msg : Option PairMsg) : State :=
  let s := s.setFld SELV_PAIR_CTRL.OVERRIDE 0 0 (bits v 1 1)
  if !bit v 0 then s
  else
    let s := s.sendPair
    if !s.linkUp 16 then s.setFld SELV_PAIR_CTRL.STATE 0 0 1
    else match msg with
      | none => s.setFld SELV_PAIR_CTRL.STATE 0 0 1
      | some m =>
        match s.pairCheck m, s.tabnex, m.desc with
        | .ok, some d, some (_, feeds) => s.pairUp m d feeds
        | e, _, _ => s.pairTo 3 e

/-- PAIR_ADMIT (R336): a write to SELV_PAIR_CTRL with ADMIT 1. -/
def execPairAdmit (v : W32) (msg : Option PairMsg) (s : State) : Host.Outcome State Fault Refusal :=
  .next (s.writePair (setBits v.toNat 0 1 1) msg)

/-! ### Heartbeats and loss (R341, R342) -/

/-- Byte 8 of a HEARTBEAT. -/
def State.beatFlags (s : State) : Nat :=
  b2n (s.fld SELV_RISK_CFG.T_ONE 0 0 ≤ s.fld SELV_RISK.VALUE 0 0) + 2 * s.fld PWR_RAIL_I.EXCURSION 0 0 + 4 * b2n s.resetCrossed

/-- A HEARTBEAT leaves. Before a pair is admitted its key is empty (DESIGN CHOICE, log entry 106). -/
def State.heartbeat (s : State) : State :=
  let (t, s) := s.now
  s.sendSelvage 0 0 0 0 0 0 (leBytes 8 t ++ leBytes 1 s.beatFlags ++ List.replicate 23 0)

/-- HEARTBEAT_SEND (R341): while the link is up. -/
def execHeartbeatSend (s : State) : Host.Outcome State Fault Refusal :=
  .next (if s.linkUp 16 then s.heartbeat else s)

/-- One mirrored context loses its twin: an open step that has not signalled aborts, and its LOSS_KNOT rises (R342). -/
def State.loseCtx (s : State) (p c : Nat) : State :=
  if s.fld SNAP_CTX_CFG.MIRROR p c = 1 && s.stepState p c = 1 then
    let s := s.abortStep p c 8
    let k := s.fld SNAP_CTX_CFG.LOSS_KNOT p c
    if s.ownsKnot p c k then s.knotAdd p k 1 else s
  else s

/-- The twin is declared lost (R342). -/
def State.twinLost (s : State) : State :=
  let s := (((s.setFld SELV_PAIR_CTRL.STATE 0 0 4).bump .SELV_LOSSES 0 0 1).alarm 0x17).stopStreams
  let s := (allCtx.filter (fun c => s.present c.1 c.2)).foldl (fun s c => s.loseCtx c.1 c.2) s
  s.flushDecisions

/-- TWIN_LOSS (R342): a PAIRED device has had no valid HEARTBEAT for 50 µs. -/
def execTwinLoss (s : State) : Host.Outcome State Fault Refusal := .next (if s.paired then s.twinLost else s)

/-- RETRAIN_COMPLETE (R167, R338): a retrain of the selvage link takes longer than 50 µs, so it ends in the loss declaration too. -/
def execRetrainComplete (port : Fin 17) (r : TrainEnd) (s : State) : Host.Outcome State Fault Refusal :=
  let l := port.val
  .next (if s.linkState l ≠ 5 then s
    else
      let s := s.endRetrain l (match r with | .done g => widthOf l g.toNat | .failed => none)
      if l = 16 && s.paired then s.twinLost else s)

/-! ### Receiving (R340, R345) -/

/-- Whether a selvage packet's reserved fields are zero, and the bytes that R341 and R279 keep zero in a HEARTBEAT and a DECISION, its level 1
and its type defined (log entry 86). -/
def skLevelOk (k : Packet) : Bool :=
  (pkType k ≠ 0 || (k.payload.drop 9).all (fun b => Decidable.decide (b = 0))) &&
  (pkType k ≠ 5 || ((k.payload.drop 10).take 22).all (fun b => Decidable.decide (b = 0))) &&
  pkLevel k = 1 && bits k.w0.toNat 8 8 = 0 && pkType k < 8 && bits k.w2.toNat 12 4 = 0 && bits k.w2.toNat 25 7 = 0
    && bits k.w2.toNat 41 7 = 0 && bits k.w2.toNat 56 8 = 0 && bits k.w3.toNat 48 16 = 0 && k.w6 = 0 && k.w7 = 0

/-- Whether LEN, STATUS, OFFSET and the payload are well formed for the type (R339, R340). The bytes that R341 and R279 keep zero are
tested with the reserved fields (DEDUCED, log entry 86). -/
def skFormOk (k : Packet) : Bool :=
  let t := pkType k
  let n := pkLen k
  k.payload.length = 32 * n && (t = 6 || skStatus k = 0) &&
  (if t = 0 then n = 1 && pkJob k = 0
   else if t = 1 then 1 ≤ n && n ≤ 256
   else if t = 2 then n = 128 && skOffset k % 4096 = 0
   else if t = 4 then 1 ≤ n && n ≤ 256 && skOffset k + 32 * n ≤ 16384
   else if t = 5 then (n = 1 || n = 17) && pkByte k 8 ≤ 2 && (n = 17) = (pkByte k 8 = dCommit)
   else n = 0)

/-- A packet is answered by an ACK, where its job's mirror key can protect one (R340, R366). -/
def State.ack (s : State) (k : Packet) (st : Status) : State :=
  s.sendSelvage 6 (pkJob k) (skCommit k) (bits k.w2.toNat 0 25 + st.code * 2 ^ 48) 0 (pkSeq k) []

/-- A packet of a job's mirror key arrives: `f` handles one that passes the checks of R340. -/
def State.receiveSelvage (s : State) (k : Packet) (f : State → State) : State :=
  let (ok, s) := s.tagCheck (2 ^ 20) k
  if !ok then s
  else
    let s := s.bump .SELV_RX_BYTES 0 0 k.payload.length
    if !skLevelOk k then s.ack k .level
    else if !s.member k then s.ack k .protection
    else if !skFormOk k then s.ack k .illegal
    else f s

/-- `f` handles a packet for the context that mirrors its sender's; without one it is answered PROTECTION. -/
def State.forPeer (s : State) (k : Packet) (f : State → Nat → Nat → State) : State :=
  match s.peerOf k with
  | some (p, c) => f s p c
  | none => s.ack k .protection

/-- A payload and its side record are stored as they arrive (R345). -/
def State.storeMirror (s : State) (k : Packet) (p c : Nat) : State :=
  let (enc, side) := s.stored k
  let base := s.mirrorSlot p c (skCommit k % 2)
  let w := Who.job 4 (pkJob k)
  match s.hbmWrite w (base + skOffset k) enc with
  | (.ok, s) =>
    match s.hbmWrite w (s.sideAt p c base (skOffset k) 8192) side with
    | (.ok, s) => s.countRx p c (skCommit k) k.payload.length
    | (e, s) => s.ack k e
  | (e, s) => s.ack k e

/-- Where the side record of a context record's packet is kept. -/
def recSideKey (p c k off : Nat) : Nat := (cidx p c * 2 + k % 2) * 16384 + off

/-- A context record's bytes are stored. -/
def State.storeRecord (s : State) (k : Packet) (p c : Nat) : State :=
  let (enc, side) := s.stored k
  match s.hbmWrite (.job 4 (pkJob k)) (s.recordAt p c (skCommit k) + skOffset k) enc with
  | (.ok, s) =>
    { s with recSides := SMap.set [] s.recSides (recSideKey p c (skCommit k) (skOffset k)) side }.countRx p c (skCommit k) k.payload.length
  | (e, s) => s.ack k e

/-- The 4,224 bytes of a delta: its payload, its side record and its commit (R345). -/
def State.deltaCell (s : State) (k : Packet) : List Byte :=
  (s.stored k).1 ++ (s.stored k).2 ++ leBytes 8 (skCommit k) ++ List.replicate 24 0

/-- Whether a delta area is past three quarters full (R347). -/
def State.deltaFull (s : State) (p c : Nat) : Bool := 3 * s.deltaRoom p c < 4 * (s.deltasOf p c).length

/-- A DELTA is appended; the area is folded as it passes three quarters full; one that would overflow it is refused (R345, R347). -/
def State.storeDelta (s : State) (k : Packet) (p c : Nat) : State :=
  match s.deltaFree p c with
  | none => s.ack k .illegal
  | some i =>
    match s.hbmWrite (.job 4 (pkJob k)) (s.reg .SNAP_DELTA_BASE p c + 4224 * i) (s.deltaCell k) with
    | (.ok, s) =>
      let was := s.deltaFull p c
      let s := { s with deltas := s.deltas ++ [(⟨p, c, i, skCommit k, skOffset k⟩ : Delta)] }.countRx p c (skCommit k) k.payload.length
      if !was && s.deltaFull p c then s.fold p c (2 ^ 64 - 1) else s
    | (e, s) => s.ack k e

/-- A POINT: OK when the bytes received for COMMIT equal ARG; the mirror point follows (R340, R345). -/
def State.takePoint (s : State) (k : Packet) (p c : Nat) : State :=
  let (commit, n) := SMap.get (0, 0) s.rxStream (cidx p c)
  let ok := (if commit = skCommit k then n else 0) = pkArg k
  let s := { s with rxStream := SMap.set (0, 0) s.rxStream (cidx p c) (0, 0) }
  if ok then (s.setReg .SNAP_RX_POINT p c (skCommit k)).ack k .ok else s.ack k .illegal

/-- A DECISION is recorded, unless ABORT is (R222, R223). -/
def State.takeDecision (s : State) (k : Packet) : State :=
  match s.twinRec (pkJob k) (pkArg k) with
  | some r => s.ack k (if r.decision = dAbort && pkByte k 8 ≠ dAbort then .illegal else .ok)
  | none =>
    { s with twinRecs := s.twinRecs ++
        [(⟨pkSrc k, pkJob k, pkArg k, pkByte k 8, leNat (k.payload.take 8), pkByte k 9, k.payload.drop 32⟩ : TwinRec)] }.ack k .ok

/-- An ACK reaches the sender of the packet it answers (R222, R345, R347). -/
def State.takeAck (s : State) (k : Packet) : State :=
  match s.selvSent.find? (fun x => pkSeq x = pkArg k && pkJob x = pkJob k) with
  | none => s
  | some x =>
    let s := { s with selvSent := s.selvSent.erase x }
    let p := skPart x
    let c := skCtx x
    let st := Status.ofCode (skStatus k)
    if pkType x = 5 then s.twinAnswered (pkJob x) (pkArg x) st
    else if pkType x = 3 then
      let s := { s with selvSent := s.selvSent.filter (fun y => !(pkType y = 2 && skPart y = p && skCtx y = c && skCommit y ≤ skCommit x)) }
      if st = .ok then { s with restreaming := s.restreaming.filter (fun y => y ≠ cidx p c) }.setReg .SNAP_TX_POINT p c (skCommit x)
      else if st = .illegal then s.restream p c
      else s
    else if st = .illegal then { s with mirrorFull := (p * 4096 + skEntry x) :: s.mirrorFull }.alarm 0x1A
    else s

/-- MIRROR (R345). -/
def execMirror (pk : Packet) (s : State) : Host.Outcome State Fault Refusal :=
  let k := asType 1 pk
  .next (s.receiveSelvage k (fun s => s.forPeer k (fun s p c => s.storeMirror k p c)))

/-- DELTA (R345). -/
def execDelta (pk : Packet) (s : State) : Host.Outcome State Fault Refusal :=
  let k := asType 2 pk
  .next (s.receiveSelvage k (fun s => s.forPeer k (fun s p c => s.storeDelta k p c)))

/-- POINT (R345). -/
def execPoint (pk : Packet) (s : State) : Host.Outcome State Fault Refusal :=
  let k := asType 3 pk
  .next (s.receiveSelvage k (fun s => s.forPeer k (fun s p c => s.takePoint k p c)))

/-- RECORD (R345). -/
def execRecord (pk : Packet) (s : State) : Host.Outcome State Fault Refusal :=
  let k := asType 4 pk
  .next (s.receiveSelvage k (fun s => s.forPeer k (fun s p c => s.storeRecord k p c)))

/-- DECISION (R222). -/
def execDecision (pk : Packet) (s : State) : Host.Outcome State Fault Refusal :=
  let k := asType 5 pk
  .next (s.receiveSelvage k (fun s => s.takeDecision k))

/-- ACK (R340). -/
def execAck (pk : Packet) (s : State) : Host.Outcome State Fault Refusal :=
  let k := asType 6 pk
  .next (s.receiveSelvage k (fun s => s.takeAck k))

/-- FLUSH (R347, R349): every mirrored context of the job folds at once, up to the commit that ARG names. -/
def execFlush (pk : Packet) (s : State) : Host.Outcome State Fault Refusal :=
  let k := asType 7 pk
  .next (s.receiveSelvage k (fun s =>
    ((s.ctxsOfJob (pkJob k)).filter (fun c => s.fld SNAP_CTX_CFG.MIRROR c.1 c.2 = 1)).foldl (fun s c => s.fold c.1 c.2 (pkArg k)) s))

/-- HEARTBEAT (R340, R341, R364): checked by its GMAC under the pair key, its level and its form; before the first pair no GMAC verifies. -/
def execHeartbeat (pk : Packet) (s : State) : Host.Outcome State Fault Refusal :=
  let k := asType 0 pk
  .next (if !k.tagOk || s.pairKey.isNone then s
    else if !skLevelOk k then s.ack k .level
    else if !skFormOk k then s.ack k .illegal
    else { (s.bump .SELV_RX_BYTES 0 0 32) with twinFlags := pkByte k 8 })

/-- FOLD (R347): the deltas of a mirrored context fold every I commits; as the area passes three quarters full they fold with the DELTA that
fills it. -/
def execFold (c : CtxId) (s : State) : Host.Outcome State Fault Refusal :=
  let p := c.part.val
  let x := c.ctx.val
  let due := (SMap.get 0 s.lastFold (cidx p x)).toNat + s.fld SELV_RISK.INTERVAL 0 0 ≤ s.reg .SNAP_RX_POINT p x
  .next (if s.fld SNAP_CTX_CFG.MIRROR p x = 1 && due then s.fold p x (2 ^ 64 - 1) else s)

/-! ### Risk (R348) -/

/-- RISK_DECAY (R348). -/
def execRiskDecay (s : State) : Host.Outcome State Fault Refusal :=
  .next (if s.mgmtStopped then s else { s with riskE := s.riskE - 1 }.riskFollow)

/-- TWIN_ELEVATED (R348): once per second while the twin's heartbeats carry ELEVATED. -/
def execTwinElevated (s : State) : Host.Outcome State Fault Refusal :=
  .next (if s.paired && bit s.twinFlags 0 then s.alarm 0x18 else s)

/-! ### Recovery (R355 to R358) -/

/-- RESULT of a SNAP_CTX_CMD. -/
def State.snapResult (s : State) (p c : Nat) (st : Status) : State := s.setFld SNAP_CTX_STATUS.RESULT p c st.code

/-- RESOLVE_COMMIT (R356): an UNDECIDED member flips at the next pick boundary. -/
def State.resolveCommit (s : State) (p c : Nat) : State :=
  if s.stepState p c = 4 then
    let s := (s.bump .BAT_FLIP_LATE p 0 1).setStep p c { s.stepOf p c with flip := some (s.pick + 1) }
    ((s.setStepStatus p c 3 0 0).snapResult p c .ok).settle
  else s.snapResult p c .illegal

/-- RESOLVE_ABORT (R356). -/
def State.resolveAbort (s : State) (p c : Nat) : State :=
  if s.stepState p c = 4 then (s.endStep p c .aborted 8).snapResult p c .ok else s.snapResult p c .illegal

/-- The old back copy of a context's exponent planes becomes its previous front, whose contents are unspecified (R357). -/
def State.spoilPlanes (s : State) (p c : Nat) : State :=
  let reds := ((s.validEntries p c).map (fun e => s.ent BAT_REG_ID.RED_ID p e)).eraseDups
  reds.foldl (fun s red =>
    match s.peerRow p c red with
    | (.ok, row, s) =>
      let k := s.free
      let s := { s with free := s.free + row.blocks }
      (s.planeWrite p c row ((s.phase p c + 1) % 3)
        ((List.range row.blocks).map (fun b => (b, signed 8 (Config.freeByte (k + b)).toNat)))).2
    | (_, _, s) => s) s

/-- An entry's slots rotate back: the new front is the old snapshot, the new back the old front, the new snapshot the old back. -/
def State.rotateBack (s : State) (p e : Nat) : State :=
  let f := s.fld BAT_REG_SLOTS.FRONT p e
  let b := s.fld BAT_REG_SLOTS.BACK p e
  let n := s.fld BAT_REG_SLOTS.SNAP p e
  s.setReg .BAT_REG_SLOTS p e (n + f * 4 + b * 16)

/-- ROLLBACK (R357). -/
def State.rollback (s : State) (p c : Nat) : State :=
  if !s.rollbackOk p c then s.snapResult p c .illegal
  else
    let es := (s.moving p c).filter (fun e => s.ent BAT_REG_CTRL.SLOTS p e = 1)
    let s := es.foldl (fun s e => s.rotateBack p e) ((s.spoilSlots p es).spoilPlanes p c)
    let s := s.setFld RED_PLANE_CFG.PHASE p c ((s.phase p c + 2) % 3)
    let s := s.setReg .BAT_COMMIT_COUNT p c (s.reg .BAT_COMMIT_COUNT p c + 2 ^ 64 - 1)
    let prev := s.reg .SNAP_PREV_CURSOR p c
    let s := (s.setReg .BAT_CURSOR_COMMITTED p c prev).setReg .BAT_CURSOR_PROV p c prev
    (s.setFld SNAP_CTX_STATUS.ROLLBACK_OK p c 0).snapResult p c .ok

/-- The bytes of a context's receive area: two mirror slots and two context records. -/
def State.rxArea (s : State) (p c : Nat) : Nat := 2 * s.reg .SNAP_RX_SLOT p c * 65536 + 32768

/-- Whether the receive area stands under MODE 0x1 cards of the context's job (R358). -/
def State.rxShared (s : State) (p c : Nat) : Bool :=
  let a := s.reg .SNAP_RX_BASE p c
  a + s.rxArea p c ≤ 2 ^ 40 && s.jobIndex (s.jobOf p c) ≠ 0
    && (pagesOf a (s.rxArea p c)).all (fun x => bits (s.card x.1) 0 12 = s.jobIndex (s.jobOf p c) + 512)

/-- PROMOTE starts (R358). -/
def State.promote (s : State) (p c : Nat) : State :=
  let r := s.reg .SNAP_RST_COUNT p c
  if s.fld SNAP_CTX_STATUS.BUSY p c = 1 then s
  else if s.reg .SNAP_RX_POINT p c < r then s.snapResult p c .illegal
  else if !s.rxShared p c || (s.keySet (s.jobOf p c)).isNone then s.snapResult p c .protection
  else { s with snapJobs := s.snapJobs ++ [(⟨p, c, true, .ok, [], false, r⟩ : SnapJob)] }.setFld SNAP_CTX_STATUS.BUSY p c 1

/-- The key of a generation of a job's K_MIRROR that the security engine still holds. -/
def KeySet.mirrorOf (k : KeySet) (gen : Nat) : Option (List Byte) :=
  if k.gen % 256 = gen then some ((k.keys.drop 32).take 32)
  else (k.retired.find? (fun x => x.1 % 256 = gen)).map (fun x => x.2.1)

/-- Decrypt stored bytes with their side record (R345, R358): the plaintext, or none where the tag fails. -/
def State.openStored (s : State) (job : Nat) (side enc : List Byte) : Option (List Byte) :=
  match (s.keySet job).bind (fun k => k.mirrorOf (leNat ((side.drop 80).take 1))) with
  | none => none
  | some key =>
    let nonce := (side.drop 32).take 8 ++ (side.drop 4).take 2 ++ (side.drop 2).take 2
    if toLen 16 (Config.gcmTag key nonce (side.take 64) enc) = (side.drop 64).take 16 then some (gcmCrypt key nonce enc) else none

/-- A read of the receiver's stores for the job; nothing where it is refused. -/
def State.peek (s : State) (job a n : Nat) : Option (List Byte) × State :=
  let (st, b, s) := s.hbmRead (.job 4 job) a n
  (if st = .ok then some b else none, s)

/-- The same of its store on the board tier. -/
def State.boardPeek (s : State) (job a n : Nat) : Option (List Byte) × State :=
  let (st, b, s) := s.boardRead (.job 4 job) a n
  (if st = .ok then some b else none, s)

/-- What looking at each of a list in turn finds. -/
def State.search {α β : Type} (f : State → α → Option β × State) (l : List α) (s : State) : List β × State :=
  l.foldl (fun (y : List β × State) x => (y.1 ++ (f y.2 x).1.toList, (f y.2 x).2)) ([], s)

/-- The type, job and commit of the packet whose side record this is. -/
def sideIs (side : List Byte) (t job commit : Nat) : Bool :=
  leNat (side.take 1) % 16 = t && leNat ((side.drop 2).take 2) = job && leNat ((side.drop 8).take 8) = commit

/-- The payload length that a side record's header gives. -/
def sideLen (side : List Byte) : Nat := 32 * (leNat ((side.drop 20).take 2) % 512)

/-- What PROMOTE decrypts, as places and plaintexts: none in a plaintext is a tag that fails (R358). -/
def State.promoted (s : State) (p c r : Nat) : List (Nat × Option (List Byte)) × State :=
  let job := s.jobOf p c
  let from' := s.mirrorSlot p c (r % 2)
  let to' := s.mirrorSlot p c 0
  let area := s.reg .SNAP_RX_SIDE p c * 65536
  let (stream, s) := State.search (fun s i =>
    match s.peek job (s.sideAt p c from' (8192 * i) 8192) 96 with
    | (some side, s) =>
      if sideIs side 1 job r then
        let (enc, s) := s.peek job (from' + 8192 * i) (sideLen side)
        (enc.map (fun enc => (to' + 8192 * i, s.openStored job side enc)), s)
      else (none, s)
    | (none, s) => (none, s)) (List.range (area / 8192)) s
  let (units, s) := State.search (fun s i =>
    let q := 4096 * i
    let ds := byCommit ((s.deltasOf p c).filter (fun d => d.off = q && d.commit ≤ r))
    match ds.getLast? with
    | some d =>
      let (b, s) := s.peek job (s.reg .SNAP_DELTA_BASE p c + 4224 * d.slot) 4192
      (b.map (fun b => (to' + q, s.openStored job (b.drop 4096) (b.take 4096))), s)
    | none =>
      match s.boardPeek job (s.sideAt p c (s.reg .SNAP_BOARD_BASE p c) q 4096) 96 with
      | (some side, s) =>
        if leNat (side.take 1) % 16 = 2 && leNat ((side.drop 2).take 2) = job then
          let (enc, s) := s.boardPeek job (s.reg .SNAP_BOARD_BASE p c + q) 4096
          (enc.map (fun enc => (to' + q, s.openStored job side enc)), s)
        else (none, s)
      | (none, s) => (none, s))
    ((List.range (area / 4096)).filter (fun i => !stream.any (fun w => w.1 = to' + 4096 * i / 8192 * 8192))) s
  let (recs, s) := State.search (fun s (x : Nat × List Byte) =>
    let o := x.1 - recSideKey p c r 0
    if !sideIs x.2 4 job r then (none, s)
    else
      let (enc, s) := s.peek job (s.recordAt p c r + o) (sideLen x.2)
      (enc.map (fun enc => (s.recordAt p c r + o, s.openStored job x.2 enc)), s))
    (s.recSides.filter (fun x => recSideKey p c r 0 ≤ x.1 && x.1 < recSideKey p c r 16384)) s
  (stream ++ units ++ recs, s)

/-- PROMOTE_COMPLETE (R358): the plaintexts up to the first failing tag stand; a failing tag completes the command with CHECKSUM. -/
def execPromoteComplete (c : CtxId) (s : State) : Host.Outcome State Fault Refusal :=
  let p := c.part.val
  let x := c.ctx.val
  .next (match s.snapJobs.find? (fun j => j.promote && j.part = p && j.ctx = x) with
    | none => s
    | some j =>
      let s := { s with snapJobs := s.snapJobs.erase j }.setFld SNAP_CTX_STATUS.BUSY p x 0
      let (ws, s) := s.promoted p x j.size
      let (st, s) := ws.foldl (fun (y : Status × State) w =>
        if y.1 ≠ .ok then y
        else match w.2 with
          | none => (.checksum, y.2)
          | some b => y.2.hbmWrite (.job 4 (y.2.jobOf p x)) w.1 b) (.ok, s)
      s.snapResult p x st)

/-- A queue takes its words of a context record, disabled and with zero indices (R355). -/
def State.restoreQueue (s : State) (p q : Nat) (b : List Byte) : State :=
  let w := fun i => leNat ((b.drop (8 * i)).take 8)
  let s := s.writeMasked .Q_CFG_CTRL p q (setBits (w 0) 0 1 0)
  let s := (s.writeMasked .Q_CFG_RING p q (w 1)).writeMasked .Q_CFG_CPL p q (w 2)
  ((s.setReg .Q_TAIL p q 0).setReg .Q_CPL_ACK p q 0).setReg .Q_FETCHED p q 0

/-- An entry of the stream table is loaded; a used one that is not at the cursor with no draws is realigned (R355). -/
def State.restoreStream (s : State) (p c i cursor : Nat) (b : List Byte) : State :=
  let id := leNat (b.take 4)
  let draws := leNat ((b.drop 4).take 4)
  let pos := leNat ((b.drop 8).take 8)
  let j := c * 16 + i
  let s := s.setReg .SNAP_STREAM_ID p j id
  if id ≠ 0 && (pos ≠ cursor || draws ≠ 0) then
    ((s.setReg .SNAP_STREAM_DRAWS p j 0).setReg .SNAP_STREAM_POS p j cursor).logRec p 0x0103 p
      (leBytes 4 id ++ leBytes 8 (unsigned 64 ((pos : Int) - cursor)) ++ leBytes 4 draws)
  else (s.setReg .SNAP_STREAM_DRAWS p j draws).setReg .SNAP_STREAM_POS p j pos

/-- RESTORE (R355). -/
def State.restore (s : State) (p c : Nat) : State :=
  if s.stepState p c ≠ 0 || (s.queuesOf p c).any (fun q => s.fld Q_CFG_CTRL.ENABLE p q = 1) then s.snapResult p c .illegal
  else match s.hbmRead (.job 4 (s.jobOf p c)) (s.reg .SNAP_RST_ADDR p c) 16384 with
    | (.ok, b, s) =>
      let at' := fun o n => (b.drop o).take n
      let cursor := leNat (at' 8 8)
      let s := s.setReg .BAT_COMMIT_COUNT p c (leNat (at' 0 8))
      let s := (s.setReg .BAT_CURSOR_COMMITTED p c cursor).setReg .BAT_CURSOR_PROV p c cursor
      let s := s.setReg .BAT_STEP_NUM p c (leNat (at' 24 4))
      let s := (((s.queuesOf p c).take 128).zipIdx).foldl (fun s q => s.restoreQueue p q.1 (at' (0x120 + 32 * q.2) 32)) s
      let s := (((s.knotRun p c).take 2048).zipIdx).foldl (fun s k => s.knotTo p k.1 (leNat (at' (0x1120 + 4 * k.2) 4))) s
      let s := if s.fld SNAP_CTX_CFG.LEAD p c = 1 then
          (List.range 16).foldl (fun s i => s.restoreStream p c i cursor (at' (0x20 + 16 * i) 16)) s else s
      s.snapResult p c .ok
    | (e, _, s) => s.snapResult p c e

/-- A write to SNAP_CTX_CMD (R361). -/
def State.snapCmd (s : State) (p c v : Nat) : State :=
  if !s.present p c then s
  else match v % 8 with
    | 1 => s.resolveCommit p c
    | 2 => s.resolveAbort p c
    | 3 => s.rollback p c
    | 4 => s.promote p c
    | 5 => s.restore p c
    | _ => s

/-- RESOLVE_COMMIT (R356). -/
def execResolveCommit (bar : Bar) (c : Fin 64) (_v : W32) (s : State) : Host.Outcome State Fault Refusal :=
  .next (s.viaPhysical bar (fun p => s.snapCmd p c.val 1))

/-- RESOLVE_ABORT (R356). -/
def execResolveAbort (bar : Bar) (c : Fin 64) (_v : W32) (s : State) : Host.Outcome State Fault Refusal :=
  .next (s.viaPhysical bar (fun p => s.snapCmd p c.val 2))

/-- ROLLBACK (R357). -/
def execRollback (bar : Bar) (c : Fin 64) (_v : W32) (s : State) : Host.Outcome State Fault Refusal :=
  .next (s.viaPhysical bar (fun p => s.snapCmd p c.val 3))

/-- PROMOTE (R358). -/
def execPromote (bar : Bar) (c : Fin 64) (_v : W32) (s : State) : Host.Outcome State Fault Refusal :=
  .next (s.viaPhysical bar (fun p => s.snapCmd p c.val 4))

/-- RESTORE (R355). -/
def execRestore (bar : Bar) (c : Fin 64) (_v : W32) (s : State) : Host.Outcome State Fault Refusal :=
  .next (s.viaPhysical bar (fun p => s.snapCmd p c.val 5))

end Sys2Proof.Machine
end

