-- ==== Sys2Proof/Machine/Hbm.lean ====
section
/-! DEFINITION. The HBM stacks' commands: single accesses (R302, R303), lane and row repair (R295, R309), the temperature readout
(R292), scrubbing (R307), the stack counters (R318, R319) and the pattern-card
commands (R317). -/

namespace Sys2Proof.Machine
open Sys2Proof

/-! ### Accesses -/

/-- An access of an agent ends: the requester receives its data, or a poisoned TLP on the host's read; a failure vetoes the batten's step
with cause 0x4 (R304). -/
def State.answer (s : State) (a : Agent) (st : Status) (bytes : List Byte) : State :=
  match a with
  | .host _ => if st = .busError then s.emit .poisoned else s.emit (.data st bytes)
  | .batten c =>
    let s := s.emit (.data st bytes)
    if st = .ok then s else s.vetoStep c.part.val c.ctx.val 4
  | _ => s.emit (.data st bytes)

/-- Whether a generator runs on a channel. -/
def State.tgRuns (s : State) (st ch : Nat) : Bool := s.fld HBM_TG_STATUS.STATE st ch = 1

/-- Whether a lane of a channel is being replaced (R295). -/
def State.laneBusyOn (s : State) (st ch : Nat) : Bool := s.laneBusy.any (fun x => x.1 = st && x.2.1 = ch)

/-- Whether the channel or the bank of an address takes no request: a lane is being replaced, a generator runs, or a row of the bank is
under repair (R295, R297, R309). (DESIGN CHOICE, log entry 120.) -/
def State.bankBusy (s : State) (a : Nat) : Bool :=
  let t := trackOf a 0
  s.laneBusyOn t.stack t.ch || s.tgRuns t.stack t.ch
    || s.repairing.any (fun x => x.stack = t.stack && x.ch = t.ch && x.pc = t.pc && x.bank = t.bank)

/-- The run of a waiting access. -/
def HbmReq.run : HbmReq → Nat × Nat
  | .read _ a n => (a, n)
  | .write _ a b _ => (a, b.length)

/-- Whether an access waits: a bank is busy, or an earlier access to one of its blocks waits (R303). -/
def State.mustWait (s : State) (r : HbmReq) : Bool :=
  (blocksOf r.run.1 r.run.2).any (fun b =>
    s.bankBusy (64 * b) || s.hbmWaiting.any (fun q => (blocksOf q.run.1 q.run.2).contains b))

/-- An access that the checks have let pass reaches the stack, and its requester hears of it. -/
def State.serveReq (s : State) : HbmReq → State
  | .read a addr n => let (st, bytes, s) := s.hbmTake (agentWho a).req 0 addr n; s.answer a st bytes
  | .write a addr bytes true => (s.poisonBlocks (blocksOf addr bytes.length)).answer a .ok []
  | .write a addr bytes false => let (st, s) := s.hbmStore (agentWho a).req addr bytes; s.answer a st []

/-- An access is served, or waits. -/
def State.takeReq (s : State) (r : HbmReq) : State :=
  if s.mustWait r then { s with hbmWaiting := s.hbmWaiting ++ [r] } else s.serveReq r

/-- The accesses that wait are served in order, but for those that must wait still. -/
def State.serveWaiting (s : State) : State := s.hbmWaiting.foldl State.takeReq { s with hbmWaiting := [] }

/-- An access after the checks of R314. -/
def State.request (s : State) (a : Agent) (write : Bool) (addr n : Nat) (r : HbmReq) : State :=
  match s.hbmCheck (agentWho a) write addr n with
  | (.ok, s) => s.takeReq r
  | (st, s) => s.answer a st []

/-- HBM_READ (R302, R314). `d`: the bits of the first block that have turned since its last access. -/
def execHbmRead (a : Agent) (addr : BitVec 40) (n : Fin 65) (d : Damage) (s : State) : Host.Outcome State Fault Refusal :=
  .next ((s.turn (addr.toNat / 64) d).request a false addr.toNat n.val (.read a addr.toNat n.val))

/-- HBM_WRITE (R303, R314). `poisoned`: a PCI Express write that came as a poisoned TLP, whose blocks take POISON and zero data. -/
def execHbmWrite (a : Agent) (addr : BitVec 40) (bytes : List Byte) (poisoned : Bool) (d : Damage) (s : State) :
    Host.Outcome State Fault Refusal :=
  .next ((s.turn (addr.toNat / 64) d).request a true addr.toNat bytes.length (.write a addr.toNat bytes poisoned))

/-! ### Repair -/

/-- The corrected symbols of a lane within the last millisecond (R295). (DEDUCED, log entry 123.) -/
def State.laneCount (s : State) (st ch lane : Nat) : Nat :=
  let t := s.reg .TIME_FABRIC 0 0
  (s.laneHits.filter (fun x => x.1 = st && x.2.1 = ch && x.2.2.1 = lane && x.2.2.2 ≤ t && t ≤ x.2.2.2 + 8000000)).length

/-- A free spare of a channel: not in use, and not found bad in training (R294). -/
def State.freeSpare (s : State) (st ch : Nat) : Option Nat :=
  [(72, s.fld HBM_CH_STATUS.LANE_A st ch), (73, s.fld HBM_CH_STATUS.LANE_B st ch)].findSome? (fun x =>
    if x.2 = 0x7F && !s.badSpares.contains (st, ch, x.1) then some x.1 else none)

/-- LANE_REPAIR (R295): where a lane has reached LANE_LIMIT corrected symbols within 1 ms, a free spare is switched in for it, or the alarm
rises once for the lane. -/
def execLaneRepair (stack : Fin 16) (ch : Fin 32) (lane : Fin 74) (s : State) : Host.Outcome State Fault Refusal :=
  let st := stack.val
  let j := ch.val
  let limit := s.fld HBM_REPAIR_CFG.LANE_LIMIT st 0
  .next (if limit = 0 || s.laneCount st j lane.val < limit || s.laneBusyOn st j then s
    else if (s.freeSpare st j).isSome then { s with laneBusy := s.laneBusy ++ [(st, j, lane.val)] }
    else if s.exhaustedLanes.contains (st, j, lane.val) then s
    else { s with exhaustedLanes := (st, j, lane.val) :: s.exhaustedLanes }.alarm 0x14)

/-- LANE_REPAIR_COMPLETE (R295, R296): a lane that a spare already replaced goes on to the other spare; the waiting requests are served. -/
def execLaneRepairComplete (stack : Fin 16) (ch : Fin 32) (s : State) : Host.Outcome State Fault Refusal :=
  let st := stack.val
  let j := ch.val
  .next (match s.laneBusy.find? (fun x => x.1 = st && x.2.1 = j) with
    | none => s
    | some x =>
      let lane := if x.2.2 = 72 then s.fld HBM_CH_STATUS.LANE_A st j else if x.2.2 = 73 then s.fld HBM_CH_STATUS.LANE_B st j else x.2.2
      let n := s.fld HBM_CH_STATUS.SPARES_USED st j
      let spare := s.freeSpare st j
      let s := { s with laneBusy := s.laneBusy.erase x }.setFld HBM_CH_STATUS.SPARES_USED st j (n + 1)
      let s := s.setFld (if spare = some 72 then HBM_CH_STATUS.LANE_A else HBM_CH_STATUS.LANE_B) st j lane
      (s.bump .HBM_LANE_REPAIRS st 0 1).serveWaiting)

/-- The 16 blocks of a row under repair are read, corrected and written back; an uncorrectable one takes POISON (R309). -/
def State.rewriteRow (s : State) (t : Track) : State :=
  (List.range 16).foldl (fun s i =>
    let b := t.addr i / 64
    match rsBlock (SMap.get [] s.damage b) with
    | some (e, _) => s.putBlock b (List.zipWith (· ^^^ ·) (readBytes s.hbm (64 * b) 64) (e ++ List.replicate 64 0))
        (xor (SMap.get false s.poison b) (bit (e.getD 71 0).toNat 0))
    | none => s.putBlock b (List.replicate 64 0) true) s

/-- SOFT_REPAIR_COMPLETE (R309): the stack's oldest soft repair ends, and its entry is SOFT; the bank's waiting requests are served. A channel
whose lane is being replaced, or that a generator has, repairs no row meanwhile (R295, R297). -/
def execSoftRepairComplete (stack : Fin 16) (s : State) : Host.Outcome State Fault Refusal :=
  .next (match s.repairing.find? (fun t => t.stack = stack.val && !s.laneBusyOn t.stack t.ch && !s.tgRuns t.stack t.ch) with
    | none => s
    | some t =>
      let s := { s with repairing := s.repairing.erase t }.rewriteRow t
      (((s.putRepair t 1).getD s).bump .HBM_SOFT_REPAIRS stack.val 0 1).serveWaiting)

/-- TEMP_READOUT (R292): a powered stack's temperature. -/
def execTempReadout (stack : Fin 16) (t : BitVec 8) (s : State) : Host.Outcome State Fault Refusal :=
  .next (if s.fld HBM_STACK_STATUS.STATE stack.val 0 = 0 then s else s.setFld HBM_STACK_STATUS.TEMP_C stack.val 0 t.toNat)

/-! ### Scrubbing (R307) -/

/-- The device address of block `i` of a pseudo-channel, in ascending order of its address. -/
def scrubAddr (st ch pc i : Nat) : Nat :=
  Track.addr ⟨st, ch, pc, bits i 4 6, bits i 10 14, 0⟩ (i % 16)

/-- The scrubber reads one block: what it corrects it writes back, its POISON with it, and what it cannot it leaves. Retired pages are
skipped. -/
def State.scrubBlock (s : State) (a : Nat) (d : Damage) : State :=
  let b := a / 64
  let s := s.turn b d
  if s.retired a then s
  else
    let found := rsBlock (SMap.get [] s.damage b)
    let (_, _, s) := s.readBlock 5 b
    match found with
    | some (e, _ :: _) => s.putBlock b (List.zipWith (· ^^^ ·) (readBytes s.hbm (64 * b) 64) (e ++ List.replicate 64 0))
        (xor (SMap.get false s.poison b) (bit (e.getD 71 0).toNat 0))
    | _ => s

/-- SCRUB_READ (R307): the next block of each pseudo-channel of a channel. `d0` and `d1`: the bits of them that have turned. A channel's
pass ends after its last block; the tracker of the stack then clears. A generator's run, the replacement of a lane and a row's repair come
first (R295). -/
def execScrubRead (stack : Fin 16) (ch : Fin 32) (d0 d1 : Damage) (s : State) : Host.Outcome State Fault Refusal :=
  let st := stack.val
  let k := st * 32 + ch.val
  let i := (SMap.get 0 s.scrubPos k).toNat
  .next (if s.fld HBM_SCRUB_CFG.ENABLE st 0 = 0 || 2 ≤ s.fld PWR_STATE.CURRENT 0 0 || s.tgRuns st ch.val
      || s.laneBusyOn st ch.val || s.repairing.any (fun t => t.stack = st && t.ch = ch.val) then s
    else
      let s := (s.scrubBlock (scrubAddr st ch.val 0 i) d0).scrubBlock (scrubAddr st ch.val 1 i) d1
      let next := (i + 1) % 2 ^ 24
      let s := { s with scrubPos := SMap.set 0 s.scrubPos k (BitVec.ofNat 64 next) }
      let s := if ch.val = 0 then s.setReg .HBM_SCRUB_POS st 0 (scrubAddr st 0 0 next) else s
      if next = 0 then { s.bump .HBM_SCRUB_PASSES st 0 1 with tracks := s.tracks.filter (fun t => t.stack ≠ st) } else s)

/-! ### Counters (R318, R319) -/

/-- The counters of a stack in the order of R318. -/
def stackCounters : List RegName :=
  [.HBM_CE, .HBM_UE, .HBM_POISON_READS, .HBM_SCRUB_PASSES, .HBM_SOFT_REPAIRS, .HBM_HARD_REPAIRS, .HBM_LANE_REPAIRS, .HBM_RETIRED_HITS]

/-- A write to HBM_COUNTER_CLEAR (R318). What HBM_CE has risen by within the second stays the rise of R319. -/
def State.clearStack (s : State) (st v : Nat) : State :=
  let n := s.reg .HBM_CE st 0
  let s := s.clearSelected stackCounters st (v % 256)
  if bit v 0 then { s with ceMark := SMap.set 0 s.ceMark st (SMap.get 0 s.ceMark st - BitVec.ofNat 64 n) } else s

/-- HBM_COUNTER_CLEAR (R318). -/
def execHbmCounterClear (stack : Fin 16) (v : W32) (s : State) : Host.Outcome State Fault Refusal := .next (s.clearStack stack.val v.toNat)

/-- CE_RATE_CHECK (R319): a second of fabric time has passed. -/
def execCeRateCheck (stack : Fin 16) (s : State) : Host.Outcome State Fault Refusal :=
  let st := stack.val
  let n := s.reg .HBM_CE st 0
  let rise := (n + 2 ^ 64 - (SMap.get 0 s.ceMark st).toNat) % 2 ^ 64
  let limit := s.fld HBM_REPAIR_CFG.CE_ALARM st 0
  let s := { s with ceMark := SMap.set 0 s.ceMark st (BitVec.ofNat 64 n) }
  .next (if limit ≠ 0 && limit < rise then s.alarm 0x12 else s)

/-! ### Pattern-card commands (R316, R317) -/

/-- A write to PART_CARD_CMD. -/
def State.writeCardCmd (s : State) (p v : Nat) : State :=
  let cmd := v % 4
  if cmd = 0 || cmd = 3 then s
  else if s.fld PART_CARD_CMD.STATE p 0 = 1 then s.setFld PART_CARD_CMD.RESULT p 0 Status.illegal.code
  else
    let first := s.fld PART_CARD_FIRST.PAGE p 0
    let n := s.fld PART_CARD_COUNT.PAGES p 0
    if cmd = 1 && (n = 0 || 2 ^ 21 < first + n) then s.setFld PART_CARD_CMD.RESULT p 0 Status.illegal.code
    else { s.setFld PART_CARD_CMD.STATE p 0 1 with
             cardOps := SMap.put s.cardOps p (cmd, first, n, s.fld PART_CARD_VALUE.CARD p 0) }

/-- CARD_FILL (R317). -/
def execCardFill (p : Fin 8) (v : W32) (s : State) : Host.Outcome State Fault Refusal := .next (s.writeCardCmd p.val (setBits v.toNat 0 2 1))

/-- COPY_ACTIVE (R317). -/
def execCopyActive (p : Fin 8) (v : W32) (s : State) : Host.Outcome State Fault Refusal := .next (s.writeCardCmd p.val (setBits v.toNat 0 2 2))

/-- The cards of a bank at the pages of a partition from `first`, `n` of them, hold what `f` gives. -/
def State.fillCards (s : State) (bank p first n : Nat) (f : Nat → Nat) : State :=
  { s with cards := (List.range n).foldl (fun m i =>
      let pg := p * 2 ^ 21 + first + i
      SMap.set 0 m (cardKey bank pg) (BitVec.ofNat 16 (f pg))) s.cards }

/-- The cards of a partition in one bank. -/
def State.cardsOf (s : State) (bank p : Nat) : SMap (BitVec 16) := s.cards.filter (fun c => c.1 / 2 ^ 24 = bank && c.1 % 2 ^ 24 / 2 ^ 21 = p)

/-- The cards with a bank of a partition holding what the other bank holds. -/
def State.copyCards (s : State) (bank p : Nat) : SMap (BitVec 16) :=
  (s.cardsOf (1 - bank) p).foldl (fun m c => SMap.set 0 m (cardKey bank (c.1 % 2 ^ 24)) c.2)
    ((s.cardsOf bank p).foldl (fun m c => SMap.erase m c.1) s.cards)

/-- CARD_COMMAND_COMPLETE (R316, R317): FILLED counts the fills and BAD says that two overlap; a copy sets FILLED to 0 and clears BAD. -/
def execCardCommandComplete (p : Fin 8) (s : State) : Host.Outcome State Fault Refusal :=
  let q := p.val
  .next (match SMap.find s.cardOps q with
    | none => s
    | some (cmd, first, n, card) =>
      let shadow := 1 - s.cardBank q
      let s := { s with cardOps := SMap.erase s.cardOps q }
      let s := (s.setFld PART_CARD_CMD.STATE q 0 0).setFld PART_CARD_CMD.RESULT q 0 0
      if cmd = 1 then
        let covered := s.fills.any (fun x => x.1 = q && x.2.1 < first + n && first < x.2.1 + x.2.2)
        let s := s.fillCards shadow q first n (fun _ => card)
        let s := (s.bumpFld TBL_SWITCH_STATUS.FILLED (8 + q) 0 1)
        let s := if covered then s.setFld TBL_SWITCH_STATUS.BAD (8 + q) 0 1 else s
        { s with fills := s.fills ++ [(q, first, n)] }
      else
        let s := { s with cards := s.copyCards shadow q, fills := s.fills.filter (fun x => x.1 ≠ q) }
        (s.setFld TBL_SWITCH_STATUS.FILLED (8 + q) 0 0).setFld TBL_SWITCH_STATUS.BAD (8 + q) 0 0)

end Sys2Proof.Machine
end

