-- ==== Sys2Proof/Machine/Generators.lean ====
section
/-! DEFINITION. The traffic generators of the channels (R297 to R299): their patterns, what a run tests and finds, and their commands. -/

namespace Sys2Proof.Machine
open Sys2Proof

/-! ### Patterns (R298) -/

/-- Bit `n` of the sequence of x^31 + x^28 + 1 whose first 31 bits, the first one highest, are given. -/
def prbs31 : Nat → BitVec 31 → Bool
  | 0, x => x.getLsbD 30
  | n + 1, x => prbs31 n (x <<< 1 ||| BitVec.ofNat 31 (b2n (xor (x.getLsbD 30) (x.getLsbD 27))))

/-- A place that a run tests: its pass, row, bank, pseudo-channel, block, lane and beat. -/
structure TgPlace where
  pass : Nat
  row : Nat
  bank : Nat
  pc : Nat
  block : Nat
  lane : Nat
  beat : Nat
  deriving DecidableEq, Repr

/-- The place of a flip. -/
def Flip.place (f : Flip) : TgPlace := ⟨f.pass, f.row.toNat, f.bank.toNat, b2n f.pc, f.block.toNat, f.lane.val, f.beat.val⟩

/-- A lane's number among those of its pseudo-channel: 32 of data, 4 of metadata, 2 spares. -/
def tgIndex (pc lane : Nat) : Nat := if lane < 64 then lane - 32 * pc else if lane < 72 then 32 + (lane - 64 - 4 * pc) else lane - 36

/-- The bit that a pattern puts at a place on beat `n` of the run (R298). -/
def tgBit (pattern seed lanes n : Nat) (x : TgPlace) : Bool :=
  let i := tgIndex x.pc x.lane
  match pattern with
  | 0 => false
  | 1 => true
  | 2 => (n + i + Config.tgPhase 2) % 2 = 1
  | 3 => i = (n + Config.tgPhase 3) % lanes
  | 4 => !decide (i = (n + Config.tgPhase 4) % lanes)
  | 5 => prbs31 n (Config.tgSeed (max 1 seed) x.lane)
  | 6 => Config.tgAddress ((x.row * 64 + x.bank) * 16 + x.block) x.lane x.beat
  | _ => Config.tgCrosstalk i n

/-! ### Runs (R297, R299) -/

/-- The lanes of a pseudo-channel that a run tests: those in use, and the two spares where it also tests them. -/
def State.tgLanes (s : State) (st ch pc : Nat) : List Nat :=
  (((List.range 32).map (fun i => 32 * pc + i) ++ (List.range 4).map (fun k => 64 + 4 * pc + k)).map (s.carrier st ch)
    ++ (if s.fld HBM_TG_CTRL.SPARES st ch = 1 then [72, 73] else [])).eraseDups

/-- The bit that a stack holds at a place (R300). -/
def State.rawBit (s : State) (st ch : Nat) (x : TgPlace) : Bool :=
  let lane := if x.lane = 72 then s.fld HBM_CH_STATUS.LANE_A st ch else if x.lane = 73 then s.fld HBM_CH_STATUS.LANE_B st ch else x.lane
  let b := Track.addr ⟨st, ch, x.pc, x.bank, x.row, 0⟩ x.block / 64
  let data := readBytes s.hbm (64 * b) 64
  let raw := List.zipWith (· ^^^ ·) (data ++ rsSide data (SMap.get false s.poison b)) (SMap.get [] s.damage b ++ List.replicate 72 0)
  let place := if lane < 64 then 2 * (lane - 32 * x.pc) else 64 + 2 * (lane - 64 - 4 * x.pc)
  if lane = 0x7F || laneOf x.pc place ≠ lane then Config.tgSpare x.lane b x.beat
  else bit (raw.getD (place + x.beat / 8) 0).toNat (x.beat % 8)

/-- How many rows of its passes a run has tested: all of them, or those that came before STOP ended it at a free row; none where it has
not ended. -/
def State.tgDone (s : State) (st ch k : Nat) : Option Nat :=
  let rows := s.fld HBM_TG_RANGE.LAST_ROW st ch + 1 - s.fld HBM_TG_RANGE.FIRST_ROW st ch
  let total := s.fld HBM_TG_CTRL.LOOPS st ch * rows
  if s.tgStopped.contains (st, ch) then some (1 + if total = 0 then k else k % total)
  else if total = 0 then none
  else some total

/-- The places of `done` rows of a run, in the order in which it comes to them (DESIGN CHOICE, log entry 121). -/
def State.tgPlaces (s : State) (st ch done : Nat) : List TgPlace :=
  let first := s.fld HBM_TG_RANGE.FIRST_ROW st ch
  let rows := s.fld HBM_TG_RANGE.LAST_ROW st ch + 1 - first
  (List.range done).flatMap (fun m => (List.range 64).flatMap (fun bank => (List.range 2).flatMap (fun pc =>
    if !bit (s.fld HBM_TG_CTRL.PC_MASK st ch) pc then []
    else (List.range 16).flatMap (fun block => (s.tgLanes st ch pc).flatMap (fun lane => (List.range 16).map (fun beat =>
      ⟨m / rows, first + m % rows, bank, pc, block, lane, beat⟩))))))

/-- Whether a place is among them. -/
def State.tgTests (s : State) (st ch done : Nat) (x : TgPlace) : Bool :=
  let first := s.fld HBM_TG_RANGE.FIRST_ROW st ch
  let rows := s.fld HBM_TG_RANGE.LAST_ROW st ch + 1 - first
  first ≤ x.row && x.row < first + rows && x.pass * rows + (x.row - first) < done && bit (s.fld HBM_TG_CTRL.PC_MASK st ch) x.pc
    && (s.tgLanes st ch x.pc).contains x.lane

/-- The places that mismatch: of a run that writes what it then compares, the bits read inverted; of one that only compares, those whose
stored bit, read so, is not the pattern's; of one that only writes, none. -/
def State.mismatches (s : State) (st ch done : Nat) (flips : List TgPlace) : List TgPlace :=
  let first := s.fld HBM_TG_RANGE.FIRST_ROW st ch
  let rows := s.fld HBM_TG_RANGE.LAST_ROW st ch + 1 - first
  match s.fld HBM_TG_CTRL.OP st ch with
  | 0 => []
  | 1 => (s.tgPlaces st ch done).filter (fun x =>
      let n := ((((x.pass * rows + (x.row - first)) * 64 + x.bank) * 16) + x.block) * 16 + x.beat
      xor (s.rawBit st ch x) (flips.contains x)
        ≠ tgBit (s.fld HBM_TG_CTRL.PATTERN st ch) (s.fld HBM_TG_SEED.SEED st ch) (s.tgLanes st ch x.pc).length n x)
  | _ => flips.filter (s.tgTests st ch done)

/-- The lanes of mismatches, as a mask. -/
def laneMask (l : List TgPlace) : Nat := ((l.map (·.lane)).eraseDups).foldl (fun m k => m + 2 ^ k) 0

/-- The RESULT of a refused START, or OK. -/
def State.tgCheck (s : State) (st ch : Nat) : Status :=
  firstBad' [(s.fld HBM_TG_CTRL.PATTERN st ch < 8 && s.fld HBM_TG_CTRL.OP st ch < 3, .level),
    (s.fld HBM_TG_RANGE.FIRST_ROW st ch ≤ s.fld HBM_TG_RANGE.LAST_ROW st ch, .illegal),
    ((s.ctxsOfPart (st / 2)).isEmpty, .protection)]
where
  /-- The status of the first condition that fails. -/
  firstBad' (l : List (Bool × Status)) : Status := ((l.find? (fun x => !x.1)).map (·.2)).getD .ok

/-- A write to HBM_TG_CTRL: its fields are taken, START begins a run or is refused, and STOP ends a run at the next row. -/
def State.writeTg (s : State) (st ch v : Nat) : State :=
  let s := s.writeMasked .HBM_TG_CTRL st ch v
  let s :=
    if HBM_TG_CTRL.START.of v = 1 && !s.tgRuns st ch then
      match s.tgCheck st ch with
      | .ok =>
        let s := ((s.setReg .HBM_TG_FAIL_LO st ch 0).setReg .HBM_TG_FAIL_HI st ch 0).setReg .HBM_TG_ERRORS st ch 0
        { (s.setReg .HBM_TG_FIRST st ch 0).setReg .HBM_TG_STATUS st ch 1 with tgStopped := s.tgStopped.filter (fun x => x ≠ (st, ch)) }
      | e => s.setFld HBM_TG_STATUS.RESULT st ch e.code
    else s
  if HBM_TG_CTRL.STOP.of v = 1 && s.tgRuns st ch then { s with tgStopped := (st, ch) :: s.tgStopped } else s

/-- TG_START (R299). -/
def execTgStart (stack : Fin 16) (ch : Fin 32) (v : W32) (s : State) : Host.Outcome State Fault Refusal :=
  .next (s.writeTg stack.val ch.val (setBits v.toNat 0 1 1))

/-- TG_STOP (R299). -/
def execTgStop (stack : Fin 16) (ch : Fin 32) (v : W32) (s : State) : Host.Outcome State Fault Refusal :=
  .next (s.writeTg stack.val ch.val (setBits v.toNat 3 1 1))

/-- Rows `first` to `last` of every bank of the pseudo-channels of a channel take zero data and a valid code (R297). -/
def State.zeroRows (s : State) (st ch mask first last : Nat) : State :=
  let hit := fun a => stackOf a = st && bits a 9 5 = ch && bit mask (bits a 8 1) && first ≤ bits a 23 14 && bits a 23 14 ≤ last
  { s.dropLines (fun l => hit (256 * l)) with
    hbm := s.hbm.filter (fun c => !hit c.1), poison := s.poison.filter (fun c => !hit (64 * c.1)),
    damage := s.damage.filter (fun c => !hit (64 * c.1)) }

/-- What a run has found goes to its registers. -/
def State.tgFound (s : State) (st ch : Nat) : List TgPlace → State
  | [] => s
  | x :: l =>
    let mask := laneMask (x :: l)
    let s := ((s.setReg .HBM_TG_FAIL_LO st ch (mask % 2 ^ 64)).setReg .HBM_TG_FAIL_HI st ch (mask / 2 ^ 64)).setReg .HBM_TG_ERRORS st ch
      (l.length + 1)
    s.setReg .HBM_TG_FIRST st ch (x.row + x.bank * 2 ^ 16 + x.pc * 2 ^ 24 + x.block * 2 ^ 25)

/-- TG_RUN_COMPLETE (R297, R299): the result, what mismatched, and the tested rows rewritten; the requests that waited are served. `flips`: the
bits read inverted, in the order in which the run came to them. -/
def execTgRunComplete (stack : Fin 16) (ch : Fin 32) (flips : List Flip) (s : State) : Host.Outcome State Fault Refusal :=
  let st := stack.val
  let j := ch.val
  let (k, s') := s.fresh
  .next (match (if s.tgRuns st j then s.tgDone st j k else none) with
    | none => s
    | some done =>
      let bad := s.mismatches st j done (flips.map Flip.place)
      let stopped := s.tgStopped.contains (st, j)
      let first := s.fld HBM_TG_RANGE.FIRST_ROW st j
      let last := min (s.fld HBM_TG_RANGE.LAST_ROW st j) (first + done - 1)
      let s := (s'.zeroRows st j (s.fld HBM_TG_CTRL.PC_MASK st j) first last).tgFound st j bad
      let result := if stopped then Status.aborted else if bad = [] then .ok else .busError
      ({ s with tgStopped := s.tgStopped.filter (fun x => x ≠ (st, j)) }.setReg .HBM_TG_STATUS st j (2 + result.code * 2 ^ 8)).serveWaiting)

end Sys2Proof.Machine
end

