-- ==== Sys2Proof/Machine/Sram.lean ====
section
/-! DEFINITION. The parity of the on-chip SRAM and what its errors do (R305, R306, R319). -/

namespace Sys2Proof.Machine
open Sys2Proof

/-- What a read makes of the checks that fail (R305). -/
inductive SramEnd where
  | clean
  | corrected
  | uncorrectable
  deriving DecidableEq, Repr

/-- How many of 16 checks fail. -/
def failing (x : BitVec 16) : Nat := ((List.range 16).filter (fun i => x.getLsbD i)).length

/-- The verdict of R305 on the failing row and column checks. -/
def sramEnd (rows cols : BitVec 16) : SramEnd :=
  match failing rows, failing cols with
  | 0, 0 => .clean
  | 1, 1 | 1, 0 | 0, 1 => .corrected
  | _, _ => .uncorrectable

/-- Where an event is counted (R306): the partition's share of bobbins and beam store, or a creel die; an instruction cache counts
nowhere. (DESIGN CHOICE, log entry 125.) -/
def State.sramCount (s : State) (p : Nat) (x : SramPlace) (part creel : RegName) : State :=
  match x with
  | .bobbin | .addressedBeam | .beamLine _ => s.bump part p 0 1
  | .accumulator t | .sideStore t =>
    match s.slotOwner t.val with
    | some (q, c) => s.bump creel (s.fld PART_CTX_ACC.DIE q c) 0 1
    | none => s
  | .held n =>
    match s.heldPackets[n]? with
    | some h => s.bump creel h.die 0 1
    | none => s
  | .icache _ => s

/-- An open slot's accumulators or side store are lost: it fails with fault kind 0x2 and its step is vetoed (R183, R306). -/
def State.failSlot (s : State) (t : Nat) : State :=
  match s.slotOwner t with
  | some (p, c) =>
    if 1 ≤ s.fld RED_SLOT_CTRL.STATE t 0 && s.fld RED_SLOT_CTRL.STATE t 0 ≤ 3 then
      let dev := Config.deviceId.toNat
      let red := s.fld RED_SLOT_ID.RED_ID t 0
      let step := s.reg .RED_SLOT_STEP t 0
      let b := s.fld RED_SLOT_BASE.BLOCK t 0
      let s := ((s.slotTo p t 4).redFault p dev 2 red 0 b step).logRedFault p dev 2 red 0 b step
      s.vetoStep p c 3
    else s
  | none => s

/-- An uncorrectable block of SRAM (R306). -/
def State.sramLost (s : State) (p : Nat) (x : SramPlace) : State :=
  let alarm := (s.sramCount p x .PART_SRAM_UE .DEV_CREEL_SRAM_UE).alarm 0x16
  match x with
  | .bobbin | .addressedBeam => alarm
  | .beamLine l => alarm.dropLine l.toNat
  | .accumulator t | .sideStore t => if (s.slotOwner t.val).isSome then alarm.failSlot t.val else s
  | .held n =>
    match s.heldPackets[n]? with
    | some h => ({ alarm with heldPackets := alarm.heldPackets.erase h }).reply h.pk .timeout
    | none => s
  | .icache e => s.emptyCache (p * 48 + e.val)

/-- SRAM_SWEEP (R305, R306): a read meets a block whose failing checks are given. -/
def execSramSweep (p : Fin 8) (e : SramError) (s : State) : Host.Outcome State Fault Refusal :=
  .next (match sramEnd e.rows e.cols with
    | .clean => s
    | .corrected => s.sramCount p.val e.place .PART_SRAM_CE .DEV_CREEL_SRAM_CE
    | .uncorrectable => s.sramLost p.val e.place)

end Sys2Proof.Machine
end

