-- ==== Sys2Proof/Machine/Custody.lean ====
section
/-! DEFINITION. Custody: device keys and attestation (R364, R370, R371), job keys (R365 to R368, R372), the lifecycle (R369), partitions,
admission and leaving (R373 to R377), and debug unlock (R383). -/

namespace Sys2Proof.Machine
open Sys2Proof

/-! ### Measurements and the alias key (R364, R370) -/

/-- The code of a function in sessions: a partition's own number, 8 for physical function 0, 9 for MCTP. -/
def funcCode : SpdmFunc → Nat
  | .partition p => p.val
  | .operator => 8
  | .mctp => 9

/-- Measurement 4: the lifecycle state and SEC_DEBUG.STATE. -/
def State.measure4 (s : State) : List Byte := leBytes 1 (s.fld SEC_LIFECYCLE.STATE 0 0) ++ leBytes 1 (s.fld SEC_DEBUG.STATE 0 0)

/-- The pin of a partition. -/
def State.pinOf (s : State) (p : Nat) : List Byte := SMap.get [] s.pins p

/-- A measurement as a function reports it. -/
def State.measurement (s : State) (f i : Nat) : List Byte :=
  if i = 1 then Config.romHash
  else if i = 4 then s.measure4
  else if i = 6 then (if f < 8 then leBytes 1 (s.fld PART_ASSIGN.STATE f 0) ++ s.pinOf f else [])
  else SMap.get [] s.measured i

/-- The alias key in use is erased and one is derived from the measurements of now. -/
def State.deriveAlias (s : State) : State :=
  { s with aliasKey := Config.sha384 (s.measurement 8 1 ++ s.measurement 8 2 ++ s.measurement 8 3 ++ s.measurement 8 4) }

/-! ### SPDM (R370) -/

/-- A response leaves. Codes are those of SPDM 1.3 (PRESUMED, log entry 34). -/
def State.spdm (s : State) (f : SpdmFunc) (code : Nat) (body : List Byte) : State := s.emit (.spdm (funcCode f) code body)

/-- A response whose body SPDM 1.3 lays out. -/
def State.spdmStd (s : State) (f : SpdmFunc) (code : Nat) : State :=
  { s with free := s.free + 1 }.spdm f code (Config.spdmBody code s.free)

/-- GET_VERSION (R370). -/
def execGetVersion (f : SpdmFunc) (s : State) : Host.Outcome State Fault Refusal := .next (s.spdmStd f 0x04)
/-- GET_CAPABILITIES (R370). -/
def execGetCapabilities (f : SpdmFunc) (s : State) : Host.Outcome State Fault Refusal := .next (s.spdmStd f 0x61)
/-- GET_DIGESTS (R370): the digest of the slot 0 chain. -/
def execGetDigests (f : SpdmFunc) (s : State) : Host.Outcome State Fault Refusal :=
  .next (s.spdm f 0x01 (Config.sha384 (Config.certChain 0 s.aliasKey)))

/-- NEGOTIATE_ALGORITHMS (R370): whether ECDSA P-384, SHA-384, secp384r1 and AES-256-GCM are among the choices; any other is refused. -/
def execNegotiateAlgorithms (f : SpdmFunc) (ecdsa sha dhe aead : Bool) (s : State) : Host.Outcome State Fault Refusal :=
  .next (if ecdsa && sha && dhe && aead then s.spdmStd f 0x63 else s.spdm f 0x7F [])

/-- GET_CERTIFICATE (R370): the slot 0 chain ends in the alias certificate. -/
def execGetCertificate (f : SpdmFunc) (slot : BitVec 4) (s : State) : Host.Outcome State Fault Refusal :=
  .next (s.spdm f 0x02 (Config.certChain slot.toNat s.aliasKey))

/-- CHALLENGE (R364, R370): signed by the alias key. -/
def execChallenge (f : SpdmFunc) (nonce : List Byte) (s : State) : Host.Outcome State Fault Refusal :=
  let k := s.free
  .next ({ s with free := k + 1 }.spdm f 0x03 (Config.aliasSign s.aliasKey (Config.spdmBody 0x03 k ++ nonce)))

/-- GET_MEASUREMENTS (R370): one measurement by index, all of them at 0xFF, their number at 0. -/
def execGetMeasurements (f : SpdmFunc) (index : BitVec 8) (s : State) : Host.Outcome State Fault Refusal :=
  let n := if funcCode f < 8 then 6 else 5
  let i := index.toNat
  .next (if i = 0 then s.spdm f 0x60 (leBytes 1 n)
    else if i ≤ n then s.spdm f 0x60 (s.measurement (funcCode f) i)
    else if i = 0xFF then s.spdm f 0x60 ((List.range n).flatMap (fun j => s.measurement (funcCode f) (j + 1)))
    else s.spdm f 0x7F [])

/-- A KEY_EXCHANGE is refused with an SPDM error and counted (R371). -/
def State.refuseSession (s : State) (f : SpdmFunc) : State := ((s.bump .SEC_SESSION_REFUSED 0 0 1).alarm 0x1D).spdm f 0x7F []

/-- A session opens. The keys that SPDM's schedule derives are free values. -/
def State.openSession (s : State) (f : SpdmFunc) (sid : Nat) (pin : List Byte) : State :=
  let (key, s) := s.freshBytes 64
  let k := s.free
  { s with sessions := (s.sessions.filter (fun (x : Session) => !(x.func = funcCode f && x.id = sid)))
                          ++ [(⟨funcCode f, sid, pin, false, 0, key⟩ : Session)],
           free := k + 1 }.spdm f 0x64 (Config.aliasSign s.aliasKey (Config.spdmBody 0x64 k))

/-- KEY_EXCHANGE (R369, R371, R383). `key`: the requester's leaf public key, where it authenticates. -/
def execKeyExchange (f : SpdmFunc) (sid : W32) (key : Option (List Byte)) (s : State) : Host.Outcome State Fault Refusal :=
  .next (match f, key with
    | .partition p, some k =>
      let h := Config.sha384 k
      let st := s.fld PART_ASSIGN.STATE p.val 0
      if s.fld SEC_LIFECYCLE.STATE 0 0 ≠ 2 || s.fld SEC_DEBUG.STATE 0 0 ≠ 0 then s.spdm f 0x7F []
      else if st = 0 || st = 3 then s.refuseSession f
      else if st = 1 then
        ({ s with pins := SMap.set [] s.pins p.val h }.setFld PART_ASSIGN.STATE p.val 0 2).openSession f sid.toNat h
      else if s.pinOf p.val = h then s.openSession f sid.toNat h
      else s.refuseSession f
    | .partition p, none =>
      if s.fld SEC_LIFECYCLE.STATE 0 0 ≠ 2 || s.fld SEC_DEBUG.STATE 0 0 ≠ 0 || s.fld PART_ASSIGN.STATE p.val 0 = 1 then s.spdm f 0x7F []
      else s.refuseSession f
    | _, _ => s.openSession f sid.toNat [])

/-- A session of a function. -/
def State.session (s : State) (f : SpdmFunc) (sid : Nat) : Option Session :=
  s.sessions.find? (fun x => x.func = funcCode f && x.id = sid)

/-- A session takes a value. -/
def State.setSession (s : State) (x : Session) : State :=
  { s with sessions := s.sessions.map (fun y => if y.func = x.func && y.id = x.id then x else y) }

/-- FINISH (R370): `ok`, whether the requester's proof verifies; a session that does not finish ends. -/
def execFinish (f : SpdmFunc) (sid : W32) (ok : Bool) (s : State) : Host.Outcome State Fault Refusal :=
  .next (match s.session f sid.toNat with
    | some x => if ok then (s.setSession { x with finished := true }).spdmStd f 0x65
        else { s with sessions := s.sessions.erase x }.spdm f 0x7F []
    | none => s.spdm f 0x7F [])

/-- KEY_UPDATE (R364, R370): the session's keys are new ones. -/
def execKeyUpdate (f : SpdmFunc) (sid : W32) (s : State) : Host.Outcome State Fault Refusal :=
  .next (match s.session f sid.toNat with
    | some x =>
      if x.finished then
        let (key, s) := s.freshBytes 64
        (s.setSession { x with updates := x.updates + 1, keys := key }).spdmStd f 0x69
      else s.spdm f 0x7F []
    | none => s.spdm f 0x7F [])

/-- END_SESSION (R370). -/
def execEndSession (f : SpdmFunc) (sid : W32) (s : State) : Host.Outcome State Fault Refusal :=
  .next (match s.session f sid.toNat with
    | some x => { s with sessions := s.sessions.erase x }.spdmStd f 0x6C
    | none => s.spdm f 0x7F [])

/-! ### Job keys (R365 to R367, R372) -/

/-- The entry of SEC_JOB takes a STATE. -/
def State.jobState (s : State) (i st : Nat) : State := s.setFld SEC_JOB.STATE i 0 st

/-- A job's key set is destroyed (R366): contexts stay; with none left its index awaits teardown. -/
def State.destroyKeys (s : State) (job : Nat) : State :=
  let s := { s with keys := s.keys.filter (fun k => k.job ≠ job), windows := s.windows.filter (fun w => w.job % 2 ^ 20 ≠ job) }
  let i := s.jobIndex job
  if i = 0 then s else s.jobState i (if s.ctxsOfJob job = [] then 3 else 2)

/-- Every key set is destroyed. -/
def State.destroyAllKeys (s : State) : State := (s.keys.map (·.job)).foldl State.destroyKeys s

/-- A custody response. -/
def State.custody (s : State) (f : SpdmFunc) (code : Nat) (st : Status) (body : List Byte) : State :=
  s.emit (.custody (funcCode f) code st.code body)

/-- A custody message inside a finished session: on a partition's function `g` answers it; elsewhere it is refused with PROTECTION
(R370, R372). Outside a session it gets an SPDM error. -/
def State.custodyMsg (s : State) (f : SpdmFunc) (sid code : Nat) (g : State → Nat → Session → Status × List Byte × State) : State :=
  match s.session f sid with
  | none => s.spdm f 0x7F []
  | some x =>
    if !x.finished then s.spdm f 0x7F []
    else match f with
      | .partition p =>
        let (st, body, s) := g s p.val x
        s.custody f code st body
      | _ => s.custody f code .protection []

/-- The JOB of a custody message. -/
def bodyJob (b : List Byte) : Nat := leNat (b.take 2)

/-- A key set is installed. -/
def State.installKeys (s : State) (job : Nat) (pin keys : List Byte) : State :=
  let s := { s with keys := s.keys ++ [(⟨job, 0, pin, keys, none, [], 0, []⟩ : KeySet)] }
  let i := s.jobIndex job
  if i = 0 then s else (s.jobState i 1).setFld SEC_JOB.KEY_GEN i 0 0

/-- JOB_KEYS_SET (R369, R372): none is installed on a RETURNED device. -/
def State.keysSet (s : State) (b : List Byte) (x : Session) : Status × List Byte × State :=
  if b.length ≠ 194 then (.illegal, [], s)
  else if s.fld SEC_LIFECYCLE.STATE 0 0 = 3 then (.protection, [], s)
  else match s.keySet (bodyJob b) with
    | some k => (if k.pin = x.pin && k.keys = b.drop 2 then .ok else .protection, [], s)
    | none => if 511 ≤ s.keys.length then (.illegal, [], s) else (.ok, [], s.installKeys (bodyJob b) x.pin (b.drop 2))

/-- JOB_KEYS_ROTATE (R367): JOB, PICK, K_WEFT and K_MIRROR and nothing more; at most two retired generations. -/
def State.keysRotate (s : State) (b : List Byte) (x : Session) : Status × List Byte × State :=
  match s.keySet (bodyJob b) with
  | none => (.protection, [], s)
  | some k =>
    if k.pin ≠ x.pin then (.protection, [], s)
    else if b.length ≠ 74 || k.next.isSome || 2 ≤ k.retired.length then (.illegal, [], s)
    else (.ok, [], { s with keys := s.keys.map (fun y => if y.job = k.job then
        { y with next := some (leNat ((b.drop 2).take 8), (b.drop 10).take 32, b.drop 42) } else y) })

/-- JOB_END (R366, R372). -/
def State.jobEnd (s : State) (b : List Byte) (x : Session) : Status × List Byte × State :=
  match s.keySet (bodyJob b) with
  | some k => if b.length ≠ 2 then (.illegal, [], s) else if k.pin = x.pin then (.ok, [], s.destroyKeys k.job) else (.protection, [], s)
  | none => (.protection, [], s)

/-- POLICY_SET (R371). -/
def State.policySet (s : State) (p : Nat) (b : List Byte) : Status × List Byte × State :=
  match b with
  | [v] => if v = 0 then (.ok, [], { s with ideWaived := p :: s.ideWaived.filter (fun q => q ≠ p) })
      else if v = 1 then (.ok, [], { s with ideWaived := s.ideWaived.filter (fun q => q ≠ p) })
      else (.illegal, [], s)
  | _ => (.illegal, [], s)

/-- What CUSTODY_STATUS returns (R372): the pin, each partition's state, and the tenant's jobs, each with its generation and the
contexts of each partition as bits. -/
def State.custodyStatus (s : State) (x : Session) : List Byte :=
  x.pin ++ (List.range 8).flatMap (fun p => leBytes 1 (s.fld PART_ASSIGN.STATE p 0))
    ++ (s.keys.filter (fun k => k.pin = x.pin)).flatMap (fun k => leBytes 2 k.job ++ leBytes 1 k.gen
      ++ (List.range 8).flatMap (fun p => leBytes 8 (((s.ctxsOfJob k.job).filter (fun c => c.1 = p)).foldl (fun a c => a + 2 ^ c.2) 0)))

/-- JOB_KEYS_SET (R372). -/
def execJobKeysSet (f : SpdmFunc) (sid : W32) (body : List Byte) (s : State) : Host.Outcome State Fault Refusal :=
  .next (s.custodyMsg f sid.toNat 1 (fun s _ x => s.keysSet body x))
/-- JOB_KEYS_ROTATE (R367). -/
def execJobKeysRotate (f : SpdmFunc) (sid : W32) (body : List Byte) (s : State) : Host.Outcome State Fault Refusal :=
  .next (s.custodyMsg f sid.toNat 2 (fun s _ x => s.keysRotate body x))
/-- JOB_END (R366). -/
def execJobEnd (f : SpdmFunc) (sid : W32) (body : List Byte) (s : State) : Host.Outcome State Fault Refusal :=
  .next (s.custodyMsg f sid.toNat 3 (fun s _ x => s.jobEnd body x))
/-- POLICY_SET (R371). -/
def execPolicySet (f : SpdmFunc) (sid : W32) (body : List Byte) (s : State) : Host.Outcome State Fault Refusal :=
  .next (s.custodyMsg f sid.toNat 4 (fun s p _ => s.policySet p body))
/-- CUSTODY_STATUS (R372). -/
def execCustodyStatus (f : SpdmFunc) (sid : W32) (_body : List Byte) (s : State) : Host.Outcome State Fault Refusal :=
  .next (s.custodyMsg f sid.toNat 5 (fun s _ x => (.ok, s.custodyStatus x, s)))

/-- The mirrored contexts of a job. -/
def State.mirroredOf (s : State) (job : Nat) : List (Nat × Nat) :=
  (s.ctxsOfJob job).filter (fun c => s.fld SNAP_CTX_CFG.MIRROR c.1 c.2 = 1)

/-- A rotation whose pick has come takes effect (R367): the new keys and generation, SEQ from 1, and the K_MIRROR before it retired. -/
def State.rotateKeys (s : State) (k : KeySet) : State :=
  match k.next with
  | none => s
  | some (at', weft, mirror) =>
    if s.pick < at' then s
    else
      let point := (s.mirroredOf k.job).foldl (fun m c => max m (s.reg .SNAP_RX_POINT c.1 c.2)) 0
      let k' : KeySet := { k with gen := k.gen + 1, keys := weft ++ mirror ++ k.keys.drop 64, next := none, old := k.keys.take 64,
                                  oldUntil := s.pick + 2, retired := k.retired ++ [(k.gen, (k.keys.drop 32).take 32, point)] }
      let s := { s with keys := s.keys.map (fun y => if y.job = k.job then k' else y),
                        sendSeq := SMap.erase (SMap.erase s.sendSeq k.job) (2 ^ 20 + k.job) }
      let i := s.jobIndex k.job
      if i = 0 then s else s.setFld SEC_JOB.KEY_GEN i 0 k'.gen

/-- Whether a delta held here was received under a generation. -/
def State.deltaUnder (s : State) (job gen : Nat) : Bool :=
  s.deltas.any (fun d => s.jobOf d.part d.ctx = job
    && readLE s.hbm (s.reg .SNAP_DELTA_BASE d.part d.ctx + 4224 * d.slot + 4096 + 80) 1 = gen)

/-- RETIRED_KEY_RELEASE (R367): once the mirror point has advanced two commits and no delta of the generation is left. -/
def execRetiredKeyRelease (job : BitVec 16) (gen : BitVec 8) (s : State) : Host.Outcome State Fault Refusal :=
  .next { s with keys := s.keys.map (fun k =>
    if k.job = job.toNat then
      { k with retired := k.retired.filter (fun r => !(r.1 % 256 = gen.toNat
          && (s.mirroredOf k.job).all (fun c => r.2.2 + 2 ≤ s.reg .SNAP_RX_POINT c.1 c.2) && !s.deltaUnder k.job gen.toNat)) }
    else k) }

/-! ### Lifecycle (R369) -/

/-- A write to SEC_LIFECYCLE. `cert`: the vendor has written the identity certificate. A move ends the tenants' sessions, which the state it
leaves alone allowed (DEDUCED, log entry 127). -/
def State.writeLifecycle (s : State) (v : Nat) (cert : Bool) : State :=
  let st := s.fld SEC_LIFECYCLE.STATE 0 0
  let ok := SEC_LIFECYCLE.ADVANCE.of v = st + 1
    && (if st = 0 then cert else if st = 1 then s.fld SEC_DEBUG.STATE 0 0 = 0 else s.zeroedAll)
  if ok then
    { (((s.setFld SEC_LIFECYCLE.STATE 0 0 (st + 1)).setFld SEC_LIFECYCLE.RESULT 0 0 0).destroyAllKeys) with
      sessions := s.sessions.filter (fun x => 8 ≤ x.func) }
  else s.setFld SEC_LIFECYCLE.RESULT 0 0 3

/-- LIFECYCLE_ADVANCE (R369). -/
def execLifecycleAdvance (v : W32) (cert : Bool) (s : State) : Host.Outcome State Fault Refusal := .next (s.writeLifecycle v.toNat cert)

/-! ### Partitions (R373, R377) -/

/-- RESULT of a partition's assignment. -/
def State.assignResult (s : State) (p : Nat) (st : Status) : State := s.setFld PART_ASSIGN.RESULT p 0 st.code

/-- Zeroisation of a partition begins: its sessions end (R371, R377). -/
def State.startZero (s : State) (p : Nat) : State :=
  { s with sessions := s.sessions.filter (fun x => x.func ≠ p) }.setFld PART_ASSIGN.STATE p 0 3

/-- A write to PART_ASSIGN (R373). -/
def State.writeAssign (s : State) (p v : Nat) : State :=
  let st := s.fld PART_ASSIGN.STATE p 0
  if bit v 20 then
    if (st = 1 || st = 2) && (List.range 64).all (fun c => !s.admitted p c) then (s.startZero p).assignResult p .ok
    else s.assignResult p .illegal
  else if st = 0 && PART_ASSIGN.OWNER.of v ≠ 0 then
    ((s.setFld PART_ASSIGN.OWNER p 0 (PART_ASSIGN.OWNER.of v)).setFld PART_ASSIGN.STATE p 0 1).assignResult p .ok
  else s.assignResult p .illegal

/-- PART_ASSIGN (R373): a write with ZERO = 0. -/
def execPartAssign (p : Fin 8) (v : W32) (s : State) : Host.Outcome State Fault Refusal :=
  .next (s.writeAssign p.val (setBits v.toNat 20 1 0))

/-- ZEROISE (R373, R377): a write with ZERO = 1. -/
def execZeroise (p : Fin 8) (v : W32) (s : State) : Host.Outcome State Fault Refusal :=
  .next (s.writeAssign p.val (setBits v.toNat 20 1 1))

/-- A write of SEC_ZERO_ALL (R377, R384): refused while any context is admitted. -/
def State.zeroAll (s : State) : State :=
  if allCtx.any (fun c => s.admitted c.1 c.2) then s
  else ((List.range 8).foldl State.startZero s.destroyAllKeys).setFld SEC_ZERO_ALL.BUSY 0 0 1

/-- ZERO_ALL (R377). -/
def execZeroAll (v : W32) (s : State) : Host.Outcome State Fault Refusal := .next (if bit v.toNat 0 then s.zeroAll else s)

/-- The registers of a partition that zeroisation clears (R377). -/
def zeroRegs : List RegName :=
  [.BAT_REG_CTRL, .BAT_REG_ID, .BAT_REG_BASE, .BAT_REG_LEN, .BAT_REG_AREA, .BAT_REG_STRIDE, .BAT_REG_LR, .BAT_REG_CLIP, .BAT_REG_SLOTS,
   .BAT_REG_GRAD, .BAT_SEQ, .BAT_PSET_SCHED, .BAT_PSET_BETA1, .BAT_PSET_BETA2, .BAT_PSET_EPS, .BAT_PSET_DECAY, .BAT_PSET_BIAS1,
   .BAT_PSET_BIAS2, .BAT_PSET_CLIP_NORM, .BAT_PSET_SCALE_LR, .BAT_PSET_W9, .BAT_PSET_W10, .BAT_PSET_W11, .BAT_PSET_W12, .BAT_PSET_W13,
   .BAT_PSET_W14, .BAT_PSET_W15, .TEN_LAYER_CFG, .TEN_LAYER_STATE, .TEN_LAYER_FNORM, .TEN_LAYER_FREF, .TEN_LAYER_GCFG, .TEN_LAYER_GSTATE,
   .TEN_LAYER_GNORM, .TEN_LAYER_GREF, .CNV_KAPPA, .CNV_OVF_LIMIT, .CNV_LAST_FAULT, .CNV_TILES_PACKED, .CNV_TILES_UNPACKED, .CNV_OUTLIERS,
   .CNV_OUTLIER_OVF, .CNV_OVF_TILES, .CNV_SATURATE, .CNV_NONFINITE, .CNV_ZERO_BLOCKS, .CNV_FLUSH, .CNV_ILLEGAL, .CNV_BUSY_CYCLES,
   .KNOT_COUNT, .KNOT_CFG, .KNOT_IRQ_AT, .Q_TAIL, .Q_CPL_ACK, .Q_FETCHED, .Q_STATUS, .Q_CFG_CTRL, .Q_CFG_RING, .Q_CFG_CPL,
   .SCHED_WIN_CLOSE, .SCHED_WIN_STATUS, .SCHED_WIN_LATE, .OWN_ID, .OWN_FIRST, .OWN_COUNT, .OWN_CTRL]

/-- Registers `rs` of partition p return to their reset values. -/
def State.clearPartRegs (s : State) (rs : List RegName) (p : Nat) : State :=
  { s with regs := s.regs.filter (fun x => !(x.1 / 2 ^ 20 % 2 ^ 20 = p && rs.any (fun r => r.ctorIdx = x.1 / 2 ^ 40))) }

/-- The cells of a store keyed by partition × `per` + rest that are not partition p's. -/
def SMap.dropPart {α : Type} (m : SMap α) (per p : Nat) : SMap α := m.filter (fun x => x.1 / per ≠ p)

/-- The stacks of a partition hold zeros with a valid code (R294, R377), and the cache holds nothing of them. -/
def State.zeroHbm (s : State) (p : Nat) : State :=
  { s.dropLines (fun l => l / 2 ^ 29 = p) with
    hbm := SMap.clearRange s.hbm (p * 2 ^ 37) (2 ^ 37), poison := SMap.clearRange s.poison (p * 2 ^ 31) (2 ^ 31),
    damage := SMap.clearRange s.damage (p * 2 ^ 31) (2 ^ 31) }

/-- The stacks of a partition are unpowered: their contents are lost, no channel is trained or up, and generator runs end with ABORTED (R294,
R296, R299, R318). -/
def State.stacksDown (s : State) (p : Nat) : State :=
  [2 * p, 2 * p + 1].foldl (fun s st =>
    let s := (List.range 32).foldl (fun s ch =>
      let s := s.setFld HBM_CH_STATUS.STATE st ch 0
      if s.tgRuns st ch then s.setReg .HBM_TG_STATUS st ch (2 + Status.aborted.code * 2 ^ 8) else s) s
    { (s.setReg .HBM_CH_UP st 0 0).setFld HBM_STACK_STATUS.STATE st 0 0 with tgStopped := s.tgStopped.filter (fun x => x.1 ≠ st) }) (s.zeroHbm p)

/-- The bobbins of a partition's engines and its beam-store share hold zeros. -/
def State.zeroSram (s : State) (p : Nat) : State :=
  { s with bobbin := SMap.clearRange s.bobbin (p * 48 * 2 ^ 23) (48 * 2 ^ 23), beam := SMap.clearRange s.beam (p * 2 ^ 26) (2 ^ 26) }

/-- The accumulators granted to a context hold zeros. -/
def State.zeroAcc (s : State) (p c : Nat) : State :=
  let a := s.fld PART_CTX_ACC.DIE p c * 786432 + s.fld PART_CTX_ACC.BASE p c
  let n := s.fld PART_CTX_ACC_LEN.BLOCKS p c
  { s with acc := SMap.clearRange s.acc (32 * a) (32 * n), accMask := SMap.clearRange s.accMask a n, accMax := SMap.clearRange s.accMax a n }

/-- Both banks of a partition's pattern cards are 0 and every zero bit is 1. -/
def State.zeroCards (s : State) (p : Nat) : State :=
  let base := p * 2 ^ 21
  { s with cards := SMap.clearRange (SMap.clearRange s.cards base (2 ^ 21)) (2 ^ 24 + base) (2 ^ 21),
           unzeroed := SMap.clearRange s.unzeroed base (2 ^ 21), fills := s.fills.filter (fun f => f.1 ≠ p) }

/-- The pin of a partition goes; a key set that no pin of its tenant is left for is destroyed (R366, R377). -/
def State.unpin (s : State) (p : Nat) : State :=
  let pin := s.pinOf p
  let s := { s with pins := SMap.set [] s.pins p [], ideWaived := s.ideWaived.filter (fun q => q ≠ p),
                    sessions := s.sessions.filter (fun x => x.func ≠ p) }
  if pin = [] || s.pins.any (fun x => x.2 = pin) then s
  else ((s.keys.filter (fun k => k.pin = pin)).map (·.job)).foldl State.destroyKeys s

/-- Everything of a partition that zeroisation clears is clear (R377), and the operator's ring in it is disabled (R404). -/
def State.zeroPart (s : State) (p : Nat) : State :=
  let s := (List.range 64).foldl (fun s c => s.zeroAcc p c) s
  let s := ((((s.zeroHbm p).zeroSram p).zeroCards p).clearPartRegs zeroRegs p).unpin p
  let s := if s.reg .LOG_OP_BASE 0 0 / 2 ^ 37 = p then s.setFld LOG_OP_CFG.ENABLE 0 0 0 else s
  { s with validated := s.validated.filter (fun x => x.1 / 2 ^ 20 % 2 ^ 20 ≠ p), queues := SMap.dropPart s.queues 8192 p,
           tension := SMap.dropPart s.tension 8192 p, deltas := s.deltas.filter (fun d => d.part ≠ p),
           recSides := SMap.dropPart s.recSides (2 ^ 21) p, rxStream := SMap.dropPart s.rxStream 64 p,
           sched := s.sched.filter (fun x => x.part ≠ p), passes := s.passes.filter (fun x => x.part ≠ p),
           wideAreas := s.wideAreas.filter (fun x => x.part ≠ p), heldPackets := s.heldPackets.filter (fun x => x.part ≠ p),
           steps := SMap.dropPart s.steps 64 p, progs := SMap.dropPart s.progs 384 p, nextTurn := SMap.dropPart s.nextTurn 48 p,
           icache := SMap.dropPart s.icache 48 p, unitOps := s.unitOps.filter (fun o => o.prog / 384 ≠ p),
           asyncs := s.asyncs.filter (fun o => o.part ≠ p) }

/-- ZEROISATION_COMPLETE (R377). -/
def execZeroisationComplete (p : Fin 8) (s : State) : Host.Outcome State Fault Refusal :=
  .next (if s.fld PART_ASSIGN.STATE p.val 0 ≠ 3 then s
    else
      let s := ((s.zeroPart p.val).setFld PART_ASSIGN.STATE p.val 0 0).setFld PART_ASSIGN.OWNER p.val 0 0
      if s.fld SEC_ZERO_ALL.BUSY 0 0 = 1 && (List.range 8).all (fun q => s.fld PART_ASSIGN.STATE q 0 ≠ 3) then
        { s with zeroedAll := true }.setFld SEC_ZERO_ALL.BUSY 0 0 0
      else s)

/-! ### Admission (R375) -/

/-- Whether two runs of numbers overlap. -/
def runsMeet (a n b m : Nat) : Bool := 0 < n && 0 < m && a < b + m && b < a + n

/-- Whether a context's grants lie in their ranges (R240, R265, R322, R334, R374). -/
def State.grantsFit (s : State) (p c : Nat) : Bool :=
  let g := fun f => s.fld f p c
  g PART_CTX_QUEUES.BASE + g PART_CTX_QUEUES.COUNT ≤ 8192
    && g PART_CTX_KNOTS.BASE + g PART_CTX_KNOTS.COUNT ≤ 2048
    && g PART_CTX_KNOTS.BASE ≤ g PART_CTX_GATHER.KNOT && g PART_CTX_GATHER.KNOT < g PART_CTX_KNOTS.BASE + g PART_CTX_KNOTS.COUNT
    && g PART_CTX_LAYERS.BASE + g PART_CTX_LAYERS.COUNT ≤ 4096
    && g PART_CTX_REGS.BASE + g PART_CTX_REGS.COUNT ≤ 4096
    && g PART_CTX_SLOTS.BASE + g PART_CTX_SLOTS.COUNT ≤ 4096
    && 1 ≤ g PART_CTX_JOB.BOB_SIZE && g PART_CTX_JOB.BOB_BASE + g PART_CTX_JOB.BOB_SIZE ≤ 96
    && g PART_CTX_ACC.BASE + g PART_CTX_ACC_LEN.BLOCKS ≤ 786432
    && g PART_CTX_RESV_ADDR.ADDR % 65536 = 0 && g PART_CTX_RESV_ADDR.ADDR + g PART_CTX_RESV.UNITS * 65536 ≤ 2 ^ 40
    && g PART_CTX_PLACE.BEAM_BASE + g PART_CTX_PLACE.BEAM_SIZE ≤ s.fld PART_BEAM_SPLIT.ADDR_MIB p 0
    && (g PART_CTX_PLACE.MODE = 0 || (g PART_CTX_OBJECTS.OBJECTS ≤ 65536 && g PART_CTX_TABLE.ADDR % 65536 = 0))

/-- Whether the grants of two contexts overlap: those of a partition within it, slots, accumulators and reserves on the device. -/
def State.grantsMeet (s : State) (p c q d : Nat) : Bool :=
  let meet := fun (b n : Field) => runsMeet (s.fld b p c) (s.fld n p c) (s.fld b q d) (s.fld n q d)
  meet PART_CTX_SLOTS.BASE PART_CTX_SLOTS.COUNT
    || (s.fld PART_CTX_ACC.DIE p c = s.fld PART_CTX_ACC.DIE q d && meet PART_CTX_ACC.BASE PART_CTX_ACC_LEN.BLOCKS)
    || runsMeet (s.fld PART_CTX_RESV_ADDR.ADDR p c) (s.fld PART_CTX_RESV.UNITS p c * 65536) (s.fld PART_CTX_RESV_ADDR.ADDR q d)
        (s.fld PART_CTX_RESV.UNITS q d * 65536)
    || (p = q && (meet PART_CTX_QUEUES.BASE PART_CTX_QUEUES.COUNT || meet PART_CTX_KNOTS.BASE PART_CTX_KNOTS.COUNT
        || meet PART_CTX_LAYERS.BASE PART_CTX_LAYERS.COUNT || meet PART_CTX_REGS.BASE PART_CTX_REGS.COUNT
        || meet PART_CTX_PLACE.BEAM_BASE PART_CTX_PLACE.BEAM_SIZE
        || (s.fld PART_CTX_ENGINES.MASK p c &&& s.fld PART_CTX_ENGINES.MASK q d ≠ 0 && meet PART_CTX_JOB.BOB_BASE PART_CTX_JOB.BOB_SIZE)))

/-- Whether the placement modes of a job's contexts allow one more (R331). -/
def State.modesFit (s : State) (p c : Nat) : Bool :=
  let others := s.ctxsOfJob (s.jobOf p c)
  let m := s.fld PART_CTX_PLACE.MODE p c
  others.all (fun d => s.fld PART_CTX_PLACE.MODE d.1 d.2 = m) && (m = 1 || others.length < 2)

/-- The index that a job holds or would take (R375). -/
def State.indexFor (s : State) (job : Nat) : Option Nat :=
  let i := s.jobIndex job
  if i ≠ 0 then some i else (List.range 512).find? (fun i => 0 < i && s.fld SEC_JOB.STATE i 0 = 0)

/-- Whether a partition's stacks are in service (R294). -/
def State.inService (s : State) (p : Nat) : Bool :=
  s.fld HBM_STACK_STATUS.STATE (2 * p) 0 ≠ 2 && s.fld HBM_STACK_STATUS.STATE (2 * p + 1) 0 ≠ 2

/-- The first check of ADMIT that fails (R375). -/
def State.admitCheck (s : State) (p c : Nat) : Status :=
  let role := s.role p c
  if s.present p c || role = 3 then .illegal
  else if s.fld PART_ASSIGN.STATE p 0 ≠ 2 || !(match s.keySet (s.jobOf p c) with | some k => k.pin = s.pinOf p | none => false) then .protection
  else if s.roleRefused p role then .illegal
  else if !s.grantsFit p c || !s.inService p || !s.modesFit p c || (allCtx.any (fun d => s.present d.1 d.2 && s.grantsMeet p c d.1 d.2)) then
    .illegal
  else if (s.indexFor (s.jobOf p c)).isNone then .illegal
  else .ok

/-- RESULT of an admission command. -/
def State.admitResult (s : State) (p c : Nat) (st : Status) : State := s.setFld PART_CTX_ADMIT.RESULT p c st.code

/-- The queues and knots of an admitted context: every queue disabled with its configuration at reset, every knot at 0 (R265). -/
def State.grantRuns (s : State) (p c : Nat) : State :=
  let s := (s.queuesOf p c).foldl (fun s q =>
    let s := (s.setReg .Q_CFG_CTRL p q (0x40 + c * 2 ^ 24 + 2 ^ 30)).setReg .Q_CFG_RING p q 0
    let s := ((s.setReg .Q_CFG_CPL p q 0).setReg .Q_STATUS p q 0).setQueue p q {}
    ((s.setReg .Q_TAIL p q 0).setReg .Q_CPL_ACK p q 0).setReg .Q_FETCHED p q 0) s
  (s.knotRun p c).foldl (fun s k =>
    ((s.setReg .KNOT_COUNT p k 0).setReg .KNOT_CFG p k (c * 2 ^ 8 + 2 ^ 14)).setReg .KNOT_IRQ_AT p k 0) s

/-- In a generating context LOCK_ACTIVE follows LOCK at once (R117). -/
def State.followLock (s : State) (p c : Nat) : State :=
  if s.present p c && s.role p c = 1 then s.setFld TEN_CTX_LOCK.LOCK_ACTIVE p c (s.fld TEN_CTX_LOCK.LOCK p c) else s

/-- What the machine keeps of a context's own steps and commits. -/
def lifeRegs : List RegName :=
  [.BAT_STEP_STATUS, .BAT_STEP_NUM, .BAT_COMMIT_COUNT, .BAT_CURSOR_COMMITTED, .BAT_CURSOR_PROV, .BAT_SNAP_COMMIT, .SNAP_CTX_STATUS,
   .SNAP_TX_POINT, .SNAP_PREV_CURSOR]

/-- A context begins its life with no step and no commit behind it (R201, R206, R220, R231): PHASE 0, no ROT recorded, no attribute
in force. -/
def State.beginLife (s : State) (p c : Nat) : State :=
  let s := lifeRegs.foldl (fun s r => s.setReg r p c r.info.reset) s
  let s := ((s.setFld RED_PLANE_CFG.PHASE p c 0).setFld BAT_SNAP_HOLD.ACTIVE p c 0).setFld TEN_CTX_LOCK.LOCK_ACTIVE p c 0
  { s.setStep p c {} with rots := s.rots.filter (fun x => x.1 / 65536 ≠ cidx p c) }

/-- A context is admitted (R127, R265, R375). -/
def State.admitNow (s : State) (p c i : Nat) : State :=
  let job := s.jobOf p c
  let s := (s.setFld SEC_JOB.JOB i 0 job).jobState i 1
  let s := s.setFld SEC_JOB.KEY_GEN i 0 (((s.keySet job).map (·.gen)).getD 0)
  let s := s.setFld SEC_JOB.PARTS i 0 (setBits (s.fld SEC_JOB.PARTS i 0) p 1 1)
  let s := (s.setFld PART_CTX_ADMIT.STATE p c 1).setFld PART_CTX_ADMIT.JOB_INDEX p c i
  let s := (s.setReg .TEN_CTX_LAYERS p c (s.reg .PART_CTX_LAYERS p c)).setReg .TEN_CTX_RESV_SIZE p c (s.reg .PART_CTX_RESV p c)
  let s := { ((s.setReg .TEN_CTX_RESV_USED p c 0).beginLife p c) with zeroedAll := false }
  (((s.grantRuns p c).saveLayers p c).followLock p c).admitResult p c .ok

/-- ADMIT (R375). -/
def State.tryAdmit (s : State) (p c : Nat) : State :=
  match s.admitCheck p c, s.indexFor (s.jobOf p c) with
  | .ok, some i => s.admitNow p c i
  | .ok, none => s.admitResult p c .illegal
  | e, _ => s.admitResult p c e

/-! ### Leaving (R375, R376) -/

/-- The program states of a context end with a status, and what they and its queues have under way is given up. -/
def State.killCtx (s : State) (p c : Nat) (st : Status) : State :=
  let mine := (s.progs.filter (fun x => x.1 / 384 = p && x.2.ctx = c)).map (·.1)
  let s := { s.abortOps (fun o => mine.contains o.prog) with
                    asyncs := s.asyncs.filter (fun o => !(o.part = p && o.ctx = c && o.owner ≠ .device)) }
  mine.foldl (fun s k => s.killProg k st) s

/-- The commands of a queue that have started complete with ABORTED. -/
def State.abortStarted (s : State) (p q : Nat) : State :=
  ((s.queue p q).cmds.filter (fun c => c.started)).foldl (fun s c => s.completeBare p q c .aborted) s

/-- A context's STATE. -/
def State.hangState (s : State) (p c : Nat) : Nat := s.fld HANG_CTX_STATUS.STATE p c

/-- Whether an engine can replay suspects: it is neither in reset nor held (R391, R395). -/
def State.canReplay (s : State) (n : Nat) : Bool :=
  !s.resetting.contains (2, n) && !bit (s.fld HANG_PART_HELD.MASK (n / 48) 0) (n % 48)

/-- A suspect of one engine is cleared: it is NORMAL once no engine has it. -/
def State.clearSuspect (s : State) (n c : Nat) : State :=
  let s := { s with suspects := s.suspects.erase (n, c) }
  let p := n / 48
  if s.hangState p c = 3 then s
  else
    let es := (s.suspects.filter (fun x => x.1 / 48 = p && x.2 = c)).map (·.1)
    s.setFld HANG_CTX_STATUS.STATE p c (if es = [] then 0
      else if es.any (fun m => s.canReplay m && s.suspects.find? (fun x => x.1 = m) = some (m, c)) then 2 else 1)

/-- The first suspect of an engine begins its replay. -/
def State.nextReplay (s : State) (n : Nat) : State :=
  match s.suspects.find? (fun x => x.1 = n) with
  | some x => if s.canReplay n && s.hangState (n / 48) x.2 ≠ 3 then s.setFld HANG_CTX_STATUS.STATE (n / 48) x.2 2 else s
  | none => s

/-- A context that leaves or is quarantined is no engine's suspect; an engine that had it first goes on to its next. -/
def State.unsuspect (s : State) (p c : Nat) : State :=
  let es := ((s.suspects.filter (fun x => x.1 / 48 = p && x.2 = c)).map (·.1)).filter (fun n =>
    s.suspects.find? (fun x => x.1 = n) = some (n, c))
  let s := { s with suspects := s.suspects.filter (fun x => !(x.1 / 48 = p && x.2 = c)) }
  es.foldl State.nextReplay s

/-- An accepted LEAVE (R375), with the cause of the abort; it ends quarantine and clears EXPIRIES (R398). -/
def State.leaveNow (s : State) (p c cause : Nat) : State :=
  let s := s.dropStep p c cause
  let s := s.killCtx p c .aborted
  let s := (s.queuesOf p c).foldl (fun s q => (s.abortStarted p q).disableQueue p q) s
  let s := { s with passes := s.passes.filter (fun x => !(x.part = p && x.ctx = c)),
                    sched := s.sched.filter (fun x => !(x.part = p && x.ctx = c)),
                    heldPackets := s.heldPackets.filter (fun x => !(x.part = p && x.ctx = c)) }
  let s := (s.slotsOf p c).foldl (fun s t => if s.fld RED_SLOT_CTRL.STATE t 0 = 0 then s else (s.slotTo p t 0).setSlot t {}) s
  let s := ((s.setReg .HANG_CTX_STATUS p c 0).setFld BAT_HANDOVER.ACTIVE p c 0).unsuspect p c
  (s.setFld PART_CTX_ADMIT.STATE p c 2).admitResult p c .ok

/-- LEAVE (R375). -/
def State.leave (s : State) (p c : Nat) : State :=
  if s.admitted p c then s.leaveNow p c 5 else s.admitResult p c .illegal

/-- A write to PART_CTX_ADMIT (R374, R375). -/
def State.writeAdmit (s : State) (p c v : Nat) : State :=
  let s := if s.present p c then s else s.setFld PART_CTX_ADMIT.ROLE p c (PART_CTX_ADMIT.ROLE.of v)
  match v % 4 with
  | 1 => s.tryAdmit p c
  | 2 => s.leave p c
  | _ => s

/-- ADMIT (R375): a write with CMD 0x1. -/
def execAdmission (c : CtxId) (v : W32) (s : State) : Host.Outcome State Fault Refusal :=
  .next (s.writeAdmit c.part.val c.ctx.val (setBits v.toNat 0 2 1))

/-- LEAVE (R375): a write with CMD 0x2. -/
def execLeave (c : CtxId) (v : W32) (s : State) : Host.Outcome State Fault Refusal :=
  .next (s.writeAdmit c.part.val c.ctx.val (setBits v.toNat 0 2 2))

/-- The bobbin windows, the addressed beam range and the accumulators of a context hold zeros (R375). -/
def State.zeroGrants (s : State) (p c : Nat) : State :=
  let s := (List.range 48).foldl (fun s e =>
    { s with bobbin := SMap.clearRange s.bobbin (s.bobAt p c e 0) (s.windowSize p c e) }) s
  { s with beam := SMap.clearRange s.beam (beamAt p (s.fld PART_CTX_PLACE.BEAM_BASE p c * 2 ^ 20))
                    (s.fld PART_CTX_PLACE.BEAM_SIZE p c * 2 ^ 20) }.zeroAcc p c

/-- A leaving context becomes free: its grants are zeroed and its queues and knots belong to none. -/
def State.freeCtx (s : State) (p c : Nat) : State :=
  let job := s.jobOf p c
  let s := s.zeroGrants p c
  let s := (s.queuesOf p c).foldl (fun s q => s.setFld Q_CFG_CTRL.OWNED p q 0) s
  let s := (s.knotRun p c).foldl (fun s k => s.setFld KNOT_CFG.OWNED p k 0) s
  let s := { s with wideAreas := s.wideAreas.filter (fun w => !(w.part = p && w.ctx = c)) }.setStep p c {}
  let i := s.fld PART_CTX_ADMIT.JOB_INDEX p c
  let s := ((s.setReg .TEN_CTX_RESV_USED p c 0).setReg .TEN_CTX_LAYERS p c 0).setReg .TEN_CTX_RESV_SIZE p c 0
  let s := (s.setFld PART_CTX_ADMIT.STATE p c 0).setFld PART_CTX_ADMIT.JOB_INDEX p c 0
  let left := s.ctxsOfJob job
  let s := if left.any (fun d => d.1 = p) then s else s.setFld SEC_JOB.PARTS i 0 (setBits (s.fld SEC_JOB.PARTS i 0) p 1 0)
  if left = [] && s.fld SEC_JOB.STATE i 0 = 2 then s.jobState i 3 else s

/-- LEAVE_COMPLETE (R375). -/
def execLeaveComplete (c : CtxId) (s : State) : Host.Outcome State Fault Refusal :=
  .next (if s.fld PART_CTX_ADMIT.STATE c.part.val c.ctx.val = 2 then s.freeCtx c.part.val c.ctx.val else s)

/-- A page of HBM holds zeros, both its cards are 0 and its zero bit is set. -/
def State.zeroPage (s : State) (page : Nat) : State :=
  { s.dropLines (fun l => l / 256 = page) with
           hbm := SMap.clearRange s.hbm (page * 65536) 65536, poison := SMap.clearRange s.poison (page * 1024) 1024,
           damage := SMap.clearRange s.damage (page * 1024) 1024, unzeroed := SMap.erase s.unzeroed page,
           cards := SMap.erase (SMap.erase s.cards (cardKey 0 page)) (cardKey 1 page) }

/-- The pages whose active card names an index. -/
def State.pagesNamed (s : State) (i : Nat) : List Nat :=
  ((s.cards.map (fun x => x.1 % 2 ^ 24)).eraseDups).filter (fun g => bits (s.card g) 0 9 = i)

/-- The board cards that name an index are 0. -/
def State.dropBoardCards (s : State) (i : Nat) : State :=
  (List.range 4096).foldl (fun s j => [BTIER_CARD.EVEN, BTIER_CARD.ODD].foldl (fun s f =>
    if bits (s.fld f j 0) 0 9 = i then s.setFld f j 0 0 else s) s) s

/-- JOB_TEARDOWN (R376): with the keys destroyed and no context left, the index is released, and its commit knot with it (R225). -/
def execJobTeardown (index : Fin 512) (s : State) : Host.Outcome State Fault Refusal :=
  let i := index.val
  .next (if i = 0 || s.fld SEC_JOB.STATE i 0 ≠ 3 then s
    else
      let s := ((s.pagesNamed i).foldl State.zeroPage s).dropBoardCards i
      let job := s.fld SEC_JOB.JOB i 0
      { s.setReg .SEC_JOB i 0 0 with homes := s.homes.filter (fun h => h.job ≠ job), twinRecs := s.twinRecs.filter (fun r => r.job ≠ job) })

/-! ### Debug unlock (R383) -/

/-- SEC_DEBUG changes its STATE: the alarm is raised and the alias key derived again (R364, R400). -/
def State.debugTo (s : State) (st scope : Nat) (r : Status) : State :=
  let old := s.fld SEC_DEBUG.STATE 0 0
  let s := ((s.setFld SEC_DEBUG.STATE 0 0 st).setFld SEC_DEBUG.SCOPE 0 0 scope).setFld SEC_DEBUG.RESULT 0 0 r.code
  if old = st then s else (s.alarm 0x1E).deriveAlias

/-- Debug consent (R383). -/
def State.consent (s : State) : State :=
  if s.fld SEC_DEBUG.STATE 0 0 = 2 || !(List.range 8).all (fun p => s.fld PART_ASSIGN.STATE p 0 = 0)
      || s.sessions.any (fun x => x.func < 8) || s.paired then
    s.setFld SEC_DEBUG.RESULT 0 0 2
  else
    let (b, s) := s.freshBytes 32
    let s := (List.range 8).foldl (fun s i => s.setReg .SEC_DEBUG_NONCE i 0 (leNat ((b.drop (4 * i)).take 4))) s
    s.debugTo 1 0 .ok

/-- CONSENT (R383). -/
def execConsent (v : W32) (s : State) : Host.Outcome State Fault Refusal := .next (if bit v.toNat 0 then s.consent else s)

/-- The token as written, 132 bytes. -/
def State.token (s : State) : List Byte := (List.range 33).flatMap (fun i => leBytes 4 (s.reg .SEC_DEBUG_TOKEN i 0))

/-- The challenge. -/
def State.challenge (s : State) : List Byte := (List.range 8).flatMap (fun i => leBytes 4 (s.reg .SEC_DEBUG_NONCE i 0))

/-- The token is submitted (R383). -/
def State.submitToken (s : State) : State :=
  if s.fld SEC_DEBUG.STATE 0 0 ≠ 1 then s
  else
    let t := s.token
    let ok := (t.drop 4).take 32 = s.challenge
      && Config.ecdsaOk Config.debugKeyHash (Config.sha384 (Config.identityKey ++ t.take 36)) (t.drop 36)
    if ok then s.debugTo 2 (leNat (t.take 4) % 8) .ok else s.debugTo 0 0 .protection

/-- DEBUG_TOKEN (R383): the write of the token's last word submits it. -/
def execDebugToken (v : W32) (s : State) : Host.Outcome State Fault Refusal := .next (s.setReg .SEC_DEBUG_TOKEN 32 0 v.toNat).submitToken

/-- CONSENT_EXPIRY (R383). -/
def execConsentExpiry (s : State) : Host.Outcome State Fault Refusal :=
  .next (if s.fld SEC_DEBUG.STATE 0 0 = 1 then s.debugTo 0 0 .protection else s)

end Sys2Proof.Machine
end

