-- ==== Sys2Proof/Machine/Alyen.lean ====
section
/-! DEFINITION. Alyen snapshots: the container of version 1 (R4, R381), EXPORT and IMPORT (R382). -/

namespace Sys2Proof.Machine
open Sys2Proof

/-- Bytes padded with zeros to a multiple of 4 KiB. -/
def pad4k (b : List Byte) : List Byte := b ++ List.replicate ((4096 - b.length % 4096) % 4096) 0

/-- The nonce of chunk i: NONCE_RAND, then i as 4 bytes (R381). -/
def chunkNonce (rand : List Byte) (i : Nat) : List Byte := rand ++ leBytes 4 i

/-- How many 1 MiB chunks a plaintext of n bytes takes. -/
def chunks (n : Nat) : Nat := ceilDiv n 1048576

/-- The payload as stored: each chunk encrypted and followed by its tag. -/
def sealPayload (key rand aad plain : List Byte) : List Byte :=
  (List.range (chunks plain.length)).flatMap (fun i =>
    let c := gcmCrypt key (chunkNonce rand i) ((plain.drop (1048576 * i)).take 1048576)
    c ++ toLen 16 (Config.gcmTag key (chunkNonce rand i) aad c))

/-- The plaintext of a stored payload, or none where a tag fails. -/
def openPayload (key rand aad stored : List Byte) : Option (List Byte) :=
  (List.range (ceilDiv stored.length 1048592)).foldl (fun (r : Option (List Byte)) i =>
    let x := (stored.drop (1048592 * i)).take 1048592
    let c := x.take (x.length - 16)
    match r with
    | none => none
    | some p =>
      if toLen 16 (Config.gcmTag key (chunkNonce rand i) aad c) = x.drop (x.length - 16)
      then some (p ++ gcmCrypt key (chunkNonce rand i) c) else none)
    (some [])

/-- The entry of the table for a registration entry, whose image begins at `off` (R381). -/
def State.alyenEntry (s : State) (p e off : Nat) : List Byte :=
  leBytes 2 (s.ent BAT_REG_ID.RED_ID p e) ++ leBytes 1 (s.ent BAT_REG_CTRL.KIND p e) ++ leBytes 1 (s.ent BAT_REG_CTRL.FWD_FMT p e)
    ++ leBytes 1 (s.ent BAT_REG_CTRL.ROT p e) ++ leBytes 1 (s.ent BAT_REG_CTRL.OPT p e) ++ leBytes 1 (s.ent BAT_REG_CTRL.MOM_FMT p e) ++ [0]
    ++ leBytes 4 (s.ent BAT_REG_BASE.TILE p e) ++ leBytes 4 (s.ent BAT_REG_LEN.TILES p e) ++ leBytes 8 off ++ leBytes 8 (s.slotBytes p e)

/-- The valid three-slot entries of a context. -/
def State.threeSlot (s : State) (p c : Nat) : List Nat := (s.validEntries p c).filter (fun e => s.ent BAT_REG_CTRL.SLOTS p e = 1)

/-- The physical slot that a snapshot reader reads of an entry: the front slot of a frozen one (R216, R218). -/
def State.snapSlot (s : State) (p e : Nat) : Nat :=
  if s.fld BAT_REG_CTRL.FROZEN_ACTIVE p e = 1 then s.fld BAT_REG_SLOTS.FRONT p e else s.fld BAT_REG_SLOTS.SNAP p e

/-- The cursor of the commit that the hold keeps. -/
def State.snapCursor (s : State) (p c : Nat) : Nat := (SMap.get 0 s.holdCursor (cidx p c)).toNat

/-- The container of a context's snapshot slots under a job's keys, read as the snapshot agent (R381, R382). -/
def State.container (s : State) (p c : Nat) (k : KeySet) : Status × List Byte × State :=
  let (st, plain, table, s) := (s.threeSlot p c).foldl (fun (x : Status × List Byte × List Byte × State) e =>
    let s := x.2.2.2
    if x.1 ≠ .ok then x
    else match s.hbmRead (.job 4 k.job) (s.slotAddr p e (s.snapSlot p e)) (s.slotBytes p e) with
      | (.ok, b, s) => (.ok, x.2.1 ++ pad4k b, x.2.2.1 ++ s.alyenEntry p e x.2.1.length, s)
      | (e, _, s) => (e, x.2.1, x.2.2.1, s)) (.ok, [], [], s)
  if st ≠ .ok then (st, [], s)
  else
    let (rand, s) := s.freshBytes 8
    let n := table.length / 32
    let head := leBytes 4 0x4E594C41 ++ leBytes 2 1 ++ leBytes 2 n ++ leBytes 2 k.job ++ leBytes 2 Config.deviceId.toNat ++ leBytes 1 p
      ++ leBytes 1 c ++ leBytes 2 0 ++ leBytes 8 (s.reg .BAT_SNAP_COMMIT p c) ++ leBytes 8 (s.snapCursor p c)
      ++ leBytes 8 (plain.length + 16 * chunks plain.length) ++ leBytes 4 k.gen ++ leBytes 4 0 ++ rand ++ leBytes 8 0
    let stored := sealPayload ((k.keys.drop 128).take 32) rand head plain
    let body := toLen 160 (head ++ toLen 48 (Config.sha384 table) ++ toLen 48 (Config.sha384 stored))
    (.ok, body ++ toLen 96 (Config.aliasSign s.aliasKey body) ++ table ++ stored, s)

/-- RESULT of an export or import that ends at once, or BUSY until it completes. -/
def State.expResult (s : State) (p c : Nat) (st : Status) : State :=
  (s.setFld SNAP_EXP_CMD.RESULT p c st.code).setFld SNAP_EXP_CMD.BUSY p c 0

/-- An export or import is under way until SNAP_COMMAND_COMPLETE. -/
def State.startSnap (s : State) (j : SnapJob) : State := { s with snapJobs := s.snapJobs ++ [j] }.setFld SNAP_EXP_CMD.BUSY j.part j.ctx 1

/-- Whether DEST is in host memory. -/
def State.expHost (s : State) (p c : Nat) : Bool := s.fld SNAP_EXP_CMD.SPACE p c = 0

/-- EXPORT (R382). -/
def State.exportSnap (s : State) (p c : Nat) : State :=
  let dest := s.reg .SNAP_EXP_DEST p c
  if s.fld BAT_SNAP_HOLD.ACTIVE p c = 0 || dest % 4096 ≠ 0 then s.expResult p c .illegal
  else match s.keySet (s.jobOf p c) with
    | none => s.expResult p c .protection
    | some k =>
      match s.container p c k with
      | (.ok, b, s) =>
        if s.reg .SNAP_EXP_LIMIT p c < b.length then s.startSnap ⟨p, c, false, .illegal, [], true, 0⟩
        else s.startSnap ⟨p, c, false, .ok, [(dest, b)], s.expHost p c, b.length⟩
      | (e, _, s) => s.startSnap ⟨p, c, false, e, [], true, 0⟩

/-- Bytes of DEST, in host memory or at a device address of R239. -/
def State.expRead (s : State) (p c off n : Nat) : Status × List Byte × State :=
  let a := s.reg .SNAP_EXP_DEST p c + off
  if s.expHost p c then (.ok, readBytes s.host a n, s)
  else match locOf 0 a with
    | .hbm x => s.hbmRead (.job 4 (s.jobOf p c)) x n
    | .board x => s.boardRead (.job 4 (s.jobOf p c)) x n
    | l => s.readLoc p c l n

/-- Bytes are written to DEST by the snapshot agent, which acts for the context's job (R315). -/
def State.expWrite (s : State) (p c a : Nat) (host : Bool) (b : List Byte) : Status × State :=
  if host then (.ok, { s with host := writeBytes s.host a b })
  else match locOf 0 a with
    | .hbm x => s.hbmWrite (.job 4 (s.jobOf p c)) x b
    | .board x => s.boardWrite (.job 4 (s.jobOf p c)) x b
    | l => s.writeLoc p c l b

/-- A container at DEST is opened: its version, its job, its hashes and its tags (R4, R382). -/
def State.openContainer (s : State) (p c : Nat) (k : KeySet) : Status × List Byte × State :=
  match s.expRead p c 0 256 with
  | (.ok, h, s) =>
    let f := fun o n => leNat ((h.drop o).take n)
    if f 0 4 ≠ 0x4E594C41 then (.illegal, [], s)
    else if f 4 2 ≠ 1 then (.level, [], s)
    else if f 8 2 ≠ k.job then (.protection, [], s)
    else match s.expRead p c 256 (32 * f 6 2) with
      | (.ok, table, s) =>
        match s.expRead p c (256 + 32 * f 6 2) (f 0x20 8) with
        | (.ok, stored, s) =>
          if toLen 48 (Config.sha384 table) ≠ (h.drop 0x40).take 48 || toLen 48 (Config.sha384 stored) ≠ (h.drop 0x70).take 48 then (.checksum, [], s)
          else match openPayload ((k.keys.drop 128).take 32) ((h.drop 0x30).take 8) (h.take 0x40) stored with
            | some plain => (.ok, plain, s)
            | none => (.checksum, [], s)
        | (e, _, s) => (e, [], s)
      | (e, _, s) => (e, [], s)
  | (e, _, s) => (e, [], s)

/-- IMPORT (R382). -/
def State.importSnap (s : State) (p c : Nat) : State :=
  let target := s.reg .SNAP_EXP_TARGET p c
  if s.reg .SNAP_EXP_DEST p c % 4096 ≠ 0 || target % 65536 ≠ 0 then s.expResult p c .illegal
  else match s.keySet (s.jobOf p c) with
    | none => s.expResult p c .protection
    | some k =>
      match s.openContainer p c k with
      | (.ok, plain, s) => s.startSnap ⟨p, c, false, .ok, [(target, plain)], false, 2 ^ 64⟩
      | (e, _, s) => s.startSnap ⟨p, c, false, e, [], true, 0⟩

/-- A write to SNAP_EXP_CMD: SPACE, and a command where none runs (R382). -/
def State.writeExp (s : State) (p c v : Nat) : State :=
  if s.fld SNAP_EXP_CMD.BUSY p c = 1 || !s.present p c then s
  else
    let s := s.setFld SNAP_EXP_CMD.SPACE p c (bits v 2 1)
    match v % 4 with
    | 1 => s.exportSnap p c
    | 2 => s.importSnap p c
    | _ => s

/-- EXPORT (R382): a write with CMD 0x1. -/
def execExportSnap (bar : Bar) (c : Fin 64) (v : W32) (s : State) : Host.Outcome State Fault Refusal :=
  .next (s.viaPhysical bar (fun p => s.writeExp p c.val (setBits v.toNat 0 2 1)))

/-- IMPORT (R382): a write with CMD 0x2. -/
def execImportSnap (bar : Bar) (c : Fin 64) (v : W32) (s : State) : Host.Outcome State Fault Refusal :=
  .next (s.viaPhysical bar (fun p => s.writeExp p c.val (setBits v.toNat 0 2 2)))

/-- What a finished export or import has written, and its RESULT; an export writes the container's size back to LIMIT. -/
def State.endSnap (s : State) (j : SnapJob) : State :=
  let s := { s with snapJobs := s.snapJobs.erase j }
  match j.writes with
  | [] => s.expResult j.part j.ctx j.status
  | (a, b) :: _ =>
    if j.size = 2 ^ 64 then
      let (st, s) := s.hbmWrite (.job 4 (s.jobOf j.part j.ctx)) a b
      s.expResult j.part j.ctx st
    else
      let (st, s) := s.expWrite j.part j.ctx a j.host b
      (if st = .ok then s.setReg .SNAP_EXP_LIMIT j.part j.ctx j.size else s).expResult j.part j.ctx st

/-- SNAP_COMMAND_COMPLETE (R382). -/
def execSnapCommandComplete (c : CtxId) (s : State) : Host.Outcome State Fault Refusal :=
  .next (match s.snapJobs.find? (fun j => !j.promote && j.part = c.part.val && j.ctx = c.ctx.val) with
    | some j => s.endSnap j
    | none => s)

end Sys2Proof.Machine
end

