-- ==== Sys2Proof/Machine/Board.lean ====
section
/-! DEFINITION. The board tier's ports, its interleave map and its cards (R324 to R330). -/

namespace Sys2Proof.Machine
open Sys2Proof

/-- The level of CXL_PERST_N[n]: low from a chip reset until step 5 of boot, and while ENABLE of port n is 0 (R447). -/
def State.cxlPerst (s : State) (n : Nat) : Bool :=
  5 ≤ s.fld BOOT_STATUS.STAGE 0 0 && s.fld BOOT_STATUS.STAGE 0 0 ≤ 7 && s.fld BTIER_PORT_CTRL.ENABLE n 0 = 1

/-- The CXL_PERST_N outputs, pins 3 to 6, that have changed since the state `old` leave. (The numbering: log entry 130.) -/
def State.drivePerst (s old : State) : State :=
  (List.range 4).foldl (fun s n => if s.cxlPerst n = old.cxlPerst n then s else s.emit (.pin (3 + n) (s.cxlPerst n))) s

/-- A write to BTIER_PORT_CTRL (R330): 0 holds the port down, and a change from 0 to 1 starts training, unless the generation in force holds
the port down (R433). -/
def State.writeBoardPort (s : State) (n v : Nat) : State :=
  let old := s.fld BTIER_PORT_CTRL.ENABLE n 0
  let s := (s.writeMasked .BTIER_PORT_CTRL n 0 v).drivePerst s
  if v % 2 = 0 || bit s.heldPorts (16 + n) then s.setFld BTIER_PORT_STATUS.STATE n 0 0
  else if old = 0 then s.setFld BTIER_PORT_STATUS.STATE n 0 1
  else s

/-- BTIER_PORT_TRAINING (R324): an enabled port's training ends. A port that was up has retrained, which is counted with its alarm
(R330, R400). -/
def execBtierPortTraining (n : Fin 4) (r : CxlEnd) (s : State) : Host.Outcome State Fault Refusal :=
  let k := n.val
  .next (if s.fld BTIER_PORT_CTRL.ENABLE k 0 = 0 || bit s.heldPorts (16 + k) then s
    else
      let s := if s.fld BTIER_PORT_STATUS.STATE k 0 = 2 then (s.bump .BTIER_PORT_RETRAINS k 0 1).alarm 0x0F else s
      match r with
      | .refused => (s.setReg .BTIER_PORT_STATUS k 0 3).alarm 0x0D
      | .failed =>
        let s := s.setReg .BTIER_PORT_STATUS k 0 4
        if s.mapPorts.contains k then s.alarm 0x10 else s
      | .up rate cap0 cap1 =>
        let two := s.fld BTIER_PORT_CTRL.BIFUR k 0 = 1 && cap1.isSome
        let s := s.setReg .BTIER_PORT_STATUS k 0 (2 + rate.val * 2 ^ 3 + (if two then 2 else 1) * 2 ^ 5)
        s.setReg .BTIER_PORT_CAP k 0 (cap0.toNat + (if two then (cap1.getD 0).toNat else 0) * 2 ^ 16))

/-- The ports whose STATE is up. -/
def State.upPorts (s : State) : List Nat := (List.range 4).filter (fun n => s.fld BTIER_PORT_STATUS.STATE n 0 = 2)

/-- The capacity that each expander of a port counts for (R324). -/
def State.expCaps (s : State) (n : Nat) : List Nat :=
  let e := s.fld BTIER_PORT_STATUS.EXPS n 0
  ([s.fld BTIER_PORT_CAP.GIB0 n 0, s.fld BTIER_PORT_CAP.GIB1 n 0].take e).map (fun c => min c (2048 / max 1 e))

/-- A write to BTIER_MAP (R325, R326). A refused build leaves a map that stands as it is (DESIGN CHOICE, log entry 97). -/
def State.writeMap (s : State) (v : Nat) : State :=
  if v % 2 = 1 then
    let ps := s.upPorts
    let p := ps.length
    let e := s.fld BTIER_PORT_STATUS.EXPS (ps.getD 0 0) 0
    if (p = 1 || p = 2 || p = 4) && ps.all (fun n => s.fld BTIER_PORT_STATUS.EXPS n 0 = e) then
      let c := (ps.flatMap s.expCaps).foldl min 2048
      { (s.setReg .BTIER_MAP 0 0 (1 + p * 2 ^ 8 + e * 2 ^ 12)).setReg .BTIER_MAP_SIZE 0 0 (p * e * c) with mapPorts := ps }
    else s.setFld BTIER_MAP.RESULT 0 0 Status.illegal.code
  else if (List.range 4096).any (fun i => s.reg .BTIER_CARD i 0 ≠ 0) then s.setFld BTIER_MAP.RESULT 0 0 Status.illegal.code
  else { (s.setReg .BTIER_MAP 0 0 0).setReg .BTIER_MAP_SIZE 0 0 0 with mapPorts := [] }

/-- MAP_BUILD (R326): a write of 1 to ENABLE. -/
def execMapBuild (v : W32) (s : State) : Host.Outcome State Fault Refusal := .next (s.writeMap (setBits v.toNat 0 1 1))

/-- MAP_DISABLE (R326): a write of 0 to ENABLE. -/
def execMapDisable (v : W32) (s : State) : Host.Outcome State Fault Refusal := .next (s.writeMap (setBits v.toNat 0 1 0))

/-- One card of a written card register, its reserved bits discarded (R8, R315): a change between two non-zero jobs is refused (R327). -/
def State.writeBoardCard (s : State) (f : Field) (i v : Nat) : State :=
  let old := s.fld f i 0
  if bits old 0 9 ≠ 0 && bits v 0 9 ≠ 0 && bits old 0 9 ≠ bits v 0 9 then s.bump .BTIER_CARD_REFUSED 0 0 1 else s.setFld f i 0 v

/-- A write to BTIER_CARD. -/
def State.writeBoardCards (s : State) (i v : Nat) : State :=
  (s.writeBoardCard BTIER_CARD.EVEN i (bits v 0 12)).writeBoardCard BTIER_CARD.ODD i (bits v 16 12)

/-- BTIER_CARD_WRITE (R327). -/
def execBtierCardWrite (i : Fin 4096) (v : W32) (s : State) : Host.Outcome State Fault Refusal := .next (s.writeBoardCards i.val v.toNat)

/-- BTIER_READ_TIMEOUT (R328): a shuttle copy from the board tier meets a read that is not answered. -/
def execBtierReadTimeout (op : Nat) (n : Fin 4) (s : State) : Host.Outcome State Fault Refusal :=
  .next (match s.async op with
    | some o =>
      match o.work with
      | .copy src _ _ _ =>
        match locOf o.engine src with
        | .board _ => let (st, s) := s.moveBytes o true (some n.val); s.endAsync o st true
        | _ => s
      | _ => s
    | none => s)

/-- BTIER_PORT_FAIL (R326): a port of the map stays in it, its accesses fail, and the alarm rises. -/
def execBtierPortFail (n : Fin 4) (s : State) : Host.Outcome State Fault Refusal :=
  let s' := s.setFld BTIER_PORT_STATUS.STATE n.val 0 4
  .next (if s.mapPorts.contains n.val then s'.alarm 0x10 else s')

end Sys2Proof.Machine
end

