-- ==== Sys2Proof/Machine/Reset.lean ====
section
/-! DEFINITION. Watchdogs, escalation and the levels of reset (R385 to R394), replay and quarantine (R395, R396), and the training of the
stacks (R294). -/

namespace Sys2Proof.Machine
open Sys2Proof

/-! ### Training (R294) -/

/-- The failing lanes of a channel. -/
def failsOf (t : Training) (st ch : Nat) : List Nat :=
  ((t.lanes.filter (fun x => x.stack.val = st && x.ch.val = ch)).flatMap (fun x => x.lanes.map (fun l => l.val))).eraseDups

/-- The lanes that the spares 72 and 73 replace: the failing lanes in use go to the spares that are good, in order. -/
def spareUse (fails : List Nat) : Nat × Nat :=
  match fails.filter (· < 72), fails.contains 72 with
  | [], _ => (0x7F, 0x7F)
  | a :: _, true => (0x7F, a)
  | [a], false => (a, 0x7F)
  | a :: b :: _, false => (a, b)

/-- One channel trains: up to two failing lanes, the spares among them, and the spares replace those in use; with more it fails. -/
def State.trainChannel (s : State) (t : Training) (st ch : Nat) : State :=
  let f := failsOf t st ch
  let up := f.length ≤ 2
  let (a, b) := if up then spareUse f else (0x7F, 0x7F)
  let used := b2n (a ≠ 0x7F) + b2n (b ≠ 0x7F)
  let s := s.setReg .HBM_CH_STATUS st ch ((if up then 1 else 2) + used * 2 ^ 2 + a * 2 ^ 4 + b * 2 ^ 11)
  let s := s.setReg .HBM_CH_UP st 0 (setBits (s.reg .HBM_CH_UP st 0) ch 1 (b2n up))
  let s := { s with badSpares := s.badSpares ++ (f.filter (72 ≤ ·)).map (fun l => (st, ch, l)) }
  if up then s else s.alarm 0x15

/-- A stack identifies itself as R292 has it: sixteen-high, 32 Gbit dies, 9.6 Gbit/s. -/
def identified (t : Training) (st : Nat) : Bool :=
  t.ids.all (fun x => x.stack.val ≠ st || (x.height = 16 && x.density = 32 && x.rate = 9600))

/-- A stack's training fails as a whole: no channel is up (R292, R446). -/
def State.failStack (s : State) (st : Nat) : State :=
  let s := (List.range 32).foldl (fun s ch => s.setReg .HBM_CH_STATUS st ch (2 + 0x7F * 2 ^ 4 + 0x7F * 2 ^ 11)) s
  (s.setReg .HBM_CH_UP st 0 0).alarm 0x15

/-- A partition's two stacks are powered up: their channels train and every block holds zeros with a valid code (R294, R376). With HBM_PG
low every stack has failed (R446), and so has one of another identification (R292); a partition that a failed reset holds stays out of
service (R391). -/
def State.trainPart (s : State) (t : Training) (p : Nat) : State :=
  let sts := [2 * p, 2 * p + 1]
  let mine := fun (st : Nat) => st / 2 == p
  let s := { s.zeroHbm p with unzeroed := SMap.clearRange s.unzeroed (p * 2 ^ 21) (2 ^ 21), tracks := s.tracks.filter (fun x => !mine x.stack),
                              laneBusy := s.laneBusy.filter (fun x => !mine x.1), exhaustedLanes := s.exhaustedLanes.filter (fun x => !mine x.1),
                              laneHits := s.laneHits.filter (fun x => !mine x.1), badSpares := s.badSpares.filter (fun x => !mine x.1),
                              repairing := s.repairing.filter (fun x => !mine x.stack) }
  let s := sts.foldl (fun s st =>
    if s.hbmPg && identified t st then (List.range 32).foldl (fun s ch => s.trainChannel t st ch) s else s.failStack st) s
  let bad := s.heldParts.contains p || sts.any (fun st => (List.range 32).any (fun ch => s.fld HBM_CH_STATUS.STATE st ch = 2))
  (sts.foldl (fun s st => s.setFld HBM_STACK_STATUS.STATE st 0 (if bad then 2 else 1)) s).serveWaiting

/-! ### Escalation -/

/-- RST_STATUS.BUSY follows what is being reset. -/
def State.resetBusy (s : State) : State := s.setFld RST_STATUS.BUSY 0 0 (b2n (s.resetting ≠ []))

/-- A reset begins: its alarm, its RESET record and its trace event (R389, R403, R405). `cause`: 0 automatic, 1 operator. -/
def State.resetRecord (s : State) (cls level p e cause : Nat) : State :=
  let body := leBytes 1 level ++ leBytes 1 p ++ leBytes 1 e ++ leBytes 1 cause
  ((s.alarm cls).logRec 8 0x0004 p body).trace 8 1 p body

/-- The program states of a context. -/
def State.progsOf (s : State) (p c : Nat) : List Nat := (s.progs.filter (fun x => x.1 / 384 = p && x.2.ctx = c)).map (·.1)

/-- Whether an instruction has started: it is the oldest of its unit (R236). -/
def State.opStarted (s : State) (o : UnitOp) : Bool :=
  s.unitOps.find? (fun x => x.prog / 8 = o.prog / 8 && x.unit = o.unit) = some o

/-- Whether a context has outstanding work (R385). -/
def State.hasWork (s : State) (p c : Nat) : Bool :=
  (s.queuesOf p c).any (fun q => (s.fld Q_CFG_CTRL.ENABLE p q = 1 && s.reg .Q_TAIL p q ≠ s.reg .Q_FETCHED p q)
      || (s.queue p q).cmds.any (fun x => x.started))
    || s.progsOf p c ≠ []

/-- Whether a program state waits for a pick: under TWAITP, or with a TSCHED that meets a full table (R280, R385). -/
def State.progPicks (s : State) (k : Nat) (g : Prog) : Bool :=
  match g.wait with
  | .pick _ => true
  | .none => s.schedFull (k / 384) && (s.fetch (k / 384) (k / 8 % 48) g).2.1.toNat / 2 ^ 56 = rowTsched.opcode
  | _ => false

/-- Whether a started command waits for a pick: a TSIG, or a LAUNCH whose program states all do. -/
def State.cmdPicks (s : State) (p q : Nat) (x : Cmd) : Bool :=
  x.type = 4 || (x.type = 1 && (s.progs.filter (fun y => y.1 / 384 = p && y.2.queue = q && y.2.cmd = x.index)).all (fun y => s.progPicks y.1 y.2))

/-- Whether the commands of a queue that have not started wait for a pick: the next is a TSIG that meets a full table, or is held by a
TSIG. -/
def State.queuePicks (s : State) (p q : Nat) : Bool :=
  match s.nextCmd p q with
  | some x => x.type = 4 && s.schedFull p
  | none => let cs := (s.queue p q).cmds; headWaits cs && (cs.takeWhile Cmd.started).all (fun x => x.type = 4)

/-- Whether every outstanding item of a context waits for a pick, which pauses its watchdog (R385). (DEDUCED, log entry 129.) -/
def State.onlyPicks (s : State) (p c : Nat) : Bool :=
  (s.queuesOf p c).all (fun q => (s.fld Q_CFG_CTRL.ENABLE p q = 0 || s.reg .Q_TAIL p q = s.reg .Q_FETCHED p q || s.queuePicks p q)
      && (s.queue p q).cmds.all (fun x => !x.started || s.cmdPicks p q x))
    && (s.progsOf p c).all (fun k => match s.prog k with | some g => s.progPicks k g | none => true)

/-- The records of a context stop; the tenant's also names where the first program state that ended stood (R403). -/
def State.stopRecords (s : State) (p c : Nat) (where' : List Byte) : State :=
  let body := leBytes 1 p ++ leBytes 1 c ++ leBytes 1 1
  (s.logBoth p 0x0005 body (body ++ where')).trace 8 1 p body

/-- A context stop, level 1 (R386): started unit instructions may still complete. -/
def State.stopCtx (s : State) (p c : Nat) : State :=
  let mine := s.progsOf p c
  let (op, s) := s.fresh
  let where' := match mine.head?.bind s.prog with
    | some g => leBytes 5 (g.pc % 2 ^ 40) ++ leBytes 1 op
    | none => []
  let s := (s.queuesOf p c).foldl (fun s q => if s.fld Q_CFG_CTRL.ENABLE p q = 1 then s.disableQueue p q else s) s
  let s := s.abortOps (fun o => mine.contains o.prog && !s.opStarted o)
  let running := ((s.unitOps.filter (fun o => mine.contains o.prog)).map (fun o => (cidx p c, o.prog / 8))).eraseDups
  let s := { s with draining := s.draining ++ running }
  let s := mine.foldl (fun s k => s.killAt k .timeout (op % 256)) s
  let s := s.abortStep p c 7
  ((s.bumpFld HANG_CTX_STATUS.EXPIRIES p c 1).alarm 0x05).stopRecords p c where'

/-! ### Suspects (R395, R396) -/

/-- The suspect that an engine is replaying. -/
def State.replaying (s : State) (n : Nat) : Option Nat :=
  match s.suspects.find? (fun x => x.1 = n) with
  | some x => if s.hangState (n / 48) x.2 = 2 && s.canReplay n then some x.2 else none
  | none => none

/-- A hang during a replay quarantines the suspect and clears the others of the engine (R396); other engines go on to their next suspects. -/
def State.quarantine (s : State) (n c : Nat) : State :=
  let p := n / 48
  let body := leBytes 1 p ++ leBytes 1 c ++ leBytes 1 (n % 48)
  let s := ((s.setFld HANG_CTX_STATUS.STATE p c 3).alarm 0x0A).logBoth p 0x0006 body body
  ((s.suspects.filter (fun x => x.1 = n)).foldl (fun s x => s.clearSuspect n x.2) s).unsuspect p c

/-! ### Engine reset, level 2 -/

/-- Whether an address of engine `e` lies in the bobbin of engine `k`. -/
def inBobbin (e k a : Nat) : Bool :=
  match locOf e a with
  | .bobbin x _ => x = k
  | _ => false

/-- Whether a shuttle operation reads or writes a bobbin. -/
def AsyncOp.touches (o : AsyncOp) (p k : Nat) : Bool :=
  o.part = p && (match o.work with
    | .copy src dst _ _ => inBobbin o.engine k src || inBobbin o.engine k dst
    | .fill dst _ => inBobbin o.engine k dst
    | _ => false)

/-- An engine is reset (R389): its program states and the shuttle operations of its bobbin end with ABORTED, the open steps of the contexts
that ran there abort, and those contexts join its suspects, in ascending order. -/
def State.engineReset (s : State) (p e cause : Nat) : State :=
  let n := p * 48 + e
  if s.resetting.any (fun x => x = (2, n) || x = (3, p) || x.1 = 4) then s
  else
    let mine := (s.progs.filter (fun x => x.1 / 8 = n)).map (·.1)
    let ctxs := (List.range 64).filter (fun c => s.hangState p c ≠ 3
      && (s.progs.any (fun x => x.1 / 8 = n && x.2.ctx = c) || s.draining.contains (cidx p c, n)))
    let s := { (s.abortOps (fun o => o.prog / 8 = n)).emptyCache n with draining := s.draining.filter (fun x => x.2 ≠ n) }
    let s := (s.asyncs.filter (fun o => o.touches p e)).foldl (fun s o => s.endAsync o .aborted false) s
    let s := mine.foldl (fun s k => s.killProg k .aborted) s
    let s := ctxs.foldl (fun s c => s.abortStep p c 8) s
    let sus := (List.range 64).filter (fun c => ctxs.contains c || (s.suspects.contains (n, c) && s.hangState p c ≠ 3))
    let s := sus.foldl (fun s c => s.setFld HANG_CTX_STATUS.STATE p c 1) s
    let s := { s with suspects := s.suspects.filter (fun (x : Nat × Nat) => x.1 ≠ n) ++ sus.map (fun c => (n, c)),
                      resetting := s.resetting ++ [(2, n)] }
    (((s.bump .HANG_PART_ENGINE_RESETS p 0 1).resetRecord 0x06 2 p e cause).resetBusy).settle

/-! ### Partition reset, level 3 -/

/-- The registers of the treadle sequencer, the batten, the tension monitor and the converters, which a partition reset resets. -/
def partResetRegs : List RegName :=
  zeroRegs.filter (fun r => !([.SCHED_WIN_CLOSE, .SCHED_WIN_STATUS, .SCHED_WIN_LATE, .OWN_ID, .OWN_FIRST,
    .OWN_COUNT, .OWN_CTRL] : List RegName).contains r)
    ++ [.BAT_REG_CMD, .BAT_REG_ERR, .BAT_STEP_NUM, .BAT_HANDOVER, .BAT_COMMIT_COUNT, .BAT_CURSOR_COMMITTED, .BAT_CURSOR_PROV, .BAT_COMMIT_HOME,
        .BAT_COMMIT_CFG, .BAT_SNAP_HOLD, .BAT_SNAP_COMMIT, .TEN_CTX_LOCK]

/-- A partition reset begins: every context leaves, and the contents of HBM, bobbins and beam store are lost. -/
def State.startPartReset (s : State) (p cause : Nat) : State :=
  let s := { s with resetting := s.resetting.filter (fun (x : Nat × Nat) => !(x.1 = 2 && x.2 / 48 = p)) ++ [(3, p)],
                    draining := s.draining.filter (fun x => x.1 / 64 ≠ p), resetDue := s.resetDue.filter (fun x => x.1 ≠ p) }
  let s := ((List.range 64).filter (fun c => s.admitted p c)).foldl (fun s c => s.leaveNow p c 8) s
  let s := { ((s.stacksDown p).zeroSram p).clearPartRegs partResetRegs p with
    suspects := s.suspects.filter (fun x => x.1 / 48 ≠ p), validated := s.validated.filter (fun x => x.1 / 2 ^ 20 % 2 ^ 20 ≠ p),
    queues := SMap.dropPart s.queues 8192 p, progs := SMap.dropPart s.progs 384 p, nextTurn := SMap.dropPart s.nextTurn 48 p,
           icache := SMap.dropPart s.icache 48 p, unitOps := s.unitOps.filter (fun o => o.prog / 384 ≠ p),
    asyncs := s.asyncs.filter (fun o => o.part ≠ p), sched := s.sched.filter (fun x => x.part ≠ p) }
  let s := s.setReg .HANG_PART_HELD p 0 0
  (s.resetRecord 0x07 3 p 0 cause).resetBusy

/-- A partition reset is due (R394): it waits for a pending flip and for a zeroisation. -/
def State.partReset (s : State) (p cause : Nat) : State :=
  if s.resetting.any (fun x => x = (3, p) || x.1 = 4) || s.resetDue.any (fun x => x.1 = p) then s
  else if s.fld PART_ASSIGN.STATE p 0 = 3 || (List.range 64).any (fun c => s.stepState p c = 3) then
    { s with resetDue := s.resetDue ++ [(p, cause)] }
  else s.startPartReset p cause

/-- Partition resets that waited begin, unless something still keeps them waiting. -/
def State.dueResets (s : State) : State :=
  s.resetDue.foldl (fun s x =>
    if s.fld PART_ASSIGN.STATE x.1 0 = 3 || (List.range 64).any (fun c => s.stepState x.1 c = 3) then s else s.startPartReset x.1 x.2) s

/-! ### Chip reset, level 4 -/

/-- The registers of the always-on domain, and those that OTP and fuses hold. -/
def alwaysOn : List RegName :=
  [.PWR_RAIL_I, .PWR_RAIL_COUNT, .PWR_DIP_LAST, .PWR_DIP_DURATION, .PWR_DIP_TIME, .BOOT_STATUS, .BOOT_FAIL_CAUSE, .BOOT_CTRL, .ALM_SUMMARY,
   .ALM_COUNT, .ALM_FIRST, .ALM_LAST, .RST_CAUSE, .HBM_REPAIR_A, .HBM_REPAIR_B, .SELV_PAIR_CTRL]
/-- What OTP and fuses hold. -/
def fused : List RegName := [.OTP_GEN_STATUS, .OTP_GEN_DATA, .SEC_LIFECYCLE]

/-- The kept bits of the registers `rs`, every other register at its reset value. -/
def keepRegs (rs : List RegName) (m : SMap W64) : SMap W64 :=
  m.filterMap (fun x =>
    match rs.find? (fun r => r.ctorIdx = x.1 / 2 ^ 40) with
    | none => none
    | some r =>
      let k := BitVec.ofNat 64 r.info.kept
      let v := (x.2 &&& k) ||| (r.resetWord &&& ~~~ k)
      if v = r.resetWord then none else some (x.1, v))

/-- A generation being programmed is used and invalid (R435). -/
def State.spoilOtp (s : State) : State :=
  match s.otpOp with
  | some (g, _) => { s with otpOp := none }.setReg .OTP_GEN_STATUS 0 0 (setBits (s.reg .OTP_GEN_STATUS 0 0) (2 * (g - 1)) 2 2)
  | none => s

/-- What lies outside the device, or is an input of it, stays; everything else is as after reset, but for the kept bits of `rs`. -/
def State.wipe (s : State) (rs : List RegName) : State :=
  let s := s.spoilOtp
  { State.reset with pending := s.pending, free := s.free, outs := s.outs, host := s.host, board := s.board, flash := s.flash,
                     junction := s.junction, refclk := s.refclk, hbmPg := s.hbmPg, perst := s.perst, regs := keepRegs rs s.regs }

/-- Everything except the always-on domain is reset; HBM_EN falls. -/
def State.resetChip (s : State) : State :=
  let s' := { (s.wipe (alwaysOn ++ fused)).drivePerst s with commonTwin := s.commonTwin, thermtrip := s.thermtrip,
                                                             maxBefore := s.fld HANG_CFG.MAX_LEVEL 0 0, dips := s.dips }
  if s.hbmEn then s'.emit (.pin 0 false) else s'

/-- A chip reset (R389, R397): RST_CAUSE.LAST takes the cause, but for a thermal trip that stands (R441). -/
def State.chipReset (s : State) (cause : Nat) : State :=
  let s := (s.alarm 0x08).resetChip
  let s := if s.thermtrip then s else s.setFld RST_CAUSE.LAST 0 0 cause
  let body := leBytes 1 4 ++ leBytes 2 0 ++ leBytes 1 (b2n (cause = 1))
  ({ s with resetting := [(4, 0)] }.logRec 8 0x0004 0x20 body).resetBusy

/-- RST_STATUS.RESULT. -/
def State.rstResult (s : State) (st : Status) : State := s.setFld RST_STATUS.RESULT 0 0 st.code

/-- A power cycle, level 5 (R393): two bytes to the tray controller, and a chip reset; without a descriptor or an acknowledgement the device
stays at level 4. -/
def State.powerCycle (s : State) (ack : Bool) : State :=
  match s.tabnex with
  | some d =>
    if ack then ((s.emit (.i3c d.tray (leBytes 1 0xC1 ++ leBytes 1 (s.fld RST_CAUSE.LAST 0 0)))).alarm 0x09).chipReset 4
    else (s.emit (.i3c d.tray (leBytes 1 0xC1 ++ leBytes 1 (s.fld RST_CAUSE.LAST 0 0)))).rstResult .protection
  | none => s.rstResult .protection

/-! ### The events -/

/-- The highest automatic level. -/
def State.maxLevel (s : State) : Nat := s.fld HANG_CFG.MAX_LEVEL 0 0

/-- CONTEXT_WATCHDOG (R385, R386, R396): an admitted context with its watchdog in use and work outstanding that does not all wait for picks. A
step that is SIGNALLED, FLIP_PENDING or UNDECIDED is left as it is (R394). -/
def execContextWatchdog (c : CtxId) (s : State) : Host.Outcome State Fault Refusal :=
  let p := c.part.val
  let x := c.ctx.val
  .next (if !(s.admitted p x && s.fld HANG_CTX_CFG.ENABLE p x = 1 && s.hasWork p x && !s.onlyPicks p x) then s
    else
      let replay := (s.suspects.find? (fun y => y.1 / 48 = p && s.replaying y.1 = some x)).map (·.1)
      let s := s.stopCtx p x
      (match replay with
        | some n => s.quarantine n x
        | none => s).settle)

/-- DRAIN_EXPIRY (R386): 100 µs after a stop, the engines where a started instruction of the context still runs are reset. -/
def execDrainExpiry (c : CtxId) (s : State) : Host.Outcome State Fault Refusal :=
  let p := c.part.val
  let k := cidx p c.ctx.val
  let es := ((s.draining.filter (fun x => x.1 = k)).map (·.2)).filter (fun n =>
    s.unitOps.any (fun o => o.prog / 8 = n && (s.prog o.prog).isNone))
  let s := if s.maxLevel < 2 then s else es.foldl (fun s n => s.engineReset (n / 48) (n % 48) 0) s
  .next { s with draining := s.draining.filter (fun x => x.1 ≠ k) }

/-- UNIT_WATCHDOG (R387, R396): a unit of the engine holds a started instruction. -/
def execUnitWatchdog (e : EngineId) (s : State) : Host.Outcome State Fault Refusal :=
  let p := e.part.val
  let n := p * 48 + e.engine.val
  .next (if s.maxLevel < 2 || !s.unitOps.any (fun o => o.prog / 8 = n) then s
    else match s.replaying n with
      | some c => ((s.stopCtx p c).quarantine n c).engineReset p e.engine.val 0
      | none => s.engineReset p e.engine.val 0)

/-- ENGINE_RESET_COMPLETE (R395). -/
def execEngineResetComplete (e : EngineId) (s : State) : Host.Outcome State Fault Refusal :=
  let n := e.part.val * 48 + e.engine.val
  .next (if s.resetting.contains (2, n) then (({ s with resetting := s.resetting.erase (2, n) }.resetBusy).nextReplay n) else s)

/-- ENGINE_RESET_TIMEOUT (R389, R391). -/
def execEngineResetTimeout (e : EngineId) (s : State) : Host.Outcome State Fault Refusal :=
  let p := e.part.val
  let n := p * 48 + e.engine.val
  .next (if !s.resetting.contains (2, n) then s
    else if 3 ≤ s.maxLevel then s.partReset p 0
    else { s with resetting := s.resetting.erase (2, n) }.resetBusy.setReg .HANG_PART_HELD p 0
      (setBits (s.reg .HANG_PART_HELD p 0) e.engine.val 1 1))

/-- REPLAY_CLEAR (R395): the suspect being replayed is cleared and the next begins. -/
def execReplayClear (e : EngineId) (s : State) : Host.Outcome State Fault Refusal :=
  let n := e.part.val * 48 + e.engine.val
  .next (match s.replaying n with
    | some c => (s.clearSuspect n c).nextReplay n
    | none => s)

/-- Whether the treadle sequencer has work waiting: a head command that can start, with the program states it needs free (R390). -/
def State.treadleWork (s : State) (p : Nat) : Bool := s.queues.any (fun x => x.1 / 8192 = p && s.canStart p (x.1 % 8192))

/-- Whether the batten holds an entry whose update may run (R390). -/
def State.battenWork (s : State) (p : Nat) : Bool :=
  (s.ctxsOfPart p).any (fun c => s.stepState p c = 1 && (s.moving p c).any (fun e =>
    s.ent BAT_REG_CTRL.KIND p e = 0 && !(s.stepOf p c).updated.contains e && s.copiesReady p c e = (true, false) && s.mirrorLets p c
      && (s.ent BAT_REG_CTRL.GRAD_SRC p e = 1 || (s.slotGrads p c e).isSome)))

/-- PROGRESS_WATCHDOG (R389, R390). -/
def execProgressWatchdog (p : Fin 8) (s : State) : Host.Outcome State Fault Refusal :=
  .next (if 3 ≤ s.maxLevel && (s.treadleWork p.val || s.battenWork p.val) then s.partReset p.val 0 else s)

/-- PARTITION_RESET_COMPLETE (R389): the stacks have trained, and the contexts that left are free. -/
def execPartitionResetComplete (p : Fin 8) (t : Training) (s : State) : Host.Outcome State Fault Refusal :=
  let q := p.val
  .next (if !s.resetting.contains (3, q) then s
    else
      let s := { s with resetting := s.resetting.erase (3, q) }.resetBusy
      let s := (List.range 64).foldl (fun s c => if s.fld PART_CTX_ADMIT.STATE q c = 2 then s.freeCtx q c else s) s
      s.trainPart t q)

/-- PARTITION_RESET_TIMEOUT (R389, R391). -/
def execPartitionResetTimeout (p : Fin 8) (s : State) : Host.Outcome State Fault Refusal :=
  let q := p.val
  .next (if !s.resetting.contains (3, q) then s
    else if 4 ≤ s.maxLevel then s.chipReset 2
    else (({ s with resetting := s.resetting.erase (3, q), heldParts := q :: s.heldParts.filter (fun x => x ≠ q) }.resetBusy).setFld
      HBM_STACK_STATUS.STATE (2 * q) 0 2).setFld HBM_STACK_STATUS.STATE (2 * q + 1) 0 2)

/-- MGMT_WATCHDOG (R26, R388): the controller has missed its service, so it is stopped, and the always-on domain restarts it: the restart
ends with a microsecond of the management plane (`State.tick`; DESIGN CHOICE, log entry 104). -/
def execMgmtWatchdog (s : State) : Host.Outcome State Fault Refusal :=
  .next ({ s with mgmtStopped := true }.alarm 0x04 |>.bumpFld RST_CAUSE.MGMT_RESTARTS 0 0 1)

/-- A write to RST_REQ (R392, R397). `ack`: whether the tray controller acknowledges. -/
def State.writeRstReq (s : State) (v : Nat) (ack : Bool) : State :=
  let p := RST_REQ.PART.of v
  let c := RST_REQ.CTX.of v
  let e := RST_REQ.ENGINE.of v
  match v % 8 with
  | 0 => s
  | 1 => if s.admitted p c then ((s.stopCtx p c).settle).rstResult .ok else s.rstResult .illegal
  | 2 => if e < 48 then (s.engineReset p e 1).rstResult .ok else s.rstResult .illegal
  | 3 => (s.partReset p 1).rstResult .ok
  | 4 => (s.chipReset 1).rstResult .ok
  | 5 => s.powerCycle ack
  | _ => s.rstResult .illegal

/-- CONTEXT_STOP_REQUEST (R392): a write of RST_REQ at level 1. -/
def execContextStopRequest (v : W32) (s : State) : Host.Outcome State Fault Refusal := .next (s.writeRstReq (setBits v.toNat 0 3 1) false)
/-- ENGINE_RESET_REQUEST (R392). -/
def execEngineResetRequest (v : W32) (s : State) : Host.Outcome State Fault Refusal := .next (s.writeRstReq (setBits v.toNat 0 3 2) false)
/-- PARTITION_RESET_REQUEST (R392). -/
def execPartitionResetRequest (v : W32) (s : State) : Host.Outcome State Fault Refusal := .next (s.writeRstReq (setBits v.toNat 0 3 3) false)
/-- CHIP_RESET_REQUEST (R392). -/
def execChipResetRequest (v : W32) (s : State) : Host.Outcome State Fault Refusal := .next (s.writeRstReq (setBits v.toNat 0 3 4) false)
/-- POWER_CYCLE_REQUEST (R393). -/
def execPowerCycleRequest (v : W32) (ack : Bool) (s : State) : Host.Outcome State Fault Refusal :=
  .next (s.writeRstReq (setBits v.toNat 0 3 5) ack)

end Sys2Proof.Machine
end

