-- ==== Sys2Proof/Machine/Time.lean ====
section
/-! DEFINITION. The pick boundary and what is due at it (R36, R224, R229, R280, R287, R290, R367, R421), and fabric time (R172, R173, R281 to
R284, R424, R444). Times are in units of 2^−3 ns. -/

namespace Sys2Proof.Machine
open Sys2Proof

/-! ### Handover (R229) -/

/-- A context's request for a handover is looked at; one that begins takes the WIDE of its source's last commit (R116, R124). An unrestricted
context has every right of a training context (R29, R450), so it may be the source (DEDUCED, log entry 101). -/
def State.handover (s : State) (p c : Nat) : State :=
  let sp := s.fld BAT_HANDOVER.SRC_PART p c
  let sc := s.fld BAT_HANDOVER.SRC_CTX p c
  if s.fld BAT_HANDOVER.ENABLE p c = 0 || !s.present p c then s.setFld BAT_HANDOVER.ACTIVE p c 0
  else if s.role p c = 1 && s.present sp sc && s.role sp sc ≠ 1 && s.jobOf sp sc = s.jobOf p c then
    let new := !(s.fld BAT_HANDOVER.ACTIVE p c = 1 && s.handSource p c = (sp, sc))
    let s := { s with handSrc := SMap.set 0 s.handSrc (cidx p c) (BitVec.ofNat 32 (cidx sp sc)) }.setFld BAT_HANDOVER.ACTIVE p c 1
      |>.setFld BAT_HANDOVER.RESULT p c 0
    if new then s.followWide sp sc (s.stepOf sp sc).committedWide else s
  else (s.setFld BAT_HANDOVER.ACTIVE p c 0).setFld BAT_HANDOVER.RESULT p c Status.protection.code

/-! ### Scheduled signals (R280) -/

/-- A scheduled signal among those that fire before it: in pick order, and in order of entry within a pick. -/
def insertSched (x : Sched) : List Sched → List Sched
  | [] => [x]
  | y :: t => if x.pick < y.pick then x :: y :: t else y :: insertSched x t

/-- One scheduled signal fires: the knot takes its addition, and a TSIG command completes. -/
def State.fire (s : State) (x : Sched) : State :=
  let s := { s with sched := s.sched.erase x }.trace x.part 1 x.part (leBytes 8 x.pick ++ leBytes 4 x.knot ++ leBytes 4 x.add)
  let s := s.knotAdd x.part x.knot x.add
  match x.cmd with
  | some (q, n) =>
    match (s.queue x.part q).cmds.find? (fun c => c.index = n) with
    | some c => s.completeBare x.part q c .ok
    | none => s
  | none => s

/-- Every scheduled signal whose pick has come fires. -/
def State.fireDue (s : State) : State :=
  ((s.sched.filter (fun x => x.pick ≤ s.pick)).foldl (fun l x => insertSched x l) []).foldl State.fire s

/-! ### Tables in two banks (R289 to R291, R312, R316, R376)

The switch of a table is element i: p its owner table, 8 + p its pattern cards, 16 + s stack s's remap table, 32 the weft route table. -/

/-- The bank that a table's writer rebuilds. -/
def State.shadow (s : State) (i : Nat) : Nat := 1 - s.fld TBL_SWITCH_STATUS.ACTIVE i 0

/-- The valid entries of an owner table's shadow bank. -/
def State.ownEntries (s : State) (p : Nat) : List Nat :=
  ((List.range 8192).map (fun e => s.shadow p * 8192 + e)).filter (fun j => s.fld OWN_CTRL.VALID p j = 1 && 0 < s.fld OWN_COUNT.BLOCKS p j)

/-- Whether two owner entries of one context and RED_ID share a block (R291). -/
def State.ownMeet (s : State) (p j k : Nat) : Bool :=
  j ≠ k && s.fld OWN_CTRL.CTX p j = s.fld OWN_CTRL.CTX p k && s.fld OWN_ID.RED_ID p j = s.fld OWN_ID.RED_ID p k
    && runsMeet (s.fld OWN_FIRST.BLOCK p j) (s.fld OWN_COUNT.BLOCKS p j) (s.fld OWN_FIRST.BLOCK p k) (s.fld OWN_COUNT.BLOCKS p k)

/-- The valid entries of a remap table's shadow bank that name a page of the stack, or a bank (R312). -/
def State.remapEntries (s : State) (st : Nat) : List Nat :=
  ((List.range 1024).map (fun e => s.shadow (16 + st) * 1024 + e)).filter (fun j => s.fld HBM_REMAP.VALID st j = 1
    && (s.fld HBM_REMAP.KIND st j = 1 || stackOf (s.fld HBM_REMAP.PAGE st j * 65536) = st))

/-- Whether two remap entries overlap: they name the same page, the same bank, or a page and its bank (R312). -/
def State.remapMeet (s : State) (st j k : Nat) : Bool :=
  let g := fun f => s.fld f st j == s.fld f st k
  let bank := fun j => if s.fld HBM_REMAP.KIND st j = 1 then s.fld HBM_REMAP.BANK st j else bits (s.fld HBM_REMAP.PAGE st j) 1 6
  j ≠ k && (match s.fld HBM_REMAP.KIND st j, s.fld HBM_REMAP.KIND st k with
    | 0, 0 => g HBM_REMAP.PAGE
    | 1, 1 => g HBM_REMAP.BANK && g HBM_REMAP.CHANNEL && g HBM_REMAP.PC
    | _, _ => bank j = bank k)

/-- FILLED and BAD of a table's shadow bank. -/
def State.bankStatus (s : State) (i filled : Nat) (bad : Bool) : State :=
  (s.setFld TBL_SWITCH_STATUS.FILLED i 0 (min filled 65535)).setFld TBL_SWITCH_STATUS.BAD i 0 (b2n bad)

/-- FILLED and BAD of an owner table or a remap table follow its shadow bank's contents. -/
def State.recount (s : State) (i : Nat) : State :=
  if i < 8 then
    let l := s.ownEntries i
    s.bankStatus i l.length (l.any (fun j => l.any (fun k => s.ownMeet i j k)))
  else if 16 ≤ i && i < 32 then
    let l := s.remapEntries (i - 16)
    s.bankStatus i l.length (l.any (fun j => l.any (fun k => s.remapMeet (i - 16) j k)))
  else s

/-- Whether two fills of a partition's shadow cards overlap. -/
def State.fillsMeet (s : State) (p : Nat) : Bool :=
  let l := (s.fills.filter (fun f => f.1 = p)).zipIdx
  l.any (fun x => l.any (fun y => x.2 < y.2 && runsMeet x.1.2.1 x.1.2.2 y.1.2.1 y.1.2.2))

/-- Whether a page's shadow card names a non-zero JOB that differs from its active one while its zero bit is clear (R376). -/
def State.dirtyPage (s : State) (p : Nat) : Bool :=
  let b := s.cardBank p
  (s.cardsOf (1 - b) p).any (fun (c : Nat × BitVec 16) =>
    let page := c.1 % 2 ^ 24
    let job := bits c.2.toNat 0 9
    job ≠ 0 && job ≠ bits (s.cardIn b page) 0 9 && SMap.get false s.unzeroed page)

/-- The test of a requested switch at a pick boundary: the banks exchange roles, or the switch is held (R290). -/
def State.tableSwitch (s : State) (i : Nat) : State :=
  if s.fld TBL_SWITCH_CTRL.REQ i 0 = 0 || s.pick < s.reg .TBL_SWITCH_PICK i 0 then s
  else
    let card := 8 ≤ i && i < 16
    let s := if card then s.setFld TBL_SWITCH_STATUS.BAD i 0 (b2n (s.fillsMeet (i - 8) || s.dirtyPage (i - 8))) else s
    if s.fld TBL_SWITCH_STATUS.FILLED i 0 = s.fld TBL_SWITCH_CTRL.EXPECTED i 0 && s.fld TBL_SWITCH_STATUS.BAD i 0 = 0 then
      let gen := (s.fld TBL_SWITCH_GEN.GEN i 0 + 1) % 65536
      let s := (s.setFld TBL_SWITCH_STATUS.ACTIVE i 0 (s.shadow i)).setFld TBL_SWITCH_GEN.GEN i 0 gen
      let s := (s.setFld TBL_SWITCH_CTRL.REQ i 0 0).setFld TBL_SWITCH_STATUS.HELD i 0 0
      let s := s.trace 8 2 (if 8 ≤ i && i < 16 then i - 8 else if i < 8 then i else 0x10) (leBytes 4 (s.reg .TBL_SWITCH_STATUS i 0) ++ leBytes 4 gen)
      if card then
        let p := i - 8
        let named := (s.cardsOf (s.cardBank p) p).filter (fun (c : Nat × BitVec 16) => bits c.2.toNat 0 9 ≠ 0)
        { s with fills := s.fills.filter (fun (f : Nat × Nat × Nat) => f.1 ≠ p),
                 unzeroed := named.foldl (fun m (c : Nat × BitVec 16) => SMap.set false m (c.1 % 2 ^ 24) true) s.unzeroed }.bankStatus i 0 false
      else
        let s := s.recount i
        if i < 8 then s.resendBounced i else s
    else (s.setFld TBL_SWITCH_STATUS.HELD i 0 1).bump .TBL_SWITCH_HELD i 0 1

/-! ### The boundary (R283) -/

/-- Everything due at the start of the present pick. A partition reset that waited for a flip comes at the end of the flip's pick, so before
this boundary's flips. -/
def State.atBoundary (s : State) : State :=
  let s := s.dueResets
  let s := if s.everLocked then s.profileBoundary else s
  let s := (List.range 8).foldl State.closeWindows s
  let s := s.flips
  let s := allCtx.foldl (fun s c => s.handover c.1 c.2) s
  let s := s.fireDue
  let s := (List.range 33).foldl State.tableSwitch s
  let s := s.keys.foldl State.rotateKeys s
  let ms := s.reg .TIME_FABRIC 0 0 / 8000000
  let s := if ms = s.msNumber then s else { s with msNumber := ms, msRecords := 0 }
  s.settle

/-- Fabric time takes a value, and the pick its number (R283). -/
def State.setTime (s : State) (t : Nat) : State :=
  (s.setReg .TIME_FABRIC 0 0 t).setReg .TIME_PICK 0 0 (t % 2 ^ 64 / s.pickUnits)

/-- A device that holds its time still lets a pick of fabric time pass (R284). -/
def State.holdPick (s : State) : State := { s with ahead := s.ahead - 2 * s.pickUnits }

/-- PICK_BOUNDARY (R283): the next pick begins, unless the device holds its time still (R284). -/
def execPickBoundary (s : State) : Host.Outcome State Fault Refusal :=
  .next (if 0 < s.ahead then s.holdPick else (s.setTime ((s.pick + 1) * s.pickUnits)).atBoundary)

/-- A 1 µs boundary of the management plane's local time passes, which is what a step on an empty queue stands for: until the first lock it
is the boundary of the profile and the clocks (R36, R421; DESIGN CHOICE, log entry 2). A restart of the management controller ends with it
(R388; DESIGN CHOICE, log entry 104). -/
def State.tick (s : State) : State := { (if s.everLocked then s else s.profileBoundary) with mgmtStopped := false }

/-- A step of fabric time: forward, what is due at the picks passed over is taken (R284). -/
def State.stepTime (s : State) (t : Nat) : State :=
  let old := s.pick
  let s := s.setTime t
  if old < s.pick then s.atBoundary else s

/-! ### Lock (R173, R284) -/

/-- Lock is lost (R281, R400). -/
def State.loseLock (s : State) : State :=
  let s := { s with goodExchanges := 0 }
  if s.fld TIME_STATUS.FABRIC_LOCK 0 0 = 0 then s
  else (((s.setFld TIME_STATUS.FABRIC_LOCK 0 0 0).setFld TIME_STATUS.HOLDOVER 0 0 1).bump .TIME_LOCK_LOSS 0 0 1).alarm 0x0B

/-- Lock is declared; at the first lock time steps by the correction in either direction (R284). -/
def State.declareLock (s : State) (t : Nat) : State :=
  let first := !s.everLocked
  let s := { s with everLocked := true, servo := 0 }
  let s := (s.setFld TIME_STATUS.FABRIC_LOCK 0 0 1).setFld TIME_STATUS.HOLDOVER 0 0 0
  if first then s.stepTime t else s

/-- A locked device that is behind by more than a pick steps forward, and one that is ahead by more holds its time still until fabric time
reaches it; every other correction is a slew, and a hold goes on for what is left of it (R284). `twice` is twice what the device is behind
by. -/
def State.correct (s : State) (twice : Int) : State :=
  let pick : Int := 2 * s.pickUnits
  if pick < twice then { s with ahead := 0 }.stepTime ((s.reg .TIME_FABRIC 0 0 + twice.toNat / 2) % 2 ^ 64)
  else if twice < -pick || 0 < s.ahead then { s with ahead := (-twice).toNat }
  else s

/-- The largest offset that counts towards lock, 0.25 ns. -/
abbrev lockOffset : Nat := 2

/-- An exchange on the upstream port gives twice the offset (R172, R173). Until the first lock the device applies its offsets to the clock
that its stamps are taken from, and `servo` carries twice their sum, by half of which fabric time then steps (R284; DEDUCED, log entry
102). -/
def State.exchange (s : State) (twice : Int) : State :=
  let s := { s with goodExchanges := if twice.natAbs ≤ 2 * lockOffset then s.goodExchanges + 1 else 0 }
  let s := if s.everLocked then s.correct (-twice) else { s with servo := s.servo - twice }
  if 16 ≤ s.goodExchanges && s.fld TIME_STATUS.HOPS 0 0 ≤ 6 && s.fld TIME_STATUS.FABRIC_LOCK 0 0 = 0 then
    s.declareLock ((((s.reg .TIME_FABRIC 0 0 : Nat) : Int) + s.servo / 2) % 2 ^ 64).toNat
  else s

/-! ### TIME messages -/

/-- TIME_SEND (R172). A link with no room for the message now sends none until the next is due, whose stamp is the current one. -/
def execTimeSend (port : Fin 16) (s : State) : Host.Outcome State Fault Refusal :=
  let l := port.val
  .next (if !s.linkUp l || 256 ≤ (s.port l).unacked.length then s
    else
      let (t, s) := s.now
      s.sendFlit l (.time t (s.port l).lastRx (s.fld TIME_STATUS.HOPS 0 0) (s.fld TIME_STATUS.FABRIC_LOCK 0 0 = 1) (s.reg .TIME_EPOCH 0 0)))

/-- Two devices act as root: both say so, and the one with the higher identifier yields (R282). -/
def State.rootConflict (s : State) (l : Nat) : State :=
  let s := if s.fld TIME_STATUS.ROOT_CONFLICT 0 0 = 1 then s else (s.setFld TIME_STATUS.ROOT_CONFLICT 0 0 1).alarm 0x0B
  { s with demoted := s.demoted || Decidable.decide (s.fld WEFT_PORT_STATUS.PARTNER l 0 < Config.deviceId.toNat) }

/-- TIME (R172): a TIME message arrives on an UP port; with t4 it completes the exchange of the message before it. -/
def execTimeMsg (port : Fin 16) (m : TimeMsg) (s : State) : Host.Outcome State Fault Refusal :=
  let l := port.val
  .next (if !s.linkUp l then s
    else
      let last := (s.port l).last
      let s := (s.setFld WEFT_PORT_TIME.HOPS l 0 m.hops.toNat).setFld WEFT_PORT_TIME.LOCK l 0 (b2n m.lock)
      let s := if s.actsRoot && m.hops = 0 then s.rootConflict l else s
      let s := s.chooseUpstream
      let s := s.setPort l { s.port l with last := some (m.t1.toNat, m.t2.toNat, m.t3.toNat), lastRx := some m.t2.toNat }
      let up := !s.actsRoot && s.fld WEFT_PORT_TIME.ROLE l 0 = 1
      let s := if up then s.setReg .TIME_EPOCH 0 0 m.epoch.toNat else s
      match last, m.t4 with
      | some (t1, t2, t3), some t4 =>
        let a : Int := (t2 : Int) - t1
        let b : Int := (t4.toNat : Int) - t3
        -- DELAY is the delay in whole units of 2^−3 ns, rounded down (DESIGN CHOICE, log entry 114).
        let s := s.setFld WEFT_PORT_TIME.DELAY l 0 (min 65535 ((a + b) / 2).toNat)
        if up then s.exchange (a - b) else s
      | _, _ => s)

/-- UPSTREAM_LOSS (R173): the upstream port's partner is no longer a choice, and the next is taken. -/
def execUpstreamLoss (s : State) : Host.Outcome State Fault Refusal :=
  let l := s.fld TIME_STATUS.UPSTREAM 0 0
  .next (if s.fld WEFT_PORT_TIME.ROLE l 0 = 1 then
    ({ s with goodExchanges := 0 }.setFld WEFT_PORT_TIME.HOPS l 0 7).chooseUpstream else s)

/-- FABRIC_LOCK_LOSS (R173): no valid exchange on any port for 256 intervals. -/
def execFabricLockLoss (s : State) : Host.Outcome State Fault Refusal := .next (if s.actsRoot then s else s.loseLock)

/-! ### The root (R282, R444) -/

/-- The units of 2^−3 ns in a second. -/
abbrev secUnits : Nat := 8000000000

/-- IEEE_1588_MESSAGE (R282): the ordinary clock reads `sec` seconds and `sub` units; on the root fabric time is that less TIME_EPOCH. -/
def execIeee1588Message (locked : Bool) (sec : W64) (sub : BitVec 33) (s : State) : Host.Outcome State Fault Refusal :=
  let s := s.setFld TIME_STATUS.PTP_LOCK 0 0 (b2n locked)
  .next (if !s.actsRoot then s
    else if !locked then s.loseLock
    else
      let t : Int := ((sec.toNat : Int) - s.reg .TIME_EPOCH 0 0) * secUnits + sub.toNat
      if s.everLocked then (s.correct (2 * (t - s.reg .TIME_FABRIC 0 0))).declareLock 0 else s.declareLock (t % 2 ^ 64).toNat)

/-- PPS_IN (R444): an edge, `d` units after the IEEE 1588 second. Within ±1 µs it aligns the phase of fabric time: an edge that comes late
finds fabric time ahead by as much. -/
def execPpsIn (d : Int) (s : State) : Host.Outcome State Fault Refusal :=
  .next (if s.fld TIME_CFG.ROOT 0 0 = 0 || s.fld TIME_STATUS.PTP_LOCK 0 0 = 0 then s
    else if d.natAbs ≤ 8000 then s.correct (-2 * d)
    else s.alarm 0x0B)

/-- PPS_OUT (R444): the output rises. -/
def execPpsOut (s : State) : Host.Outcome State Fault Refusal := .next (s.emit (.pin 2 true))

/-- A write to TIME_CFG (R281, R282): PICK_LOG2 takes 8 to 20 while no context is admitted; writing ROOT ends a demotion. -/
def State.writeTimeCfg (s : State) (v : Nat) : State :=
  let l := bits v 8 5
  let old := s.reg .TIME_CFG 0 0
  let keep := l < 8 || 20 < l || allCtx.any (fun c => s.admitted c.1 c.2)
  let s := s.writeMasked .TIME_CFG 0 0 (if keep then setBits v 8 5 (bits old 8 5) else v)
  let s := { s with demoted := false }.setFld TIME_STATUS.ROOT_CONFLICT 0 0 0
  (s.setTime (s.reg .TIME_FABRIC 0 0)).chooseUpstream

/-! ### The reference (R424) -/

/-- REFCLK_LOSS (R424): the PLLs hold and fabric time enters holdover. -/
def execRefclkLoss (s : State) : Host.Outcome State Fault Refusal :=
  .next (if s.refclk = 0 then { s with refclk := 1 }.loseLock else s)

/-- REFCLK_HOLDOVER_EXPIRY (R424): the engines stop, and the weft and selvage ports are DOWN. -/
def execRefclkHoldoverExpiry (s : State) : Host.Outcome State Fault Refusal :=
  .next (if s.refclk = 1 then (List.range 17).foldl (fun s l => s.linkTo l 0) { s with refclk := 2 } else s)

/-- REFCLK_RETURN (R424): the engines resume, and the enabled ports train. -/
def execRefclkReturn (s : State) : Host.Outcome State Fault Refusal :=
  let was := s.refclk
  let s := { s with refclk := 0 }
  .next (if was = 2 then (List.range 17).foldl (fun s l => if s.linkEnabled l then s.train l else s) s else s)

end Sys2Proof.Machine
end

