-- ==== Sys2Proof/Machine/Power.lean ====
section
/-! DEFINITION. The power ladder and its votes (R409 to R416), supply excursions and the reset level (R418 to R423), and the control lands
(R441, R445 to R447). Domains are 0 CLK, 1 CORE, 2 HBM, 3 LINK. -/

namespace Sys2Proof.Machine
open Sys2Proof

/-! ### Votes (R412) -/

/-- The votes of a context. An open step is one that has not ended. -/
def State.ctxVotes (s : State) (p c d : Nat) : Bool :=
  s.admitted p c && (d = 2 || (d < 2 && (s.hasWork p c || s.stepState p c ≠ 0 || s.passesOf p c ≠ [])))

/-- Whether the management controller is changing a profile, running a pattern-card command, zeroising or resetting. -/
def State.mgmtBusy (s : State) : Bool :=
  s.profileReq || s.cardOps ≠ [] || (List.range 8).any (fun p => s.fld PART_ASSIGN.STATE p 0 = 3) || s.resetting ≠ []

/-- Whether a stream, PROMOTE or RESTORE runs. -/
def State.mirrorBusy (s : State) : Bool := s.selvSent.any (fun k => pkType k = 3) || s.restreaming ≠ [] || s.rxStream ≠ [] || s.snapJobs ≠ []

/-- Whether a client of kind k holds a vote for domain d. -/
def State.kindVotes (s : State) (k d : Nat) : Bool :=
  match k with
  | 0 => allCtx.any (fun c => s.ctxVotes c.1 c.2 d)
  | 1 => bit (s.reg .PWR_VOTE_HOST 0 0) d
  | 2 => if d = 3 then s.fld PWR_TARGET.STATE 0 0 ≠ 4 else s.mgmtBusy
  | 3 => if d < 2 then s.mirrorBusy else s.paired
  | 4 => if d = 3 then (List.range 16).any s.linkUp
      else (List.range 4096).any (fun t => s.fld RED_SLOT_CTRL.STATE t 0 ≠ 0) || s.heldPackets ≠ []
  | _ => false

/-- Whether a domain holds any vote. -/
def State.voted (s : State) (d : Nat) : Bool := (List.range 5).any (fun k => s.kindVotes k d)

/-- The deepest state no deeper than `n` that withdraws no domain holding a vote (R411). -/
def State.deepest (s : State) (n : Nat) : Nat := ((List.range (min n 4)).takeWhile (fun d => !s.voted d)).length

/-! ### Attempts (R413) -/

/-- The first holder of a vote that refuses an entry to state `n`: kind, context and domain. -/
def State.firstHolder (s : State) (n : Nat) : Option (Nat × Nat × Nat × Nat) :=
  ((List.range 5).findSome? (fun k => ((List.range n).find? (fun d => s.kindVotes k d)).map (fun d =>
    let c := if k = 0 then (allCtx.find? (fun c => (List.range n).any (fun d => s.ctxVotes c.1 c.2 d))).getD (0, 0) else (0, 0)
    let d := if k = 0 then ((List.range n).find? (fun d => s.ctxVotes c.1 c.2 d)).getD d else d
    (k, c.1, c.2, d))))

/-- PWR_LAST_EVENT. -/
def State.lastEvent (s : State) (k abort p c d : Nat) : State :=
  s.setReg .PWR_LAST_EVENT 0 0 (k + abort * 2 ^ 3 + p * 2 ^ 4 + c * 2 ^ 8 + d * 2 ^ 16)

/-- A write to PWR_TARGET (R413, R417). -/
def State.writeTarget (s : State) (v : Nat) : State :=
  let s := s.traceVote .PWR_TARGET 0 v
  let n := v % 8
  let v' := if 4 < n then setBits v 0 3 (s.fld PWR_TARGET.STATE 0 0) else v
  let s := s.writeMasked .PWR_TARGET 0 0 v'
  let cur := s.fld PWR_STATE.CURRENT 0 0
  if 4 < n then s
  else if n ≤ cur then (if n = cur then s.setFld PWR_TARGET.RESULT 0 0 0 else s)
  else match s.firstHolder n with
    | none => s.setFld PWR_TARGET.RESULT 0 0 1
    | some (k, p, c, d) =>
      let t := (List.range 5).foldl (fun t k => if (List.range n).any (fun d => s.kindVotes k d) then t.bump .PWR_REFUSED_K k 0 1 else t) s
      (t.setFld PWR_TARGET.RESULT 0 0 2).lastEvent k 0 p c d

/-- ENTRY_ATTEMPT (R413). -/
def execEntryAttempt (v : W32) (s : State) : Host.Outcome State Fault Refusal := .next (s.writeTarget v.toNat)

/-- A write to PWR_VOTE_HOST (R412). -/
def State.writeHostVote (s : State) (v : Nat) : State := (s.traceVote .PWR_VOTE_HOST 0 v).writeMasked .PWR_VOTE_HOST 0 0 v

/-- HOST_VOTE (R412). -/
def execHostVote (v : W32) (s : State) : Host.Outcome State Fault Refusal := .next (s.writeHostVote v.toNat)

/-! ### Entry and exit (R410, R414, R415) -/

/-- HBM_EN takes a level. -/
def State.driveHbmEn (s : State) (b : Bool) : State := if s.hbmEn = b then s else { s with hbmEn := b }.emit (.pin 0 b)

/-- HBM is off: its contents are lost, and the next scrubber pass starts from address 0 (R307, R409). -/
def State.hbmOff (s : State) : State :=
  let s := (List.range 8).foldl State.stacksDown s
  let s := (List.range 16).foldl (fun s st => s.setReg .HBM_SCRUB_POS st 0 (scrubAddr st 0 0 0)) { s with scrubPos := [] }
  s.driveHbmEn false

/-- The device is in a power state. -/
def State.powerTo (s : State) (n : Nat) : State := s.setFld PWR_STATE.CURRENT 0 0 n

/-- A wake to a shallower state: from D3 or D4 the stacks are to train once HBM_PG rises (R410, R446). -/
def State.wakeTo (s : State) (n : Nat) : State :=
  let cur := s.fld PWR_STATE.CURRENT 0 0
  if cur ≤ n then s
  else
    let s := s.powerTo n
    let s := if 3 ≤ cur && n < 3 then { s.driveHbmEn true with exiting := true } else s
    s.settle

/-- POWER_ENTRY (R411, R414, R415): the hold has passed. The entry runs from the step after the present state; a wake of a client of `kind`
with a vote for domain `dom`, seen at abort point `point`, undoes it. Step 5 completes whatever wakes. -/
def execPowerEntry (point : Fin 5) (kind : Fin 6) (dom : Fin 4) (c : CtxId) (s : State) : Host.Outcome State Fault Refusal :=
  let cur := s.fld PWR_STATE.CURRENT 0 0
  let n := s.deepest (s.fld PWR_TARGET.STATE 0 0)
  let a := point.val
  let first := if cur = 0 then 1 else cur + 2
  .next (if n ≤ cur || s.thermtrip || s.mgmtStopped || s.resetting ≠ [] then s
    else if first ≤ a && a ≤ n then
      let s := if 4 ≤ a then s.hbmOff else s
      let s := ((s.setFld PWR_TARGET.RESULT 0 0 3).bump .PWR_ABORTED_K kind.val 0 1).lastEvent kind.val 1
        (if kind.val = 0 then c.part.val else 0) (if kind.val = 0 then c.ctx.val else 0) dom.val
      let back := min (a - 1) dom.val
      let s := s.powerTo (max cur (a - 1))
      s.wakeTo back
    else
      let s := if 3 ≤ n && cur < 3 then s.hbmOff else s
      let s := s.powerTo n
      if n = s.fld PWR_TARGET.STATE 0 0 then s.setFld PWR_TARGET.RESULT 0 0 0 else s)

/-- POWER_EXIT (R410, R411): a vote on a withdrawn domain wakes the device. D4 is left only under R416. -/
def execPowerExit (s : State) : Host.Outcome State Fault Refusal :=
  .next (if s.fld PWR_STATE.CURRENT 0 0 = 4 || s.thermtrip || s.mgmtStopped then s
    else
      let s := s.wakeTo (s.deepest (s.fld PWR_TARGET.STATE 0 0))
      if s.fld PWR_STATE.CURRENT 0 0 = s.fld PWR_TARGET.STATE 0 0 then s.setFld PWR_TARGET.RESULT 0 0 0 else s)

/-- D4 is left (R416): the host's votes and the target are set, and the device runs. -/
def State.leaveD4 (s : State) : State :=
  if s.fld PWR_STATE.CURRENT 0 0 = 4 && !s.thermtrip then
    ((s.setReg .PWR_VOTE_HOST 0 0 0xF).setFld PWR_TARGET.STATE 0 0 0).wakeTo 0
  else s

/-- WAKE_LAND (R416). -/
def execWakeLand (s : State) : Host.Outcome State Fault Refusal := .next s.leaveD4
/-- I3C_WAKE (R416). -/
def execI3cWake (s : State) : Host.Outcome State Fault Refusal := .next s.leaveD4

/-- HBM_PG (R446): with HBM_PG high after a wake the stacks train, `t` being what training finds; with it low every stack has failed. -/
def execHbmPg (level : Bool) (t : Training) (s : State) : Host.Outcome State Fault Refusal :=
  let s := { s with hbmPg := level }
  .next (if s.exiting then (List.range 8).foldl (fun s p => s.trainPart t p) { s with exiting := false } else s)

/-! ### Supplies (R418 to R423) -/

/-- Whether a rail is supervised: it is powered in the present state, and VAON has no excursion behaviour. -/
def State.supervised (s : State) (r : Nat) : Bool :=
  if r = 0 then true else if r ≤ 3 then s.hbmEn else if r = 4 then false else s.fld PWR_STATE.CURRENT 0 0 < 4 && !s.thermtrip

/-- What an excursion does to the selvage: unfinished streams go first (R350), and FLUSH is sent, at most once in any 1 ms. -/
def State.dipFlushNow (s : State) (t : Nat) : State :=
  let s := s.streamFirst
  match s.dipFlush with
  | some x => if t < x + 8000000 then s else { s with dipFlush := some t }.sendFlush
  | none => { s with dipFlush := some t }.sendFlush

/-- EXCURSION_START (R419, R420): 100 ns after the fall below warning. -/
def execExcursionStart (rail : Fin 16) (mv : BitVec 16) (s : State) : Host.Outcome State Fault Refusal :=
  let r := rail.val
  .next (if !s.supervised r || s.fld PWR_RAIL_I.EXCURSION r 0 = 1 then s
    else
      let (t, s) := s.now
      let s := ((s.setFld PWR_RAIL_I.MV r 0 mv.toNat).setFld PWR_RAIL_I.EXCURSION r 0 1).bumpFld PWR_RAIL_COUNT.COUNT r 0 1
      let s := { s with dips := SMap.put s.dips r (BitVec.ofNat 64 (t - 800)), calmSince := none }.forceClock 1
      (s.alarm (if r = 0 then 0x00 else 0x01)).dipFlushNow t)

/-- EXCURSION_END (R419, R420): the rail's lowest sample, its last, and the duration in µs, rounded up. -/
def execExcursionEnd (rail : Fin 16) (minMv mv : BitVec 16) (us : W32) (s : State) : Host.Outcome State Fault Refusal :=
  let r := rail.val
  .next (match SMap.find s.dips r with
    | none => s
    | some t0 =>
      let (t, s) := s.now
      let s := (s.setFld PWR_RAIL_I.MV r 0 mv.toNat).setFld PWR_RAIL_I.EXCURSION r 0 0
      let s := s.setReg .PWR_DIP_LAST 0 0 (r + 2 ^ 4 + minMv.toNat * 2 ^ 16)
      let s := (s.setReg .PWR_DIP_DURATION 0 0 us.toNat).setReg .PWR_DIP_TIME 0 0 t0.toNat
      let left := SMap.erase s.dips r
      { s with dips := left, calmSince := if left = [] then some t else s.calmSince })

/-- A write of PWR_DIP_LAST (R423): 1 to VALID clears all three words. -/
def State.writeDip (s : State) (v : Nat) : State :=
  if bit v 4 then ((s.setReg .PWR_DIP_LAST 0 0 0).setReg .PWR_DIP_DURATION 0 0 0).setReg .PWR_DIP_TIME 0 0 0 else s

/-- DIP_CLEAR (R423). -/
def execDipClear (v : W32) (s : State) : Host.Outcome State Fault Refusal := .next (s.writeDip (setBits v.toNat 4 1 1))

/-- Whether a boot is under way. -/
def State.booting (s : State) : Bool := 1 ≤ s.fld BOOT_STATUS.STAGE 0 0 && s.fld BOOT_STATUS.STAGE 0 0 < 7

/-- The chip reset that the supply's reset level forces (R422); during boot it is the boot's failure (R431). -/
def State.supplyReset (s : State) : State :=
  (if s.booting then s.setReg .BOOT_FAIL_CAUSE 0 0 0x0A else s).chipReset 3

/-- The packets of streams that wait whole and read the stacks of a loom die stay behind. (DEDUCED, log entry 131.) -/
def State.dropLoom (s : State) (d : Nat) : State :=
  let x := s.port 16
  s.setPort 16 { x with queue := x.queue.filter (fun t =>
    !(t.streams && t.left.length = 80 + t.pk.payload.length && bits t.pk.w2.toNat 22 3 / 2 = d)) }

/-- RESET_LEVEL_CROSSING (R422): the engines stop; of the unfinished streams, what reads stacks of a loom die whose rail has crossed does not
go on; a crossing on a VHBM rail begins the chip reset at once. -/
def execResetLevelCrossing (rail : Fin 16) (mv : BitVec 16) (s : State) : Host.Outcome State Fault Refusal :=
  let r := rail.val
  .next (if !s.supervised r then s
    else
      let s := { s with resetCrossed := true }.setFld PWR_RAIL_I.MV r 0 mv.toNat
      let s := if 5 ≤ r && r ≤ 8 then s.dropLoom (r - 5) else s
      if 1 ≤ r && r ≤ 3 then s.supplyReset else s)

/-- SUPPLY_CHIP_RESET (R422): 200 µs after a crossing, or with the 12 V input below 9.6 V. -/
def execSupplyChipReset (s : State) : Host.Outcome State Fault Refusal := .next (if s.resetCrossed then s.supplyReset else s)

/-! ### Lands (R441, R445, R447) -/

/-- A boot that ends uncounted: the attempt counter's increment is undone (R441, R447). -/
def State.uncount (s : State) : State :=
  if s.booting then s.setFld BOOT_STATUS.ATTEMPTS 0 0 (s.fld BOOT_STATUS.ATTEMPTS 0 0 - 1) else s

/-- THERMAL_TRIP (R441): everything but the always-on domain is off, HBM_EN and THERMTRIP_N are low, and the cause is recorded. -/
def execThermalTrip (s : State) : Host.Outcome State Fault Refusal :=
  .next (if s.thermtrip then s
    else
      let s := { ((s.alarm 0x02).uncount).resetChip with thermtrip := true }
      (s.setFld RST_CAUSE.LAST 0 0 5).emit (.pin 1 false))

/-- RESET_N (R447): the land was low for `us` µs. -/
def execResetN (us : Nat) (s : State) : Host.Outcome State Fault Refusal :=
  .next (if us < 10 then s
    else
      let t := s.uncount.chipReset (if s.resetCrossed then 3 else 0)
      if s.thermtrip then { t with thermtrip := false }.emit (.pin 1 true) else t)

/-- The queues whose ENABLE is 1. -/
def State.enabledQueues (s : State) : List (Nat × Nat) :=
  (s.regs.filter (fun x => x.1 / 2 ^ 40 = RegName.Q_CFG_CTRL.ctorIdx && bit x.2.toNat 0)).map
    (fun x => (x.1 / 2 ^ 20 % 2 ^ 20, x.1 % 2 ^ 20))

/-- PCIE_PERST (R269, R447): DOE sessions end, LEVEL returns to 0, and queues with rings in host memory enter ERROR. -/
def execPciePerst (s : State) : Host.Outcome State Fault Refusal :=
  let s := { s with perst := true, sessions := s.sessions.filter (fun x => x.func = 9) }
  let s := (s.enabledQueues.filter (fun x => s.fld Q_CFG_CTRL.SPACE x.1 x.2 = 0)).foldl (fun s x => s.queueError x.1 x.2 3) s
  .next ((List.range 8).foldl (fun s p => (List.range 17).foldl (fun s f => s.setReg .Q_HOST_LEVEL p f 0) s) s)

/-- PCIE_PERST_RELEASE (R447): the host link trains. -/
def execPciePerstRelease (s : State) : Host.Outcome State Fault Refusal := .next { s with perst := false }

/-- FUNCTION_RESET (R269). -/
def execFunctionReset (p : Fin 8) (vf : Fin 17) (s : State) : Host.Outcome State Fault Refusal := .next (s.setReg .Q_HOST_LEVEL p.val vf.val 0)

/-- POWER_ON_RESET (R418, R447): VAON below its reset level resets the always-on domain too. -/
def execPowerOnReset (s : State) : Host.Outcome State Fault Refusal :=
  let t := { (s.wipe fused).drivePerst s with vaon := false }
  .next (if s.hbmEn then t.emit (.pin 0 false) else t)

/-- VAON_UP (R445): the always-on domain starts. -/
def execVaonUp (s : State) : Host.Outcome State Fault Refusal := .next { s with vaon := true }

end Sys2Proof.Machine
end

