-- ==== Sys2Proof/Machine/Boot.lean ====
section
/-! DEFINITION. Boot (R425 to R431), the flash commands (R432), and the one-time-programmable configuration (R433 to R436). -/

namespace Sys2Proof.Machine
open Sys2Proof

/-! ### Flash and OTP -/

/-- `n` bytes of a flash from `a`. -/
def State.readFlash (s : State) (sel a n : Nat) : List Byte := (List.range n).map (fun i => SMap.get (0xFF : Byte) s.flash (sel * 2 ^ 28 + a + i))

/-- The marker of generation g: 0 unused, 1 valid, 2 used and invalid. -/
def State.genMark (s : State) (g : Nat) : Nat := bits (s.reg .OTP_GEN_STATUS 0 0) (2 * (g - 1)) 2

/-- The 128 bytes of generation g. -/
def State.genBytes (s : State) (g : Nat) : List Byte := (List.range 32).flatMap (fun i => leBytes 4 (s.reg .OTP_GEN_DATA (g - 1) i))

/-- The generation in force: the valid one with the highest g; 0 the built-in defaults (R434). -/
def State.inForce (s : State) : Nat := (([4, 3, 2, 1].find? (fun g => s.genMark g = 1))).getD 0

/-- A byte of the generation in force, 0 under the built-in defaults. -/
def State.setting (s : State) (i : Nat) : Nat := if s.inForce = 0 then 0 else ((s.genBytes s.inForce).getD i 0).toNat

/-- BOARD_KEY_HASH of the generation in force. -/
def State.boardKeyHash (s : State) : List Byte := if s.inForce = 0 then List.replicate 48 0 else ((s.genBytes s.inForce).drop 0x0F).take 48

/-! ### Images and the descriptor (R426, R428) -/

/-- Whether bytes `lo` to `hi − 1` are all zero. -/
def zeroIn (b : List Byte) (lo hi : Nat) : Bool := ((b.drop lo).take (hi - lo)).all (fun x => x = 0)

/-- How an image verifies: 0 it does not, 1 it fails only on its SVN, 2 it does. -/
def State.verifyImage (s : State) (sel : Nat) : Nat :=
  let h := s.readFlash sel 0 512
  let n := leNat ((h.drop 4).take 4)
  let ok := leNat (h.take 4) = 0x4B574647 && n ≤ 8388096
    && Config.sha384 ((h.drop 0x100).take 97) = Config.firmwareKeyHash
    && Config.ecdsaOk ((h.drop 0x100).take 97) (h.take 0x1A0) (h.drop 0x1A0)
    && Config.sha384 (s.readFlash sel 512 n) = (h.drop 0x40).take 48
    && zeroIn h 9 0x40 && zeroIn h 0x70 0x100 && zeroIn h 0x161 0x1A0
  if !ok then 0 else if (h.getD 8 0).toNat < s.setting 2 then 1 else 2

/-- The Tabnex descriptor's 512 bytes. -/
def State.tabnexBytes (s : State) : List Byte := s.readFlash 0 0x800000 512

/-- The feed tags of a descriptor. -/
def feedTags (b : List Byte) (n : Nat) : List Nat := (List.range n).map (fun i => leNat ((b.drop (0x10 + 8 * i)).take 8))

/-- The descriptor, where it is valid (R4, R428). -/
def State.checkTabnex (s : State) : Option Tabnex :=
  let b := s.tabnexBytes
  let byte := fun i => (b.getD i 0).toNat
  let version := leNat ((b.drop 4).take 2)
  let n := byte 0x0C
  let key := (b.drop 0x100).take 97
  let ok := leNat (b.take 4) = 0x58424E54 && leNat ((b.drop 6).take 2) = 512 && 1 ≤ version
    && !s.boardKeyHash.all (fun x => x = 0) && Config.sha384 key = s.boardKeyHash && Config.ecdsaOk key (b.take 0x1A0) (b.drop 0x1A0)
    && byte 0x0A ≤ 1 && byte 0x0B < 128 && 1 ≤ n && n ≤ 8 && (feedTags b n).all (fun t => t ≠ 0)
    && (version ≠ 1 || (zeroIn b 0x0D 0x10 && zeroIn b (0x10 + 8 * n) 0x100 && zeroIn b 0x161 0x1A0))
  if ok then some ⟨leNat ((b.drop 8).take 2), byte 0x0A, byte 0x0B, feedTags b n⟩ else none

/-! ### The steps of boot (R425) -/

/-- BOOT_STATUS.STAGE. -/
def State.bootStage (s : State) (n : Nat) : State := s.setFld BOOT_STATUS.STAGE 0 0 n

/-- A boot fails: the always-on domain records the cause and a new boot is to start (R429). -/
def State.bootFail (s : State) (cause : Nat) : State :=
  ({ (s.setReg .BOOT_FAIL_CAUSE 0 0 cause).resetChip with resetting := [(4, 0)] }).resetBusy

/-- The generation in force is read (R434). -/
def State.readOtp (s : State) : State :=
  let g := s.inForce
  let skipped := [1, 2, 3, 4].any (fun h => g < h && s.genMark h = 2)
  ((s.setFld BOOT_STATUS.OTP_GEN 0 0 g).setFld BOOT_STATUS.OTP_SKIPPED 0 0 (b2n skipped)).setFld OTP_GEN_STATUS.IN_FORCE 0 0 g

/-- The image that boot prefers: 0 A, 1 B (R427). -/
def State.preferred (s : State) : Nat :=
  match s.fld BOOT_CTRL.PREF 0 0 with
  | 1 => 0
  | 2 => 1
  | _ => s.setting 1 % 2

/-- The image that boots, or the cause of failure. -/
def State.chooseImage (s : State) : Except Nat Nat :=
  let a := s.preferred
  if s.verifyImage a = 2 then .ok a
  else if s.verifyImage (1 - a) = 2 then .ok (1 - a)
  else .error (if s.verifyImage a = 1 || s.verifyImage (1 - a) = 1 then 4 else 1)

/-- Step 1: an image is read and verified, the descriptor is checked, and both are measured (R370, R426 to R428). -/
def State.takeImage (s : State) (x : Nat) : State :=
  let put := fun (m : SMap (List Byte)) (i : Nat) (b : List Byte) => SMap.set [] m i (Config.sha384 b)
  let m := put (put (SMap.set [] s.measured 2 (Config.sha384 (s.readFlash x 0 (512 + leNat (s.readFlash x 4 4))) ++ leBytes 1 x))
    3 (if s.inForce = 0 then [] else s.genBytes s.inForce)) 5 s.tabnexBytes
  let s := { s with tabnex := s.checkTabnex, measured := m }
  let s := s.setFld BOOT_STATUS.IMAGE 0 0 x
  let s := if x = s.preferred then s else (s.setFld BOOT_STATUS.FALLBACK 0 0 1).alarm 0x03
  s.bootStage 1

/-- Step 2: the settings in force are applied (R433). -/
def State.applySettings (s : State) : State :=
  let off := s.setting 4 + 256 * s.setting 5
  let s := (List.range 16).foldl (fun s l => if bit off l then s.setFld WEFT_PORT_CTRL.ENABLE l 0 0 else s) s
  let s := (List.range 4).foldl (fun s n => if bit (s.setting 6) n then s.setFld BTIER_PORT_CTRL.ENABLE n 0 0 else s) s
  s.bootStage 2

/-- Up to eight SOFT entries of a stack are hardened, in list order (R310). -/
def State.harden (s : State) (refused : List (Fin 16 × Fin 256)) (st : Nat) : State :=
  (((List.range 256).filter (fun i => s.fld HBM_REPAIR_A.STATE st i = 1)).take 8).foldl (fun s i =>
    if refused.any (fun x => x.1.val = st && x.2.val = i) then s.setFld HBM_REPAIR_A.STATE st i 4
    else (s.setFld HBM_REPAIR_A.STATE st i 2).bump .HBM_HARD_REPAIRS st 0 1) s

/-- Step 4: HBM_EN rises and the stacks train, harden and initialise (R294, R310, R446). -/
def State.bootHbm (s : State) (env : BootEnv) : State :=
  let s := { s.driveHbmEn true with hbmPg := env.pg }
  let s := if env.pg then (List.range 16).foldl (fun s st => s.harden env.refused st) s else s
  ((List.range 8).foldl (fun s p => s.trainPart env.training p) s).bootStage 4

/-- Step 5: the enabled weft ports and the selvage link train. -/
def State.bootPorts (s : State) : State :=
  (((List.range 17).foldl (fun s l => if s.linkEnabled l then s.train l else s) s).bootStage 5).drivePerst s

/-- Step 7: boot is complete (R337, R364, R429). -/
def State.bootDone (s : State) : State :=
  let s := { (s.setFld BOOT_STATUS.ATTEMPTS 0 0 0) with resetting := s.resetting.filter (fun x => x.1 ≠ 4) }.resetBusy
  let s := if s.fld SELV_PAIR_CTRL.COMMON_FEED 0 0 = 1 then s.alarm 0x19 else s
  s.deriveAlias.bootStage 7

/-- The cause of failure of step 3 (R431). -/
def bootCause (env : BootEnv) : Option Nat :=
  if !env.regulators then some 5 else if !env.creel then some 6 else if !env.loom then some 7 else if !env.firmware then some 8 else none

/-- The steps of a boot that has an image, from the one it stands at up to step `r`, which it has reached; `n` bounds them. -/
def State.bootSteps (s : State) (env : BootEnv) (r : Nat) : Nat → State
  | 0 => s
  | n + 1 =>
    let at' := s.fld BOOT_STATUS.STAGE 0 0
    if r ≤ at' then s
    else match at' with
      | 1 => s.applySettings.bootSteps env r n
      | 2 =>
        match bootCause env with
        | some cause => s.bootFail cause
        | none => (s.bootStage 3).bootSteps env r n
      | 3 =>
        let s := s.bootHbm env
        if (List.range 16).all (fun st => s.fld HBM_STACK_STATUS.STATE st 0 = 2) then s.bootFail 9 else s.bootSteps env r n
      | 4 => s.bootPorts.bootSteps env r n
      | 5 => (s.bootStage 6).bootSteps env r n
      | _ => s.bootDone

/-- Whether a boot under way has taken its image. -/
def State.hasImage (s : State) : Bool := (SMap.find s.measured 2).isSome

/-- BOOT_START (R425 to R431): after a reset the ROM boots, or after three failures enters tabby mode. Boot waits at step 1 for the
reference (R424). A boot under way is carried on from the step at which it stands, and not counted again. -/
def execBootStart (env : BootEnv) (s : State) : Host.Outcome State Fault Refusal :=
  .next (if s.thermtrip || !s.vaon || 7 ≤ s.fld BOOT_STATUS.STAGE 0 0 then s
    else
      let n := s.fld BOOT_STATUS.ATTEMPTS 0 0
      if 3 ≤ n && !s.booting then
        { (((s.readOtp).setFld BOOT_STATUS.TABBY 0 0 1).bootStage 8) with resetting := s.resetting.filter (fun x => x.1 ≠ 4) }.resetBusy
      else
        let s := (if s.booting then s else s.setFld BOOT_STATUS.ATTEMPTS 0 0 (n + 1)).readOtp
        if s.booting && s.hasImage then s.bootSteps env env.reached.val 7
        else if !env.fuses then s.bootFail 0x0C
        else if s.inForce = 0 && [1, 2, 3, 4].any (fun g => s.genMark g ≠ 0) then s.bootFail 3
        else if s.refclk ≠ 0 || env.reached.val = 0 then s.bootStage 1
        else if !env.flash then s.bootFail 2
        else match s.chooseImage with
          | .ok x => (s.takeImage x).bootSteps env env.reached.val 7
          | .error e => s.bootFail e)

/-- BOOT_TIMEOUT (R393, R429): step 7 has not come within 10 s. A power cycle that the tray controller does not acknowledge leaves a new
boot. -/
def execBootTimeout (ack : Bool) (s : State) : Host.Outcome State Fault Refusal :=
  .next (if !s.booting then s
    else
      let s := s.setReg .BOOT_FAIL_CAUSE 0 0 0x0B
      let t := if s.maxBefore = 5 then s.powerCycle ack else s
      if s.maxBefore = 5 && s.tabnex.isSome && ack then t else t.bootFail 0x0B)

/-- A write to BOOT_CTRL (R432): PREF takes 0 to 2, and RETRY leaves tabby mode. -/
def State.writeBootCtrl (s : State) (v : Nat) : State :=
  let s := if v % 4 = 3 then s else s.setFld BOOT_CTRL.PREF 0 0 v
  if !bit v 4 then s.setFld BOOT_CTRL.RESULT 0 0 0
  else if s.fld BOOT_STATUS.TABBY 0 0 = 1 then (s.setFld BOOT_STATUS.ATTEMPTS 0 0 0).chipReset 1
  else s.setFld BOOT_CTRL.RESULT 0 0 Status.illegal.code

/-- RETRY (R432): a write to BOOT_CTRL with RETRY 1. -/
def execRetry (v : W32) (s : State) : Host.Outcome State Fault Refusal := .next (s.writeBootCtrl (setBits v.toNat 4 1 1))

/-- SMBUS_READ_BYTE (R430): answered in tabby mode. -/
def execSmbusReadByte (cmd : BitVec 8) (s : State) : Host.Outcome State Fault Refusal :=
  .next (if s.fld BOOT_STATUS.TABBY 0 0 = 0 then s
    else if cmd = 0x20 then s.emit (.smbus (s.reg .BOOT_STATUS 0 0 % 256))
    else if cmd = 0x21 then s.emit (.smbus (s.fld BOOT_FAIL_CAUSE.CAUSE 0 0))
    else if cmd = 0x22 then s.emit (.smbus (s.fld BOOT_STATUS.ATTEMPTS 0 0))
    else s)

/-! ### Flash commands (R432) -/

/-- RESULT of a flash command. -/
def State.flashResult (s : State) (st : Status) : State := s.setFld BOOT_FLASH_CMD.RESULT 0 0 st.code

/-- The page window. -/
def State.window (s : State) : List Byte := (List.range 64).flatMap (fun i => leBytes 4 (s.reg .BOOT_FLASH_DATA i 0))

/-- A write to BOOT_FLASH_CMD. -/
def State.writeFlashCmd (s : State) (v : Nat) : State :=
  let cmd := v % 4
  let a := s.fld BOOT_FLASH_ADDR.ADDR 0 0
  let sel := s.fld BOOT_FLASH_ADDR.SEL 0 0
  if cmd = 0 then s
  else if s.flashOp.isSome then s.flashResult .illegal
  else if a % (if cmd = 1 then 65536 else 256) ≠ 0 then s.flashResult .illegal
  else if cmd ≠ 3 && s.fld BOOT_STATUS.TABBY 0 0 = 0 && sel = s.fld BOOT_STATUS.IMAGE 0 0 then s.flashResult .protection
  else { s with flashOp := some ⟨cmd, sel, a, if cmd = 2 then s.window else []⟩ }.setFld BOOT_FLASH_CMD.BUSY 0 0 1

/-- FLASH_ERASE (R432). -/
def execFlashErase (v : W32) (s : State) : Host.Outcome State Fault Refusal := .next (s.writeFlashCmd (setBits v.toNat 0 2 1))
/-- FLASH_PROGRAM (R432). -/
def execFlashProgram (v : W32) (s : State) : Host.Outcome State Fault Refusal := .next (s.writeFlashCmd (setBits v.toNat 0 2 2))
/-- FLASH_READ (R432). -/
def execFlashRead (v : W32) (s : State) : Host.Outcome State Fault Refusal := .next (s.writeFlashCmd (setBits v.toNat 0 2 3))

/-- FLASH_COMMAND_COMPLETE (R432). -/
def execFlashCommandComplete (s : State) : Host.Outcome State Fault Refusal :=
  .next (match s.flashOp with
    | none => s
    | some o =>
      let k := o.sel * 2 ^ 28 + o.addr
      let s := ({ s with flashOp := none }.setFld BOOT_FLASH_CMD.BUSY 0 0 0).flashResult .ok
      if o.cmd = 1 then { s with flash := SMap.clearRange s.flash k 65536 }
      else if o.cmd = 2 then { s with flash := (o.page.zipIdx).foldl (fun m b => SMap.set (0xFF : Byte) m (k + b.2) b.1) s.flash }
      else
        let b := s.readFlash o.sel o.addr 256
        (List.range 64).foldl (fun s i => s.setReg .BOOT_FLASH_DATA i 0 (leNat ((b.drop (4 * i)).take 4))) s)

/-! ### OTP (R435) -/

/-- RESULT of an OTP command. -/
def State.otpResult (s : State) (st : Status) : State := s.setFld OTP_CMD.RESULT 0 0 st.code

/-- The staged bytes. -/
def State.otpStaged (s : State) : List Byte := (List.range 16).flatMap (fun i => leBytes 4 (s.reg .OTP_STAGE i 0))

/-- The 128 bytes that programming generation g burns. -/
def State.otpImage (s : State) (g : Nat) : List Byte :=
  let b := leBytes 1 g ++ s.otpStaged.drop 1
  b ++ Config.sha384 b ++ List.replicate 16 0

/-- A write to OTP_CMD (R435). `vendor`: through the vendor's provisioning path. -/
def State.writeOtpCmd (s : State) (v : Nat) (vendor : Bool) : State :=
  let life := s.fld SEC_LIFECYCLE.STATE 0 0
  if v % 2 = 0 then s
  else if life = 3 || (life = 0 && !vendor) then s.otpResult .protection
  else match [1, 2, 3, 4].find? (fun g => s.genMark g = 0 && (s.otpOp.map (·.1)) ≠ some g) with
    | none => s.otpResult .illegal
    | some g =>
      if (s.otpStaged.getD 0x3F 0) ≠ 0 then s.otpResult .level
      else if s.otpOp.isSome then s.otpResult .illegal
      else { s with otpOp := some (g, s.otpImage g) }.setFld OTP_CMD.BUSY 0 0 1

/-- OTP_PROGRAM (R435). -/
def execOtpProgram (v : W32) (vendor : Bool) (s : State) : Host.Outcome State Fault Refusal :=
  .next (s.writeOtpCmd (setBits v.toNat 0 1 1) vendor)

/-- OTP_PROGRAM_COMPLETE (R435): the marker is burnt last; the settings take effect at the next chip reset. -/
def execOtpProgramComplete (s : State) : Host.Outcome State Fault Refusal :=
  .next (match s.otpOp with
    | none => s
    | some (g, b) =>
      let s := (List.range 32).foldl (fun s i => s.setReg .OTP_GEN_DATA (g - 1) i (leNat ((b.drop (4 * i)).take 4))) { s with otpOp := none }
      let s := s.setReg .OTP_GEN_STATUS 0 0 (setBits (s.reg .OTP_GEN_STATUS 0 0) (2 * (g - 1)) 2 1)
      (s.setFld OTP_CMD.BUSY 0 0 0).otpResult .ok)

end Sys2Proof.Machine
end

