-- ==== Sys2Proof/Machine/Logs.lean ====
section
/-! DEFINITION. Clearing alarms (R399), the log agent and its rings (R404, R406), and incident mode (R408). -/

namespace Sys2Proof.Machine
open Sys2Proof

/-! ### Alarms -/

/-- Whether the condition of a class stands: its clear is refused (R399). -/
def State.alarmStands (s : State) (cls : Nat) : Bool :=
  (cls = 0x19 && s.fld SELV_PAIR_CTRL.COMMON_FEED 0 0 = 1) || (cls = 0x17 && s.fld SELV_PAIR_CTRL.STATE 0 0 = 4)

/-- A write to ALM_CTRL: a reserved class takes no clear (R400). -/
def State.writeAlarm (s : State) (cls v : Nat) : State :=
  if v % 2 = 0 || cls = 0x1F || 0x29 ≤ cls then s
  else if s.alarmStands cls then s.setFld ALM_CTRL.HELD cls 0 1
  else
    let s := ((s.setReg .ALM_COUNT cls 0 0).setReg .ALM_FIRST cls 0 0).setReg .ALM_LAST cls 0 0
    (s.setReg .ALM_SUMMARY 0 0 (setBits (s.reg .ALM_SUMMARY 0 0) cls 1 0)).setFld ALM_CTRL.HELD cls 0 0

/-- ALARM_CLEAR (R399). -/
def execAlarmClear (cls : Fin 64) (v : W32) (s : State) : Host.Outcome State Fault Refusal := .next (s.writeAlarm cls.val (setBits v.toNat 0 1 1))

/-! ### Rings -/

/-- BASE, WR, RD registers of a ring: 8 is the operator's, p a tenant's. -/
def ringBase (ring : Nat) : RegName × Nat := if ring = 8 then (.LOG_OP_BASE, 0) else (.SCHED_LOG_BASE, ring)
/-- WR. -/
def ringWr (ring : Nat) : RegName × Nat := if ring = 8 then (.LOG_OP_WR, 0) else (.SCHED_LOG_WR, ring)
/-- RD. -/
def ringRd (ring : Nat) : RegName × Nat := if ring = 8 then (.LOG_OP_RD, 0) else (.SCHED_LOG_RD, ring)

/-- A register named with its element. -/
def State.regAt (s : State) (x : RegName × Nat) : Nat := s.reg x.1 x.2 0
/-- It takes a value. -/
def State.setAt (s : State) (x : RegName × Nat) (v : Nat) : State := s.setReg x.1 x.2 0 v

/-- The records a ring holds. -/
def State.ringSize (s : State) (ring : Nat) : Nat := 2 ^ bits (s.regAt (ringCfg ring)) 8 5

/-- The 32 bytes of a record (R402). -/
def LogRec.bytes (r : LogRec) : List Byte :=
  leBytes 8 r.time ++ leBytes 2 r.kind ++ leBytes 1 r.flags ++ leBytes 1 r.source ++ leBytes 4 r.count ++ (r.body ++ List.replicate 16 0).take 16

/-- Where record n of a ring lies. -/
def State.ringAt (s : State) (ring n : Nat) : Nat := s.regAt (ringBase ring) + 32 * (n % s.ringSize ring)

/-- The log agent writes one record; a full ring loses its oldest (R404). -/
def State.writeRecord (s : State) (r : LogRec) : State :=
  if s.regAt (ringCfg r.ring) % 2 = 0 then s.logLoss r.ring
  else
    let wr := s.regAt (ringWr r.ring)
    match s.hbmWrite (.ring r.ring) (s.ringAt r.ring wr) r.bytes with
    | (.ok, s) =>
      let rd := s.regAt (ringRd r.ring)
      let s := if wr - rd = s.ringSize r.ring then (s.setAt (ringRd r.ring) (rd + 1)).logLoss r.ring else s
      s.setAt (ringWr r.ring) ((wr + 1) % 2 ^ 64)
    | (_, s) => s.logLoss r.ring

/-- RECORD_WRITE_OUT (R404): the oldest staged record of a ring. -/
def execRecordWriteOut (ring : Fin 9) (s : State) : Host.Outcome State Fault Refusal :=
  .next (match s.staged.find? (fun r => r.ring = ring.val) with
    | some r => { s with staged := s.staged.erase r }.writeRecord r
    | none => s)

/-- Record RD of the operator's ring is latched into LOG_OP_REC (R406). -/
def State.latchRecord (s : State) : State :=
  let rd := s.reg .LOG_OP_RD 0 0
  if rd = s.reg .LOG_OP_WR 0 0 then s.setFld LOG_OP_REC_STATUS.VALID 0 0 0
  else
    match s.hbmRead (.ring 8) (s.ringAt 8 rd) 32 with
    | (.ok, b, s) =>
      let s := (List.range 8).foldl (fun s i => s.setReg .LOG_OP_REC i 0 (leNat ((b.drop (4 * i)).take 4))) s
      s.setFld LOG_OP_REC_STATUS.VALID 0 0 1
    | (_, _, s) => s.setFld LOG_OP_REC_STATUS.VALID 0 0 0

/-- A write to a ring's RD: clamped to WR − 2^S to WR (R404). -/
def State.writeRd (s : State) (ring v : Nat) : State :=
  let wr := s.regAt (ringWr ring)
  let s := s.setAt (ringRd ring) (max (wr - s.ringSize ring) (min wr v))
  if ring = 8 then s.latchRecord else s

/-- LOG_RD_WRITE (R406). -/
def execLogRdWrite (bar : Bar) (v : W64) (s : State) : Host.Outcome State Fault Refusal :=
  .next (match bar with
    | .operator => s.writeRd 8 v.toNat
    | _ => s.viaPhysical bar (fun p => s.writeRd p v.toNat))

/-- A write to a ring's CFG (R406): setting ENABLE clears WR and RD; SIZE_LOG2 takes 11 to 24 while ENABLE is 0. -/
def State.writeRingCfg (s : State) (ring v : Nat) : State :=
  let x := ringCfg ring
  let old := s.regAt x
  let size := bits v 8 5
  let v' := if old % 2 = 1 || size < 11 || 24 < size then setBits v 8 5 (bits old 8 5) else v
  let s := s.writeMasked x.1 x.2 0 v'
  if old % 2 = 0 && v % 2 = 1 then (s.setAt (ringWr ring) 0).setAt (ringRd ring) 0 else s

/-- A write to a ring's BASE: a multiple of 64 KiB, while ENABLE is 0 (R406). -/
def State.writeRingBase (s : State) (ring v : Nat) : State :=
  if s.regAt (ringCfg ring) % 2 = 1 || v % 65536 ≠ 0 then s else s.setAt (ringBase ring) v

/-- LOG_ENABLE (R406): a write of CFG with ENABLE 1. -/
def execLogEnable (bar : Bar) (v : W32) (s : State) : Host.Outcome State Fault Refusal :=
  let w := setBits v.toNat 0 1 1
  .next (match bar with
    | .operator => s.writeRingCfg 8 w
    | _ => s.viaPhysical bar (fun p => s.writeRingCfg p w))

/-! ### Incident mode -/

/-- COALESCE_FLUSH (R408): the n-th entry of the coalescing table has been open for 1 ms. -/
def execCoalesceFlush (n : Nat) (s : State) : Host.Outcome State Fault Refusal :=
  .next (match s.coalesce[n]? with
    | some r => { s with coalesce := s.coalesce.erase r }.writeEntry r
    | none => s)

/-- INCIDENT_EXIT (R408): 100 ms of fewer than RATE / 8 records in each have passed; with every quota below one eighth full incident mode
ends and open entries are written. -/
def execIncidentExit (s : State) : Host.Outcome State Fault Refusal :=
  .next (if !s.incident || (List.range 9).any (fun r => quota r ≤ 8 * s.stagedOf r) || max 1 (s.fld LOG_INCIDENT.RATE 0 0) ≤ 8 * s.msRecords then s
    else
      let open' := s.coalesce
      let s := { s with coalesce := [] }.setFld LOG_INCIDENT.ACTIVE 0 0 0
      open'.foldl State.writeEntry s)

end Sys2Proof.Machine
end

