-- ==== Sys2Proof/Machine/Flags.lean ====
section
/-! DEFINITION. The element operations of the vector unit, each with the FLAGS it raises: FP32, FP64, BF16 and INT32 (R63, R64,
R248, R258, R260). -/

namespace Sys2Proof.Machine
open Sys2Proof

/-! TYPE codes of R258. -/
/-- FP32. -/
abbrev tFP32 : Nat := 0
/-- FP64. -/
abbrev tFP64 : Nat := 1
/-- BF16. -/
abbrev tBF16 : Nat := 2
/-- INT32. -/
abbrev tINT32 : Nat := 3

/-- The format of a floating-point TYPE. -/
def vFmt (t : Nat) : Fmt := if t = tFP64 then .fp64 else if t = tBF16 then .bf16 else .fp32

/-- A value to a format under an attribute. -/
def vRound (f : Fmt) (rm : RM) (x : Exact) : Nat × FFlags := x.round f Config.tinyAfterRounding rm

/-- A value as a result still to be rounded; a signalling not-a-number raises INVALID. -/
def FVal.exact : FVal → Exact
  | .nan s => .val (.nan false) { invalid := s }
  | .inf n => .val (.inf n) {}
  | .fin n d => Exact.dy n d

/-- The result of an operation of a TYPE: BF16 operations are FP32 operations whose result is rounded to BF16 (R64). -/
def vResult (t : Nat) (rm : RM) (x : Exact) : Nat × FFlags :=
  if t = tBF16 then
    let (c, fl) := vRound .fp32 rm x
    let (d, fl2) := vRound .bf16 rm (Fmt.fp32.decode c).exact
    (d, fl.or fl2)
  else vRound (vFmt t) rm x

/-- The INT32 functions of VOP (R258): they wrap modulo 2^32. -/
def vInt (f a b : Nat) : Nat :=
  let m := 2 ^ 32
  let lt := decide (signed 32 a < signed 32 b)
  match f with
  | 0x00 => (a + b) % m
  | 0x01 => (a + m - b % m) % m
  | 0x02 => a * b % m
  | 0x05 => if lt then a else b
  | 0x06 => if lt then b else a
  | 0x07 => unsigned 32 (signed 32 a).natAbs
  | 0x08 => (m - a % m) % m
  | 0x0D => a &&& b
  | 0x0E => a ||| b
  | 0x0F => a ^^^ b
  | 0x10 => a * 2 ^ (b % 32) % m
  | 0x11 => a / 2 ^ (b % 32)
  | _ => unsigned 32 (Int.fdiv (signed 32 a) (2 ^ (b % 32)))

/-- Whether VOP has a function for a TYPE (R258). -/
def vopTyped (f t : Nat) : Bool :=
  if f ≤ 2 || (5 ≤ f && f ≤ 8) then true
  else if f = 3 || f = 4 then t ≠ tINT32
  else if 9 ≤ f && f ≤ 0xC then t = tFP32
  else t = tINT32

/-- A floating-point function of VOP on two codes. ABS and NEG change the sign bit and nothing else. -/
def vFloat (t : Nat) (rm : RM) (f a b : Nat) : Nat × FFlags :=
  let fm := vFmt t
  let x := fm.decode a
  let y := fm.decode b
  match f with
  | 0x00 => vResult t rm (addExact rm x y)
  | 0x01 => vResult t rm (addExact rm x y.negate)
  | 0x02 => vResult t rm (mulExact x y)
  | 0x03 => vResult t rm (divExact x y)
  | 0x04 => vResult t rm (sqrtExact x)
  | 0x05 => vResult t rm (minExact false x y)
  | 0x06 => vResult t rm (minExact true x y)
  | 0x07 => (a % fm.signBit, {})
  | 0x08 => (if fm.signBit ≤ a then a - fm.signBit else a + fm.signBit, {})
  | 0x09 => vResult t rm (exp2Exact x)
  | 0x0A => vResult t rm (log2Exact x)
  | 0x0B => vResult t rm (rcpExact x)
  | _ => vResult t rm (rsqrtExact x)

/-- A function of VOP on two elements. -/
def vOp (t : Nat) (rm : RM) (f a b : Nat) : Nat × FFlags := if t = tINT32 then (vInt f a b, {}) else vFloat t rm f a b

/-- VFMA on three elements: one rounding (R258). -/
def vFma (t : Nat) (rm : RM) (a b c : Nat) : Nat × FFlags :=
  if t = tINT32 then ((a * b + c) % 2 ^ 32, {})
  else vResult t rm (fmaExact rm ((vFmt t).decode a) ((vFmt t).decode b) ((vFmt t).decode c))

/-- A relation of VCMP on two elements: 0 EQ, 1 NE, 2 LT, 3 LE, 4 GT, 5 GE, 6 UNORDERED (R258). -/
def vCmp (t f a b : Nat) : Bool × FFlags :=
  if t = tINT32 then
    let x := signed 32 a
    let y := signed 32 b
    (match f with
      | 0 => x = y | 1 => x ≠ y | 2 => x < y | 3 => x ≤ y | 4 => y < x | _ => y ≤ x, {})
  else
    let x := (vFmt t).decode a
    let y := (vFmt t).decode b
    let un := x.isNaN || y.isNaN
    let eq := !un && !x.ltNum y && !y.ltNum x
    let sig := x = .nan true || y = .nan true
    (match f with
      | 0 => eq
      | 1 => !eq
      | 2 => !un && x.ltNum y
      | 3 => !un && !y.ltNum x
      | 4 => !un && y.ltNum x
      | 5 => !un && !x.ltNum y
      | _ => un,
     { invalid := sig || (un && 2 ≤ f && f ≤ 5 && Config.compareSignals) })

/-! ### VCVT (R260) -/

/-- INT32 from FP32: not-a-number and out-of-range values give 0x8000_0000 and set INVALID. -/
def intOfFloat (rm : RM) (a : Nat) : Nat × FFlags :=
  match Fmt.fp32.decode a with
  | .fin neg d =>
    let m := Mag.ofDy d
    let (n, ex) := if d.m = 0 then (0, true) else m.floor 0
    let (n2, ex2) := if d.m = 0 then (0, true) else m.floor (-1)
    let r := if !ex && rm.up neg n (n2 % 2 = 1) (!ex2) then n + 1 else n
    let v : Int := if neg then -(r : Int) else r
    if v < -2 ^ 31 || 2 ^ 31 - 1 < v then (0x80000000, { invalid := true }) else (unsigned 32 v, { inexact := !ex })
  | _ => (0x80000000, { invalid := true })

/-- A24 from FP32: overflow gives an infinity and sets OVERFLOW. -/
def a24OfFloat (rm : RM) (a : Nat) : Nat × FFlags :=
  let v := Fmt.fp32.decode a
  let (c, fl) := vRound .a24 rm v.exact
  if fl.overflow then ((if v.sign then Fmt.a24.signBit else 0) + Fmt.a24.infCode, fl) else (c, fl)

/-- FP32 from A24, exactly: the code stands in the upper 24 bits. -/
def floatOfA24 (a : Nat) : Nat × FFlags := vRound .fp32 .tiesToEven (Fmt.a24.decode (a % 2 ^ 24)).exact

/-- A conversion between two floating-point formats. -/
def convert (src dst : Fmt) (rm : RM) (a : Nat) : Nat × FFlags := vRound dst rm (src.decode a).exact

/-- FP32 from INT32. -/
def floatOfInt (rm : RM) (a : Nat) : Nat × FFlags := vRound .fp32 rm (Exact.dy false ⟨signed 32 a, 0⟩)

end Sys2Proof.Machine
end

