-- ==== Sys2Proof/Machine/Vector.lean ====
section
/-! DEFINITION. Onaile's vector instructions (R258 to R261). A vector instruction computes when it issues; its flags reach FLAGS when
the unit completes it (R243, R248). -/

namespace Sys2Proof.Machine
open Sys2Proof

/-! ### Elements and lanes (R237, R258) -/

/-- Elements of a vector register of a TYPE. -/
def vCount (t : Nat) : Nat := if t = tFP64 then 32 else if t = tBF16 then 128 else 64

/-- Element `e` of the lanes. -/
def vElem (t : Nat) (lane : Nat → Nat) (e : Nat) : Nat :=
  if t = tFP64 then lane (2 * e) + lane (2 * e + 1) * 2 ^ 32
  else if t = tBF16 then bits (lane (e / 2)) (16 * (e % 2)) 16
  else lane e

/-- Lane `j` of the elements. -/
def vLane (t : Nat) (elem : Nat → Nat) (j : Nat) : Nat :=
  if t = tFP64 then bits (elem (j / 2)) (32 * (j % 2)) 32
  else if t = tBF16 then elem (2 * j) % 2 ^ 16 + elem (2 * j + 1) % 2 ^ 16 * 2 ^ 16
  else elem j

/-- Whether the predicate enables an element: an FP64 element follows bit 2i, and a lane holds both of its BF16 elements. -/
def vOn (t p e : Nat) : Bool := if t = tFP64 then bit p (2 * e) else if t = tBF16 then bit p (e / 2) else bit p e

/-- The element that a lane holds, the lower of two. -/
def vAt (t j : Nat) : Nat := if t = tFP64 then j / 2 else if t = tBF16 then 2 * j else j

/-- A vector register takes results under a mask: a disabled lane keeps its value, or becomes 0 where MZ is 1 (R258). The flags of
the enabled elements are gathered. -/
def Prog.setElems (g : Prog) (d t p : Nat) (mz : Bool) (f : Nat → Nat × FFlags) : Prog × FFlags :=
  let r : List (Nat × FFlags) := (List.range (vCount t)).map (fun e => if vOn t p e then f e else (0, {}))
  let a := (r.map (·.1)).toArray
  let old := g.getV d
  (g.setV d (fun j => if vOn t p (vAt t j) then vLane t (fun e => a.getD e 0) j else if mz then 0 else old j),
   r.foldl (fun x y => x.or y.2) {})

/-- The vector unit takes an instruction, unless it holds all it can. -/
def vecIssue (i : Iss) (s : State) (f : Issued) : Issued := if s.unitFull i.key 3 then .hold else f

/-- A vector instruction that ends with a status other than OK. -/
def vecFail (i : Iss) (s : State) (st : Status) : Issued := .go i.g (s.giveUnit i 3 st 0 [] [] [])

/-- A vector instruction that completes. -/
def vecDone (i : Iss) (s : State) (r : Prog × FFlags) (reads writes : List (Nat × Nat)) : Issued :=
  .go r.1 (s.giveUnit i 3 .ok r.2.toNat reads writes [])

/-- The rounding attribute of the program's FPCR. -/
def Iss.rm (i : Iss) : RM := RM.ofCode i.g.fpcr

/-- Element of V[r]. -/
def Iss.el (i : Iss) (t r e : Nat) : Nat := vElem t (i.g.getV r) e

/-! ### VOP and VFMA -/

/-- VOP (R258). -/
def rowVop : Row := ⟨0x60, fun _ => true, [(47, 5), (42, 5), (37, 5), (29, 3), (27, 2), (22, 5), (21, 1)],
  fun i s =>
    let f := i.f 22 5
    let t := i.f 27 2
    if 0x13 ≤ f then .raise .level
    else vecIssue i s (
      if !vopTyped f t then vecFail i s .illegal
      else vecDone i s (i.g.setElems (i.f 47 5) t (i.g.getP (i.f 29 3)) (i.f 21 1 = 1)
        (fun e => vOp t i.rm f (i.el t (i.f 42 5) e) (i.el t (i.f 37 5) e))) [] [])⟩

/-- VFMA (R258). -/
def rowVfma : Row := ⟨0x61, fun _ => true, [(47, 5), (42, 5), (37, 5), (32, 5), (29, 3), (27, 2), (21, 1)],
  fun i s =>
    let t := i.f 27 2
    vecIssue i s (vecDone i s (i.g.setElems (i.f 47 5) t (i.g.getP (i.f 29 3)) (i.f 21 1 = 1)
      (fun e => vFma t i.rm (i.el t (i.f 42 5) e) (i.el t (i.f 37 5) e) (i.el t (i.f 32 5) e))) [] [])⟩

/-! ### Loads and stores -/

/-- VLD (R258): the 256 B at A[X] + OFF. -/
def rowVld : Row := ⟨0x62, fun _ => true, [(47, 5), (43, 4), (40, 3), (0, 32)],
  fun i s =>
    vecIssue i s (i.own s i.addr 256 64 false (fun off =>
      let b := (s.bobRead i off 256).toArray
      vecDone i s (i.g.setElems (i.f 47 5) tFP32 (i.g.getP (i.f 40 3)) false
        (fun j => (leNat ((List.range 4).map (fun k => b.getD (4 * j + k) 0)), {}))) [(off, 256)] []))⟩

/-- VST (R258): the enabled lanes of V[A]. -/
def rowVst : Row := ⟨0x63, fun _ => true, [(47, 5), (43, 4), (40, 3), (0, 32)],
  fun i s =>
    vecIssue i s (i.own s i.addr 256 64 true (fun off =>
      let p := i.g.getP (i.f 40 3)
      let s' := (List.range 64).foldl (fun s j =>
        if bit p j then s.bobWrite i (off + 4 * j) (leBytes 4 (i.g.getV (i.f 47 5) j)) else s) s
      vecDone i s' (i.g, {}) [] [(off, 256)]))⟩

/-! ### Reductions (R260) -/

/-- One level of a pairwise tree: neighbours combine in ascending order. -/
def pairUp {α : Type} (f : α → α → α) : List α → List α
  | a :: b :: l => f a b :: pairUp f l
  | l => l

/-- `n` levels of a pairwise tree (R114). -/
def pairTree {α : Type} (f : α → α → α) : Nat → List α → List α
  | 0, l => l
  | n + 1, l => pairTree f n (pairUp f l)

/-- FP addition of two partial sums with their flags. -/
def sumPair (f : Fmt) (rm : RM) (a b : Nat × FFlags) : Nat × FFlags :=
  let (c, fl) := vRound f rm (addExact rm (f.decode a.1) (f.decode b.1))
  (c, (a.2.or b.2).or fl)

/-- SUM of elements in the pairwise order of R114, a disabled one as +0 (R260). -/
def vSum (t : Nat) (rm : RM) (on : Nat → Bool) (el : Nat → Nat) : Nat × FFlags :=
  let l := fun (n : Nat) (conv : Nat → Nat × FFlags) => (List.range n).map (fun e => if on e then conv (el e) else (0, {}))
  if t = tINT32 then (((List.range 64).foldl (fun a e => if on e then a + el e else a) 0) % 2 ^ 32, {})
  else if t = tFP64 then (pairTree (sumPair .fp64 rm) 5 (l 32 (fun a => (a, {})))).headD (0, {})
  else if t = tBF16 then
    let (c, fl) := (pairTree (sumPair .fp32 rm) 7 (l 128 (fun a => (a * 65536, {})))).headD (0, {})
    let (d, fl2) := vRound .bf16 rm (Fmt.fp32.decode c).exact
    (d, fl.or fl2)
  else (pairTree (sumPair .fp32 rm) 6 (l 64 (fun a => (a, {})))).headD (0, {})

/-- MIN or MAX of elements, a disabled one as the infinity that cannot win (R260). INT32 has no infinity: with no lane enabled the
result is `free`, which the spec does not state. -/
def vExtreme (t : Nat) (rm : RM) (isMax : Bool) (free : Nat) (on : Nat → Bool) (el : Nat → Nat) : Nat × FFlags :=
  if t = tINT32 then
    match ((List.range 64).filter on).map el with
    | [] => (free % 2 ^ 32, {})
    | a :: l => (l.foldl (vInt (if isMax then 6 else 5)) a, {})
  else
    let f := vFmt t
    let start := f.infCode + (if isMax then f.signBit else 0)
    (List.range (vCount t)).foldl (fun (a : Nat × FFlags) e =>
      let (c, fl) := vResult t rm (minExact isMax (f.decode a.1) (f.decode (if on e then el e else start)))
      (c, a.2.or fl)) (start, {})

/-- VRED (R260): the result in element 0, +0 in every other. -/
def rowVred : Row := ⟨0x64, fun _ => true, [(47, 5), (42, 5), (29, 3), (27, 2), (22, 5)],
  fun i s =>
    let f := i.f 22 5
    let t := i.f 27 2
    let on := vOn t (i.g.getP (i.f 29 3))
    let el := i.el t (i.f 42 5)
    if f ≠ 0 && f ≠ 5 && f ≠ 6 then .raise .level
    else vecIssue i s (
      let (free, s) := s.fresh
      let (v, fl) := if f = 0 then vSum t i.rm on el else vExtreme t i.rm (f = 6) free on el
      vecDone i s (i.g.setV (i.f 47 5) (vLane t (fun e => if e = 0 then v else 0)), fl) [] [])⟩

/-! ### Conversions (R260) -/

/-- Destination TYPE of a VCVT function, by which the mask is read. -/
def cvtType (f : Nat) : Nat := if f = 0 then tBF16 else if f = 3 || f = 4 then tFP64 else tFP32

/-- Element `e` of a VCVT's result. -/
def cvtElem (rm : RM) (f : Nat) (a b : Nat → Nat) (e : Nat) : Nat × FFlags :=
  match f with
  | 0x00 => convert .fp32 .bf16 rm (if e < 64 then a e else b (e - 64))
  | 0x01 => convert .bf16 .fp32 rm (vElem tBF16 a e)
  | 0x02 => convert .bf16 .fp32 rm (vElem tBF16 a (64 + e))
  | 0x03 => convert .fp32 .fp64 rm (a e)
  | 0x04 => convert .fp32 .fp64 rm (a (32 + e))
  | 0x05 => convert .fp64 .fp32 rm (if e < 32 then vElem tFP64 a e else vElem tFP64 b (e - 32))
  | 0x06 => floatOfInt rm (a e)
  | 0x07 => intOfFloat rm (a e)
  | 0x08 => floatOfA24 (a e)
  | _ => a24OfFloat rm (a e)

/-- VCVT (R260). -/
def rowVcvt : Row := ⟨0x65, fun _ => true, [(47, 5), (42, 5), (37, 5), (29, 3), (22, 5), (21, 1)],
  fun i s =>
    let f := i.f 22 5
    if 0x0A ≤ f then .raise .level
    else vecIssue i s (vecDone i s (i.g.setElems (i.f 47 5) (cvtType f) (i.g.getP (i.f 29 3)) (i.f 21 1 = 1)
      (cvtElem i.rm f (i.g.getV (i.f 42 5)) (i.g.getV (i.f 37 5)))) [] [])⟩

/-! ### Comparison, selection, broadcast -/

/-- VCMP (R258): bit j of P[D] is 1 where lane j is enabled and the relation holds for the element it holds. -/
def rowVcmp : Row := ⟨0x66, fun _ => true, [(47, 3), (42, 5), (37, 5), (29, 3), (27, 2), (22, 5)],
  fun i s =>
    let f := i.f 22 5
    let t := i.f 27 2
    if 7 ≤ f then .raise .level
    else vecIssue i s (
      if t = tBF16 || (t = tINT32 && f = 6) then vecFail i s .illegal
      else
        let p := i.g.getP (i.f 29 3)
        let r := (List.range (vCount t)).map (fun e =>
          if vOn t p e then vCmp t f (i.el t (i.f 42 5) e) (i.el t (i.f 37 5) e) else (false, {}))
        let v := (List.range 64).foldl (fun v j => if (r.getD (vAt t j) (false, {})).1 then v + 2 ^ j else v) 0
        vecDone i s (i.g.setP (i.f 47 3) v, r.foldl (fun a y => a.or y.2) {}) [] [])⟩

/-- VSEL (R258). -/
def rowVsel : Row := ⟨0x67, fun _ => true, [(47, 5), (42, 5), (37, 5), (29, 3)],
  fun i s =>
    vecIssue i s (
      let p := i.g.getP (i.f 29 3)
      vecDone i s (i.g.setV (i.f 47 5) (fun j => if bit p j then i.g.getV (i.f 42 5) j else i.g.getV (i.f 37 5) j), {}) [] [])⟩

/-- VBCAST (R258). -/
def rowVbcast : Row := ⟨0x68, fun _ => true, [(47, 5), (42, 5)],
  fun i s =>
    vecIssue i s (vecDone i s (i.g.setV (i.f 47 5) (fun _ => i.g.getS (i.f 42 5) % 2 ^ 32), {}) [] [])⟩

/-! ### Random draws (R261) -/

/-- VRAND (R261): identifiers below 0x8000_0000 are the GT4's own; a job without keys has no seed. -/
def rowVrand : Row := ⟨0x69, fun _ => true, [(47, 5), (42, 5), (37, 5), (32, 5)],
  fun i s =>
    vecIssue i s (
      let id := i.g.getS (i.f 42 5) % 2 ^ 32
      let job := s.jobOf i.part i.ctx
      if id < 2 ^ 31 || (s.keySet job).isNone then vecFail i s .protection
      else
        let idx := i.g.getS (i.f 37 5)
        let pos := i.g.getS (i.f 32 5)
        vecDone i s (i.g.setV (i.f 47 5) (fun j => draw (s.seed job) id pos (idx + j) % 2 ^ 32), {}) [] [])⟩

end Sys2Proof.Machine
end

