-- ==== Sys2Proof/Machine/Programs.lean ====
section
/-! DEFINITION. The rows of Onaile together: which program state issues next (R236), the instruction word (R244, R245) and its issue (R238,
R246), and the command of each row. -/

namespace Sys2Proof.Machine
open Sys2Proof

/-- Every row of Onaile's tables. -/
def allRows : List Row :=
  [rowNopInstr, rowBr, rowJmpa, rowCall, rowLoop, rowWaitu, rowYield, rowEndProgram, rowSop, rowSopi, rowSli, rowSld, rowSst,
   rowScmp, rowAop, rowAget, rowTld, rowTst, rowTadj, rowSysr, rowSysw, rowCopy, rowFillInstr, rowCopyobj, rowWaits, rowKsigLocal,
   rowKsigRemote, rowKwait, rowKread, rowRsend, rowRscan, rowRcalib, rowRslotOpen, rowRslotRelease, rowBstepOpen, rowBstepCommit,
   rowBstepVeto, rowBstat, rowBcursorReadCommitted, rowBcursorReadProvisional, rowBcursorWrite, rowTnow, rowTwaitp, rowTsched,
   rowVop, rowVfma, rowVld, rowVst, rowVred, rowVcvt, rowVcmp, rowVsel, rowVbcast, rowVrand, rowPackAct, rowPackWgtInit,
   rowPackWgt, rowUnpack, rowRotate, rowRound, rowFmul, rowDgrad, rowWgrad, rowMatmulBf16]

/-- The row that a word of level 1 spells, by its OPCODE and the operand bits that choose among the rows of one OPCODE; none where the class,
the operation or a sub-code of it is reserved (R244, R245). -/
def rowOf (w : Nat) : Option Row :=
  if bits w 52 4 = 1 then allRows.find? (fun r => r.opcode = bits w 56 8 && r.sub (bits w 0 52)) else none

/-! ### Which program state issues (R236) -/

/-- Whether a program state is ready: it runs a program that waits for nothing, has met no exception, and whose next instruction neither the
ordering rule nor a full unit holds. -/
def State.readyState (s : State) (p e i : Nat) : Bool :=
  match s.prog (progKey p e i) with
  | none => false
  | some g =>
    if g.trap.isSome || g.wait ≠ .none then false
    else match s.fetch p e g with
      | (.ok, w, s) =>
        match rowOf w.toNat with
        | some r =>
          if namedOnly (bits w.toNat 0 52) r.fields then
            match r.effect (g.iss p e i r.opcode (bits w.toNat 0 52) true) s with
            | .hold => false
            | _ => true
          else true
        | none => true
      | _ => true

/-- The program states of an engine from the one whose turn comes first up to the one before `i`. After reset program state 0 is first
(DESIGN CHOICE, log entry 118). -/
def State.before (s : State) (p e i : Nat) : List Nat :=
  let t := (SMap.get 0 s.nextTurn (p * 48 + e)).toNat
  (List.range ((i + 8 - t) % 8)).map (fun d => (t + d) % 8)

/-- Whether a program state gives up its turn. -/
def State.gaveUp (s : State) (p e i : Nat) : Bool := ((s.prog (progKey p e i)).map (·.yielded)).getD false

/-- Whether it is a program state's turn: of those before it none is ready, but for those that give up their turn; and where it gives up its
own, no other is ready that has not given up a turn too (R236, R250). -/
def State.due (s : State) (p e i : Nat) : Bool :=
  let first := s.before p e i
  !first.any (fun j => s.readyState p e j && !s.gaveUp p e j) &&
  (!s.gaveUp p e i || !(List.range 8).any (fun j => j ≠ i && s.readyState p e j && (first.contains j || !s.gaveUp p e j)))

/-- A program state has its turn: the next pick begins after it, and the turns given up before it are spent. -/
def State.turnTo (s : State) (p e i : Nat) : State :=
  let spent := if s.gaveUp p e i then List.range 8 else s.before p e i
  { s with nextTurn := SMap.set 0 s.nextTurn (p * 48 + e) (BitVec.ofNat 32 ((i + 1) % 8)),
           progs := spent.foldl (fun m j => match SMap.find m (progKey p e j) with
             | some g => if g.yielded then SMap.put m (progKey p e j) { g with yielded := false } else m
             | none => m) s.progs }

/-! ### Issue -/

/-- An exception at the instruction of a program state (R246). -/
def State.trapped (s : State) (i : Iss) (st : Status) : State := ((s.setProg i.key i.g).progress i.part i.ctx).raise i.key (i.trap st)

/-- The command of a row: the instruction that its operands spell issues from a program state. Nothing issues from one that is free, that
waits or that has met an exception, from a stopped engine, or out of turn. A fetch that fails gives the instruction its status; which OPCODE it
reports then, the spec does not say. A word whose class, operation or sub-code is reserved, or of another level, does nothing (R245). A word
that spells another instruction is no case of this command. -/
def State.issue (s : State) (x : Issue) (r : Row) : State :=
  let p := x.part.val
  let e := x.engine.val
  let k := x.ps.val
  match s.prog (progKey p e k) with
  | none => s
  | some g =>
    if g.trap.isSome || g.wait ≠ .none || s.stopped || !s.due p e k then s
    else match s.fetch p e g with
      | (.ok, w, u) =>
        let op := x.op.toNat
        if w.toNat = r.opcode * 2 ^ 56 + x.lvl.toNat * 2 ^ 52 + op && x.lvl = 1 && r.sub op then
          let i := g.iss p e k r.opcode op false
          let u := u.turnTo p e k
          if !namedOnly op r.fields then u.trapped i .level
          else match r.effect i u with
            | .raise st => u.trapped i st
            | .hold => s
            | .go g u => ((u.setProg (progKey p e k) g).progress p g.ctx).settleOne (progKey p e k)
        else if (rowOf w.toNat).isSome then s
        else (u.turnTo p e k).trapped (g.iss p e k (bits w.toNat 56 8) 0 false) .level
      | (st, _, u) =>
        let (n, u) := u.fresh
        (u.turnTo p e k).trapped (g.iss p e k (n % 256) 0 false) st

/-! ### The commands -/

/-- NOP (R250). -/
def execNopInstr (x : Issue) (s : State) : Host.Outcome State Fault Refusal := .next (s.issue x rowNopInstr)

/-- BR (R250). -/
def execBr (x : Issue) (s : State) : Host.Outcome State Fault Refusal := .next (s.issue x rowBr)

/-- JMPA (R250). -/
def execJmpa (x : Issue) (s : State) : Host.Outcome State Fault Refusal := .next (s.issue x rowJmpa)

/-- CALL (R250). -/
def execCall (x : Issue) (s : State) : Host.Outcome State Fault Refusal := .next (s.issue x rowCall)

/-- LOOP (R250). -/
def execLoop (x : Issue) (s : State) : Host.Outcome State Fault Refusal := .next (s.issue x rowLoop)

/-- WAITU (R250). -/
def execWaitu (x : Issue) (s : State) : Host.Outcome State Fault Refusal := .next (s.issue x rowWaitu)

/-- YIELD (R250). -/
def execYield (x : Issue) (s : State) : Host.Outcome State Fault Refusal := .next (s.issue x rowYield)

/-- END (R250). -/
def execEndProgram (x : Issue) (s : State) : Host.Outcome State Fault Refusal := .next (s.issue x rowEndProgram)

/-- SOP (R251). -/
def execSop (x : Issue) (s : State) : Host.Outcome State Fault Refusal := .next (s.issue x rowSop)

/-- SOPI (R251). -/
def execSopi (x : Issue) (s : State) : Host.Outcome State Fault Refusal := .next (s.issue x rowSopi)

/-- SLI (R251). -/
def execSli (x : Issue) (s : State) : Host.Outcome State Fault Refusal := .next (s.issue x rowSli)

/-- SLD (R251). -/
def execSld (x : Issue) (s : State) : Host.Outcome State Fault Refusal := .next (s.issue x rowSld)

/-- SST (R251). -/
def execSst (x : Issue) (s : State) : Host.Outcome State Fault Refusal := .next (s.issue x rowSst)

/-- SCMP (R251). -/
def execScmp (x : Issue) (s : State) : Host.Outcome State Fault Refusal := .next (s.issue x rowScmp)

/-- AOP (R251). -/
def execAop (x : Issue) (s : State) : Host.Outcome State Fault Refusal := .next (s.issue x rowAop)

/-- AGET (R251). -/
def execAget (x : Issue) (s : State) : Host.Outcome State Fault Refusal := .next (s.issue x rowAget)

/-- TLD (R251). -/
def execTld (x : Issue) (s : State) : Host.Outcome State Fault Refusal := .next (s.issue x rowTld)

/-- TST (R251). -/
def execTst (x : Issue) (s : State) : Host.Outcome State Fault Refusal := .next (s.issue x rowTst)

/-- TADJ (R251). -/
def execTadj (x : Issue) (s : State) : Host.Outcome State Fault Refusal := .next (s.issue x rowTadj)

/-- SYSR (R249). -/
def execSysr (x : Issue) (s : State) : Host.Outcome State Fault Refusal := .next (s.issue x rowSysr)

/-- SYSW (R248, R249). -/
def execSysw (x : Issue) (s : State) : Host.Outcome State Fault Refusal := .next (s.issue x rowSysw)

/-- COPY (R252, R254). -/
def execCopy (x : Issue) (s : State) : Host.Outcome State Fault Refusal := .next (s.issue x rowCopy)

/-- FILL (R252, R254). -/
def execFillInstr (x : Issue) (s : State) : Host.Outcome State Fault Refusal := .next (s.issue x rowFillInstr)

/-- COPYOBJ (R252, R254, R333). -/
def execCopyobj (x : Issue) (s : State) : Host.Outcome State Fault Refusal := .next (s.issue x rowCopyobj)

/-- WAITS (R252). -/
def execWaits (x : Issue) (s : State) : Host.Outcome State Fault Refusal := .next (s.issue x rowWaits)

/-- KSIG with REMOTE = 0 (R262). -/
def execKsigLocal (x : Issue) (s : State) : Host.Outcome State Fault Refusal := .next (s.issue x rowKsigLocal)

/-- KSIG with REMOTE = 1 (R262). -/
def execKsigRemote (x : Issue) (s : State) : Host.Outcome State Fault Refusal := .next (s.issue x rowKsigRemote)

/-- KWAIT (R262). -/
def execKwait (x : Issue) (s : State) : Host.Outcome State Fault Refusal := .next (s.issue x rowKwait)

/-- KREAD (R262). -/
def execKread (x : Issue) (s : State) : Host.Outcome State Fault Refusal := .next (s.issue x rowKread)

/-- RSEND (R263). -/
def execRsend (x : Issue) (s : State) : Host.Outcome State Fault Refusal := .next (s.issue x rowRsend)

/-- RSCAN (R192, R263). -/
def execRscan (x : Issue) (s : State) : Host.Outcome State Fault Refusal := .next (s.issue x rowRscan)

/-- RCALIB (R185, R263). -/
def execRcalib (x : Issue) (s : State) : Host.Outcome State Fault Refusal := .next (s.issue x rowRcalib)

/-- RSLOT with CMD OPEN (R264). -/
def execRslotOpen (x : Issue) (s : State) : Host.Outcome State Fault Refusal := .next (s.issue x rowRslotOpen)

/-- RSLOT with CMD RELEASE (R264). -/
def execRslotRelease (x : Issue) (s : State) : Host.Outcome State Fault Refusal := .next (s.issue x rowRslotRelease)

/-- BSTEP OPEN (R220). -/
def execBstepOpen (x : Issue) (s : State) : Host.Outcome State Fault Refusal := .next (s.issue x rowBstepOpen)

/-- BSTEP COMMIT (R221). -/
def execBstepCommit (x : Issue) (s : State) : Host.Outcome State Fault Refusal := .next (s.issue x rowBstepCommit)

/-- BSTEP VETO (R226). -/
def execBstepVeto (x : Issue) (s : State) : Host.Outcome State Fault Refusal := .next (s.issue x rowBstepVeto)

/-- BSTAT (R262). -/
def execBstat (x : Issue) (s : State) : Host.Outcome State Fault Refusal := .next (s.issue x rowBstat)

/-- BCURSOR OP 0x0 (R262). -/
def execBcursorReadCommitted (x : Issue) (s : State) : Host.Outcome State Fault Refusal := .next (s.issue x rowBcursorReadCommitted)

/-- BCURSOR OP 0x1 (R262). -/
def execBcursorReadProvisional (x : Issue) (s : State) : Host.Outcome State Fault Refusal := .next (s.issue x rowBcursorReadProvisional)

/-- BCURSOR OP 0x2 (R262). -/
def execBcursorWrite (x : Issue) (s : State) : Host.Outcome State Fault Refusal := .next (s.issue x rowBcursorWrite)

/-- TNOW (R262). -/
def execTnow (x : Issue) (s : State) : Host.Outcome State Fault Refusal := .next (s.issue x rowTnow)

/-- TWAITP (R262). -/
def execTwaitp (x : Issue) (s : State) : Host.Outcome State Fault Refusal := .next (s.issue x rowTwaitp)

/-- TSCHED (R262, R280). -/
def execTsched (x : Issue) (s : State) : Host.Outcome State Fault Refusal := .next (s.issue x rowTsched)

/-- VOP (R258). -/
def execVop (x : Issue) (s : State) : Host.Outcome State Fault Refusal := .next (s.issue x rowVop)

/-- VFMA (R258). -/
def execVfma (x : Issue) (s : State) : Host.Outcome State Fault Refusal := .next (s.issue x rowVfma)

/-- VLD (R258). -/
def execVld (x : Issue) (s : State) : Host.Outcome State Fault Refusal := .next (s.issue x rowVld)

/-- VST (R258). -/
def execVst (x : Issue) (s : State) : Host.Outcome State Fault Refusal := .next (s.issue x rowVst)

/-- VRED (R260). -/
def execVred (x : Issue) (s : State) : Host.Outcome State Fault Refusal := .next (s.issue x rowVred)

/-- VCVT (R260). -/
def execVcvt (x : Issue) (s : State) : Host.Outcome State Fault Refusal := .next (s.issue x rowVcvt)

/-- VCMP (R258). -/
def execVcmp (x : Issue) (s : State) : Host.Outcome State Fault Refusal := .next (s.issue x rowVcmp)

/-- VSEL (R258). -/
def execVsel (x : Issue) (s : State) : Host.Outcome State Fault Refusal := .next (s.issue x rowVsel)

/-- VBCAST (R258). -/
def execVbcast (x : Issue) (s : State) : Host.Outcome State Fault Refusal := .next (s.issue x rowVbcast)

/-- VRAND (R261). -/
def execVrand (x : Issue) (s : State) : Host.Outcome State Fault Refusal := .next (s.issue x rowVrand)

/-- PACK_ACT (R74, R84, R85). -/
def execPackAct (x : Issue) (s : State) : Host.Outcome State Fault Refusal := .next (s.issue x rowPackAct)

/-- PACK_WGT_INIT (R83). -/
def execPackWgtInit (x : Issue) (s : State) : Host.Outcome State Fault Refusal := .next (s.issue x rowPackWgtInit)

/-- PACK_WGT (R83). -/
def execPackWgt (x : Issue) (s : State) : Host.Outcome State Fault Refusal := .next (s.issue x rowPackWgt)

/-- UNPACK (R92). -/
def execUnpack (x : Issue) (s : State) : Host.Outcome State Fault Refusal := .next (s.issue x rowUnpack)

/-- ROTATE (R93). -/
def execRotate (x : Issue) (s : State) : Host.Outcome State Fault Refusal := .next (s.issue x rowRotate)

/-- ROUND (R93). -/
def execRound (x : Issue) (s : State) : Host.Outcome State Fault Refusal := .next (s.issue x rowRound)

/-- FMUL (R105). -/
def execFmul (x : Issue) (s : State) : Host.Outcome State Fault Refusal := .next (s.issue x rowFmul)

/-- DGRAD (R133). -/
def execDgrad (x : Issue) (s : State) : Host.Outcome State Fault Refusal := .next (s.issue x rowDgrad)

/-- WGRAD (R133, R154). -/
def execWgrad (x : Issue) (s : State) : Host.Outcome State Fault Refusal := .next (s.issue x rowWgrad)

/-- MATMUL_BF16 (R133). -/
def execMatmulBf16 (x : Issue) (s : State) : Host.Outcome State Fault Refusal := .next (s.issue x rowMatmulBf16)

end Sys2Proof.Machine
end

