-- ==== Sys2Proof/Machine/Registers.lean ====
section
/-! DEFINITION. Accesses to registers through the BARs (R8, R11 to R17): which register lies at an offset, which function sees it, what a
write does beyond storing its fields, and the split accesses of R12. -/

namespace Sys2Proof.Machine
open Sys2Proof

/-! ### Where a register lies -/

/-- The element of a register that an offset falls in, and the byte of it: two indices and the distance from its start. -/
def RegRow.place (r : RegRow) (off : Nat) : Option (Nat × Nat × Nat) :=
  if off < r.base then none
  else
    let d := off - r.base
    let w := r.reg.info.width / 8
    match r.dims with
    | [] => if d < w then some (0, 0, d) else none
    | [(n, t)] => if d / t < n && d % t < w then some (d / t, 0, d % t) else none
    | (n, t) :: (m, u) :: _ =>
      let e := d % t
      if d / t < n && e / u < m && e % u < w then some (d / t, e / u, e % u) else none

/-- The elements of the second dimension of a register array. -/
def RegRow.inner (r : RegRow) : Nat :=
  match r.dims with
  | _ :: (m, _) :: _ => m
  | _ => 1

/-- A place that an access reaches: the register, its two indices as State holds them, and the byte of it. -/
structure RegPlace where
  reg : RegName
  i : Nat
  j : Nat
  byte : Nat
  deriving DecidableEq, Repr

/-- The register at an offset of the operator space. -/
def operatorAt (off : Nat) : Option RegPlace :=
  regRows.findSome? (fun r => if r.space = .operator then (r.place off).map (fun x => ⟨r.reg, x.1 + r.iBase, x.2.1, x.2.2⟩) else none)

/-- The register at an offset of the tenant space of partition p. -/
def tenantAt (p off : Nat) : Option RegPlace :=
  regRows.findSome? (fun r =>
    match r.space with
    | .operator => none
    | .tenant => (r.place off).map (fun x => ⟨r.reg, p, x.1 * r.inner + x.2.1, x.2.2⟩)
    | .device => (r.place off).map (fun x => ⟨r.reg, x.1, 0, x.2.2⟩))

/-! ### Who sees it -/

/-- Whether an operator offset is there: in tabby mode only the boot, OTP, identity and alarm registers are (R430). -/
def State.operatorSees (s : State) (off : Nat) : Bool :=
  s.fld BOOT_STATUS.TABBY 0 0 = 0 || off < 0x10000 || (0x20000 ≤ off && off < 0x30000) || (0x40000 ≤ off && off < 0x40800)
    || (0x41000 ≤ off && off < 0x42000)

/-- The registers of layer entries. -/
def layerWords : List RegName :=
  [.TEN_LAYER_CFG, .TEN_LAYER_STATE, .TEN_LAYER_FNORM, .TEN_LAYER_FREF, .TEN_LAYER_GCFG, .TEN_LAYER_GSTATE, .TEN_LAYER_GNORM, .TEN_LAYER_GREF]

/-- The registers of registration entries. -/
def entryWords : List RegName :=
  [.BAT_REG_CTRL, .BAT_REG_ID, .BAT_REG_BASE, .BAT_REG_LEN, .BAT_REG_AREA, .BAT_REG_STRIDE, .BAT_REG_LR, .BAT_REG_CLIP, .BAT_REG_SLOTS,
   .BAT_REG_GRAD, .SNAP_ENTRY]

/-- The words of a slot descriptor. -/
def slotRegWords : List RegName :=
  [.RED_SLOT_CTRL, .RED_SLOT_ID, .RED_SLOT_STEP, .RED_SLOT_BASE, .RED_SLOT_LEN, .RED_SLOT_CONTRIB, .RED_SLOT_ACC, .RED_SLOT_WINDOW]

/-- Whether function f of partition p (0 the physical one) sees an element of a register (R14, R17, R119, R198, R202). -/
def State.tenantSees (s : State) (p f : Nat) (r : RegName) (i j : Nat) : Bool :=
  match r with
  | .Q_TAIL | .Q_CPL_ACK | .Q_FETCHED | .Q_STATUS | .Q_CFG_CTRL | .Q_CFG_RING | .Q_CFG_CPL => s.seesQueue p f j
  | .Q_VF_CMDS | .Q_VF_FAULTS | .Q_HOST_LEVEL => f = 0 || f = j
  | .KNOT_COUNT | .KNOT_ADD | .KNOT_CFG | .KNOT_IRQ_AT => s.seesKnot p f j
  | _ => f = 0 && (if layerWords.contains r then s.layerSeen p j
      else if entryWords.contains r then (s.entryOwner p j).isSome
      else if slotRegWords.contains r then
        (match s.slotOwner i with
         | some (q, _) => q = p
         | none => false)
      else true)

/-- Run `f` on the register that an access reaches, with the accessing partition (8: the operator); answer `d` where there is none that
the function sees (R14). -/
def State.atPlace (s : State) (bar : Bar) (off : Nat) (d : State) (f : Nat → RegPlace → State) : State :=
  match bar with
  | .operator =>
    if s.operatorSees off then
      (match operatorAt off with
       | some x => f 8 x
       | none => d)
    else d
  | _ => s.viaTenant bar (fun p v =>
      match tenantAt p off with
      | some x => if s.tenantSees p v x.reg x.i x.j then f p x else d
      | none => d)

/-! ### Writes -/

/-- The grant words of a context, whose writes are discarded while it is admitted (R265, R334, R374). -/
def grantRegs : List RegName :=
  [.PART_CTX_QUEUES, .PART_CTX_KNOTS, .PART_CTX_GATHER, .PART_CTX_PLACE, .PART_CTX_OBJECTS, .PART_CTX_TABLE, .PART_CTX_JOB, .PART_CTX_ENGINES,
   .PART_CTX_LAYERS, .PART_CTX_REGS, .PART_CTX_SLOTS, .PART_CTX_RESV, .PART_CTX_ACC, .PART_CTX_ACC_LEN, .PART_CTX_RESV_ADDR]

/-- The registers of a context whose writes are discarded while it has an open step (R201, R361, R450). -/
def stepLockedRegs : List RegName :=
  [.RED_PEER_TABLE, .RED_PEER_LIST, .RED_PLANE, .SNAP_CTX_CFG, .SNAP_RX_BASE, .SNAP_RX_SLOT, .SNAP_DELTA_SIZE, .SNAP_DELTA_BASE,
   .SNAP_BOARD_BASE, .SNAP_RST_ADDR, .SNAP_RST_COUNT, .SNAP_AUTO, .SNAP_RX_SIDE, .BAT_COMMIT_HOME]

/-- A field that an illegal value leaves unchanged keeps its value in the word written. -/
def State.keepField (s : State) (f : Field) (i j v : Nat) (ok : Bool) : Nat :=
  if ok then v else setBits v f.lo f.len (s.fld f i j)

/-- A write of a clear bit clears the whole of a group of registers. -/
def State.clearGroup (s : State) (rs : List RegName) (i : Nat) : State := rs.foldl (fun s r => s.setReg r i 0 r.info.reset) s

/-- A write to a word of the operator space that does more than store its fields, or none where it is a plain write. -/
def State.writeOperator (s : State) (r : RegName) (i j v : Nat) : Option State :=
  match r with
  | .DEV_PROFILE => some (s.writeProfile v)
  | .PWR_TARGET => some (s.writeTarget v)
  | .PWR_VOTE_HOST => some (s.writeHostVote v)
  | .PWR_DIP_LAST => some (s.writeDip v)
  | .BOOT_CTRL => some (s.writeBootCtrl v)
  | .BOOT_FLASH_CMD => some (s.writeFlashCmd v)
  | .OTP_CMD => some (s.writeOtpCmd v false)
  | .TIME_CFG => some (s.writeTimeCfg v)
  | .ALM_CTRL => some (s.writeAlarm i v)
  | .LOG_OP_BASE => some (s.writeRingBase 8 v)
  | .LOG_OP_CFG => some (s.writeRingCfg 8 v)
  | .LOG_OP_RD => some (s.writeRd 8 v)
  | .RST_REQ => some (s.writeRstReq v false)
  | .HANG_CFG =>
    let l := HANG_CFG.MAX_LEVEL.of v
    some (s.writeMasked r i j (s.keepField HANG_CFG.MAX_LEVEL i j v (1 ≤ l && l ≤ 5)))
  | .HANG_CTX_CFG => some (s.writeMasked r i j (s.keepField HANG_CTX_CFG.TIMEOUT_LOG2 i j v (HANG_CTX_CFG.TIMEOUT_LOG2.of v ≤ 16)))
  | .PART_ROLE => some (s.writeRole i v)
  | .PART_CLOCK_LIMIT => some (s.writeLimit i v)
  | .PART_COMMIT_VETO => some (s.writeVeto i v)
  | .PART_ASSIGN => some (s.writeAssign i v)
  | .PART_CTX_QUEUES =>
    some (if s.present i j then s
      else s.writeMasked r i j (s.keepField PART_CTX_QUEUES.COUNT i j v (PART_CTX_QUEUES.COUNT.of v ≤ 128)))
  | .PART_CTX_ADMIT => some (s.writeAdmit i j v)
  | .PART_CARD_CMD => some (s.writeCardCmd i v)
  | .PART_BEAM_SPLIT =>
    let m := v % 128
    some (if (List.range 64).any (fun c => s.admitted i c) || m % 8 ≠ 0 || 64 < m then s
      else (s.writeMasked r i j v).dropLines (fun l => l / 2 ^ 29 = i))
  | .HBM_SCRUB_CFG =>
    let h := HBM_SCRUB_CFG.PERIOD_H.of v
    some (s.writeMasked r i j (s.keepField HBM_SCRUB_CFG.PERIOD_H i j v (4 ≤ h && h ≤ 168)))
  | .HBM_ERR_LAST => some (if bit v 31 then s.clearGroup [.HBM_ERR_LAST, .HBM_ERR_ROW, .HBM_ERR_TIME] i else s)
  | .HBM_COUNTER_CLEAR => some (s.clearStack i v)
  | .HBM_REMAP => some (if j / 1024 = s.shadow (16 + i) then (s.writeMasked r i j v).recount (16 + i) else s)
  | .HBM_TG_CTRL => some (s.writeTg i j v)
  | .BTIER_MAP => some (s.writeMap v)
  | .BTIER_PORT_CTRL => some (s.writeBoardPort i v)
  | .BTIER_CARD => some (s.writeBoardCards i v)
  | .WEFT_PORT_CTRL => some (s.writePortCtrl i v)
  | .SELV_PAIR_CTRL => some (s.writePair v none)
  | .SELV_RISK_CFG | .SELV_FLUSH_CFG => some (s.writeMasked r i j v).riskFollow
  | .SEC_LIFECYCLE => some (s.writeLifecycle v false)
  | .SEC_DEBUG => some (if bit v 0 then s.consent else s)
  | .SEC_ZERO_ALL => some (if bit v 0 then s.zeroAll else s)
  | .SEC_DEBUG_TOKEN =>
    let t := s.setReg r i 0 v
    some (if i = 32 then t.submitToken else t)
  | _ => if grantRegs.contains r then some (if s.present i j then s else s.writeMasked r i j v) else none

/-- A write to a word of partition p's tenant space that does more than store its fields, or none where it is a plain write. -/
def State.writeTenant (s : State) (p : Nat) (r : RegName) (i j v : Nat) : Option State :=
  match r with
  | .SCHED_LOG_BASE => some (s.writeRingBase p v)
  | .SCHED_LOG_CFG => some (s.writeRingCfg p v)
  | .SCHED_LOG_RD => some (s.writeRd p v)
  | .Q_TAIL => some (s.writeTail p j v)
  | .Q_CPL_ACK => some (s.writeAck p j v)
  | .Q_CFG_CTRL => some (s.writeQueueCtrl p j v)
  | .Q_CFG_RING | .Q_CFG_CPL => some (if s.fld Q_STATUS.STATE p j = 0 then s.writeMasked r i j v else s)
  | .Q_HOST_LEVEL => some (s.writeHostLevel p j v)
  | .KNOT_COUNT => some (s.knotTo p j v)
  | .KNOT_ADD => some (s.knotAdd p j v)
  | .KNOT_CFG => some (s.writeMasked r i j (s.keepField KNOT_CFG.VF i j v (KNOT_CFG.VF.of v ≤ 16)))
  | .TEN_CTX_LOCK => some ((s.writeMasked r i j v).followLock p j)
  | .CNV_LAST_FAULT => some (if bit v 31 then s.setReg r i j 0 else s)
  | .CNV_COUNTER_CLEAR => some (s.clearSelected cnvCounters p v)
  | .TEN_FWD_COUNTER_CLEAR => some (s.clearSelected fwdCounters p v)
  | .TEN_BWD_COUNTER_CLEAR => some (s.clearSelected bwdCounters p v)
  | .TEN_LAYER_FREF => some (s.writeReference p j false v)
  | .TEN_LAYER_GREF => some (s.writeReference p j true v)
  | .BAT_STEP_CMD =>
    some (if !s.present p j then s
      else match v % 4 with
        | 1 => (s.openCmd p j).2
        | 2 => (s.commitCmd p j).2
        | 3 => (s.vetoCmd p j).2
        | _ => s)
  | .BAT_CURSOR_PROV => some (s.writeCursor p j v)
  | .BAT_REG_CMD =>
    let e := BAT_REG_CMD.ENTRY.of v
    some (match BAT_REG_CMD.CMD.of v with
      | 1 => s.validate p e
      | 2 => s.invalidate p e
      | _ => s)
  | .BAT_COUNTER_CLEAR => some (s.clearSelected batCounters p v)
  | .RED_COUNTER_CLEAR => some (s.clearSelected redCounters p v)
  | .RED_FAULT_SRC => some (if bit v 31 then s.clearGroup [.RED_FAULT_SRC, .RED_FAULT_ID, .RED_FAULT_BLOCK, .RED_FAULT_STEP] p else s)
  | .RED_SLOT_CTRL => some (s.writeSlotCtrl p i v)
  | .SNAP_CTX_CMD => some (s.snapCmd p j v)
  | .SNAP_EXP_CMD => some (s.writeExp p j v)
  | .SCHED_WIN_CLOSE => some (s.writeClose p j v)
  | .OWN_ID | .OWN_FIRST | .OWN_COUNT | .OWN_CTRL => some (if j / 8192 = s.shadow p then (s.writeMasked r i j v).recount p else s)
  | _ =>
    if slotRegWords.contains r then some (if s.fld RED_SLOT_CTRL.STATE i 0 = 0 then s.writeMasked r i j v else s)
    else if stepLockedRegs.contains r then some (if s.stepState p j = 0 then s.writeMasked r i j v else s)
    else none

/-- A whole write of a register, at its width (R8). -/
def State.writeReg (s : State) (p : Nat) (r : RegName) (i j v : Nat) : State :=
  if r = .TBL_SWITCH_CTRL then
    let s := s.writeMasked r i j v
    if bit v 31 then s else s.setFld TBL_SWITCH_STATUS.HELD i j 0
  else ((if p = 8 then s.writeOperator r i j v else s.writeTenant p r i j v).getD (s.writeMasked r i j v))

/-- A 32-bit write at a place: a half of a 64-bit register is one of a pair (R12). -/
def State.writeHalf (s : State) (p : Nat) (x : RegPlace) (v : Nat) : State :=
  if x.reg.info.width = 32 then s.writeReg p x.reg x.i x.j v
  else
    let k := regKey x.reg x.i x.j
    if x.byte = 0 then { s with heldLow := SMap.put s.heldLow k (BitVec.ofNat 32 v) }
    else
      let lo := match SMap.find s.heldLow k with
        | some w => w.toNat
        | none => s.reg x.reg x.i x.j % 2 ^ 32
      { s with heldLow := SMap.erase s.heldLow k }.writeReg p x.reg x.i x.j (v % 2 ^ 32 * 2 ^ 32 + lo)

/-- A 32-bit write through a BAR. A misaligned one falls in no register (R11, R14). -/
def State.write32 (s : State) (bar : Bar) (off v : Nat) : State :=
  if off % 4 ≠ 0 then s else s.atPlace bar off s (fun p x => s.writeHalf p x v)

/-- Whether a 64-bit register lies at an offset. -/
def wideAt (bar : Bar) (off : Nat) : Bool :=
  match (match bar with
    | .operator => operatorAt off
    | _ => tenantAt 0 off) with
  | some x => x.reg.info.width = 64
  | none => false

/-- A 64-bit write through a BAR: atomic for a 64-bit register; over 32-bit registers, a write to each, the lower first. -/
def State.write64 (s : State) (bar : Bar) (off v : Nat) : State :=
  if off % 8 ≠ 0 then s
  else if wideAt bar off then s.atPlace bar off s (fun p x => s.writeReg p x.reg x.i x.j v)
  else (s.write32 bar off (v % 2 ^ 32)).write32 bar (off + 4) (v / 2 ^ 32)

/-! ### Reads -/

/-- What a register reads as (R6, R13): the registers that show other state, and the write-only ones, which read as zero. -/
def State.readReg (s : State) (r : RegName) (i j : Nat) : Nat :=
  match r with
  | .PWR_STATE => setBits (s.reg r i j) 4 4 ((List.range 4).foldl (fun a d => a + b2n (s.voted d) * 2 ^ d) 0)
  | .PWR_VOTE_MGMT => (List.range 4).foldl (fun a d => a + b2n (s.kindVotes 2 d) * 2 ^ d) 0
  | .PART_CARD_PROBE_CARD =>
    let pg := i * 2 ^ 21 + s.fld PART_CARD_PROBE.PAGE i 0
    let b := s.cardBank i
    s.cardIn b pg + s.cardIn (1 - b) pg * 2 ^ 16
  | .SCHED_PICK_NOW => s.pick
  | .SCHED_PICK_CFG => s.fld TIME_CFG.PICK_LOG2 0 0 + s.fld TIME_STATUS.FABRIC_LOCK 0 0 * 2 ^ 8
  | .SEC_DEBUG_TOKEN => 0
  | .SNAP_CTX_STATUS => setBits (s.reg r i j) 5 1 (b2n (s.rollbackOk i j))
  | .RED_SLOT_CTRL => setBits (s.reg r i j) 12 6 (((s.slotOwner i).map (·.2)).getD 0)
  | _ => s.reg r i j

/-- A 32-bit read at a place: the low half of a 64-bit register latches its high half, and the next read of the high half returns what is
latched (R12). With nothing latched, a read of the high half returns the live one (DESIGN CHOICE, log entry 105). -/
def State.readHalf (s : State) (x : RegPlace) : State :=
  let v := s.readReg x.reg x.i x.j
  let k := regKey x.reg x.i x.j
  if x.reg.info.width = 32 then s.emit (.read v)
  else if x.byte = 0 then { s with latchedHigh := SMap.put s.latchedHigh k (BitVec.ofNat 32 (v / 2 ^ 32)) }.emit (.read (v % 2 ^ 32))
  else match SMap.find s.latchedHigh k with
    | some w => { s with latchedHigh := SMap.erase s.latchedHigh k }.emit (.read w.toNat)
    | none => s.emit (.read (v / 2 ^ 32))

/-! ### The commands -/

/-- REGISTER_WRITE (R8): a 32-bit or (`wide`) a 64-bit write. -/
def execRegisterWrite (bar : Bar) (off : BitVec 23) (wide : Bool) (v : W64) (s : State) : Host.Outcome State Fault Refusal :=
  .next (if wide then s.write64 bar off.toNat v.toNat else s.write32 bar off.toNat (v.toNat % 2 ^ 32))

/-- SPLIT_WRITE_LOW (R12): `off` is the register's offset. -/
def execSplitWriteLow (bar : Bar) (off : BitVec 23) (v : W32) (s : State) : Host.Outcome State Fault Refusal :=
  .next (s.write32 bar off.toNat v.toNat)

/-- SPLIT_WRITE_HIGH (R12): `off` is the register's offset, and its high half lies 4 beyond. -/
def execSplitWriteHigh (bar : Bar) (off : BitVec 23) (v : W32) (s : State) : Host.Outcome State Fault Refusal :=
  .next (s.write32 bar (off.toNat + 4) v.toNat)

/-- SPLIT_READ_LOW (R12): a 32-bit read at `off`. One that falls in no register, in none that the function sees, or outside the stream
that its partition requires reads zero (R14, R371). -/
def execSplitReadLow (bar : Bar) (off : BitVec 23) (s : State) : Host.Outcome State Fault Refusal :=
  let t := if off.toNat % 4 ≠ 0 then s else s.atPlace bar off.toNat s (fun _ x => s.readHalf x)
  .next (if t.outs.length = s.outs.length then t.emit (.read 0) else t)

end Sys2Proof.Machine
end

