-- ==== Sys2Proof/Machine/Units.lean ====
section
/-! DEFINITION. How the instruction of a unit, or a tile of it, completes (R75, R76, R243). -/

namespace Sys2Proof.Machine
open Sys2Proof

/-- The number of a unit of UNIT_INSTRUCTION_COMPLETE. -/
def unitNum : EngUnit → Nat
  | .forward => 0 | .backward => 1 | .converter => 2 | .vector => 3

/-- The oldest instruction of a unit of engine n. -/
def State.oldest (s : State) (n : Nat) (u : EngUnit) : Option UnitOp := s.unitOps.find? (fun o => o.prog / 8 = n && o.unit = unitNum u)

/-- Where the window of an instruction's context begins in the bobbins. -/
def State.opWindow (s : State) (o : UnitOp) : Nat := s.bobAt (o.prog / 384) o.ctx (o.prog / 8 % 48) 0

/-- The tiles of a converter instruction that has not completed. -/
def CnvWork.left (w : CnvWork) : Nat := (Desc.of w.src).tiles - w.done

/-- `k` more tiles of a converter instruction complete. -/
def State.cnvTiles (s : State) (p b : Nat) (w : CnvWork) : Nat → CnvWork × State
  | 0 => (w, s)
  | k + 1 => let (w, s) := s.cnvTile p b w; s.cnvTiles p b w k

/-- An instruction leaves its unit, and the next of the unit starts. -/
def State.leaveUnit (s : State) (o : UnitOp) : State := { s with unitOps := s.unitOps.erase o }.startUnit (o.prog / 8) o.unit

/-- A tile of an instruction completes. The last one completes with the instruction. -/
def State.tileDone (s : State) (o : UnitOp) : State :=
  match o.work with
  | some w =>
    if 1 < w.left then
      let (w', s) := s.cnvTile (o.prog / 384) (s.opWindow o) w
      { s with unitOps := s.unitOps.replace o { o with work := some w' } }
    else s
  | none => s

/-- What an instruction has still to do is done: the tiles of a converter instruction that are left. -/
def State.finishWork (s : State) (o : UnitOp) : State :=
  match o.work with
  | some w => (s.cnvTiles (o.prog / 384) (s.opWindow o) w w.left).2
  | none => s

/-- An instruction completes: its counts, its FLAGS, and its exception if it has one. -/
def State.unitDone (s : State) (o : UnitOp) : State :=
  let s := o.posts.foldl State.post ((s.leaveUnit o).finishWork o)
  let s := match s.prog o.prog with
    | some g => s.setProg o.prog { g with flags := g.flags ||| o.flags }
    | none => s
  (if o.trap.status = .ok then s else s.raise o.prog o.trap).settle

/-- An instruction meets an uncorrectable error of a bobbin (R76, R306): its destination is unspecified, what it would have counted is
lost but for the tiles it has completed, the partition counts the error, and it ends with BUS_ERROR. -/
def State.unitError (s : State) (o : UnitOp) : State :=
  let s := (s.leaveUnit o).spoilDest o
  let s := (s.bump .PART_SRAM_UE (o.prog / 384) 0 1).alarm 0x16
  (s.raise o.prog { o.trap with status := .busError }).settle

/-- UNIT_INSTRUCTION_COMPLETE (R243): the oldest instruction of the unit, or a tile of it, completes. -/
def execUnitInstructionComplete (e : EngineId) (u : EngUnit) (r : UnitEnd) (s : State) : Host.Outcome State Fault Refusal :=
  .next (match (if s.stopped then none else s.oldest (e.part.val * 48 + e.engine.val) u) with
    | none => s
    | some o =>
      match r with
      | .tile => s.tileDone o
      | .done => s.unitDone o
      | .error => s.unitError o)

end Sys2Proof.Machine
end

