-- ==== Sys2Proof/Machine/Dispatch.lean ====
section
/-! DEFINITION. One arm for each command, in the order of spec/opcode_table.json: a direct call of its meaning. -/

namespace Sys2Proof.Machine
open Sys2Proof

/-- The command's effect on everything but the queue. -/
def exec (i : Instr) (s : State) : Host.Outcome State Fault Refusal :=
  match i with
  | .registerWrite bar off wide v => Sys2Proof.Machine.execRegisterWrite bar off wide v s
  | .splitWriteLow bar off v => Sys2Proof.Machine.execSplitWriteLow bar off v s
  | .splitWriteHigh bar off v => Sys2Proof.Machine.execSplitWriteHigh bar off v s
  | .splitReadLow bar off => Sys2Proof.Machine.execSplitReadLow bar off s
  | .profileRequest v => Sys2Proof.Machine.execProfileRequest v s
  | .roleWrite p v => Sys2Proof.Machine.execRoleWrite p v s
  | .clockLimitWrite p v => Sys2Proof.Machine.execClockLimitWrite p v s
  | .pickBoundary => Sys2Proof.Machine.execPickBoundary s
  | .clockChangeComplete p => Sys2Proof.Machine.execClockChangeComplete p s
  | .thermalForce => Sys2Proof.Machine.execThermalForce s
  | .packAct x => Sys2Proof.Machine.execPackAct x s
  | .packWgtInit x => Sys2Proof.Machine.execPackWgtInit x s
  | .packWgt x => Sys2Proof.Machine.execPackWgt x s
  | .unpack x => Sys2Proof.Machine.execUnpack x s
  | .rotate x => Sys2Proof.Machine.execRotate x s
  | .round x => Sys2Proof.Machine.execRound x s
  | .cnvCounterClear bar v => Sys2Proof.Machine.execCnvCounterClear bar v s
  | .cnvFaultClear bar v => Sys2Proof.Machine.execCnvFaultClear bar v s
  | .fmul x => Sys2Proof.Machine.execFmul x s
  | .dgrad x => Sys2Proof.Machine.execDgrad x s
  | .wgrad x => Sys2Proof.Machine.execWgrad x s
  | .matmulBf16 x => Sys2Proof.Machine.execMatmulBf16 x s
  | .unitInstructionComplete e u err => Sys2Proof.Machine.execUnitInstructionComplete e u err s
  | .widenCopyComplete p layer => Sys2Proof.Machine.execWidenCopyComplete p layer s
  | .tenReferenceWrite bar layer grad v => Sys2Proof.Machine.execTenReferenceWrite bar layer grad v s
  | .tenFwdCounterClear bar v => Sys2Proof.Machine.execTenFwdCounterClear bar v s
  | .tenBwdCounterClear bar v => Sys2Proof.Machine.execTenBwdCounterClear bar v s
  | .portEnable port v => Sys2Proof.Machine.execPortEnable port v s
  | .partnerSignalDetect port => Sys2Proof.Machine.execPartnerSignalDetect port s
  | .trainingComplete port r => Sys2Proof.Machine.execTrainingComplete port r s
  | .trainingTimeout port => Sys2Proof.Machine.execTrainingTimeout port s
  | .negotiateSend port => Sys2Proof.Machine.execNegotiateSend port s
  | .negotiate port level partner isSwitch lanes => Sys2Proof.Machine.execNegotiate port level partner isSwitch lanes s
  | .negotiateTimeout port => Sys2Proof.Machine.execNegotiateTimeout port s
  | .flitReceive port hdr payload check uncorr => Sys2Proof.Machine.execFlitReceive port hdr payload check uncorr s
  | .retryReq port seq => Sys2Proof.Machine.execRetryReq port seq s
  | .retrain port => Sys2Proof.Machine.execRetrain port s
  | .retrainComplete port r => Sys2Proof.Machine.execRetrainComplete port r s
  | .timeSend port => Sys2Proof.Machine.execTimeSend port s
  | .timeMsg port m => Sys2Proof.Machine.execTimeMsg port m s
  | .upstreamLoss => Sys2Proof.Machine.execUpstreamLoss s
  | .fabricLockLoss => Sys2Proof.Machine.execFabricLockLoss s
  | .statusPacket pk => Sys2Proof.Machine.execStatusPacket pk s
  | .reduce pk => Sys2Proof.Machine.execReduce pk s
  | .drop pk => Sys2Proof.Machine.execDrop pk s
  | .calib pk => Sys2Proof.Machine.execCalib pk s
  | .expmax pk => Sys2Proof.Machine.execExpmax pk s
  | .expset pk => Sys2Proof.Machine.execExpset pk s
  | .gather pk => Sys2Proof.Machine.execGather pk s
  | .remoteKnotAdd pk => Sys2Proof.Machine.execRemoteKnotAdd pk s
  | .signal pk => Sys2Proof.Machine.execSignal pk s
  | .veto pk => Sys2Proof.Machine.execVeto pk s
  | .outcome pk => Sys2Proof.Machine.execOutcome pk s
  | .query pk => Sys2Proof.Machine.execQuery pk s
  | .answer pk => Sys2Proof.Machine.execAnswer pk s
  | .slotOpen bar slot v => Sys2Proof.Machine.execSlotOpen bar slot v s
  | .slotClearComplete slot => Sys2Proof.Machine.execSlotClearComplete slot s
  | .slotRelease bar slot v => Sys2Proof.Machine.execSlotRelease bar slot v s
  | .sumCheckComplete slot => Sys2Proof.Machine.execSumCheckComplete slot s
  | .holdRelease => Sys2Proof.Machine.execHoldRelease s
  | .holdTimeout n => Sys2Proof.Machine.execHoldTimeout n s
  | .replyWindowExpiry seq => Sys2Proof.Machine.execReplyWindowExpiry seq s
  | .redCounterClear bar v => Sys2Proof.Machine.execRedCounterClear bar v s
  | .windowCloseWrite bar w v => Sys2Proof.Machine.execWindowCloseWrite bar w v s
  | .validate bar v => Sys2Proof.Machine.execValidate bar v s
  | .invalidate bar v => Sys2Proof.Machine.execInvalidate bar v s
  | .stepOpen bar c v => Sys2Proof.Machine.execStepOpen bar c v s
  | .stepCommit bar c v => Sys2Proof.Machine.execStepCommit bar c v s
  | .stepVeto bar c v => Sys2Proof.Machine.execStepVeto bar c v s
  | .shardUpdate p entry => Sys2Proof.Machine.execShardUpdate p entry s
  | .commitSignal c => Sys2Proof.Machine.execCommitSignal c s
  | .commitDeadline c => Sys2Proof.Machine.execCommitDeadline c s
  | .queryDeadline c => Sys2Proof.Machine.execQueryDeadline c s
  | .commitVeto p v => Sys2Proof.Machine.execCommitVeto p v s
  | .batCounterClear bar v => Sys2Proof.Machine.execBatCounterClear bar v s
  | .nopInstr x => Sys2Proof.Machine.execNopInstr x s
  | .br x => Sys2Proof.Machine.execBr x s
  | .jmpa x => Sys2Proof.Machine.execJmpa x s
  | .call x => Sys2Proof.Machine.execCall x s
  | .loop x => Sys2Proof.Machine.execLoop x s
  | .waitu x => Sys2Proof.Machine.execWaitu x s
  | .yield x => Sys2Proof.Machine.execYield x s
  | .endProgram x => Sys2Proof.Machine.execEndProgram x s
  | .sop x => Sys2Proof.Machine.execSop x s
  | .sopi x => Sys2Proof.Machine.execSopi x s
  | .sli x => Sys2Proof.Machine.execSli x s
  | .sld x => Sys2Proof.Machine.execSld x s
  | .sst x => Sys2Proof.Machine.execSst x s
  | .scmp x => Sys2Proof.Machine.execScmp x s
  | .aop x => Sys2Proof.Machine.execAop x s
  | .aget x => Sys2Proof.Machine.execAget x s
  | .tld x => Sys2Proof.Machine.execTld x s
  | .tst x => Sys2Proof.Machine.execTst x s
  | .tadj x => Sys2Proof.Machine.execTadj x s
  | .sysr x => Sys2Proof.Machine.execSysr x s
  | .sysw x => Sys2Proof.Machine.execSysw x s
  | .copy x => Sys2Proof.Machine.execCopy x s
  | .copyobj x => Sys2Proof.Machine.execCopyobj x s
  | .fillInstr x => Sys2Proof.Machine.execFillInstr x s
  | .waits x => Sys2Proof.Machine.execWaits x s
  | .shuttleComplete op err => Sys2Proof.Machine.execShuttleComplete op err s
  | .vop x => Sys2Proof.Machine.execVop x s
  | .vfma x => Sys2Proof.Machine.execVfma x s
  | .vld x => Sys2Proof.Machine.execVld x s
  | .vst x => Sys2Proof.Machine.execVst x s
  | .vred x => Sys2Proof.Machine.execVred x s
  | .vcvt x => Sys2Proof.Machine.execVcvt x s
  | .vcmp x => Sys2Proof.Machine.execVcmp x s
  | .vsel x => Sys2Proof.Machine.execVsel x s
  | .vbcast x => Sys2Proof.Machine.execVbcast x s
  | .vrand x => Sys2Proof.Machine.execVrand x s
  | .ksigLocal x => Sys2Proof.Machine.execKsigLocal x s
  | .ksigRemote x => Sys2Proof.Machine.execKsigRemote x s
  | .ksigRemoteComplete op => Sys2Proof.Machine.execKsigRemoteComplete op s
  | .kwait x => Sys2Proof.Machine.execKwait x s
  | .kread x => Sys2Proof.Machine.execKread x s
  | .rsend x => Sys2Proof.Machine.execRsend x s
  | .sendComplete op => Sys2Proof.Machine.execSendComplete op s
  | .rscan x => Sys2Proof.Machine.execRscan x s
  | .scanComplete op => Sys2Proof.Machine.execScanComplete op s
  | .rcalib x => Sys2Proof.Machine.execRcalib x s
  | .rslotOpen x => Sys2Proof.Machine.execRslotOpen x s
  | .rslotRelease x => Sys2Proof.Machine.execRslotRelease x s
  | .bstepOpen x => Sys2Proof.Machine.execBstepOpen x s
  | .bstepCommit x => Sys2Proof.Machine.execBstepCommit x s
  | .bstepVeto x => Sys2Proof.Machine.execBstepVeto x s
  | .bstat x => Sys2Proof.Machine.execBstat x s
  | .bcursorReadCommitted x => Sys2Proof.Machine.execBcursorReadCommitted x s
  | .bcursorReadProvisional x => Sys2Proof.Machine.execBcursorReadProvisional x s
  | .bcursorWrite x => Sys2Proof.Machine.execBcursorWrite x s
  | .tnow x => Sys2Proof.Machine.execTnow x s
  | .twaitp x => Sys2Proof.Machine.execTwaitp x s
  | .tsched x => Sys2Proof.Machine.execTsched x s
  | .doorbell bar q v => Sys2Proof.Machine.execDoorbell bar q v s
  | .cplAck bar q v => Sys2Proof.Machine.execCplAck bar q v s
  | .queueEnable bar q v => Sys2Proof.Machine.execQueueEnable bar q v s
  | .queueDisable bar q v => Sys2Proof.Machine.execQueueDisable bar q v s
  | .hostLevelWrite bar vf v => Sys2Proof.Machine.execHostLevelWrite bar vf v s
  | .commandFetch q err => Sys2Proof.Machine.execCommandFetch q err s
  | .nopCommand q => Sys2Proof.Machine.execNopCommand q s
  | .launch q => Sys2Proof.Machine.execLaunch q s
  | .launchComplete q => Sys2Proof.Machine.execLaunchComplete q s
  | .kwaitCommand q => Sys2Proof.Machine.execKwaitCommand q s
  | .ksigCommand q => Sys2Proof.Machine.execKsigCommand q s
  | .tsig q => Sys2Proof.Machine.execTsig q s
  | .passOpen q => Sys2Proof.Machine.execPassOpen q s
  | .passClose q => Sys2Proof.Machine.execPassClose q s
  | .mstepClose q => Sys2Proof.Machine.execMstepClose q s
  | .knotWrite bar k v => Sys2Proof.Machine.execKnotWrite bar k v s
  | .knotAdd bar k v => Sys2Proof.Machine.execKnotAdd bar k v s
  | .hbmRead a addr n d => Sys2Proof.Machine.execHbmRead a addr n d s
  | .hbmWrite a addr bytes poisoned d => Sys2Proof.Machine.execHbmWrite a addr bytes poisoned d s
  | .laneRepair stack ch lane => Sys2Proof.Machine.execLaneRepair stack ch lane s
  | .softRepairComplete stack => Sys2Proof.Machine.execSoftRepairComplete stack s
  | .tempReadout stack t => Sys2Proof.Machine.execTempReadout stack t s
  | .scrubRead stack ch d0 d1 => Sys2Proof.Machine.execScrubRead stack ch d0 d1 s
  | .tgStart stack ch v => Sys2Proof.Machine.execTgStart stack ch v s
  | .tgStop stack ch v => Sys2Proof.Machine.execTgStop stack ch v s
  | .tgRunComplete stack ch m => Sys2Proof.Machine.execTgRunComplete stack ch m s
  | .hbmCounterClear stack v => Sys2Proof.Machine.execHbmCounterClear stack v s
  | .ceRateCheck stack => Sys2Proof.Machine.execCeRateCheck stack s
  | .sramSweep p e => Sys2Proof.Machine.execSramSweep p e s
  | .cardFill p v => Sys2Proof.Machine.execCardFill p v s
  | .copyActive p v => Sys2Proof.Machine.execCopyActive p v s
  | .cardCommandComplete p => Sys2Proof.Machine.execCardCommandComplete p s
  | .btierPortTraining n r => Sys2Proof.Machine.execBtierPortTraining n r s
  | .mapBuild v => Sys2Proof.Machine.execMapBuild v s
  | .mapDisable v => Sys2Proof.Machine.execMapDisable v s
  | .btierCardWrite card v => Sys2Proof.Machine.execBtierCardWrite card v s
  | .btierReadTimeout op n => Sys2Proof.Machine.execBtierReadTimeout op n s
  | .btierPortFail n => Sys2Proof.Machine.execBtierPortFail n s
  | .pairAdmit v msg => Sys2Proof.Machine.execPairAdmit v msg s
  | .heartbeatSend => Sys2Proof.Machine.execHeartbeatSend s
  | .heartbeat pk => Sys2Proof.Machine.execHeartbeat pk s
  | .twinLoss => Sys2Proof.Machine.execTwinLoss s
  | .mirror pk => Sys2Proof.Machine.execMirror pk s
  | .delta pk => Sys2Proof.Machine.execDelta pk s
  | .record pk => Sys2Proof.Machine.execRecord pk s
  | .point pk => Sys2Proof.Machine.execPoint pk s
  | .decision pk => Sys2Proof.Machine.execDecision pk s
  | .ack pk => Sys2Proof.Machine.execAck pk s
  | .flush pk => Sys2Proof.Machine.execFlush pk s
  | .fold c => Sys2Proof.Machine.execFold c s
  | .riskDecay => Sys2Proof.Machine.execRiskDecay s
  | .twinElevated => Sys2Proof.Machine.execTwinElevated s
  | .resolveCommit bar c v => Sys2Proof.Machine.execResolveCommit bar c v s
  | .resolveAbort bar c v => Sys2Proof.Machine.execResolveAbort bar c v s
  | .rollback bar c v => Sys2Proof.Machine.execRollback bar c v s
  | .promote bar c v => Sys2Proof.Machine.execPromote bar c v s
  | .promoteComplete c => Sys2Proof.Machine.execPromoteComplete c s
  | .restore bar c v => Sys2Proof.Machine.execRestore bar c v s
  | .getVersion f => Sys2Proof.Machine.execGetVersion f s
  | .getCapabilities f => Sys2Proof.Machine.execGetCapabilities f s
  | .negotiateAlgorithms f ecdsa sha dhe aead => Sys2Proof.Machine.execNegotiateAlgorithms f ecdsa sha dhe aead s
  | .getDigests f => Sys2Proof.Machine.execGetDigests f s
  | .getCertificate f slot => Sys2Proof.Machine.execGetCertificate f slot s
  | .challenge f nonce => Sys2Proof.Machine.execChallenge f nonce s
  | .getMeasurements f index => Sys2Proof.Machine.execGetMeasurements f index s
  | .keyExchange f sid key => Sys2Proof.Machine.execKeyExchange f sid key s
  | .finish f sid ok => Sys2Proof.Machine.execFinish f sid ok s
  | .keyUpdate f sid => Sys2Proof.Machine.execKeyUpdate f sid s
  | .endSession f sid => Sys2Proof.Machine.execEndSession f sid s
  | .jobKeysSet f sid body => Sys2Proof.Machine.execJobKeysSet f sid body s
  | .jobKeysRotate f sid body => Sys2Proof.Machine.execJobKeysRotate f sid body s
  | .jobEnd f sid body => Sys2Proof.Machine.execJobEnd f sid body s
  | .policySet f sid body => Sys2Proof.Machine.execPolicySet f sid body s
  | .custodyStatus f sid body => Sys2Proof.Machine.execCustodyStatus f sid body s
  | .retiredKeyRelease job gen => Sys2Proof.Machine.execRetiredKeyRelease job gen s
  | .lifecycleAdvance v cert => Sys2Proof.Machine.execLifecycleAdvance v cert s
  | .partAssign p v => Sys2Proof.Machine.execPartAssign p v s
  | .zeroise p v => Sys2Proof.Machine.execZeroise p v s
  | .zeroAll v => Sys2Proof.Machine.execZeroAll v s
  | .zeroisationComplete p => Sys2Proof.Machine.execZeroisationComplete p s
  | .admission c v => Sys2Proof.Machine.execAdmission c v s
  | .leave c v => Sys2Proof.Machine.execLeave c v s
  | .leaveComplete c => Sys2Proof.Machine.execLeaveComplete c s
  | .jobTeardown index => Sys2Proof.Machine.execJobTeardown index s
  | .exportSnap bar c v => Sys2Proof.Machine.execExportSnap bar c v s
  | .importSnap bar c v => Sys2Proof.Machine.execImportSnap bar c v s
  | .snapCommandComplete c => Sys2Proof.Machine.execSnapCommandComplete c s
  | .consent v => Sys2Proof.Machine.execConsent v s
  | .debugToken v => Sys2Proof.Machine.execDebugToken v s
  | .consentExpiry => Sys2Proof.Machine.execConsentExpiry s
  | .contextWatchdog c => Sys2Proof.Machine.execContextWatchdog c s
  | .drainExpiry c => Sys2Proof.Machine.execDrainExpiry c s
  | .unitWatchdog e => Sys2Proof.Machine.execUnitWatchdog e s
  | .engineResetComplete e => Sys2Proof.Machine.execEngineResetComplete e s
  | .engineResetTimeout e => Sys2Proof.Machine.execEngineResetTimeout e s
  | .progressWatchdog p => Sys2Proof.Machine.execProgressWatchdog p s
  | .partitionResetComplete p t => Sys2Proof.Machine.execPartitionResetComplete p t s
  | .partitionResetTimeout p => Sys2Proof.Machine.execPartitionResetTimeout p s
  | .mgmtWatchdog => Sys2Proof.Machine.execMgmtWatchdog s
  | .contextStopRequest v => Sys2Proof.Machine.execContextStopRequest v s
  | .engineResetRequest v => Sys2Proof.Machine.execEngineResetRequest v s
  | .partitionResetRequest v => Sys2Proof.Machine.execPartitionResetRequest v s
  | .chipResetRequest v => Sys2Proof.Machine.execChipResetRequest v s
  | .powerCycleRequest v ack => Sys2Proof.Machine.execPowerCycleRequest v ack s
  | .replayClear e => Sys2Proof.Machine.execReplayClear e s
  | .alarmClear cls v => Sys2Proof.Machine.execAlarmClear cls v s
  | .recordWriteOut ring => Sys2Proof.Machine.execRecordWriteOut ring s
  | .logRdWrite bar v => Sys2Proof.Machine.execLogRdWrite bar v s
  | .logEnable bar v => Sys2Proof.Machine.execLogEnable bar v s
  | .coalesceFlush n => Sys2Proof.Machine.execCoalesceFlush n s
  | .incidentExit => Sys2Proof.Machine.execIncidentExit s
  | .entryAttempt v => Sys2Proof.Machine.execEntryAttempt v s
  | .hostVote v => Sys2Proof.Machine.execHostVote v s
  | .powerEntry point kind dom c => Sys2Proof.Machine.execPowerEntry point kind dom c s
  | .powerExit => Sys2Proof.Machine.execPowerExit s
  | .wakeLand => Sys2Proof.Machine.execWakeLand s
  | .i3cWake => Sys2Proof.Machine.execI3cWake s
  | .excursionStart rail mv => Sys2Proof.Machine.execExcursionStart rail mv s
  | .excursionEnd rail minMv mv us => Sys2Proof.Machine.execExcursionEnd rail minMv mv us s
  | .resetLevelCrossing rail mv => Sys2Proof.Machine.execResetLevelCrossing rail mv s
  | .supplyChipReset => Sys2Proof.Machine.execSupplyChipReset s
  | .dipClear v => Sys2Proof.Machine.execDipClear v s
  | .refclkLoss => Sys2Proof.Machine.execRefclkLoss s
  | .refclkHoldoverExpiry => Sys2Proof.Machine.execRefclkHoldoverExpiry s
  | .refclkReturn => Sys2Proof.Machine.execRefclkReturn s
  | .bootStart env => Sys2Proof.Machine.execBootStart env s
  | .bootTimeout ack => Sys2Proof.Machine.execBootTimeout ack s
  | .retry v => Sys2Proof.Machine.execRetry v s
  | .flashErase v => Sys2Proof.Machine.execFlashErase v s
  | .flashProgram v => Sys2Proof.Machine.execFlashProgram v s
  | .flashRead v => Sys2Proof.Machine.execFlashRead v s
  | .flashCommandComplete => Sys2Proof.Machine.execFlashCommandComplete s
  | .smbusReadByte cmd => Sys2Proof.Machine.execSmbusReadByte cmd s
  | .otpProgram v vendor => Sys2Proof.Machine.execOtpProgram v vendor s
  | .otpProgramComplete => Sys2Proof.Machine.execOtpProgramComplete s
  | .thermalTrip => Sys2Proof.Machine.execThermalTrip s
  | .resetN us => Sys2Proof.Machine.execResetN us s
  | .pciePerst => Sys2Proof.Machine.execPciePerst s
  | .pciePerstRelease => Sys2Proof.Machine.execPciePerstRelease s
  | .powerOnReset => Sys2Proof.Machine.execPowerOnReset s
  | .vaonUp => Sys2Proof.Machine.execVaonUp s
  | .ppsIn d => Sys2Proof.Machine.execPpsIn d s
  | .ppsOut => Sys2Proof.Machine.execPpsOut s
  | .hbmPg level t => Sys2Proof.Machine.execHbmPg level t s
  | .laneRepairComplete stack ch => Sys2Proof.Machine.execLaneRepairComplete stack ch s
  | .ieee1588Message locked sec sub => Sys2Proof.Machine.execIeee1588Message locked sec sub s
  | .functionReset p vf => Sys2Proof.Machine.execFunctionReset p vf s
  | .junctionTemperature t => Sys2Proof.Machine.execJunctionTemperature t s

end Sys2Proof.Machine
end

