-- ==== Sys2Proof/Safety.lean ====
section
/-! DEFINITION. The terms in which claims about the block are stated: what a safe run is, the canonical form of its stores, which function
an access through a BAR comes from, and when an Onaile instruction issues. -/

namespace Sys2Proof.Machine
open Sys2Proof

/-- The memories of the device keep their canonical form: addresses strictly rise, and no byte listed is what an unlisted one reads as; the keys
of the register store rise too. -/
def State.MemWf (s : State) : Prop :=
  SMap.Wf (fun _ => (0 : Byte)) s.hbm ∧ SMap.Wf (fun _ => (0 : Byte)) s.bobbin ∧ SMap.Wf (fun _ => (0 : Byte)) s.beam
    ∧ SMap.Wf (fun _ => (0 : Byte)) s.board ∧ SMap.Wf (fun _ => (0 : Byte)) s.host ∧ SMap.Wf (fun _ => (0xFF : Byte)) s.flash ∧ SMap.Rising s.regs

/-- Whether an access outside its stream is refused (R371): its partition is PINNED and its tenant has not waived IDE. -/
def State.ideRefuses (s : State) (p : Nat) (ide : Bool) : Bool :=
  !ide && s.fld PART_ASSIGN.STATE p 0 = 2 && !s.ideWaived.contains p

/-- The partition and function (0 the physical one) that an access through a tenant BAR acts for; none where it reaches no register:
the operator's BAR, tabby mode, and an access that R371 refuses. -/
def State.function (s : State) (bar : Bar) : Option (Nat × Nat) :=
  if s.fld BOOT_STATUS.TABBY 0 0 = 1 then none
  else match bar with
  | .operator => none
  | .tenant p ide => if s.ideRefuses p.val ide then none else some (p.val, 0)
  | .virtual p v ide => if s.ideRefuses p.val ide then none else some (p.val, v.val + 1)

/-- What an access at an offset reaches: the accessing partition (8: the operator) and the place; none where there is nothing that the
function sees (R14 to R17). -/
def State.placeOf (s : State) (bar : Bar) (off : Nat) : Option (Nat × RegPlace) :=
  match bar with
  | .operator => if s.operatorSees off then (operatorAt off).map (fun x => (8, x)) else none
  | _ => match s.function bar with
    | none => none
    | some (p, f) => match tenantAt p off with
      | none => none
      | some x => if s.tenantSees p f x.reg x.i x.j then some (p, x) else none

/-- `t` is `s` with the counters of element `i` of a list cleared where their bit is set in `v`, and every other register as it was. -/
def Cleared (s t : State) (rs : List RegName) (i v : Nat) : Prop :=
  (∀ x ∈ rs.zipIdx, t.reg x.1 i 0 = if bit v x.2 then 0 else s.reg x.1 i 0)
    ∧ (∀ (r : RegName) (i' j' : Nat), i' < 2 ^ 20 → j' < 2 ^ 20 → (r ∉ rs ∨ i' ≠ i ∨ j' ≠ 0) → t.reg r i' j' = s.reg r i' j')
    ∧ ∃ m, t = { s with regs := m }

/-- The instruction that an issue names, as its meaning sees it: PC and the instruction number are already past it. -/
def issOf (x : Issue) (g : Prog) (opcode : Nat) : Iss :=
  ⟨progKey x.part.val x.engine.val x.ps.val, x.part.val, x.engine.val, { g with pc := g.pc + 8, seq := g.seq + 1, yielded := false },
    fun st => ⟨g.seq, st, g.place, opcode⟩, x.op.toNat, false⟩

/-- The state after the fetch of the instruction of a program state, which has its turn with it (R236, R238). -/
def State.fetched (s : State) (x : Issue) (g : Prog) : State :=
  (s.fetch x.part.val x.engine.val g).2.2.turnTo x.part.val x.engine.val x.ps.val

/-- A program state stands at the word `w`: the engine runs, nothing is awaited, no exception has been met, it is the program state's turn to
issue, and the fetch answers with the word (R236, R238). -/
def State.Stands (s : State) (x : Issue) (g : Prog) (w : Nat) : Prop :=
  s.prog (progKey x.part.val x.engine.val x.ps.val) = some g ∧ g.trap = none ∧ g.wait = .none ∧ s.stopped = false
    ∧ s.due x.part.val x.engine.val x.ps.val = true
    ∧ (s.fetch x.part.val x.engine.val g).1 = .ok ∧ (s.fetch x.part.val x.engine.val g).2.1.toNat = w

/-- The word that an issue spells under an OPCODE (R244). -/
def spelled (x : Issue) (opcode : Nat) : Nat := opcode * 2 ^ 56 + x.lvl.toNat * 2 ^ 52 + x.op.toNat

/-- A program state stands at the instruction that an issue spells, which is of level 1 and names no bit outside its fields (R244, R245). -/
def State.Ready (s : State) (x : Issue) (opcode : Nat) (fs : List (Nat × Nat)) (g : Prog) : Prop :=
  s.Stands x g (spelled x opcode) ∧ x.lvl = 1 ∧ namedOnly x.op.toNat fs = true

/-- The state after an instruction has had its effect: its program state holds `g`, its context has made progress (R385), and the
program state's wait is looked at. -/
def State.landed (s : State) (i : Iss) (g : Prog) : State := ((s.setProg i.key g).progress i.part g.ctx).settleOne i.key

/-- The next command of a queue starts when its queue is looked at: the device is in Run, its context is no suspect, it is defined at level 1,
and where it can start its queue is the one to be served (R271, R275, R395, R414). -/
def State.Starts (s : State) (x : QueueId) (cmd : Cmd) : Prop :=
  s.nextCmd x.part.val x.q.val = some cmd ∧ s.thermtrip = false ∧ s.fld PWR_STATE.CURRENT 0 0 = 0
    ∧ s.fld HANG_CTX_STATUS.STATE x.part.val (s.fld Q_CFG_CTRL.CTX x.part.val x.q.val) ≠ 1 ∧ cmdLevelOk cmd = true
    ∧ (s.canStart x.part.val x.q.val = true → s.queueDue x.part.val x.q.val = true)

/-- The state after a queue has been served; a command that must still wait does not take the queue's turn (R275). -/
def State.served (s : State) (x : QueueId) : State :=
  if s.canStart x.part.val x.q.val then s.serve x.part.val x.q.val else s

/-- The context of a queue. -/
def State.queueCtx (s : State) (x : QueueId) : Nat := s.fld Q_CFG_CTRL.CTX x.part.val x.q.val

/-- A packet of the weft passes the checks of its arrival (R179). -/
def State.Arrives (s : State) (k : Packet) : Prop :=
  (s.arrival k).1 = true ∧ pkLevelOk k = true ∧ (s.arrival k).2.member k = true ∧ pkFormOk k = true ∧ (s.arrival k).2.checkFails k = false

/-- A selvage packet passes the checks of its arrival, which leave `t` (R340). -/
def State.SelvageIn (s : State) (k : Packet) (t : State) : Prop :=
  ∃ u, s.tagCheck (2 ^ 20) k = (true, u) ∧ t = u.bump .SELV_RX_BYTES 0 0 k.payload.length ∧ skLevelOk k = true
    ∧ t.member k = true ∧ skFormOk k = true

end Sys2Proof.Machine
end

