-- ==== Sys2Proof/Certificates/Slice0/Obligations.lean ====
section
/-! DEFINITION. The statements for the provers. -/

open Sys2Proof Sys2Proof.Machine

/-! ### The step -/

/-- Tier 1. The step takes the command at the front of the queue and runs it with the queue's rest; on an empty queue a microsecond of the
management plane passes: until the first lock it is the boundary of the profile and the clocks, and a restart of the management controller ends with
it (the model's choice, log entries 2 and 104). -/
def Obligations.StepRunsFront : Prop :=
  (∀ (s : State) (c : Instr) (rest : List Instr), s.pending = c :: rest → step s = exec c { s with pending := rest })
    ∧ (∀ s : State, s.pending = [] → s.everLocked = true → step s = .next { s with mgmtStopped := false })
    ∧ (∀ s : State, s.pending = [] → s.everLocked = false → step s = .next { s.profileBoundary with mgmtStopped := false })

/-- Tier 1. No command of the table stops the block: for every command and state, exec answers a next state. -/
def Obligations.EveryCommandGoesOn : Prop :=
  ∀ (c : Instr) (s : State), ∃ t, exec c s = .next t

/-- Tier 1. At reset the queue is empty, every register holds the reset value of its field table, and every memory is in canonical form. The value 0
of a register whose reset the spec gives as Kept or From OTP, and the contents of memory, are the model's choice (log entries 3 and 4). -/
def Obligations.ResetState : Prop :=
  State.reset.pending = [] ∧ (∀ (r : RegName) (i j : Nat), State.reset.reg r i j = r.info.reset % 2 ^ 64)
    ∧ State.reset.reg .DEV_IF_LEVEL 0 0 = 0x111111 ∧ State.reset.fld DEV_PROFILE.MODE 0 0 = 3 ∧ State.reset.MemWf

/-- Tier 3. Every step keeps the memories and the register store in their canonical form. That form is the model's own (log entry 4). -/
def Obligations.StepKeepsMemWf : Prop :=
  ∀ s t : State, s.MemWf → step s = .next t → t.MemWf

/-! ### Stores and registers -/

/-- Tier 2. A run of bytes written to a canonical memory reads back, every other address reads as before, and the memory stays canonical. -/
def Obligations.MemoryWrite : Prop :=
  ∀ (m : SMap Byte) (a : Nat) (bs : List Byte), SMap.Wf (fun _ => (0 : Byte)) m →
    readBytes (writeBytes m a bs) a bs.length = bs
      ∧ (∀ x, ¬ (a ≤ x ∧ x < a + bs.length) → SMap.get 0 (writeBytes m a bs) x = SMap.get 0 m x)
      ∧ SMap.Wf (fun _ => (0 : Byte)) (writeBytes m a bs)

/-- Tier 2. A register takes what is written at its width; every other register, and all else of the state, stays. Element numbers are below 2^20,
as those of every register array are. -/
def Obligations.RegisterWriteRead : Prop :=
  ∀ (s : State) (r : RegName) (i j v : Nat), i < 2 ^ 20 → j < 2 ^ 20 → SMap.Rising s.regs →
    (s.setReg r i j v).reg r i j = v % 2 ^ r.info.width
      ∧ (∀ (r' : RegName) (i' j' : Nat), i' < 2 ^ 20 → j' < 2 ^ 20 → (r', i', j') ≠ (r, i, j) →
          (s.setReg r i j v).reg r' i' j' = s.reg r' i' j')
      ∧ ∃ m, s.setReg r i j v = { s with regs := m } ∧ SMap.Rising m

/-- Tier 2, R8. A register write takes effect for the register's defined fields only: an RW bit takes the bit written, a W1C bit that is written as
1 is cleared, every other bit, the reserved ones among them, reads after as it read before, and nothing but the registers has changed: no error is
recorded anywhere. -/
def Obligations.ReservedBitsDiscarded : Prop :=
  ∀ (s : State) (r : RegName) (i j v : Nat), i < 2 ^ 20 → j < 2 ^ 20 → SMap.Rising s.regs →
    (∀ k < r.info.width, bit ((s.writeMasked r i j v).reg r i j) k =
      (if bit r.info.w1c k && bit v k then false else if bit r.info.rw k then bit v k else bit (s.reg r i j) k))
    ∧ (∀ (r' : RegName) (i' j' : Nat), i' < 2 ^ 20 → j' < 2 ^ 20 → (r', i', j') ≠ (r, i, j) →
        (s.writeMasked r i j v).reg r' i' j' = s.reg r' i' j')
    ∧ ∃ m, s.writeMasked r i j v = { s with regs := m }

/-- Tier 1, R14. An access at an offset inside a BAR that falls in no register that the function sees completes: a write changes nothing and a read
answers zero. (The function is the operator's, or a tenant one that is reached: R371 has the accesses it refuses.) -/
def Obligations.UndefinedOffsets : Prop :=
  ∀ (s : State) (bar : Bar) (off : BitVec 23), (bar = .operator ∨ (s.function bar).isSome = true ∨ s.fld BOOT_STATUS.TABBY 0 0 = 1) →
    off.toNat % 4 = 0 → s.placeOf bar off.toNat = none →
      (∀ v, exec (.registerWrite bar off false v) s = .next s)
      ∧ (∀ v, off.toNat % 8 = 0 → s.placeOf bar (off.toNat + 4) = none → exec (.registerWrite bar off true v) s = .next s)
      ∧ (∀ v, exec (.splitWriteLow bar off v) s = .next s)
      ∧ exec (.splitReadLow bar off) s = .next (s.emit (.read 0))

/-- Tier 1, R12, R14, R17, R371. REGISTER_WRITE writes the register that lies at its offset, whole, where the function sees one; elsewhere the
operator's write does nothing (R8, R11, R14). A register with no command in it takes its RW and W1C bits and nothing else. A low half is held and
changes nothing else; the high half applies both, with the present low half where none is held; a read of the low half returns it and latches the
high half. What an access through a tenant BAR reaches: the registers of its function, nothing, or a refusal that SEC_IDE_REFUSED counts and alarm
class 0x1D records. That a SPLIT command names the register's own offset is the model's reading (log entry 14). -/
def Obligations.RegisterAccess : Prop :=
  ((∀ (s : State) (bar : Bar) (off : BitVec 23) (v : W64) (p : Nat) (x : RegPlace), off.toNat % 4 = 0 →
    s.placeOf bar off.toNat = some (p, x) → x.reg.info.width = 32 →
      exec (.registerWrite bar off false v) s = .next (s.writeReg p x.reg x.i x.j (v.toNat % 2 ^ 32)))
  ∧ (∀ (s : State) (bar : Bar) (off : BitVec 23) (v : W64) (p : Nat) (x : RegPlace), off.toNat % 8 = 0 →
    s.placeOf bar off.toNat = some (p, x) → x.reg.info.width = 64 → wideAt bar off.toNat = true →
      exec (.registerWrite bar off true v) s = .next (s.writeReg p x.reg x.i x.j v.toNat))
  ∧ (∀ (s : State) (off : BitVec 23) (v : W64), operatorAt off.toNat = none → exec (.registerWrite .operator off false v) s = .next s)
  ∧ (∀ (s : State) (r : RegName) (i j v : Nat), r ≠ .TBL_SWITCH_CTRL → s.writeOperator r i j v = none →
      s.writeReg 8 r i j v = s.writeMasked r i j v)
  ∧ (∀ (s : State) (p : Nat) (r : RegName) (i j v : Nat), p < 8 → r ≠ .TBL_SWITCH_CTRL → s.writeTenant p r i j v = none →
      s.writeReg p r i j v = s.writeMasked r i j v))
  ∧ ((∀ (s : State) (bar : Bar) (off : BitVec 23) (v : W32) (p : Nat) (x : RegPlace), off.toNat % 4 = 0 →
    s.placeOf bar off.toNat = some (p, x) → x.reg.info.width = 64 → x.byte = 0 →
      exec (.splitWriteLow bar off v) s = .next { s with heldLow := SMap.put s.heldLow (regKey x.reg x.i x.j) v })
  ∧ (∀ (s : State) (bar : Bar) (off : BitVec 23) (v : W32) (p : Nat) (x : RegPlace), off.toNat % 4 = 0 →
    s.placeOf bar (off.toNat + 4) = some (p, x) → x.reg.info.width = 64 → x.byte = 4 →
      (∀ w, SMap.find s.heldLow (regKey x.reg x.i x.j) = some w →
        exec (.splitWriteHigh bar off v) s = .next
          ({ s with heldLow := SMap.erase s.heldLow (regKey x.reg x.i x.j) }.writeReg p x.reg x.i x.j (v.toNat * 2 ^ 32 + w.toNat)))
      ∧ (SMap.find s.heldLow (regKey x.reg x.i x.j) = none →
        exec (.splitWriteHigh bar off v) s = .next
          ({ s with heldLow := SMap.erase s.heldLow (regKey x.reg x.i x.j) }.writeReg p x.reg x.i x.j
            (v.toNat * 2 ^ 32 + s.reg x.reg x.i x.j % 2 ^ 32))))
  ∧ (∀ (s : State) (bar : Bar) (off : BitVec 23) (p : Nat) (x : RegPlace), off.toNat % 4 = 0 →
    s.placeOf bar off.toNat = some (p, x) → x.reg.info.width = 64 → x.byte = 0 →
      exec (.splitReadLow bar off) s = .next
        ({ s with latchedHigh := SMap.put s.latchedHigh (regKey x.reg x.i x.j) (BitVec.ofNat 32 (s.readReg x.reg x.i x.j / 2 ^ 32)) }.emit
          (.read (s.readReg x.reg x.i x.j % 2 ^ 32)))))
  ∧ (∀ (s : State) (bar : Bar) (f : Nat → Nat → State),
    (∀ p n, s.function bar = some (p, n) → s.viaTenant bar f = f p n)
      ∧ (s.fld BOOT_STATUS.TABBY 0 0 = 1 → s.viaTenant bar f = s)
      ∧ (bar = .operator → s.viaTenant bar f = s)
      ∧ (∀ p ide, s.fld BOOT_STATUS.TABBY 0 0 ≠ 1 → s.ideRefuses p.val ide = true →
          s.viaTenant (.tenant p ide) f = (s.bump .SEC_IDE_REFUSED 0 0 1).alarm 0x1D
            ∧ ∀ v, s.viaTenant (.virtual p v ide) f = (s.bump .SEC_IDE_REFUSED 0 0 1).alarm 0x1D))

/-! ### Counters, the tension monitor, profiles and clocks -/

/-- Tier 2, R100, R132, R162, R200, R234, R318. Each counter-clear register clears the counters whose bit is set in what is written, and leaves
every other register as it was. -/
def Obligations.CounterClears : Prop :=
  ∀ (s : State) (bar : Bar) (p : Nat) (v : W32), s.function bar = some (p, 0) →
    (∃ t, exec (.cnvCounterClear bar v) s = .next t ∧ Cleared s t cnvCounters p v.toNat)
    ∧ (∃ t, exec (.tenFwdCounterClear bar v) s = .next t ∧ Cleared s t fwdCounters p v.toNat)
    ∧ (∃ t, exec (.tenBwdCounterClear bar v) s = .next t ∧ Cleared s t bwdCounters p v.toNat)
    ∧ (∃ t, exec (.redCounterClear bar v) s = .next t ∧ Cleared s t redCounters p v.toNat)
    ∧ (∃ t, exec (.batCounterClear bar v) s = .next t ∧ Cleared s t batCounters p v.toNat)
    ∧ ∀ st : Fin 16, ∃ t, exec (.hbmCounterClear st v) s = .next t ∧ Cleared s t stackCounters st.val v.toNat

/-- Tier 1, R32, R36, R38, R97, R118, R119, R123, R130, R304. CNV_LAST_FAULT clears whole when VALID is written as 1 and stays otherwise. A
reference norm that is written takes the value, or 0 where that is non-finite or negative; a layer of no context of the partition discards the
write. A widening copy that completes packs its pending layer's copy, makes the layer wide, counts it and raises alarm class 0x22; a generating
context follows where the last commit asked for it. A layer that has become sensitive is not widened and its reserve returns; a failed read or write
vetoes with cause 0x4, and a layer that is not pending stays. A reserved MODE sets RESULT 0x1 and nothing else of the profile; MIXED with one role
missing sets 0x3; any other request is taken into MODE and waits for a pick boundary. Where the copy lies is the model's choice (log entry 23). -/
def Obligations.TensionCommands : Prop :=
  (∀ (s : State) (bar : Bar) (p : Nat) (v : W32), s.function bar = some (p, 0) →
    (bit v.toNat 31 = true → exec (.cnvFaultClear bar v) s = .next (s.setReg .CNV_LAST_FAULT p 0 0))
      ∧ (bit v.toNat 31 = false → exec (.cnvFaultClear bar v) s = .next s))
  ∧ (∀ (s : State) (bar : Bar) (p : Nat) (layer : Fin 4096) (grad : Bool) (v : W32), s.function bar = some (p, 0) →
    (s.layerSeen p layer.val = true → exec (.tenReferenceWrite bar layer grad v) s = .next
      (s.setReg (if grad then .TEN_LAYER_GREF else .TEN_LAYER_FREF) p layer.val
        (if (Fmt.fp32.decode v.toNat).nonFinite || (Fmt.fp32.decode v.toNat).sign then 0 else v.toNat)))
      ∧ (s.layerSeen p layer.val = false → exec (.tenReferenceWrite bar layer grad v) s = .next s))
  ∧ (∀ (s : State) (p : Fin 8) (layer : Fin 4096) (w : WideArea),
    s.wideAreas.find? (fun w => w.part = p.val && w.layer = layer.val && !w.gone) = some w →
    (s.fld TEN_LAYER_STATE.WIDE_PENDING p.val layer.val = 1 → s.fld TEN_LAYER_CFG.SENSITIVE p.val layer.val = 0 →
      let t := (s.packWide w).2
      let u := (((t.setFld TEN_LAYER_STATE.WIDE w.part w.layer 1).setFld TEN_LAYER_STATE.WIDE_PENDING w.part w.layer 0).bump
        .TEN_FWD_WIDEN w.part 0 1).alarm 0x22
      ((s.packWide w).1 = .ok → u.unionPending w.part w.ctx w.layer = false → exec (.widenCopyComplete p layer) s = .next u)
      ∧ ((s.packWide w).1 = .ok → u.unionPending w.part w.ctx w.layer = true → exec (.widenCopyComplete p layer) s = .next
        (u.followWide w.part w.ctx (w.layer :: (u.stepOf w.part w.ctx).committedWide)))
      ∧ ((s.packWide w).1 = .illegal → exec (.widenCopyComplete p layer) s = .next t)
      ∧ ((s.packWide w).1 ≠ .ok → (s.packWide w).1 ≠ .illegal → exec (.widenCopyComplete p layer) s = .next (t.vetoStep w.part w.ctx 4)))
    ∧ (s.fld TEN_LAYER_STATE.WIDE_PENDING p.val layer.val = 1 → s.fld TEN_LAYER_CFG.SENSITIVE p.val layer.val = 1 →
      exec (.widenCopyComplete p layer) s = .next
        ((s.setFld TEN_LAYER_STATE.WIDE_PENDING p.val layer.val 0).releaseWide w.part w.ctx w.layer false))
    ∧ (s.fld TEN_LAYER_STATE.WIDE_PENDING p.val layer.val = 0 → exec (.widenCopyComplete p layer) s = .next s))
  ∧ (∀ (s : State) (v : W32),
    let m := v.toNat % 8
    let s' := s.traceVote .DEV_PROFILE 0 v.toNat
    (3 < m → exec (.profileRequest v) s = .next (s'.setFld DEV_PROFILE_STATUS.RESULT 0 0 1))
      ∧ (m = 2 → s'.bothRoles = false → exec (.profileRequest v) s = .next (s'.setFld DEV_PROFILE_STATUS.RESULT 0 0 3))
      ∧ (m ≤ 3 → (m ≠ 2 ∨ s'.bothRoles = true) →
          exec (.profileRequest v) s = .next (s'.setFld DEV_PROFILE.MODE 0 0 m).requestChange))

/-- Tier 1, R36, R38, R39, R40, R348, R421. Roles and clock limits: a role written outside MIXED is stored; in MIXED it is stored and requests a
change unless a role would be missing, where it is refused with 0x3; a limit takes 1,200 to 2,200 MHz in steps of 100 and nothing else; a clock
change that completes reports the clock the partition was to run at. The thermal cause forces the even profile's clock, and raises alarm class 0x02
when it is new; a junction temperature feeds the risk value and, above 95 °C, ends the count towards the release of the forcing. The conflict tests
are the model's reading (log entry 30). -/
def Obligations.RolesClocksAndHeat : Prop :=
  ((∀ (s : State) (p : Fin 8) (v : W32),
    let s' := s.traceVote .PART_ROLE p.val v.toNat
    let t := s'.setFld PART_ROLE.ROLE p.val 0 v.toNat
    (s'.fld DEV_PROFILE_STATUS.CURRENT 0 0 ≠ 2 → exec (.roleWrite p v) s = .next t)
      ∧ (s'.fld DEV_PROFILE_STATUS.CURRENT 0 0 = 2 → t.bothRoles = true →
          exec (.roleWrite p v) s = .next (t.setFld DEV_PROFILE.MODE 0 0 2).requestChange)
      ∧ (s'.fld DEV_PROFILE_STATUS.CURRENT 0 0 = 2 → t.bothRoles = false →
          exec (.roleWrite p v) s = .next (s'.setFld DEV_PROFILE_STATUS.RESULT 0 0 3)))
  ∧ (∀ (s : State) (p : Fin 8) (v : W32),
    let m := v.toNat % 4096
    let s' := s.traceVote .PART_CLOCK_LIMIT p.val v.toNat
    (1200 ≤ m → m ≤ 2200 → m % 100 = 0 → exec (.clockLimitWrite p v) s = .next (s'.setFld PART_CLOCK_LIMIT.LIMIT_MHZ p.val 0 m))
      ∧ (m < 1200 ∨ 2200 < m ∨ m % 100 ≠ 0 → exec (.clockLimitWrite p v) s = .next s'))
  ∧ (∀ (s : State) (p : Fin 8), exec (.clockChangeComplete p) s = .next (s.setFld PART_ROLE.CLOCK_MHZ p.val 0 (s.target p.val))))
  ∧ ((∀ s : State, bit (s.fld DEV_PROFILE_STATUS.FORCE_CAUSE 0 0) 1 = false →
    exec .thermalForce s = .next (({ s with coolSince := none }.forceClock 2).alarm 0x02))
  ∧ (∀ s : State, bit (s.fld DEV_PROFILE_STATUS.FORCE_CAUSE 0 0) 1 = true →
    exec .thermalForce s = .next ({ s with coolSince := none }.forceClock 2))
  ∧ (∀ (s : State) (t : BitVec 8), 95 < t.toNat →
    exec (.junctionTemperature t) s = .next { s.now.2 with junction := t.toNat, coolSince := none }.riskFollow)
  ∧ (∀ (s : State) (t : BitVec 8), t.toNat ≤ 95 →
    exec (.junctionTemperature t) s = .next { s.now.2 with junction := t.toNat, coolSince := some (s.coolSince.getD s.now.1) }.riskFollow))

/-- Tier 2, R348, R349. The risk value is min(255, E + 4 × max(0, T − 85)); above the last threshold every point is folded, and the interval is
never 0. -/
def Obligations.RiskValue : Prop :=
  (∀ e t : Nat, riskOf e t = if 255 ≤ e + 4 * (t - 85) then 255 else e + 4 * (t - 85))
    ∧ (∀ (s : State) (r : Nat), 1 ≤ s.interval r)
    ∧ (∀ (s : State) (r : Nat), s.fld SELV_RISK_CFG.T_QUARTER 0 0 ≤ r → s.fld SELV_RISK_CFG.T_ONE 0 0 ≤ r → s.interval r = 1)
    ∧ ∀ (s : State) (r r' : Nat), s.fld SELV_RISK_CFG.T_QUARTER 0 0 ≤ s.fld SELV_RISK_CFG.T_ONE 0 0 → r ≤ r' → s.interval r' ≤ s.interval r

/-- Tier 2, R48, R90. A magnitude x is quantised under a positive scale s as the table of R90 has it: to the nearest code, a tie to the even one, 6
s and 1.5 s the largest, beyond which it is saturated; a zero gives code 0. -/
def Obligations.QuantiseK : Prop :=
  ∀ (x s : Dy), 0 ≤ x.m → 0 < s.m →
    let at4 := fun n : Nat => (⟨n, -2⟩ : Dy).mul s
    (quantK 0 x s).1 = (if x.le (at4 1) then 0 else if x.lt (at4 3) then 1 else if x.le (at4 5) then 2 else if x.lt (at4 7) then 3
      else if x.le (at4 10) then 4 else if x.lt (at4 14) then 5 else if x.le (at4 20) then 6 else 7)
    ∧ ((quantK 0 x s).2 = true ↔ (at4 24).lt x = true)
    ∧ (quantK 1 x s).1 = (if x.le (at4 1) then 0 else if x.lt (at4 3) then 1 else if x.le (at4 5) then 2 else 3)
    ∧ ((quantK 1 x s).2 = true ↔ (at4 6).lt x = true)
    ∧ (x.m = 0 → (quantK 0 x s).1 = 0 ∧ (quantK 1 x s).1 = 0)

/-! ### Links and time -/

/-- Tier 1, R163, R164, R167, R168, R175, R338, R342. Training: writing ENABLE starts it where it was 0 and the port may train, and holds the port
DOWN when it is written as 0; a partner's signal starts it on a DOWN link that may train, until three retrains have failed; its end gives NEGOTIATE
on all lanes, on lanes 0 to 3 or on lanes 4 to 7, and DOWN without a whole half, on the selvage link without all of them, or at the timeout.
Negotiation: until a NEGOTIATE has come, a link that negotiates or retrains sends its own, with its level, its device, that it is no switch, and its
lanes; one of another device at a level above 0 brings a negotiating link UP, at half width where it runs on a half, and names the partner of a
retraining one; one of the device itself, of level 0, or none within the time refuses the partner, with alarm class 0x0D, 0x0C and 0x0D. A retrain
begins on an UP link after more than 16 replays or more than 16 uncorrectable codewords within a millisecond: it is counted and raises alarm class
0x0E. One that leaves lanes to run on resumes at their width with no failure counted; another begins anew until the third in a row takes the port
DOWN; one of the selvage link ends in the loss of the twin. How long each may take is not measured, and how a millisecond is told is the model's
choice (log entries 6 and 114). -/
def Obligations.LinkStates : Prop :=
  ((∀ (s : State) (port : Fin 16) (v : W32),
    let t := s.setFld WEFT_PORT_CTRL.ENABLE port.val 0 v.toNat
    (v.toNat % 2 = 0 → exec (.portEnable port v) s = .next (t.linkTo port.val 0))
    ∧ (v.toNat % 2 = 1 → s.fld WEFT_PORT_CTRL.ENABLE port.val 0 = 0 → t.linkEnabled port.val = true →
      exec (.portEnable port v) s = .next (t.train port.val))
    ∧ (v.toNat % 2 = 1 → (s.fld WEFT_PORT_CTRL.ENABLE port.val 0 = 1 ∨ t.linkEnabled port.val = false) →
      exec (.portEnable port v) s = .next t))
  ∧ (∀ (s : State) (port : Fin 17),
    (s.linkState port.val = 0 → s.linkEnabled port.val = true → (s.port port.val).failures < 3 →
      exec (.partnerSignalDetect port) s = .next (s.train port.val))
    ∧ ((s.linkState port.val ≠ 0 ∨ s.linkEnabled port.val = false ∨ 3 ≤ (s.port port.val).failures) →
      exec (.partnerSignalDetect port) s = .next s))
  ∧ (∀ (s : State) (port : Fin 17) (good : BitVec 8), s.linkState port.val = 1 →
    let m := good.toNat
    (m = 0xFF → exec (.trainingComplete port (.done good)) s = .next ((s.setLanes port.val 0xFF).linkTo port.val 2))
    ∧ (m ≠ 0xFF → port.val < 16 → m &&& 0x0F = 0x0F →
      exec (.trainingComplete port (.done good)) s = .next ((s.setLanes port.val 0x0F).linkTo port.val 2))
    ∧ (m &&& 0x0F ≠ 0x0F → port.val < 16 → m &&& 0xF0 = 0xF0 →
      exec (.trainingComplete port (.done good)) s = .next ((s.setLanes port.val 0xF0).linkTo port.val 2))
    ∧ (m ≠ 0xFF → (port.val = 16 ∨ (m &&& 0x0F ≠ 0x0F ∧ m &&& 0xF0 ≠ 0xF0)) →
      exec (.trainingComplete port (.done good)) s = .next ((s.setLanes port.val m).linkTo port.val 0))
    ∧ exec (.trainingComplete port .failed) s = .next (s.linkTo port.val 0)
    ∧ exec (.trainingTimeout port) s = .next (s.linkTo port.val 0))
  ∧ (∀ (s : State) (port : Fin 17), s.linkState port.val ≠ 1 →
    (∀ r, exec (.trainingComplete port r) s = .next s) ∧ exec (.trainingTimeout port) s = .next s))
  ∧ ((∀ (s : State) (port : Fin 17),
    let l := port.val
    let own : FlitBody := .negotiate (s.ownLevel l) Config.deviceId.toNat false (if l < 16 then s.fld WEFT_PORT_STATUS.LANES l 0 else 0xFF)
    ((s.linkState l = 2 ∨ s.linkState l = 5) → (s.port l).heard = false → exec (.negotiateSend port) s = .next (s.sendFlit l own))
    ∧ ((s.linkState l ≠ 2 ∧ s.linkState l ≠ 5 ∨ (s.port l).heard = true) → exec (.negotiateSend port) s = .next s)
    ∧ (s.linkState l = 2 → (s.port l).heard = false → exec (.negotiateTimeout port) s = .next ((s.linkTo l 6).alarm 0x0D))
    ∧ ((s.linkState l ≠ 2 ∨ (s.port l).heard = true) → exec (.negotiateTimeout port) s = .next s))
  ∧ (∀ (s : State) (port : Fin 17) (level : BitVec 4) (partner : BitVec 16) (sw : Bool) (lanes : BitVec 8),
    let l := port.val
    let t := s.setPort l { s.port l with heard := true }
    let u := t.setPartner l partner.toNat
    ((s.linkState l = 2 ∨ s.linkState l = 5) →
      (partner = Config.deviceId → exec (.negotiate port level partner sw lanes) s = .next ((t.linkTo l 6).alarm 0x0D))
      ∧ (partner ≠ Config.deviceId → level = 0 → exec (.negotiate port level partner sw lanes) s = .next ((t.linkTo l 6).alarm 0x0C)))
    ∧ (s.linkState l = 2 → partner ≠ Config.deviceId → level ≠ 0 → exec (.negotiate port level partner sw lanes) s = .next
        ((u.linkTo l (if 16 ≤ l || u.fld WEFT_PORT_STATUS.LANES l 0 = 0xFF then 3 else 4)).pump l))
    ∧ (s.linkState l = 5 → partner ≠ Config.deviceId → level ≠ 0 → exec (.negotiate port level partner sw lanes) s = .next u)
    ∧ (s.linkState l ≠ 2 → s.linkState l ≠ 5 → exec (.negotiate port level partner sw lanes) s = .next s)))
  ∧ ((∀ (s : State) (port : Fin 17),
    let l := port.val
    let n := fun fec => ((s.port l).faults.filter (fun f => f.2 = fec && f.1 ≤ s.reg .TIME_FABRIC 0 0
      && s.reg .TIME_FABRIC 0 0 ≤ f.1 + msUnits)).length
    let t := s.setPort l { s.port l with heard := false, faults := [] }
    (s.linkUp l = true → (16 < n false ∨ 16 < n true) → exec (.retrain port) s = .next
      (((if l < 16 then t.bump .WEFT_PORT_RETRAINS l 0 1 else t).linkTo l 5).alarm 0x0E))
    ∧ ((s.linkUp l = false ∨ (n false ≤ 16 ∧ n true ≤ 16)) → exec (.retrain port) s = .next s))
  ∧ (∀ (s : State) (port : Fin 17) (r : TrainEnd), s.linkState port.val = 5 →
    let l := port.val
    let good := fun w => ((s.setPort l { s.port l with failures := 0 }).setLanes l w).linkOpen l
    let n := (s.port l).failures + 1
    let t := s.setPort l { s.port l with failures := n }
    let bad := if 3 ≤ n then t.linkTo l 0 else t.retrain l
    (l < 16 →
      (r = .done 0xFF → exec (.retrainComplete port r) s = .next (good 0xFF))
      ∧ (∀ g, r = .done g → g.toNat ≠ 0xFF → g.toNat &&& 0x0F = 0x0F → exec (.retrainComplete port r) s = .next (good 0x0F))
      ∧ (∀ g, r = .done g → g.toNat &&& 0x0F ≠ 0x0F → g.toNat &&& 0xF0 = 0xF0 → exec (.retrainComplete port r) s = .next (good 0xF0))
      ∧ ((r = .failed ∨ ∃ g, r = .done g ∧ g.toNat &&& 0x0F ≠ 0x0F ∧ g.toNat &&& 0xF0 ≠ 0xF0) →
        exec (.retrainComplete port r) s = .next bad))
    ∧ (l = 16 →
      (r = .done 0xFF → exec (.retrainComplete port r) s = .next (if (good 0xFF).paired then (good 0xFF).twinLost else good 0xFF))
      ∧ (r ≠ .done 0xFF → exec (.retrainComplete port r) s = .next (if bad.paired then bad.twinLost else bad))))
  ∧ (∀ (s : State) (port : Fin 17) (r : TrainEnd), s.linkState port.val ≠ 5 → exec (.retrainComplete port r) s = .next s))

/-- Tier 1, R165, R166, R169. A flit that is intact and in sequence advances the next number expected, releases the flits its ACK covers and takes
its credits, and what waited for either goes, a data flit being answered; any other flit is answered with RETRY_REQ; a RETRY_REQ replays from the
flit it names; a port of the weft counts its codewords that were not corrected, and its replays. A control message leaves at once where the replay
buffer has room and nothing else waits: in one flit, under the next SEQ, kept until it is acknowledged. The conventions of the check are presumed,
and the choices of the link layer are the model's (log entries 33 and 114). -/
def Obligations.FlitReceive : Prop :=
  (∀ (s : State) (port : Fin 17) (hdr : W64) (payload : List Byte) (check : W64) (uncorr : Nat),
    let l := port.val
    let h := hdr.toNat
    let u := (if l < 16 then s.bump .WEFT_PORT_FEC_UNCORR l 0 uncorr else s).linkFault l true uncorr
    let x := u.port l
    (s.linkAlive l = true →
      (bits h 0 2 < 2 → payload.length = 496 → uncorr = 0 → crc64 (leBytes 8 h ++ payload) = check.toNat → bits h 2 12 = x.rxNext →
        ∃ y, (bits h 0 2 = 0 → exec (.flitReceive port hdr payload check uncorr) s = .next ((u.setPort l y).idleFlit l))
          ∧ (bits h 0 2 = 1 → exec (.flitReceive port hdr payload check uncorr) s = .next ((u.setPort l y).pump l))
          ∧ y.rxNext = (x.rxNext + 1) % 4096 ∧ y.txSeq = x.txSeq ∧ y.failures = x.failures ∧ y.queue = x.queue ∧ y.ctl = x.ctl
          ∧ y.credits = x.credits.set (bits h 26 3) (x.credits.getD (bits h 26 3) 0 + bits h 29 12)
          ∧ ((∀ f ∈ x.unacked, f.seq ≠ bits h 14 12) → y.unacked = x.unacked)
          ∧ (∀ before f after, x.unacked = before ++ f :: after → (∀ g ∈ before, g.seq ≠ bits h 14 12) → f.seq = bits h 14 12 →
            y.unacked = after))
      ∧ ((2 ≤ bits h 0 2 ∨ payload.length ≠ 496 ∨ uncorr ≠ 0 ∨ crc64 (leBytes 8 h ++ payload) ≠ check.toNat ∨ bits h 2 12 ≠ x.rxNext) →
        exec (.flitReceive port hdr payload check uncorr) s = .next (u.sendFlit l (.retryReq x.rxNext))))
    ∧ (s.linkAlive l = false → exec (.flitReceive port hdr payload check uncorr) s = .next s))
  ∧ (∀ (s : State) (port : Fin 17) (seq : BitVec 12),
    let l := port.val
    let x := s.port l
    let again := (x.unacked.dropWhile (fun f => f.seq ≠ seq.toNat)).map (Flit.out l ((x.rxNext + 4095) % 4096))
    let u := (if l < 16 then s.bump .WEFT_PORT_REPLAYS l 0 1 else s).linkFault l false 1
    (s.linkAlive l = true → exec (.retryReq port seq) s = .next { u with outs := u.outs ++ again })
    ∧ (s.linkAlive l = false → exec (.retryReq port seq) s = .next s))
  ∧ (∀ (s : State) (l : Nat) (b : FlitBody), s.linkAlive l = true → (s.port l).ctl = [] → (s.port l).queue = [] →
    (s.port l).unacked.length < 256 →
    let x := s.port l
    let f := (x.push b).1
    s.sendFlit l b = { s with ports := SMap.set {} (SMap.set {} s.ports l { x with ctl := [b] }) l { (x.push b).2 with ctl := [] },
                              outs := s.outs ++ [Flit.out l x.ack f] }
      ∧ f.seq = x.txSeq ∧ f.body = b ∧ (x.push b).2.unacked = x.unacked ++ [f] ∧ (x.push b).2.txSeq = (x.txSeq + 1) % 4096)

/-- Tier 1, R172, R173, R282, R283, R284, R424, R444. A pick boundary begins the next pick: fabric time stands at its first unit, the pick number is
one more, and all that is due at the boundary is taken there. A device that holds its time still, because it was ahead, lets it pass and holds on
for a pick less. A TIME message leaves an UP port with the stamps, hops and lock the device has, unless its replay buffer is full. One that arrives
there leaves its hops and lock, a conflict of roots, the choice of the upstream port, its stamps and, from the upstream port, the epoch; with the
stamp of its own arrival it completes the exchange before it: the delay, and from the upstream port the offset. The loss of the upstream port
withdraws its hops and chooses anew; the loss of lock is taken by a device that is not root. The root's clock, the pulses and the reference: the
IEEE 1588 state is taken; on the root its loss is a loss of lock, and its time less TIME_EPOCH is fabric time, taken whole at the first lock and by
a correction after it. A correction steps forward where the device is behind by more than a pick, holds time still where it is ahead by more, and
otherwise slews. A pulse within 1 µs corrects the phase and one beyond raises alarm class 0x0B, on a root that has IEEE 1588 lock; the output pulse
is sent; the reference's loss is a loss of lock, its holdover's end takes the ports DOWN, and its return restores it. The moment inside a pick is a
free value, PICK_BOUNDARY is the tick of fabric time, and what stands before the first lock is the model's reading (log entries 5, 61, 62 and 102).
-/
def Obligations.FabricTime : Prop :=
  (∀ s : State,
    (s.ahead = 0 → (s.pick + 1) * s.pickUnits < 2 ^ 64 →
      exec .pickBoundary s = .next (s.setTime ((s.pick + 1) * s.pickUnits)).atBoundary
        ∧ (s.setTime ((s.pick + 1) * s.pickUnits)).pick = s.pick + 1
        ∧ (s.setTime ((s.pick + 1) * s.pickUnits)).reg .TIME_FABRIC 0 0 = (s.pick + 1) * s.pickUnits)
    ∧ (0 < s.ahead → exec .pickBoundary s = .next { s with ahead := s.ahead - 2 * s.pickUnits }))
  ∧ ((∀ (s : State) (port : Fin 16),
    let l := port.val
    (s.linkUp l = true → (s.port l).unacked.length < 256 → exec (.timeSend port) s = .next (s.now.2.sendFlit l (.time s.now.1
      (s.port l).lastRx (s.fld TIME_STATUS.HOPS 0 0) (s.fld TIME_STATUS.FABRIC_LOCK 0 0 = 1) (s.reg .TIME_EPOCH 0 0))))
    ∧ ((s.linkUp l = false ∨ 256 ≤ (s.port l).unacked.length) → exec (.timeSend port) s = .next s))
  ∧ (∀ (s : State) (port : Fin 16) (m : TimeMsg),
    let l := port.val
    let t1 := (s.setFld WEFT_PORT_TIME.HOPS l 0 m.hops.toNat).setFld WEFT_PORT_TIME.LOCK l 0 (b2n m.lock)
    let t2 := (if t1.actsRoot = true ∧ m.hops = 0 then t1.rootConflict l else t1).chooseUpstream
    let t3 := t2.setPort l { t2.port l with last := some (m.t1.toNat, m.t2.toNat, m.t3.toNat), lastRx := some m.t2.toNat }
    let up := t3.actsRoot = false ∧ t3.fld WEFT_PORT_TIME.ROLE l 0 = 1
    let t := if up then t3.setReg .TIME_EPOCH 0 0 m.epoch.toNat else t3
    (s.linkUp l = true →
      (((s.port l).last = none ∨ m.t4 = none) → exec (.timeMsg port m) s = .next t)
      ∧ (∀ (p1 p2 p3 : Nat) (p4 : W64), (s.port l).last = some (p1, p2, p3) → m.t4 = some p4 →
        let a : Int := (p2 : Int) - p1
        let b : Int := (p4.toNat : Int) - p3
        let u := t.setFld WEFT_PORT_TIME.DELAY l 0 (min 65535 ((a + b) / 2).toNat)
        (up → exec (.timeMsg port m) s = .next (u.exchange (a - b))) ∧ (¬ up → exec (.timeMsg port m) s = .next u)))
    ∧ (s.linkUp l = false → exec (.timeMsg port m) s = .next s))
  ∧ (∀ s : State,
    let l := s.fld TIME_STATUS.UPSTREAM 0 0
    (s.fld WEFT_PORT_TIME.ROLE l 0 = 1 → exec .upstreamLoss s = .next
      ({ s with goodExchanges := 0 }.setFld WEFT_PORT_TIME.HOPS l 0 7).chooseUpstream)
    ∧ (s.fld WEFT_PORT_TIME.ROLE l 0 ≠ 1 → exec .upstreamLoss s = .next s))
  ∧ (∀ s : State,
    let u := ({ s with goodExchanges := 0 } : State)
    (s.actsRoot = true → exec .fabricLockLoss s = .next s)
    ∧ (s.actsRoot = false → s.fld TIME_STATUS.FABRIC_LOCK 0 0 = 0 → exec .fabricLockLoss s = .next u)
    ∧ (s.actsRoot = false → s.fld TIME_STATUS.FABRIC_LOCK 0 0 = 1 → exec .fabricLockLoss s = .next
      ((((u.setFld TIME_STATUS.FABRIC_LOCK 0 0 0).setFld TIME_STATUS.HOLDOVER 0 0 1).bump .TIME_LOCK_LOSS 0 0 1).alarm 0x0B))))
  ∧ ((∀ (s : State) (locked : Bool) (sec : W64) (sub : BitVec 33),
    let u := s.setFld TIME_STATUS.PTP_LOCK 0 0 (b2n locked)
    let t : Int := ((sec.toNat : Int) - u.reg .TIME_EPOCH 0 0) * secUnits + sub.toNat
    (u.actsRoot = false → exec (.ieee1588Message locked sec sub) s = .next u)
    ∧ (u.actsRoot = true → locked = false → exec (.ieee1588Message locked sec sub) s = .next u.loseLock)
    ∧ (u.actsRoot = true → locked = true → u.everLocked = false →
      exec (.ieee1588Message locked sec sub) s = .next (u.declareLock (t % 2 ^ 64).toNat))
    ∧ (u.actsRoot = true → locked = true → u.everLocked = true →
      exec (.ieee1588Message locked sec sub) s = .next ((u.correct (2 * (t - u.reg .TIME_FABRIC 0 0))).declareLock 0)))
  ∧ (∀ (s : State) (twice : Int),
    let pick : Int := 2 * s.pickUnits
    (pick < twice → s.correct twice = ({ s with ahead := 0 } : State).stepTime ((s.reg .TIME_FABRIC 0 0 + twice.toNat / 2) % 2 ^ 64))
    ∧ (twice < -pick → s.correct twice = { s with ahead := (-twice).toNat })
    ∧ (-pick ≤ twice → twice ≤ pick → s.ahead = 0 → s.correct twice = s))
  ∧ (∀ (s : State) (d : Int),
    (s.fld TIME_CFG.ROOT 0 0 = 1 → s.fld TIME_STATUS.PTP_LOCK 0 0 = 1 →
      (d.natAbs ≤ 8000 → exec (.ppsIn d) s = .next (s.correct (-2 * d))) ∧ (8000 < d.natAbs → exec (.ppsIn d) s = .next (s.alarm 0x0B)))
    ∧ ((s.fld TIME_CFG.ROOT 0 0 = 0 ∨ s.fld TIME_STATUS.PTP_LOCK 0 0 = 0) → exec (.ppsIn d) s = .next s))
  ∧ (∀ s : State, exec .ppsOut s = .next { s with outs := s.outs ++ [.pin 2 true] }
    ∧ (s.refclk = 0 → exec .refclkLoss s = .next { s with refclk := 1 }.loseLock)
    ∧ (s.refclk ≠ 0 → exec .refclkLoss s = .next s)
    ∧ (s.refclk = 1 → exec .refclkHoldoverExpiry s = .next ((List.range 17).foldl (fun s l => s.linkTo l 0) { s with refclk := 2 }))
    ∧ (s.refclk ≠ 1 → exec .refclkHoldoverExpiry s = .next s)
    ∧ (s.refclk ≠ 2 → exec .refclkReturn s = .next { s with refclk := 0 })
    ∧ (s.refclk = 2 → exec .refclkReturn s = .next
      ((List.range 17).foldl (fun s l => if s.linkEnabled l then s.train l else s) { s with refclk := 0 }))))

/-! ### Weft packets and reduction slots -/

/-- Tier 1, R179, R183, R185, R189, R193. A REDUCE, DROP or CALIB packet that passes the checks of its arrival meets its verdict for the context it
is for, a DROP for each of them: its blocks are added to the slot, or its ordinal dropped; it is discarded, held, answered with TIMEOUT, EPOCH or
ILLEGAL, or over-delivers. A REDUCE or CALIB packet of the open step is accepted by the one slot that its blocks meet where that slot covers them,
is OPEN, stands in the epoch of the packet and the table, is clear, is of the packet's kind, has no closed window, and expects as many blocks still.
That a DROP is met by every context of its STEP and RED_ID is the model's reading (log entry 115). -/
def Obligations.ReductionPackets : Prop :=
  (∀ (s : State) (pk : Packet),
    (∀ k ∈ [asType 1 pk, asType 3 pk], s.Arrives k →
      let t := (s.arrival k).2
      let x := t.rxCtx (pkJob k) (pkRed k) (pkBlock k)
      (k = asType 1 pk → exec (.reduce pk) s = .next (t.obey x.1 x.2 k (t.verdict x.1 x.2 k none)))
      ∧ (k = asType 3 pk → exec (.calib pk) s = .next (t.obey x.1 x.2 k (t.verdict x.1 x.2 k none))))
    ∧ (s.Arrives (asType 2 pk) → exec (.drop pk) s = .next
      (((s.arrival (asType 2 pk)).2.redCtxs (asType 2 pk)).foldl
        (fun u x => u.obey x.1 x.2 (asType 2 pk) (u.verdict x.1 x.2 (asType 2 pk) none)) (s.arrival (asType 2 pk)).2)))
  ∧ (∀ (t : State) (p c : Nat) (k : Packet) (a w : Nat),
    (pkType k = 1 → t.obey p c k (.accept a) = t.addReduce p c a k)
    ∧ (pkType k = 3 → t.obey p c k (.accept a) = t.addCalib p c a k)
    ∧ t.obey p c k .drop = t.addDrop p c k
    ∧ t.obey p c k .discard = t.bump .RED_DISCARD p 0 1
    ∧ t.obey p c k .hold = t.holdPacket p c k
    ∧ t.obey p c k (.timeout none) = (t.bump .RED_LATE p 0 1).reply k .timeout
    ∧ t.obey p c k (.timeout (some w)) = ((t.bump .RED_LATE p 0 1).bump .SCHED_WIN_LATE p w 1).reply k .timeout
    ∧ t.obey p c k .epoch = (t.bump .RED_BOUNCE_EPOCH p 0 1).reply k .epoch
    ∧ t.obey p c k .illegal = t.reply k .illegal
    ∧ t.obey p c k (.overfull a) = t.overDeliver p c a k)
  ∧ (∀ (t : State) (p c : Nat) (k : Packet) (a : Nat),
    let b := t.fld RED_SLOT_BASE.BLOCK a 0
    let n := pkBlocks k
    pkType k = 1 ∨ pkType k = 3 → pkStep k ∉ (t.stepOf p c).ended → pkStep k = t.reg .BAT_STEP_NUM p c → t.stepState p c ≠ 0 →
    (t.slotsFor p c (pkStep k) (pkRed k)).filter (fun u => t.fld RED_SLOT_BASE.BLOCK u 0 < pkBlock k + n
      && pkBlock k < t.fld RED_SLOT_BASE.BLOCK u 0 + t.fld RED_SLOT_LEN.LEN u 0) = [a] →
    b ≤ pkBlock k → pkBlock k + n ≤ b + t.fld RED_SLOT_LEN.LEN a 0 →
    t.fld RED_SLOT_CTRL.STATE a 0 = 1 → t.windowClosed p a = false → pkEpoch k = t.epoch p → t.fld RED_SLOT_ID.EPOCH a 0 = pkEpoch k →
    (t.slot a).clearing = false → (t.fld RED_SLOT_CTRL.OP a 0 = 1 ↔ pkType k = 3) → (t.slot a).accepted + n ≤ t.slotGoal a →
      t.verdict p c k none = .accept a)

/-- Tier 1, R178, R179, R181, R184, R185, R188, R195, R263. STATUS, EXPMAX, EXPSET and GATHER packets that pass the checks of their arrival. A
STATUS resolves the packet it answers: CHECKSUM sends it again, the third time vetoing with cause 0x3; EPOCH sends its blocks to the new owners or
lets it wait for a newer table; any other status reaches its operation, and that of a KNOT addition ends it. The entries of EXPMAX and EXPSET go to
the contexts they are for, and without one they are answered TIMEOUT. GATHER bytes go into the next front copies of the contexts that have them,
wait for their step or an open pass, are answered TIMEOUT after it, and ILLEGAL where no copy has them. -/
def Obligations.PacketsMatched : Prop :=
  (∀ (s : State) (pk : Packet), s.Arrives (asType 0 pk) →
    let k := asType 0 pk
    let t := (s.arrival k).2
    let found := t.sent.find? (fun x => x.seq = pkArg k && x.job = pkJob k)
    let st := Status.ofCode (pkBlock k)
    (found = none → exec (.statusPacket pk) s = .next t)
    ∧ (∀ x, found = some x →
      let ty := pkType x.pk
      let gone := ({ t with sent := t.sent.filter (fun y => !(y.seq = x.seq && y.job = x.job)) } : State)
      (st = .checksum → ty ∈ [1, 3, 5] → x.fails < 2 → exec (.statusPacket pk) s = .next (t.resend x x.pk (x.fails + 1)))
      ∧ (st = .checksum → ty ∈ [1, 3, 5] → 2 ≤ x.fails →
        let u := gone.opStatus x.op .checksum
        (∀ o, u.async x.op = some o → exec (.statusPacket pk) s = .next ((u.alarm 0x25).vetoStep o.part o.ctx 3))
        ∧ (u.async x.op = none → exec (.statusPacket pk) s = .next
          ((u.openCtxs (pkJob x.pk) (pkStep x.pk)).foldl (fun s c => s.vetoStep c.1 c.2 3) (u.alarm 0x25))))
      ∧ (st = .epoch → ty ∈ [1, 2, 3] →
        (t.async x.op = none → exec (.statusPacket pk) s = .next gone)
        ∧ (∀ o, t.async x.op = some o → newer (t.epoch o.part) (pkEpoch x.pk) = true →
          exec (.statusPacket pk) s = .next (t.rebounce x))
        ∧ (∀ o, t.async x.op = some o → newer (t.epoch o.part) (pkEpoch x.pk) = false → exec (.statusPacket pk) s = .next
          { t with sent := t.sent.map (fun y => if y.seq = x.seq && y.job = x.job then { y with bounced := true } else y) }))
      ∧ (ty = 6 →
        (∀ o, gone.async x.op = some o → exec (.statusPacket pk) s = .next (gone.endAsync o st (decide (st = Status.ok))))
        ∧ (gone.async x.op = none → exec (.statusPacket pk) s = .next gone))
      ∧ (ty ≠ 6 → ¬ (st = .checksum ∧ ty ∈ [1, 3, 5]) → ¬ (st = .epoch ∧ ty ∈ [1, 2, 3]) →
        exec (.statusPacket pk) s = .next (gone.opStatus x.op st))))
  ∧ (∀ (s : State) (pk : Packet), s.Arrives (asType 4 pk) →
    let k := asType 4 pk
    let t := (s.arrival k).2
    let r := (t.expmaxCtxs k).foldl (State.takeExpmax k) (.ok, t)
    let defined := ∀ i < pkCount k, expNibble k i < 8 ∨ expNibble k i = 15
    (t.expmaxCtxs k ≠ [] → defined → r.1 = .ok → exec (.expmax pk) s = .next r.2)
    ∧ (t.expmaxCtxs k ≠ [] → defined → r.1 ≠ .ok → exec (.expmax pk) s = .next (r.2.reply k r.1))
    ∧ (t.expmaxCtxs k ≠ [] → ¬ defined → exec (.expmax pk) s = .next (t.reply k .illegal))
    ∧ (t.expmaxCtxs k = [] → exec (.expmax pk) s = .next (t.reply k .timeout)))
  ∧ (∀ (s : State) (pk : Packet), s.Arrives (asType 7 pk) →
    let k := asType 7 pk
    let t := (s.arrival k).2
    let r := (t.expsetCtxs k).foldl (State.takeExpset k) (.ok, t)
    (t.expsetCtxs k ≠ [] → r.1 = .ok → exec (.expset pk) s = .next r.2)
    ∧ (t.expsetCtxs k ≠ [] → r.1 ≠ .ok → exec (.expset pk) s = .next (r.2.reply k r.1))
    ∧ (t.expsetCtxs k = [] → exec (.expset pk) s = .next (t.reply k .timeout)))
  ∧ (∀ (s : State) (pk : Packet), s.Arrives (asType 5 pk) →
    let k := asType 5 pk
    let t := (s.arrival k).2
    let cs := t.gatherCtxs k
    (cs = [] → exec (.gather pk) s = .next (t.reply k .illegal))
    ∧ (∀ p c, cs.head? = some (p, c) →
      let num := t.reg .BAT_STEP_NUM p c
      (num < pkStep k → exec (.gather pk) s = .next (t.holdPacket p c k))
      ∧ ((pkStep k < num ∨ (pkStep k = num ∧ t.stepState p c = 0)) → exec (.gather pk) s = .next (t.reply k .timeout))
      ∧ (pkStep k = num → t.stepState p c ≠ 0 → t.gatherWaits cs k = true →
        exec (.gather pk) s = .next ((t.bump .BAT_HANDOVER_WAITS p 0 1).holdPacket p c k))
      ∧ (pkStep k = num → t.stepState p c ≠ 0 → t.gatherWaits cs k = false →
        let r := cs.foldl (State.takeGather k) (.ok, 0, t)
        let u := r.2.2.bump .RED_GATHER_BYTES p 0 r.2.1
        (r.1 = .ok → exec (.gather pk) s = .next (u.gatherCheck (pkJob k)))
        ∧ (r.1 = .veto → exec (.gather pk) s = .next u)
        ∧ (r.1 ≠ .ok → r.1 ≠ .veto → exec (.gather pk) s = .next (u.reply k r.1)))))

/-- Tier 1, R178, R179, R222, R223, R224, R225, R226, R278. KNOT packets that pass the checks of their arrival. A remote addition adds to an owned
knot of its job that lets it, and is answered PROTECTION otherwise. The first SIGNAL of a STEP gives MEMBERS and FLIP_LEAD; each joins the union,
and the last decides COMMIT for a flip FLIP_LEAD picks later; one that differs decides VETO, cause 0x9; a VETO decides VETO, cause 0x6; either is
late after the decision, whose outcome a new member is sent. QUERY is answered with the twin's record. OUTCOME and ANSWER reach the member of their
job in their STEP. -/
def Obligations.CommitPackets : Prop :=
  (∀ (s : State) (pk : Packet), s.Arrives (asKnot 0 pk) →
    let k := asKnot 0 pk
    let t := (s.arrival k).2
    let i := bits (pkArg k) 0 11
    let p := bits (pkArg k) 11 3
    let lets := t.fld KNOT_CFG.OWNED p i = 1 ∧ t.jobOf p (t.fld KNOT_CFG.CTX p i) = pkJob k ∧ t.fld KNOT_CFG.REMOTE p i = 1
    (lets → exec (.remoteKnotAdd pk) s = .next (t.knotAdd p i (bits (pkArg k) 32 32)))
    ∧ (¬ lets → exec (.remoteKnotAdd pk) s = .next (t.reply k .protection)))
  ∧ (∀ (s : State) (pk : Packet), s.Arrives (asKnot 1 pk) →
    let k := asKnot 1 pk
    let t := (s.arrival k).2
    let h := t.homeOf (pkJob k) (pkStep k)
    let who := (pkSrc k, bits (pkArg k) 11 3 * 64 + bits (pkArg k) 0 6)
    let mem := bits (pkArg k) 20 20
    let lead := bits (pkArg k) 40 4
    let same := h.signals = [] ∨ (mem = h.members ∧ lead = h.lead)
    let all := h.signals ++ [who]
    (h.decision = none → who ∉ h.signals → same →
      let h2 := { h with members := mem, lead := lead, signals := all, union := orBytes h.union k.payload }
      (all.length < mem → exec (.signal pk) s = .next (t.setHome h2))
      ∧ (mem ≤ all.length → exec (.signal pk) s = .next (t.decide h2 dCommit (t.pick + max 1 lead) 0)))
    ∧ (h.decision = none → who ∉ h.signals → ¬ same → exec (.signal pk) s = .next (t.decide { h with signals := all } dVeto 0 9))
    ∧ (h.decision = none → who ∈ h.signals → mem = h.members → lead = h.lead → exec (.signal pk) s = .next t)
    ∧ (h.decision = none → who ∈ h.signals → (mem ≠ h.members ∨ lead ≠ h.lead) → exec (.signal pk) s = .next (t.decide h dVeto 0 9))
    ∧ (∀ d, h.decision = some d →
      (¬ same → exec (.signal pk) s = .next (t.lateVeto h.job))
      ∧ (same → who ∈ h.signals → exec (.signal pk) s = .next t)
      ∧ (same → who ∉ h.signals →
        let h2 := { h with members := mem, lead := lead, signals := all }
        (h.sent = true → exec (.signal pk) s = .next ((t.setHome h2).sendOutcome h2 who))
        ∧ (h.sent = false → exec (.signal pk) s = .next (t.setHome h2)))))
  ∧ (∀ (s : State) (pk : Packet), s.Arrives (asKnot 2 pk) →
    let k := asKnot 2 pk
    let t := (s.arrival k).2
    let h := t.homeOf (pkJob k) (pkStep k)
    (h.decision = none → exec (.veto pk) s = .next (t.decide h dVeto 0 6))
    ∧ (∀ d, h.decision = some d → exec (.veto pk) s = .next (t.lateVeto h.job)))
  ∧ (∀ (s : State) (pk : Packet), s.Arrives (asKnot 4 pk) →
    let k := asKnot 4 pk
    let t := (s.arrival k).2
    let out := fun (r : TwinRec) => newPacket (pkJob k) (pkSrc k) 6 (pkStep k) 0 0 0
      (commitArg (bits (pkArg k) 11 3) (bits (pkArg k) 0 6) 5) 0 (outcomeBody r.decision r.flip r.cause r.union)
    (∀ r, t.twinRec (pkJob k) (pkStep k) = some r → exec (.query pk) s = .next (t.sendPacket (out r) 0 0))
    ∧ (t.twinRec (pkJob k) (pkStep k) = none →
      let r : TwinRec := ⟨t.fld SELV_PAIR_CTRL.TWIN 0 0, pkJob k, pkStep k, dAbort, 0, 7, []⟩
      exec (.query pk) s = .next (({ t with twinRecs := t.twinRecs ++ [r] } : State).sendPacket (out r) 0 0)))
  ∧ (∀ (s : State) (pk : Packet) (op : Nat) (cmd : Instr), (op = 3 ∧ cmd = .outcome pk) ∨ (op = 5 ∧ cmd = .answer pk) → s.Arrives (asKnot op pk) →
    let k := asKnot op pk
    let t := (s.arrival k).2
    let c := bits (pkArg k) 0 6
    let p := bits (pkArg k) 11 3
    let dec := pkByte k 8
    let cause := pkByte k 9
    (t.present p c = true → t.jobOf p c = pkJob k → dec ≤ 2 → t.reg .BAT_STEP_NUM p c = pkStep k →
      let st := t.stepState p c
      let why := if op = 5 ∧ dec = dAbort then 7 else if op = 3 ∧ cause ≠ 9 then 6 else if 1 ≤ cause ∧ cause ≤ 9 then cause else 6
      let flip := leNat (k.payload.take 8)
      (dec = dCommit → st = 2 → t.pick < flip → exec cmd s = .next
        ((t.setStep p c { t.stepOf p c with flip := some flip, union := k.payload.drop 32 }).setStepStatus p c 3 0 0))
      ∧ (dec = dCommit → st = 2 → flip ≤ t.pick →
        let u := t.bump .BAT_FLIP_LATE p 0 1
        exec cmd s = .next ((u.setStep p c { u.stepOf p c with flip := some (u.pick + 1), union := k.payload.drop 32 }).setStepStatus p c 3 0 0))
      ∧ (dec = dVeto → (st = 1 ∨ st = 2) → exec cmd s = .next (t.endStep p c .veto why))
      ∧ (dec = dAbort → (st = 1 ∨ st = 2) → exec cmd s = .next (t.endStep p c .aborted why))
      ∧ ((dec = dCommit ∧ st ≠ 2) ∨ (st ≠ 1 ∧ st ≠ 2) → exec cmd s = .next t))
    ∧ (t.present p c = true → t.jobOf p c = pkJob k → dec ≤ 2 → t.reg .BAT_STEP_NUM p c ≠ pkStep k → exec cmd s = .next t)
    ∧ (t.present p c = true → t.jobOf p c = pkJob k → 2 < dec → exec cmd s = .next (t.reply k .illegal))
    ∧ ((t.present p c = false ∨ t.jobOf p c ≠ pkJob k) → exec cmd s = .next (t.reply k .protection)))

/-- Tier 2, R167, R179, R367. A packet of any type that comes from the fabric with a tag that does not verify is discarded without an answer:
nothing changes but WEFT_PORT_AUTH_FAIL of the UP port it came through, whose link owes the credits of its flits. A port that is not UP carries no
packet at all. -/
def Obligations.PacketTagRefused : Prop :=
  ∀ (s : State) (pk : Packet) (port : Fin 16), pk.port = some port →
    ∀ c ∈ [(Instr.statusPacket pk, asType 0 pk), (.reduce pk, asType 1 pk), (.drop pk, asType 2 pk), (.calib pk, asType 3 pk),
      (.expmax pk, asType 4 pk), (.expset pk, asType 7 pk), (.gather pk, asType 5 pk), (.remoteKnotAdd pk, asKnot 0 pk), (.signal pk, asKnot 1 pk),
      (.veto pk, asKnot 2 pk), (.outcome pk, asKnot 3 pk), (.query pk, asKnot 4 pk), (.answer pk, asKnot 5 pk)],
      (pk.tagOk = false → s.linkUp port.val = true →
        exec c.1 s = .next ((s.owe port.val c.2).bump .WEFT_PORT_AUTH_FAIL port.val 0 1))
      ∧ (s.linkUp port.val = false → exec c.1 s = .next s)

/-- Tier 2, R224. A STEP ends once: an OUTCOME or ANSWER whose STEP is not the one its member is in changes nothing. -/
def Obligations.OutcomeOfAnotherStep : Prop :=
  ∀ (s : State) (pk : Packet) (op : Nat) (cmd : Instr), (op = 3 ∧ cmd = .outcome pk) ∨ (op = 5 ∧ cmd = .answer pk) → s.Arrives (asKnot op pk) →
    let k := asKnot op pk
    let t := (s.arrival k).2
    let c := bits (pkArg k) 0 6
    let p := bits (pkArg k) 11 3
    t.present p c = true → t.jobOf p c = pkJob k → pkByte k 8 ≤ 2 → t.reg .BAT_STEP_NUM p c ≠ pkStep k → exec cmd s = .next t

/-- Tier 1, R182, R183, R186, R188, R190, R193, R195, R263, R286, R287. A write of RED_SLOT_CTRL with CMD 0x1 through the BAR of the slot's
partition opens the slot, one with CMD 0x2 releases it; OP is written first where the slot is FREE. A slot opens with its accumulators clear and
enters OPEN; the result of an open that is refused, and of a release of a slot that is OPEN or CLOSING, is in RESULT. One whose ordinals have all
been dropped vetoes, cause 0x3. When a slot's accumulators are clear its held packets are matched, unless its window has closed; when a slot's
contributions are complete and its sum agrees, it is COMPLETE and its exponents go to the contributors; with another sum it has FAILED, with
CHECKSUM, RED_SUM_FAIL, RED_FAULT, alarm class 0x25 and a veto of the step, cause 0x3. A slot that is not complete, or is a calibration slot, has no
sum to check. The held packet that came first of those whose wait is over is matched; one held for more than HOLD_PICKS is answered; a packet of an
operation that nothing has answered is resolved when its reply window ends; a write of SCHED_WIN_CLOSE sets the close pick and opens the window
anew. The order in which held packets are looked at is the model's reading (log entry 74). -/
def Obligations.SlotCommands : Prop :=
  (∀ (s : State) (bar : Bar) (p c : Nat) (slot : Fin 4096) (v : W32), s.function bar = some (p, 0) → s.slotOwner slot.val = some (p, c) →
    let s1 := s.setFld RED_SLOT_CTRL.OP slot.val 0 (bits v.toNat 2 1)
    let free := s.fld RED_SLOT_CTRL.STATE slot.val 0 = 0
    let x := s1.openResult p c slot.val
    let s2 := x.2
    (free → x.1 = .ok →
      let t := slot.val
      let len := s2.fld RED_SLOT_LEN.LEN t 0
      let a := s2.accBlock t 0
      let u := ({ s2 with acc := SMap.clearRange s2.acc (32 * a) (32 * len), accMask := SMap.clearRange s2.accMask a len,
                          accMax := SMap.clearRange s2.accMax a len } : State).setSlot t { clearing := true }
      let drops := u.dropsOf p c (u.reg .RED_SLOT_STEP t 0) (u.fld RED_SLOT_ID.RED_ID t 0)
      let w := ((u.setFld RED_SLOT_CONTRIB.DROPPED t 0 drops.length).slotTo p t 1).setFld RED_SLOT_CTRL.RESULT t 0 0
      let full := drops[w.fld RED_SLOT_CONTRIB.EXPECTED t 0 - 1]?
      (full = none → exec (.slotOpen bar slot v) s = .next w)
      ∧ (∀ d, full = some d → exec (.slotOpen bar slot v) s = .next
        (((w.alarm 0x24).dropFault p d.dev (u.fld RED_SLOT_ID.RED_ID t 0) d.elem (u.reg .RED_SLOT_STEP t 0)).vetoStep p c 3)))
    ∧ (free → x.1 ≠ .ok →
        exec (.slotOpen bar slot v) s = .next (s2.setFld RED_SLOT_CTRL.RESULT slot.val 0 x.1.code))
    ∧ (¬ free → exec (.slotOpen bar slot v) s = .next (s.setFld RED_SLOT_CTRL.RESULT slot.val 0 3))
    ∧ (s.fld RED_SLOT_CTRL.STATE slot.val 0 ∈ [1, 2] →
        exec (.slotRelease bar slot v) s = .next (s.setFld RED_SLOT_CTRL.RESULT slot.val 0 3))
    ∧ (3 ≤ s.fld RED_SLOT_CTRL.STATE slot.val 0 →
        exec (.slotRelease bar slot v) s = .next (((s.slotTo p slot.val 0).setSlot slot.val {}).setFld RED_SLOT_CTRL.RESULT slot.val 0 0))
    ∧ (free → exec (.slotRelease bar slot v) s = .next ((s1.setSlot slot.val {}).setFld RED_SLOT_CTRL.RESULT slot.val 0 0)))
  ∧ (∀ (s : State) (slot : Fin 4096) (p c : Nat), s.slotOwner slot.val = some (p, c) →
    ((s.slot slot.val).clearing = true →
      let s1 := s.setSlot slot.val { s.slot slot.val with clearing := false }
      (s1.windowClosed p slot.val = false → exec (.slotClearComplete slot) s = .next (s1.rematch p c))
      ∧ (s1.windowClosed p slot.val = true → exec (.slotClearComplete slot) s = .next (s1.closeSlot p c slot.val)))
    ∧ ((s.slot slot.val).clearing = false → exec (.slotClearComplete slot) s = .next s)
    ∧ ((s.fld RED_SLOT_CTRL.OP slot.val 0 = 1 ∨ s.slotComplete p c slot.val = false) → exec (.sumCheckComplete slot) s = .next s)
    ∧ (s.fld RED_SLOT_CTRL.OP slot.val 0 = 0 → s.slotComplete p c slot.val = true →
      let t := slot.val
      let red := s.fld RED_SLOT_ID.RED_ID t 0
      let step := s.reg .RED_SLOT_STEP t 0
      let b := s.fld RED_SLOT_BASE.BLOCK t 0
      let len := s.fld RED_SLOT_LEN.LEN t 0
      let a := s.accBlock t 0
      let vals := (List.range (32 * len)).map (fun i =>
        let v := signed 32 (SMap.get 0 s.acc (32 * a + i)).toNat
        if v < 0 then redP - v.natAbs else v.natAbs)
      let maxes := (List.range len).map (fun i => (SMap.get 0 s.accMax (a + i)).toNat)
      (checkSum (s.redH (s.jobOf p c) step red) (32 * b) vals = (s.slot t).sin →
        exec (.sumCheckComplete slot) s = .next (((((s.bump .RED_MAX127 p 0 (maxes.filter (· = 127)).length).slotTo p t 3).setFld
          RED_SLOT_CTRL.RESULT t 0 0).sendExponents p c t 4 (maxes.map expEntry))))
      ∧ (checkSum (s.redH (s.jobOf p c) step red) (32 * b) vals ≠ (s.slot t).sin →
        exec (.sumCheckComplete slot) s = .next ((((((((s.slotTo p t 4).setFld RED_SLOT_CTRL.RESULT t 0 Status.checksum.code).bump
          .RED_SUM_FAIL p 0 1).redFault p Config.deviceId.toNat 2 red 0 b step).logRedFault p Config.deviceId.toNat 2 red 0 b step).alarm
            0x25).vetoStep p c 3)))))
  ∧ ((∀ (s : State) (h : Held), s.heldPackets.find? s.heldDue = some h →
    let t := ({ s with heldPackets := s.heldPackets.erase h } : State)
    (pkType h.pk ≠ 5 → exec .holdRelease s = .next (t.obey h.part h.ctx h.pk (s.verdict h.part h.ctx h.pk (some h.since))))
    ∧ (pkType h.pk = 5 → exec .holdRelease s = .next (t.matchGather h.pk)))
  ∧ (∀ s : State, (∀ h ∈ s.heldPackets, s.heldDue h = false) → exec .holdRelease s = .next s)
  ∧ (∀ (s : State) (n : Nat) (h : Held), s.heldPackets[n]? = some h →
    (RED_POLICY.HOLD_PICKS.of (s.policy h.part h.ctx) < s.pick - h.since →
      exec (.holdTimeout n) s = .next (({ s with heldPackets := s.heldPackets.erase h }).answerHeld h.part h.pk))
    ∧ (s.pick - h.since ≤ RED_POLICY.HOLD_PICKS.of (s.policy h.part h.ctx) → exec (.holdTimeout n) s = .next s))
  ∧ (∀ (s : State) (seq : W64),
    (∀ x, s.sent.find? (fun x => x.seq = seq.toNat && !x.bounced && pkType x.pk ≠ 6) = some x →
      exec (.replyWindowExpiry seq) s = .next { s with sent := s.sent.erase x })
    ∧ ((∀ x ∈ s.sent, x.seq = seq.toNat → x.bounced = true ∨ pkType x.pk = 6) → exec (.replyWindowExpiry seq) s = .next s))
  ∧ (∀ (s : State) (bar : Bar) (p : Nat) (w : Fin 4096) (v : W64), s.function bar = some (p, 0) →
    exec (.windowCloseWrite bar w v) s = .next ((s.setReg .SCHED_WIN_CLOSE p w.val v.toNat).setFld SCHED_WIN_STATUS.CLOSED p w.val 0)))

/-! ### The batten and the commit -/

/-- Tier 1, R203, R205, R207, R226, R230, R343, R346. VALIDATE of an entry with no error takes its descriptor, records its rotation, and makes it
valid with slot 0 in front, slot 1 in back and the last one for the snapshot; in two-slot mode its back slot holds no earlier commit, so ROLLBACK_OK
falls, and a shard's METHOD is NONE; one with an error records it. INVALIDATE takes VALID away while the owner's step is idle and is refused, error
6, while it is open. An entry of no context is not commanded. A shard entry of an OPEN step, not yet updated in it, waits while the contexts that
hold its device copies have no step open, while a pass holds a copy, and while its mirror does not let it be; the last two are counted. Then its
gradients are taken, from its slots (GRAD_SRC 0) or from HBM, and it is updated; a slot that failed vetoes the step with cause 0x3, a failed read
with 0x4, and a gradient that is no finite number is the batten's veto. No other entry is updated. An entry with an error is not taken (log entry
27). -/
def Obligations.BattenEntries : Prop :=
  ((∀ (s : State) (bar : Bar) (p : Nat) (v : W32), s.function bar = some (p, 0) → s.entryOwner p (BAT_REG_CMD.ENTRY.of v.toNat) = none →
    exec (.validate bar v) s = .next s ∧ exec (.invalidate bar v) s = .next s) ∧
  ∀ (s : State) (bar : Bar) (p c : Nat) (v : W32), s.function bar = some (p, 0) → s.entryOwner p (BAT_REG_CMD.ENTRY.of v.toNat) = some c →
    let e := BAT_REG_CMD.ENTRY.of v.toNat
    let t := s.takeEntry p e
    (t.entryError p c e = none →
      let t1 := { t with rots := SMap.set 0 t.rots (cidx p c * 65536 + t.ent BAT_REG_ID.RED_ID p e)
                                  (BitVec.ofNat 32 (t.ent BAT_REG_CTRL.ROT p e + 1)) }
      let t2 := if t1.ent BAT_REG_CTRL.SLOTS p e = 0 then t1.setFld SNAP_CTX_STATUS.ROLLBACK_OK p c 0 else t1
      let t3 := if t2.ent BAT_REG_CTRL.SLOTS p e = 0 && t2.ent BAT_REG_CTRL.KIND p e = 0 then t2.setFld SNAP_ENTRY.METHOD p e 3 else t2
      exec (.validate bar v) s = .next ((t3.setFld BAT_REG_CTRL.VALID p e 1).setReg .BAT_REG_SLOTS p e
        (4 + (if t3.ent BAT_REG_CTRL.SLOTS p e = 1 then 2 else 3) * 16)))
    ∧ (∀ b, t.entryError p c e = some b → exec (.validate bar v) s = .next (s.regError p e b))
    ∧ (s.stepState p c = 0 → exec (.invalidate bar v) s = .next (s.setFld BAT_REG_CTRL.VALID p e 0))
    ∧ (s.stepState p c ≠ 0 → exec (.invalidate bar v) s = .next (s.regError p e 6)))
  ∧ (∀ (s : State) (p : Fin 8) (e : Fin 4096),
    (s.entryOwner p.val e.val = none → exec (.shardUpdate p e) s = .next s)
    ∧ (∀ c, s.entryOwner p.val e.val = some c →
    let due := s.stepState p.val c = 1 ∧ e.val ∈ s.moving p.val c ∧ s.ent BAT_REG_CTRL.KIND p.val e.val = 0
      ∧ e.val ∉ (s.stepOf p.val c).updated
    (¬ due → exec (.shardUpdate p e) s = .next s)
    ∧ (due → (s.copiesReady p.val c e.val).1 = false → exec (.shardUpdate p e) s = .next s)
    ∧ (due → s.copiesReady p.val c e.val = (true, true) → exec (.shardUpdate p e) s = .next (s.waitOnce p.val c e.val false))
    ∧ (due → s.copiesReady p.val c e.val = (true, false) → s.mirrorLets p.val c = false →
        exec (.shardUpdate p e) s = .next (s.waitOnce p.val c e.val true))
    ∧ (due → s.copiesReady p.val c e.val = (true, false) → s.mirrorLets p.val c = true →
      (s.ent BAT_REG_CTRL.GRAD_SRC p.val e.val = 0 →
        (s.slotGrads p.val c e.val = none → exec (.shardUpdate p e) s = .next s)
        ∧ (∀ g t, s.slotGrads p.val c e.val = some (.ok, g, t) → exec (.shardUpdate p e) s = .next (t.updateShard p.val c e.val g))
        ∧ (∀ st g t, s.slotGrads p.val c e.val = some (st, g, t) → st ≠ .ok → exec (.shardUpdate p e) s = .next (t.vetoStep p.val c 3)))
      ∧ (s.ent BAT_REG_CTRL.GRAD_SRC p.val e.val ≠ 0 → ∀ st b t,
        s.hbmRead (.ctx 1 p.val c) (s.ent BAT_REG_GRAD.ADDR p.val e.val) (s.elems p.val e.val * s.gradBytes p.val e.val) = (st, b, t) →
        let l := (List.range (s.elems p.val e.val)).map (localGrad (s.gradBytes p.val e.val) b.toArray)
        (st = .ok → (∀ x ∈ l, x ≠ none) → exec (.shardUpdate p e) s = .next (t.updateShard p.val c e.val (l.filterMap (fun y => y)).toArray))
        ∧ (st = .ok → none ∈ l → exec (.shardUpdate p e) s = .next (t.battenBad p.val c))
        ∧ (st ≠ .ok → exec (.shardUpdate p e) s = .next (t.vetoStep p.val c 4))))))

/-- Tier 1, R220, R221, R223, R226, R231, R235, R450. OPEN in IDLE opens a step of an admitted context that does not generate; COMMIT in OPEN
records the request with RESULT OK; both are refused elsewhere with RESULT ILLEGAL; VETO vetoes with cause 0x1. A context that is not there is not
commanded. While the management controller runs, a 1 in PART_COMMIT_VETO vetoes, cause 0x5, the step of every context of the partition that does not
generate; a 0 does nothing, and neither does a stopped controller. A veto in OPEN ends the step and tells the home; one in SIGNALLED that is the
program's or the management plane's goes to the home alone; in every other state none has an effect. A context that may signal sends SIGNAL to its
home and is SIGNALLED; one that has no outcome DEADLINE picks later asks the home's twin; a twin that has not answered DEADLINE picks after that
leaves it UNDECIDED. Before these picks, and in any other state, nothing changes. -/
def Obligations.StepsAndCommit : Prop :=
  (∀ (s : State) (bar : Bar) (p : Nat) (c : Fin 64) (v : W32), s.function bar = some (p, 0) →
    (s.present p c.val = false → ∀ i ∈ [Instr.stepOpen bar c v, .stepCommit bar c v, .stepVeto bar c v], exec i s = .next s)
    ∧ (s.present p c.val = true →
    (s.admitted p c.val = true → s.stepState p c.val = 0 → s.role p c.val ≠ 1 →
      exec (.stepOpen bar c v) s = .next (s.openStep p c.val))
    ∧ ((s.admitted p c.val = false ∨ s.stepState p c.val ≠ 0 ∨ s.role p c.val = 1) →
      exec (.stepOpen bar c v) s = .next (s.setFld BAT_STEP_STATUS.RESULT p c.val 3))
    ∧ (s.stepState p c.val = 1 →
      exec (.stepCommit bar c v) s = .next
        ((s.setStep p c.val { s.stepOf p c.val with commitReq := true }).setFld BAT_STEP_STATUS.RESULT p c.val 0))
    ∧ (s.stepState p c.val ≠ 1 → exec (.stepCommit bar c v) s = .next (s.setFld BAT_STEP_STATUS.RESULT p c.val 3))
    ∧ exec (.stepVeto bar c v) s = .next (s.vetoStep p c.val 1)))
  ∧ ((∀ (s : State) (p : Fin 8) (v : W32),
    (bit v.toNat 0 = true → s.mgmtStopped = false → exec (.commitVeto p v) s = .next
      (((s.ctxsOfPart p.val).filter (fun c => s.role p.val c ≠ 1)).foldl (fun s c => s.vetoStep p.val c 5) s))
    ∧ ((bit v.toNat 0 = false ∨ s.mgmtStopped = true) → exec (.commitVeto p v) s = .next s))
  ∧ (∀ (s : State) (p c cause : Nat),
    (s.stepState p c = 1 → s.vetoStep p c cause = (s.sendVeto p c cause).endStep p c .veto cause)
    ∧ (s.stepState p c = 2 → cause ∈ [1, 5] → s.vetoStep p c cause = s.sendVeto p c cause)
    ∧ (s.stepState p c = 2 → cause ∉ [1, 5] → s.vetoStep p c cause = s)
    ∧ (s.stepState p c ∉ [1, 2] → s.vetoStep p c cause = s)))
  ∧ (∀ (s : State) (x : CtxId),
    let p := x.part.val
    let c := x.ctx.val
    (s.maySignal p c = true →
      let t := s.sendCommit p c 1 (s.fld BAT_COMMIT_HOME.HOME p c) (s.reg .BAT_STEP_NUM p c)
        (s.fld BAT_COMMIT_CFG.MEMBERS p c * 2 ^ 20 + s.fld BAT_COMMIT_CFG.FLIP_LEAD p c * 2 ^ 40)
        (if s.widenSet p c = [] then [] else bitmap (s.widenSet p c))
      exec (.commitSignal x) s = .next
        ((t.setStep p c { t.stepOf p c with signalPick := t.pick, queryPick := none }).setStepStatus p c 2 0 0))
    ∧ (s.maySignal p c = false → exec (.commitSignal x) s = .next s)
    ∧ (s.stepState p c = 2 → (s.stepOf p c).queryPick = none → (s.stepOf p c).signalPick + s.deadline p c ≤ s.pick →
      exec (.commitDeadline x) s = .next ((s.sendCommit p c 4 (s.fld BAT_COMMIT_HOME.HOME_TWIN p c) (s.reg .BAT_STEP_NUM p c) 0 []).setStep p c
        { s.stepOf p c with queryPick := some s.pick }))
    ∧ (¬ (s.stepState p c = 2 ∧ (s.stepOf p c).queryPick = none ∧ (s.stepOf p c).signalPick + s.deadline p c ≤ s.pick) →
      exec (.commitDeadline x) s = .next s)
    ∧ ((s.stepOf p c).queryPick = none → exec (.queryDeadline x) s = .next s)
    ∧ (∀ q, (s.stepOf p c).queryPick = some q → ¬ (s.stepState p c = 2 ∧ q + s.deadline p c ≤ s.pick) →
      exec (.queryDeadline x) s = .next s)
    ∧ (∀ q, (s.stepOf p c).queryPick = some q → s.stepState p c = 2 → q + s.deadline p c ≤ s.pick →
      exec (.queryDeadline x) s = .next (s.setFld BAT_STEP_STATUS.STATE p c 4).settle))

/-- Tier 2, R222, R223. A twin's record is final: a QUERY that passes its checks, for a STEP with a record, leaves the twin's records as they are,
and one for a STEP without a record adds exactly one, an ABORT with cause 0x7. -/
def Obligations.TwinRecordFinal : Prop :=
  ∀ (s : State) (pk : Packet),
    let k := asKnot 4 pk
    let t := (s.arrival k).2
    s.Arrives k → ∃ u, exec (.query pk) s = .next u
      ∧ ((t.twinRec (pkJob k) (pkStep k)).isSome = true → u.twinRecs = t.twinRecs)
      ∧ (t.twinRec (pkJob k) (pkStep k) = none → u.twinRecs = t.twinRecs
          ++ [⟨t.fld SELV_PAIR_CTRL.TWIN 0 0, pkJob k, pkStep k, dAbort, 0, 7, []⟩])

/-! ### Onaile instructions

Each statement speaks of an instruction that is ready: its program state stands at it, its fetch is answered, its level is 1 and it names no
bit outside its fields (`State.Ready`). `i` is the instruction as its meaning sees it, `u` the state after the fetch, and `landed` is what
follows the effect of every instruction: PC and the instruction number are past it and its context has made progress. That the operand bits
come with the command is the model's choice (log entry 8). -/

/-- Tier 2, R236, R244, R245, R246. For every Onaile instruction that stands at its program state's PC: of a level other than 1, or with a bit set
outside the fields of its row, it completes with LEVEL and has no other effect, and so does one whose operation or sub-code is reserved; a word that
is another instruction's is no case of it. A program state that is free, waits or has met an exception issues nothing, nor does a stopped engine,
nor one whose turn it is not; a fetch that fails gives its status to the instruction. -/
def Obligations.LevelException : Prop :=
  ∀ (s : State) (x : Issue) (g : Prog),
    ∀ c ∈ [(Instr.nopInstr x, rowNopInstr), (.br x, rowBr), (.jmpa x, rowJmpa), (.call x, rowCall), (.loop x, rowLoop), (.waitu x, rowWaitu),
      (.yield x, rowYield), (.endProgram x, rowEndProgram), (.sop x, rowSop), (.sopi x, rowSopi), (.sli x, rowSli), (.sld x, rowSld),
      (.sst x, rowSst), (.scmp x, rowScmp), (.aop x, rowAop), (.aget x, rowAget), (.tld x, rowTld), (.tst x, rowTst), (.tadj x,
      rowTadj), (.sysr x, rowSysr), (.sysw x, rowSysw), (.copy x, rowCopy), (.fillInstr x, rowFillInstr), (.copyobj x, rowCopyobj),
      (.waits x, rowWaits), (.ksigLocal x, rowKsigLocal), (.ksigRemote x, rowKsigRemote), (.kwait x, rowKwait), (.kread x, rowKread),
      (.rsend x, rowRsend), (.rscan x, rowRscan), (.rcalib x, rowRcalib), (.rslotOpen x, rowRslotOpen), (.rslotRelease x,
      rowRslotRelease), (.bstepOpen x, rowBstepOpen), (.bstepCommit x, rowBstepCommit), (.bstepVeto x, rowBstepVeto), (.bstat x,
      rowBstat), (.bcursorReadCommitted x, rowBcursorReadCommitted), (.bcursorReadProvisional x, rowBcursorReadProvisional),
      (.bcursorWrite x, rowBcursorWrite), (.tnow x, rowTnow), (.twaitp x, rowTwaitp), (.tsched x, rowTsched), (.vop x, rowVop), (.vfma
      x, rowVfma), (.vld x, rowVld), (.vst x, rowVst), (.vred x, rowVred), (.vcvt x, rowVcvt), (.vcmp x, rowVcmp), (.vsel x, rowVsel),
      (.vbcast x, rowVbcast), (.vrand x, rowVrand), (.packAct x, rowPackAct), (.packWgtInit x, rowPackWgtInit), (.packWgt x,
      rowPackWgt), (.unpack x, rowUnpack), (.rotate x, rowRotate), (.round x, rowRound), (.fmul x, rowFmul), (.dgrad x, rowDgrad),
      (.wgrad x, rowWgrad), (.matmulBf16 x, rowMatmulBf16)],
      (s.Stands x g (spelled x c.2.opcode) →
        (x.lvl ≠ 1 → exec c.1 s = .next ((s.fetched x g).trapped (issOf x g c.2.opcode) .level))
        ∧ (x.lvl = 1 → c.2.sub x.op.toNat = true → namedOnly x.op.toNat c.2.fields = false →
          exec c.1 s = .next ((s.fetched x g).trapped (issOf x g c.2.opcode) .level))
        ∧ (x.lvl = 1 → c.2.sub x.op.toNat = false → rowOf (spelled x c.2.opcode) = none →
          exec c.1 s = .next ((s.fetched x g).trapped (issOf x g c.2.opcode) .level))
        ∧ (x.lvl = 1 → c.2.sub x.op.toNat = false → (rowOf (spelled x c.2.opcode)).isSome = true → exec c.1 s = .next s))
      ∧ ((∀ h, s.prog (progKey x.part.val x.engine.val x.ps.val) = some h → h.trap.isSome = true ∨ h.wait ≠ .none ∨ s.stopped = true
          ∨ s.due x.part.val x.engine.val x.ps.val = false) → exec c.1 s = .next s)
      ∧ (∀ st w u, s.prog (progKey x.part.val x.engine.val x.ps.val) = some g → g.trap = none → g.wait = .none → s.stopped = false →
        s.due x.part.val x.engine.val x.ps.val = true → s.fetch x.part.val x.engine.val g = (st, w, u) → st ≠ .ok →
        exec c.1 s = .next ((u.fresh.2.turnTo x.part.val x.engine.val x.ps.val).trapped (issOf x g (u.fresh.1 % 256)) st))

/-- Tier 1, R250. NOP only advances, and YIELD gives up its program state's next turn; BR goes to its address + 8 × OFF where bit 0 of P[X] equals
N, and on where it does not; JMPA goes to a place in the beam store or HBM that A[X] names, and is ILLEGAL where A[X] names none; CALL keeps the
address behind it in A[X] and goes; LOOP takes 1 from S[X] and goes unless it has become 0; WAITU and END wait. -/
def Obligations.ControlInstructions : Prop :=
  ∀ (s : State) (x : Issue) (g : Prog),
    (s.Ready x 0x00 [] g → exec (.nopInstr x) s = .next ((s.fetched x g).landed (issOf x g 0) (issOf x g 0).g))
    ∧ (s.Ready x 0x06 [] g → exec (.yield x) s = .next ((s.fetched x g).landed (issOf x g 6) { (issOf x g 6).g with yielded := true }))
    ∧ (s.Ready x 0x01 [(49, 3), (48, 1), (0, 32)] g →
      let i := issOf x g 1
      (i.g.getP (i.f 49 3) % 2 = i.f 48 1 → exec (.br x) s = .next ((s.fetched x g).landed i
        { i.g with pc := (g.pc + 8 - 8 + 8 * unsigned 64 (signed 32 (i.f 0 32))) % 2 ^ 60 }))
      ∧ (i.g.getP (i.f 49 3) % 2 ≠ i.f 48 1 → exec (.br x) s = .next ((s.fetched x g).landed i i.g)))
    ∧ (s.Ready x 0x02 [(48, 4)] g →
      let i := issOf x g 2
      (∀ g2, i.g.jump (i.g.getA (i.f 48 4)) = some g2 → exec (.jmpa x) s = .next ((s.fetched x g).landed i g2))
      ∧ (i.g.jump (i.g.getA (i.f 48 4)) = none → exec (.jmpa x) s = .next ((s.fetched x g).trapped i .illegal)))
    ∧ (s.Ready x 0x03 [(48, 4), (0, 32)] g →
      let i := issOf x g 3
      exec (.call x) s = .next ((s.fetched x g).landed i (i.branch (i.g.setA (i.f 48 4) (i.g.addrOf (g.pc + 8))) (i.f 0 32))))
    ∧ (s.Ready x 0x04 [(47, 5), (0, 32)] g →
      let i := issOf x g 4
      let v := (i.g.getS (i.f 47 5) + 2 ^ 64 - 1) % 2 ^ 64
      (v ≠ 0 → exec (.loop x) s = .next ((s.fetched x g).landed i (i.branch (i.g.setS (i.f 47 5) v) (i.f 0 32))))
      ∧ (v = 0 → exec (.loop x) s = .next ((s.fetched x g).landed i (i.g.setS (i.f 47 5) 0))))
    ∧ (s.Ready x 0x05 [(46, 6)] g →
      let i := issOf x g 5
      exec (.waitu x) s = .next ((s.fetched x g).landed i { i.g with wait := .units (i.f 46 6) }))
    ∧ (s.Ready x 0x07 [(47, 5)] g →
      let i := issOf x g 7
      exec (.endProgram x) s = .next ((s.fetched x g).landed i { i.g with wait := .ending (i.f 47 5) }))

/-- Tier 1, R237, R240, R243, R248, R249, R251. SOP, SOPI, SLI, SCMP, AOP, AGET, TADJ, SYSR and SYSW: the register each writes and its value. A
reserved FUNC, COND or SEL is LEVEL; an AOP of an address register above A15, and a TADJ whose base leaves its field, are ILLEGAL. SLD, SST, TLD and
TST of the own bobbin at A[X] + OFF: 8 bytes of a scalar, 16 of a descriptor, least significant byte first. An address of another tier or not
aligned to the size is ILLEGAL, bytes outside the window are PROTECTION, and while something outstanding touches them the instruction does not
issue. Cycle counts are free values (log entry 19). -/
def Obligations.ScalarInstructions : Prop :=
  (∀ (s : State) (x : Issue) (g : Prog),
    let u := s.fetched x g
    (s.Ready x 0x10 [(47, 5), (42, 5), (37, 5), (32, 5)] g →
      let i := issOf x g 0x10
      (∀ v, Machine.sop (i.f 32 5) (i.g.getS (i.f 42 5)) (i.g.getS (i.f 37 5)) = some v →
        exec (.sop x) s = .next (u.landed i (i.g.setS (i.f 47 5) v)))
      ∧ (0x0E ≤ i.f 32 5 → exec (.sop x) s = .next (u.trapped i .level)))
    ∧ (s.Ready x 0x11 [(47, 5), (42, 5), (32, 5), (0, 32)] g →
      let i := issOf x g 0x11
      (∀ v, Machine.sop (i.f 32 5) (i.g.getS (i.f 42 5)) (unsigned 64 (signed 32 (i.f 0 32))) = some v →
        exec (.sopi x) s = .next (u.landed i (i.g.setS (i.f 47 5) v)))
      ∧ (0x0E ≤ i.f 32 5 → exec (.sopi x) s = .next (u.trapped i .level)))
    ∧ (∀ f a b, f < 0x0E → (Machine.sop f a b).isSome = true)
    ∧ (s.Ready x 0x12 [(47, 5), (46, 1), (0, 32)] g →
      let i := issOf x g 0x12
      (i.f 46 1 = 1 → exec (.sli x) s = .next (u.landed i (i.g.setS (i.f 47 5) (i.g.getS (i.f 47 5) % 2 ^ 32 + i.f 0 32 * 2 ^ 32))))
      ∧ (i.f 46 1 = 0 → exec (.sli x) s = .next (u.landed i (i.g.setS (i.f 47 5) (unsigned 64 (signed 32 (i.f 0 32)))))))
    ∧ (s.Ready x 0x15 [(47, 3), (42, 5), (37, 5), (32, 3)] g →
      let i := issOf x g 0x15
      (∀ b, scond (i.f 32 3) (i.g.getS (i.f 42 5)) (i.g.getS (i.f 37 5)) = some b →
        exec (.scmp x) s = .next (u.landed i (i.g.setP (i.f 47 3) (if b then 2 ^ 64 - 1 else 0))))
      ∧ (6 ≤ i.f 32 3 → exec (.scmp x) s = .next (u.trapped i .level)))
    ∧ (s.Ready x 0x16 [(48, 4), (42, 5), (41, 1), (0, 32)] g →
      let i := issOf x g 0x16
      (i.f 41 1 = 1 → exec (.aop x) s = .next (u.landed i (i.g.setA (i.f 48 4) (addOff (i.g.getS (i.f 42 5)) (i.f 0 32)))))
      ∧ (i.f 41 1 = 0 → i.f 42 5 < 16 →
        exec (.aop x) s = .next (u.landed i (i.g.setA (i.f 48 4) (addOff (i.g.getA (i.f 42 5)) (i.f 0 32)))))
      ∧ (i.f 41 1 = 0 → 16 ≤ i.f 42 5 → exec (.aop x) s = .next (u.trapped i .illegal)))
    ∧ (s.Ready x 0x17 [(47, 5), (43, 4), (0, 32)] g →
      let i := issOf x g 0x17
      exec (.aget x) s = .next (u.landed i (i.g.setS (i.f 47 5) (addOff (i.g.getA (i.f 43 4)) (i.f 0 32)))))
    ∧ (s.Ready x 0x1A [(47, 5), (0, 32)] g →
      let i := issOf x g 0x1A
      let t := (i.g.getT (i.f 47 5)).toNat
      let b : Int := (bits t 0 23 : Int) + signed 32 (i.f 0 32)
      (0 ≤ b → b ≤ 0x7FFFFF → b % 256 = 0 →
        exec (.tadj x) s = .next (u.landed i (i.g.setT (i.f 47 5) (BitVec.ofNat 128 (setBits t 0 23 b.toNat)))))
      ∧ ((b < 0 ∨ 0x7FFFFF < b ∨ b % 256 ≠ 0) → exec (.tadj x) s = .next (u.trapped i .illegal)))
    ∧ (s.Ready x 0x1B [(47, 5), (32, 8)] g →
      let i := issOf x g 0x1B
      (∀ w t, i.f 32 8 ≠ 0x0C → u.sysr i (i.f 32 8) = (some w, t) → exec (.sysr x) s = .next (t.landed i (i.g.setS (i.f 47 5) w)))
      ∧ (i.f 32 8 = 0x0C → exec (.sysr x) s = .next (u.landed i { i.g with wait := .flags (i.f 47 5) }))
      ∧ (0x0E ≤ i.f 32 8 → exec (.sysr x) s = .next (u.trapped i .level)))
    ∧ (s.Ready x 0x1C [(47, 5), (32, 8)] g →
      let j := issOf x g 0x1C
      let v := j.g.getS (j.f 47 5)
      (j.f 32 8 = 0x0B → v % 8 < 5 → exec (.sysw x) s = .next (u.landed j { j.g with fpcr := v % 8 }))
      ∧ (j.f 32 8 = 0x0B → 5 ≤ v % 8 → exec (.sysw x) s = .next (u.trapped j .level))
      ∧ (j.f 32 8 = 0x0C → exec (.sysw x) s = .next (u.landed j { j.g with flags := j.g.flags &&& (0x31F ^^^ (v &&& 0x31F)) }))
      ∧ (j.f 32 8 ≠ 0x0B → j.f 32 8 ≠ 0x0C → exec (.sysw x) s = .next (u.trapped j .level))))
  ∧ (∀ (s : State) (x : Issue) (g : Prog),
    let u := s.fetched x g
    ∀ c ∈ [(Instr.sld x, 0x13, 8, false), (.sst x, 0x14, 8, true), (.tld x, 0x18, 16, false), (.tst x, 0x19, 16, true)],
      s.Ready x c.2.1 [(47, 5), (43, 4), (0, 32)] g →
      let i := issOf x g c.2.1
      let n := c.2.2.1
      ((ownOff i.addr = none ∨ i.addr % n ≠ 0) → exec c.1 s = .next (u.trapped i .illegal))
      ∧ (∀ off, ownOff i.addr = some off → i.addr % n = 0 →
        let run := [(off, n)]
        let busy := u.hazard i.key (if c.2.2.2 then [] else run) (if c.2.2.2 then run else [])
        (u.inWindow i run = false → exec c.1 s = .next (u.trapped i .protection))
        ∧ (u.inWindow i run = true → busy = true → exec c.1 s = .next s)
        ∧ (u.inWindow i run = true → busy = false →
          (c.1 = .sld x → exec c.1 s = .next (u.landed i (i.g.setS (i.f 47 5) (leNat (u.bobRead i off 8)))))
          ∧ (c.1 = .sst x → exec c.1 s = .next ((u.bobWrite i off (leBytes 8 (i.g.getS (i.f 47 5)))).landed i i.g))
          ∧ (c.1 = .tld x → exec c.1 s = .next (u.landed i (i.g.setT (i.f 47 5) (BitVec.ofNat 128 (leNat (u.bobRead i off 16))))))
          ∧ (c.1 = .tst x → exec c.1 s = .next ((u.bobWrite i off (leBytes 16 (i.g.getT (i.f 47 5)).toNat)).landed i i.g)))))

/-- Tier 2, R237. A write of a program's register changes that register alone, cut to its width; S0 and P0 take no write and read as 0 and as all
ones. -/
def Obligations.ProgramRegisters : Prop :=
  ∀ (g : Prog) (d v : Nat),
    (∀ j, (g.setS d v).getS j = if j = 0 then 0 else if j = d then v % 2 ^ 64 else g.getS j)
    ∧ (∀ j, (g.setA d v).getA j = if j = d then v % 2 ^ 64 else g.getA j)
    ∧ (∀ j, (g.setP d v).getP j = if j = 0 then 2 ^ 64 - 1 else if j = d then v % 2 ^ 64 else g.getP j)
    ∧ (∀ (w : BitVec 128) j, (g.setT d w).getT j = if j = d then w else g.getT j)
    ∧ (∃ m, g.setS d v = { g with s := m }) ∧ (∃ m, g.setA d v = { g with a := m }) ∧ (∃ m, g.setP d v = { g with p := m })
    ∧ (∀ w, ∃ m, g.setT d w = { g with t := m })
    ∧ (∀ (f : Nat → Nat) (r j : Nat), j < 64 → (g.setV d f).getV r j = if r = d then f j % 2 ^ 32 else g.getV r j)

/-- Tier 2, R237, R246, R251. The frame of the instructions that write a register. Where one of SOP, SOPI, SLI, AGET, AOP and SCMP leaves its
program state there without an exception, nothing has changed after the fetch but that program state and its context's progress counter; and of the
program state only PC, the instruction number, and the one register its field names. -/
def Obligations.ScalarFrame : Prop :=
  ∀ (s t : State) (x : Issue) (g h : Prog),
    let k := progKey x.part.val x.engine.val x.ps.val
    let u := s.fetched x g
    let d := bits x.op.toNat 47 5
    (∀ c ∈ [(Instr.sop x, 0x10, [(47, 5), (42, 5), (37, 5), (32, 5)]), (.sopi x, 0x11, [(47, 5), (42, 5), (32, 5), (0, 32)]),
        (.sli x, 0x12, [(47, 5), (46, 1), (0, 32)]), (.aget x, 0x17, [(47, 5), (43, 4), (0, 32)])],
      s.Ready x c.2.1 c.2.2 g → exec c.1 s = .next t → t.prog k = some h → h.trap = none →
        t = (u.setProg k h).bump .HANG_CTX_PROGRESS x.part.val g.ctx 1
          ∧ h = { g with pc := g.pc + 8, seq := g.seq + 1, yielded := false, s := h.s } ∧ ∀ j, j ≠ d → h.getS j = g.getS j)
    ∧ (s.Ready x 0x16 [(48, 4), (42, 5), (41, 1), (0, 32)] g → exec (.aop x) s = .next t → t.prog k = some h → h.trap = none →
        t = (u.setProg k h).bump .HANG_CTX_PROGRESS x.part.val g.ctx 1
          ∧ h = { g with pc := g.pc + 8, seq := g.seq + 1, yielded := false, a := h.a } ∧ ∀ j, j ≠ bits x.op.toNat 48 4 → h.getA j = g.getA j)
    ∧ (s.Ready x 0x15 [(47, 3), (42, 5), (37, 5), (32, 3)] g → exec (.scmp x) s = .next t → t.prog k = some h → h.trap = none →
        t = (u.setProg k h).bump .HANG_CTX_PROGRESS x.part.val g.ctx 1
          ∧ h = { g with pc := g.pc + 8, seq := g.seq + 1, yielded := false, p := h.p } ∧ ∀ j, j ≠ bits x.op.toNat 47 3 → h.getP j = g.getP j)

/-- Tier 1, R252, R253, R254, R332, R333. COPY, COPYOBJ and FILL that pass their checks start a shuttle operation and the program goes on; one whose
operation can only fail starts it with its status settled; each waits while its program state has 16 of them, and a check that fails is the
instruction's exception, a reserved HINT LEVEL. WAITS waits. When the shuttle completes, the bytes move and the operation ends with the status of
the move. -/
def Obligations.ShuttleInstructions : Prop :=
  ∀ (s : State) (x : Issue) (g : Prog),
    let u := s.fetched x g
    let start := fun (u : State) (i : Iss) (opc : Nat) (kv : Bool) (w : Work) (fixed : Option Status) =>
      (u.startAsync { id := 0, owner := .prog i.key g.seq i.place opc, part := i.part, ctx := i.ctx, engine := i.engine, work := w,
                      knot := if kv then some (i.f 24 11) else none, status := fixed }).landed i i.g
    (s.Ready x 0x20 [(48, 4), (44, 4), (39, 5), (36, 3), (35, 1), (24, 11)] g →
      let i := issOf x g 0x20
      let d := i.g.getA (i.f 48 4)
      let a := i.g.getA (i.f 44 4)
      let len := i.g.getS (i.f 39 5)
      let check := u.shuttleCheck i [d, a] len (i.f 35 1 = 1) (i.f 24 11)
      (4 ≤ i.f 36 3 → exec (.copy x) s = .next (u.trapped i .level))
      ∧ (i.f 36 3 < 4 → 16 ≤ u.asyncHeld i.key 2 → exec (.copy x) s = .next s)
      ∧ (i.f 36 3 < 4 → u.asyncHeld i.key 2 < 16 → check ≠ .ok → exec (.copy x) s = .next (u.trapped i check))
      ∧ (i.f 36 3 < 4 → u.asyncHeld i.key 2 < 16 → check = .ok →
        (u.objectMode i = false → exec (.copy x) s = .next (start u i 0x20 (i.f 35 1 = 1) (.copy a d len (i.f 36 3)) none))
        ∧ (u.objectMode i = true → (isBoard d || isBoard a) = false →
          exec (.copy x) s = .next (start u i 0x20 (i.f 35 1 = 1) (.copy a d len 0) none))
        ∧ (u.objectMode i = true → (isBoard d || isBoard a) = true →
          exec (.copy x) s = .next (start u i 0x20 (i.f 35 1 = 1) (.copy a d len 0) (some .illegal)))))
    ∧ (s.Ready x 0x22 [(48, 4), (39, 5), (35, 1), (24, 11)] g →
      let i := issOf x g 0x22
      let d := i.g.getA (i.f 48 4)
      let len := i.g.getS (i.f 39 5)
      let check := u.shuttleCheck i [d] len (i.f 35 1 = 1) (i.f 24 11)
      (16 ≤ u.asyncHeld i.key 2 → exec (.fillInstr x) s = .next s)
      ∧ (u.asyncHeld i.key 2 < 16 → check ≠ .ok → exec (.fillInstr x) s = .next (u.trapped i check))
      ∧ (u.asyncHeld i.key 2 < 16 → check = .ok →
        ((u.objectMode i && isBoard d) = false → exec (.fillInstr x) s = .next (start u i 0x22 (i.f 35 1 = 1) (.fill d len) none))
        ∧ ((u.objectMode i && isBoard d) = true →
          exec (.fillInstr x) s = .next (start u i 0x22 (i.f 35 1 = 1) (.fill d len) (some .illegal)))))
    ∧ (s.Ready x 0x21 [(48, 4), (43, 5), (38, 5), (37, 1), (35, 1), (24, 11)] g →
      let i := issOf x g 0x21
      let d := i.g.getA (i.f 48 4)
      let o := i.g.getS (i.f 43 5)
      let len := i.g.getS (i.f 38 5)
      let check := u.shuttleCheck i [d] len (i.f 35 1 = 1) (i.f 24 11)
      let bad := u.objectMode i = false ∨ isBoard d = true ∨ u.fld PART_CTX_OBJECTS.OBJECTS i.part i.ctx ≤ bits o 48 16
      let entry := u.hbmReadAs 1 (.ctx 0 i.part i.ctx) (u.reg .PART_CTX_TABLE i.part i.ctx + 32 * bits o 48 16) 32
      let place := objectPlace (fun k => leNat ((entry.2.1.drop (8 * k)).take 8)) (bits o 0 48) len (i.f 37 1 = 1)
      (16 ≤ u.asyncHeld i.key 2 → exec (.copyobj x) s = .next s)
      ∧ (u.asyncHeld i.key 2 < 16 → check ≠ .ok → exec (.copyobj x) s = .next (u.trapped i check))
      ∧ (u.asyncHeld i.key 2 < 16 → check = .ok →
        (bad → exec (.copyobj x) s = .next (start u i 0x21 (i.f 35 1 = 1) (.fill d len) (some .illegal)))
        ∧ (¬ bad → bits o 0 48 % 32 ≠ 0 → exec (.copyobj x) s = .next (u.trapped i .illegal))
        ∧ (¬ bad → bits o 0 48 % 32 = 0 →
          (entry.1 ≠ .ok → exec (.copyobj x) s = .next (start entry.2.2 i 0x21 (i.f 35 1 = 1) (.fill d len) (some entry.1)))
          ∧ (entry.1 = .ok → place = none →
            exec (.copyobj x) s = .next (start entry.2.2 i 0x21 (i.f 35 1 = 1) (.fill d len) (some .illegal)))
          ∧ (∀ a hint, entry.1 = .ok → place = some (a, hint) → exec (.copyobj x) s = .next (start entry.2.2 i 0x21 (i.f 35 1 = 1)
            (if i.f 37 1 = 1 then .copy d a len hint else .copy a d len hint) none)))))
    ∧ (s.Ready x 0x23 [(0, 5)] g → exec (.waits x) s = .next (u.landed (issOf x g 0x23)
        { (issOf x g 0x23).g with wait := .shuttle ((issOf x g 0x23).f 0 5) }))
    ∧ (∀ (op : Nat) (err : Bool),
      (∀ o, s.async op = some o → ((∃ a d n h, o.work = .copy a d n h) ∨ ∃ d n, o.work = .fill d n) →
        exec (.shuttleComplete op err) s = .next ((s.moveBytes o err).2.endAsync o (s.moveBytes o err).1 true))
      ∧ ((∀ o, s.async op = some o → (∀ a d n h, o.work ≠ .copy a d n h) ∧ ∀ d n, o.work ≠ .fill d n) →
        exec (.shuttleComplete op err) s = .next s))

/-- Tier 1, R236, R243, R247, R248, R251, R258, R260, R261. The vector instructions, where the vector unit takes one more: their result is written,
the flags their elements raise and their status go with them to the unit, where they stay outstanding until they complete. A function that a type
does not have completes with ILLEGAL, and a draw of the GT4's own identifiers or without the job's keys with PROTECTION; a reserved function is
LEVEL; a load or store keeps the rules of the own bobbin, aligned to 64 B. While the unit is full, none issues. That results are written at issue is
the model's choice, and IEEE 754's open choices are free constants (log entries 7, 12 and 32). -/
def Obligations.VectorInstructions : Prop :=
  ∀ (s : State) (x : Issue) (g : Prog),
    let u := s.fetched x g
    let full := u.unitFull (progKey x.part.val x.engine.val x.ps.val) 3 = true
    let fin := fun (u : State) (i : Iss) (r : Prog × FFlags) (reads writes : List (Nat × Nat)) =>
      (u.giveUnit i 3 .ok r.2.toNat reads writes []).landed i r.1
    let fail := fun (i : Iss) (st : Status) => (u.giveUnit i 3 st 0 [] [] []).landed i i.g
    (s.Ready x 0x60 [(47, 5), (42, 5), (37, 5), (29, 3), (27, 2), (22, 5), (21, 1)] g →
      let i := issOf x g 0x60
      let t := i.f 27 2
      (0x13 ≤ i.f 22 5 → exec (.vop x) s = .next (u.trapped i .level))
      ∧ (i.f 22 5 < 0x13 → full → exec (.vop x) s = .next s)
      ∧ (i.f 22 5 < 0x13 → ¬ full → vopTyped (i.f 22 5) t = true →
        exec (.vop x) s = .next (fin u i (i.g.setElems (i.f 47 5) t (i.g.getP (i.f 29 3)) (i.f 21 1 = 1)
          (fun e => vOp t i.rm (i.f 22 5) (i.el t (i.f 42 5) e) (i.el t (i.f 37 5) e))) [] []))
      ∧ (i.f 22 5 < 0x13 → ¬ full → vopTyped (i.f 22 5) t = false → exec (.vop x) s = .next (fail i .illegal)))
    ∧ (s.Ready x 0x61 [(47, 5), (42, 5), (37, 5), (32, 5), (29, 3), (27, 2), (21, 1)] g →
      let i := issOf x g 0x61
      let t := i.f 27 2
      (full → exec (.vfma x) s = .next s)
      ∧ (¬ full → exec (.vfma x) s = .next (fin u i (i.g.setElems (i.f 47 5) t (i.g.getP (i.f 29 3)) (i.f 21 1 = 1)
        (fun e => vFma t i.rm (i.el t (i.f 42 5) e) (i.el t (i.f 37 5) e) (i.el t (i.f 32 5) e))) [] [])))
    ∧ (∀ c ∈ [(Instr.vld x, 0x62, false), (.vst x, 0x63, true)], s.Ready x c.2.1 [(47, 5), (43, 4), (40, 3), (0, 32)] g →
      let i := issOf x g c.2.1
      (full → exec c.1 s = .next s)
      ∧ (¬ full → (ownOff i.addr = none ∨ i.addr % 64 ≠ 0) → exec c.1 s = .next (u.trapped i .illegal))
      ∧ (¬ full → ∀ off, ownOff i.addr = some off → i.addr % 64 = 0 →
        let run := [(off, 256)]
        let busy := u.hazard i.key (if c.2.2 then [] else run) (if c.2.2 then run else [])
        (u.inWindow i run = false → exec c.1 s = .next (u.trapped i .protection))
        ∧ (u.inWindow i run = true → busy = true → exec c.1 s = .next s)
        ∧ (u.inWindow i run = true → busy = false → c.1 = .vld x →
          exec c.1 s = .next (fin u i (i.g.setElems (i.f 47 5) tFP32 (i.g.getP (i.f 40 3)) false
            (fun l => (leNat ((List.range 4).map (fun k => (u.bobRead i off 256).toArray.getD (4 * l + k) 0)), {}))) run []))
        ∧ (u.inWindow i run = true → busy = false → c.1 = .vst x →
          exec c.1 s = .next (fin ((List.range 64).foldl (fun s l =>
            if bit (i.g.getP (i.f 40 3)) l then s.bobWrite i (off + 4 * l) (leBytes 4 (i.g.getV (i.f 47 5) l)) else s) u) i (i.g, {}) [] run))))
    ∧ (s.Ready x 0x64 [(47, 5), (42, 5), (29, 3), (27, 2), (22, 5)] g →
      let i := issOf x g 0x64
      let t := i.f 27 2
      let on := vOn t (i.g.getP (i.f 29 3))
      let el := i.el t (i.f 42 5)
      let done := fun (r : Nat × FFlags) => fin u.fresh.2 i (i.g.setV (i.f 47 5) (vLane t (fun e => if e = 0 then r.1 else 0)), r.2) [] []
      (i.f 22 5 ∉ [0, 5, 6] → exec (.vred x) s = .next (u.trapped i .level))
      ∧ (i.f 22 5 ∈ [0, 5, 6] → full → exec (.vred x) s = .next s)
      ∧ (i.f 22 5 = 0 → ¬ full → exec (.vred x) s = .next (done (vSum t i.rm on el)))
      ∧ (i.f 22 5 = 5 → ¬ full → exec (.vred x) s = .next (done (vExtreme t i.rm false u.fresh.1 on el)))
      ∧ (i.f 22 5 = 6 → ¬ full → exec (.vred x) s = .next (done (vExtreme t i.rm true u.fresh.1 on el))))
    ∧ (s.Ready x 0x65 [(47, 5), (42, 5), (37, 5), (29, 3), (22, 5), (21, 1)] g →
      let i := issOf x g 0x65
      (0x0A ≤ i.f 22 5 → exec (.vcvt x) s = .next (u.trapped i .level))
      ∧ (i.f 22 5 < 0x0A → full → exec (.vcvt x) s = .next s)
      ∧ (i.f 22 5 < 0x0A → ¬ full →
        exec (.vcvt x) s = .next (fin u i (i.g.setElems (i.f 47 5) (cvtType (i.f 22 5)) (i.g.getP (i.f 29 3)) (i.f 21 1 = 1)
          (cvtElem i.rm (i.f 22 5) (i.g.getV (i.f 42 5)) (i.g.getV (i.f 37 5)))) [] [])))
    ∧ (s.Ready x 0x66 [(47, 3), (42, 5), (37, 5), (29, 3), (27, 2), (22, 5)] g →
      let i := issOf x g 0x66
      let t := i.f 27 2
      let absent := t = tBF16 ∨ (t = tINT32 ∧ i.f 22 5 = 6)
      let r := (List.range (vCount t)).map (fun e =>
        if vOn t (i.g.getP (i.f 29 3)) e then vCmp t (i.f 22 5) (i.el t (i.f 42 5) e) (i.el t (i.f 37 5) e) else (false, {}))
      (7 ≤ i.f 22 5 → exec (.vcmp x) s = .next (u.trapped i .level))
      ∧ (i.f 22 5 < 7 → full → exec (.vcmp x) s = .next s)
      ∧ (i.f 22 5 < 7 → ¬ full → absent → exec (.vcmp x) s = .next (fail i .illegal))
      ∧ (i.f 22 5 < 7 → ¬ full → ¬ absent → exec (.vcmp x) s = .next (fin u i (i.g.setP (i.f 47 3)
          ((List.range 64).foldl (fun v j => if (r.getD (vAt t j) (false, {})).1 then v + 2 ^ j else v) 0),
          r.foldl (fun a y => a.or y.2) {}) [] [])))
    ∧ (s.Ready x 0x67 [(47, 5), (42, 5), (37, 5), (29, 3)] g →
      let i := issOf x g 0x67
      (full → exec (.vsel x) s = .next s)
      ∧ (¬ full → exec (.vsel x) s = .next (fin u i (i.g.setV (i.f 47 5)
        (fun j => if bit (i.g.getP (i.f 29 3)) j then i.g.getV (i.f 42 5) j else i.g.getV (i.f 37 5) j), {}) [] [])))
    ∧ (s.Ready x 0x68 [(47, 5), (42, 5)] g →
      let i := issOf x g 0x68
      (full → exec (.vbcast x) s = .next s)
      ∧ (¬ full → exec (.vbcast x) s = .next (fin u i (i.g.setV (i.f 47 5) (fun _ => i.g.getS (i.f 42 5) % 2 ^ 32), {}) [] [])))
    ∧ (s.Ready x 0x69 [(47, 5), (42, 5), (37, 5), (32, 5)] g →
      let i := issOf x g 0x69
      let job := u.jobOf i.part i.ctx
      let id := i.g.getS (i.f 42 5) % 2 ^ 32
      (full → exec (.vrand x) s = .next s)
      ∧ (¬ full → 2 ^ 31 ≤ id → (u.keySet job).isSome = true →
        exec (.vrand x) s = .next (fin u i (i.g.setV (i.f 47 5)
          (fun j => draw (u.seed job) id (i.g.getS (i.f 32 5)) (i.g.getS (i.f 37 5) + j) % 2 ^ 32), {}) [] []))
      ∧ (¬ full → (id < 2 ^ 31 ∨ u.keySet job = none) → exec (.vrand x) s = .next (fail i .protection)))

/-- Tier 1, R220, R221, R226, R231, R262, R277, R280. KSIG adds to a knot that the context owns, or leaves for a remote one that its word names,
ILLEGAL where the word has a reserved bit and PROTECTION without the job's keys; KWAIT waits for a count; KREAD reads one; a knot of another owner
is PROTECTION; a remote addition that no STATUS reply has followed ends OK. BSTEP opens, commits or vetoes and leaves OK or ILLEGAL in S[D]; BSTAT
reads the step's status or waits for the step's end; BCURSOR reads the cursors and writes the provisional one in OPEN alone; TNOW reads the pick,
the time and the lock, and its reserved selector is LEVEL; TWAITP waits for a pick; TSCHED schedules an addition to a knot of its context, and waits
while the partition's table is full. TNOW of the time reads a free moment of the pick (log entry 5). -/
def Obligations.KnotStepAndTimeInstructions : Prop :=
  ((∀ (s : State) (x : Issue) (g : Prog), s.Ready x 0x70 [(47, 5), (46, 1), (41, 5), (30, 11)] g →
    let u := s.fetched x g
    let i := issOf x g 0x70
    let w := i.g.getS (i.f 41 5)
    (i.f 46 1 = 0 →
      (u.ownsKnot i.part i.ctx (i.f 30 11) = true →
        exec (.ksigLocal x) s = .next ((u.knotAdd i.part (i.f 30 11) (i.g.getS (i.f 47 5))).landed i i.g))
      ∧ (u.ownsKnot i.part i.ctx (i.f 30 11) = false → exec (.ksigLocal x) s = .next (u.trapped i .protection)))
    ∧ (i.f 46 1 = 1 →
      ((bits w 14 2 ≠ 0 ∨ bits w 32 32 ≠ 0) → exec (.ksigRemote x) s = .next (u.trapped i .illegal))
      ∧ (bits w 14 2 = 0 → bits w 32 32 = 0 → u.keySet (u.jobOf i.part i.ctx) = none →
        exec (.ksigRemote x) s = .next (u.trapped i .protection))
      ∧ (bits w 14 2 = 0 → bits w 32 32 = 0 → (u.keySet (u.jobOf i.part i.ctx)).isSome = true →
        exec (.ksigRemote x) s = .next
          ((u.sendKnotAdd i.part i.ctx i.engine (.prog i.key g.seq i.place 0x70) w (i.g.getS (i.f 47 5))).landed i i.g))))
  ∧ (∀ (s : State) (x : Issue) (g : Prog),
    let u := s.fetched x g
    let i := issOf x g 0x71
    let j := issOf x g 0x72
    (s.Ready x 0x71 [(47, 5), (30, 11)] g →
      (u.ownsKnot i.part i.ctx (i.f 30 11) = true →
        exec (.kwait x) s = .next (u.landed i { i.g with wait := .knot (i.f 30 11) (i.g.getS (i.f 47 5)) }))
      ∧ (u.ownsKnot i.part i.ctx (i.f 30 11) = false → exec (.kwait x) s = .next (u.trapped i .protection)))
    ∧ (s.Ready x 0x72 [(47, 5), (30, 11)] g →
      (u.ownsKnot j.part j.ctx (j.f 30 11) = true →
        exec (.kread x) s = .next (u.landed j (j.g.setS (j.f 47 5) (u.reg .KNOT_COUNT j.part (j.f 30 11)))))
      ∧ (u.ownsKnot j.part j.ctx (j.f 30 11) = false → exec (.kread x) s = .next (u.trapped j .protection))))
  ∧ (∀ (s : State) (op : Nat),
    (∀ o, s.async op = some o → o.work = .knotAdd → (s.sent.any (fun x => x.op = op && s.loop.contains x.pk)) = false →
      exec (.ksigRemoteComplete op) s = .next (({ s with sent := s.sent.filter (fun x => x.op ≠ op) }).endAsync o .ok false))
    ∧ ((∀ o, s.async op = some o → o.work ≠ .knotAdd ∨ (s.sent.any (fun x => x.op = op && s.loop.contains x.pk)) = true) →
      exec (.ksigRemoteComplete op) s = .next s)))
  ∧ (∀ (s : State) (x : Issue) (g : Prog),
    let u := s.fetched x g
    (s.Ready x 0x90 [(47, 5), (45, 2)] g →
      let i := issOf x g 0x90
      (i.f 45 2 = 1 → exec (.bstepOpen x) s = .next ((u.openCmd i.part i.ctx).2.landed i
        (i.g.setS (i.f 47 5) (u.openCmd i.part i.ctx).1.code)))
      ∧ (i.f 45 2 = 2 → exec (.bstepCommit x) s = .next ((u.commitCmd i.part i.ctx).2.landed i
        (i.g.setS (i.f 47 5) (u.commitCmd i.part i.ctx).1.code)))
      ∧ (i.f 45 2 = 3 → exec (.bstepVeto x) s = .next ((u.vetoStep i.part i.ctx 1).landed i (i.g.setS (i.f 47 5) 0))))
    ∧ (s.Ready x 0x92 [(47, 5), (45, 2)] g →
      let j := issOf x g 0x92
      (j.f 45 2 = 0 → exec (.bcursorReadCommitted x) s = .next (u.landed j
        (j.g.setS (j.f 47 5) (u.reg .BAT_CURSOR_COMMITTED j.part j.ctx))))
      ∧ (j.f 45 2 = 1 → exec (.bcursorReadProvisional x) s = .next (u.landed j
        (j.g.setS (j.f 47 5) (u.reg .BAT_CURSOR_PROV j.part j.ctx))))
      ∧ (j.f 45 2 = 2 → u.stepState j.part j.ctx = 1 → exec (.bcursorWrite x) s = .next
          ((u.setReg .BAT_CURSOR_PROV j.part j.ctx (j.g.getS (j.f 47 5))).landed j j.g))
      ∧ (j.f 45 2 = 2 → u.stepState j.part j.ctx ≠ 1 → exec (.bcursorWrite x) s = .next (u.landed j j.g)))
    ∧ (s.Ready x 0xA0 [(47, 5), (45, 2)] g →
      let n := issOf x g 0xA0
      (n.f 45 2 = 0 → exec (.tnow x) s = .next (u.landed n (n.g.setS (n.f 47 5) u.pick)))
      ∧ (n.f 45 2 = 1 → exec (.tnow x) s = .next (u.now.2.landed n (n.g.setS (n.f 47 5) u.now.1)))
      ∧ (n.f 45 2 = 2 → exec (.tnow x) s = .next (u.landed n (n.g.setS (n.f 47 5) (u.fld TIME_STATUS.FABRIC_LOCK 0 0))))
      ∧ (n.f 45 2 = 3 → exec (.tnow x) s = .next (u.trapped n .level)))
    ∧ (s.Ready x 0x91 [(47, 5), (46, 1)] g →
      let i := issOf x g 0x91
      (i.f 46 1 = 0 → exec (.bstat x) s = .next (u.landed i (i.g.setS (i.f 47 5) (u.reg .BAT_STEP_STATUS i.part i.ctx))))
      ∧ (i.f 46 1 = 1 → exec (.bstat x) s = .next (u.landed i { i.g with wait := .stepState (i.f 47 5) })))
    ∧ (s.Ready x 0xA1 [(47, 5)] g →
      let i := issOf x g 0xA1
      exec (.twaitp x) s = .next (u.landed i { i.g with wait := .pick (i.g.getS (i.f 47 5)) }))
    ∧ (s.Ready x 0xA2 [(47, 5), (42, 5), (30, 11)] g →
      let i := issOf x g 0xA2
      (u.ownsKnot i.part i.ctx (i.f 30 11) = true → u.schedFull i.part = false →
        exec (.tsched x) s = .next (({ u with sched := u.sched ++ [⟨i.part, i.ctx, i.g.getS (i.f 47 5), i.f 30 11,
          i.g.getS (i.f 42 5), none⟩] } : State).landed i i.g))
      ∧ (u.ownsKnot i.part i.ctx (i.f 30 11) = true → u.schedFull i.part = true → exec (.tsched x) s = .next s)
      ∧ (u.ownsKnot i.part i.ctx (i.f 30 11) = false → exec (.tsched x) s = .next (u.trapped i .protection))))

/-- Tier 1, R185, R192, R263, R264. RSEND, RSCAN and RCALIB that pass their checks start their operation, and those that do not raise the check's
exception; a context scans at most 256 pairs; an operation whose packets are all resolved ends; a scan's result is held for the open step; RSLOT
opens and releases a slot of its context with the result in S[D], PROTECTION for another's, and keeps the rules of the own bobbin. -/
def Obligations.ReductionInstructions : Prop :=
  (∀ (s : State) (x : Issue) (g : Prog),
    let u := s.fetched x g
    (s.Ready x 0x80 sendFields g →
      let i := issOf x g 0x80
      (u.redIssue i 0 = .ok → exec (.rsend x) s = .next ((u.rsend i.part i.ctx i.engine i.sendArgs (i.sendOp 0x80)).landed i i.g))
      ∧ (u.redIssue i 0 ≠ .ok → exec (.rsend x) s = .next (u.trapped i (u.redIssue i 0))))
    ∧ (s.Ready x 0x81 sendFields g →
      let i := issOf x g 0x81
      let room := (i.sendArgs.red, i.sendArgs.ord) ∈ u.scanPairs i.part i.ctx ∨ (u.scanPairs i.part i.ctx).length < 256
      (u.redIssue i 1 = .ok → room →
        exec (.rscan x) s = .next ((u.rscan i.part i.ctx i.engine i.sendArgs (i.sendOp 0x81)).landed i i.g))
      ∧ (u.redIssue i 1 = .ok → ¬ room → exec (.rscan x) s = .next (u.trapped i .illegal))
      ∧ (u.redIssue i 1 ≠ .ok → exec (.rscan x) s = .next (u.trapped i (u.redIssue i 1))))
    ∧ (s.Ready x 0x82 sendFields g →
      let i := issOf x g 0x82
      (u.redIssue i 2 = .ok → exec (.rcalib x) s = .next ((u.rcalib i.part i.ctx i.engine i.sendArgs (i.sendOp 0x82)).landed i i.g))
      ∧ (u.redIssue i 2 ≠ .ok → exec (.rcalib x) s = .next (u.trapped i (u.redIssue i 2)))))
  ∧ (∀ (s : State) (op : Nat),
    (s.async op = none → exec (.sendComplete op) s = .next s ∧ exec (.scanComplete op) s = .next s)
    ∧ (∀ o, s.async op = some o →
      (∀ r d, o.work = .send r d →
        ((s.sent.any (fun x => x.op = op)) = true → exec (.sendComplete op) s = .next s)
        ∧ ((s.sent.any (fun x => x.op = op)) = false → o.status.getD .ok ≠ .saturated →
          exec (.sendComplete op) s = .next (s.endAsync o (o.status.getD .ok) true))
        ∧ ((s.sent.any (fun x => x.op = op)) = false → o.status.getD .ok = .saturated →
          exec (.sendComplete op) s = .next ((s.alarm 0x28).endAsync o .saturated true)))
      ∧ ((∀ r d, o.work ≠ .send r d) → exec (.sendComplete op) s = .next s)
      ∧ (∀ r d first, o.work = .scan r d first →
        (o.status = none → s.stepState o.part o.ctx = 1 →
          exec (.scanComplete op) s = .next ((s.setStep o.part o.ctx { s.stepOf o.part o.ctx with
            scans := (s.stepOf o.part o.ctx).scans.filter (fun x => !(x.red = r && x.ord = d)) ++ [⟨r, d, first⟩] }).endAsync o .ok true))
        ∧ ((o.status ≠ none ∨ s.stepState o.part o.ctx ≠ 1) →
          exec (.scanComplete op) s = .next (s.endAsync o (o.status.getD .ok) true)))
      ∧ ((∀ r d first, o.work ≠ .scan r d first) → exec (.scanComplete op) s = .next s)))
  ∧ (∀ (s : State) (x : Issue) (g : Prog), s.Ready x 0x83 rslotFields g →
    let u := s.fetched x g
    let i := issOf x g 0x83
    let t := i.g.getS (i.f 38 5)
    let a := i.g.getA (i.f 43 4)
    (i.f 36 2 = 2 →
      (u.ownsSlot i = true →
        exec (.rslotRelease x) s = .next ((u.releaseSlot i.part t).2.landed i (i.g.setS (i.f 47 5) (u.releaseSlot i.part t).1.code)))
      ∧ (u.ownsSlot i = false → exec (.rslotRelease x) s = .next (u.landed i (i.g.setS (i.f 47 5) Status.protection.code))))
    ∧ (i.f 36 2 = 1 →
      (ownOff a = none → exec (.rslotOpen x) s = .next (u.trapped i .illegal))
      ∧ (∀ off, ownOff a = some off →
        (u.inWindow i [(off, 32)] = false → exec (.rslotOpen x) s = .next (u.trapped i .protection))
        ∧ (u.inWindow i [(off, 32)] = true → u.hazard i.key [(off, 32)] [] = true → exec (.rslotOpen x) s = .next s)
        ∧ (u.inWindow i [(off, 32)] = true → u.hazard i.key [(off, 32)] [] = false →
          (u.ownsSlot i = false → exec (.rslotOpen x) s = .next (u.landed i (i.g.setS (i.f 47 5) Status.protection.code)))
          ∧ (u.ownsSlot i = true →
            let u1 := if u.fld RED_SLOT_CTRL.STATE t 0 = 0 then (slotWords.zipIdx).foldl (fun s w =>
                s.writeMasked w.1 t 0 (leNat (((u.bobRead i off 32).drop (4 * w.2 + 4)).take 4))) u else u
            exec (.rslotOpen x) s = .next ((u1.openSlot i.part i.ctx t).2.landed i
              (i.g.setS (i.f 47 5) (u1.openSlot i.part i.ctx t).1.code)))))))

/-- Tier 1, R54, R74, R75, R83, R97, R124, R236, R243, R247, R257. An instruction of the converter that has room and waits for nothing is taken by
the unit: the program goes on, and the unit holds its work, with what it reads and writes, none of its tiles done; one that fails a check goes to
the unit with that status alone, and so does one whose K source has a faulty group, which is counted and recorded, and a PACK_WGT whose scale plane
holds a not-a-number code. While the unit is full or the ordering rule holds it, it does not issue. That the unit computes from the instruction's
words when a tile completes is the model's choice (log entry 7). -/
def Obligations.ConverterInstructions : Prop :=
  ∀ (s : State) (x : Issue) (g : Prog),
    let u := s.fetched x g
    ∀ c ∈ [(Instr.packAct x, 0x50, CnvOp.packAct), (.packWgtInit x, 0x51, .packWgtInit), (.packWgt x, 0x52, .packWgt),
        (.unpack x, 0x53, .unpack), (.rotate x, 0x54, .rotate), (.round x, 0x55, .round)],
      s.Ready x c.2.1 cnvFields g →
      let i := issOf x g c.2.1
      let op := c.2.2
      let full := u.unitFull i.key 2 = true
      let busy := u.hazard i.key (u.cnvReads i op) (u.cnvWrites i op)
      (full → exec c.1 s = .next s)
      ∧ (¬ full → u.cnvCheck i op ≠ .ok → exec c.1 s = .next ((u.giveUnit i 2 (u.cnvCheck i op) 0 [] [] []).landed i i.g))
      ∧ (¬ full → u.cnvCheck i op = .ok → busy = true → exec c.1 s = .next s)
      ∧ (¬ full → u.cnvCheck i op = .ok → busy = false →
        (∀ t r, u.cnvFaulty i = some (t, r) → exec c.1 s = .next ((u.giveUnit i 2 .illegal 0 [] []
          [.count .CNV_ILLEGAL i.part 0 1,
           .fault i.part (faultWord i.engine r (groupFault t (Desc.of i.cnvArgs.src).fmt r))]).landed i i.g))
        ∧ (u.cnvFaulty i = none → u.planeBad i op = true → exec c.1 s = .next ((u.giveUnit i 2 .illegal 0 [] [] []).landed i i.g))
        ∧ (u.cnvFaulty i = none → u.planeBad i op = false → exec c.1 s = .next ((u.giveConverter i (u.cnvReads i op) (u.cnvWrites i op)
            (u.cnvBypass i op) ⟨op, i.cnvArgs.src, i.cnvArgs.dst, u.cnvFmt i op, i.cnvRot op, u.cnvPlane i op, i.cnvArgs.layer, 0, none⟩).landed
              i i.g)))

/-- Tier 1, R54, R75, R76, R89, R101, R105, R120, R124, R133, R143, R154, R155, R236, R243, R247, R256, R306. FMUL that has room and waits for
nothing is taken by the forward array: its outputs, computed from its activation tiles and its weight tiles (from the reserve where it runs wide),
are written into their places, and what it counts is held until it completes; one that fails a check goes to the unit with that status alone, as
does one that meets a faulty group, ILLEGAL, or fails to read the reserve. While the unit is full or the ordering rule holds it, it does not issue.
DGRAD, WGRAD and MATMUL_BF16 that have room and wait for nothing are taken by the backward arrays: their outputs are written into their places, and
what they count is held until they complete; a WGRAD of a frozen layer writes nothing and is counted; one that fails a check, leaves the window,
meets a faulty group or fails to read the reserve goes to the unit with that status alone. While the unit is full or the ordering rule holds one, it
does not issue. The oldest instruction of a unit completes: the tiles it has left are done, its counts, its flags and its exception are posted, and
the next of the unit starts. A tile of a converter instruction with more than one left completes alone, under the settings latched at its start. One
that meets an uncorrectable error leaves its destination unspecified, is counted in PART_SRAM_UE with alarm class 0x16, and ends with BUS_ERROR. A
unit with none outstanding, and a stopped device, complete nothing. That array results are written at issue and counts posted at completion is the
model's choice (log entry 7). -/
def Obligations.ArrayInstructions : Prop :=
  (∀ (s : State) (x : Issue) (g : Prog), s.Ready x 0x30 fmulFields g →
    let u := s.fetched x g
    let i := issOf x g 0x30
    let full := u.unitFull i.key 0 = true
    let busy := u.hazard i.key (u.fmulReads i) i.fmulWrites
    (full → exec (.fmul x) s = .next s)
    ∧ (¬ full → u.fmulCheck i ≠ .ok → exec (.fmul x) s = .next ((u.giveUnit i 0 (u.fmulCheck i) 0 [] [] []).landed i i.g))
    ∧ (¬ full → u.fmulCheck i = .ok → busy = true → exec (.fmul x) s = .next s)
    ∧ (¬ full → u.fmulCheck i = .ok → busy = false → ∀ st wts t, u.fmulWeights i = (st, wts, t) →
      (st ≠ .ok → exec (.fmul x) s = .next ((t.giveUnit i 0 st 0 [] [] []).landed i i.g))
      ∧ (st = .ok → t.fmulFaulty i (u.fmulWide i) wts = true →
        exec (.fmul x) s = .next ((t.giveUnit i 0 .illegal 0 [] [] []).landed i i.g))
      ∧ (st = .ok → t.fmulFaulty i (u.fmulWide i) wts = false →
        let outs := t.fmulOuts i (u.fmulWide i) wts
        exec (.fmul x) s = .next (((t.writeOut i i.fmulArgs.d (outs.map (fun o => (o.1, o.2.1, o.2.2.1)))).giveUnit i 0 .ok 0
          (u.fmulReads i) i.fmulWrites (u.fmulPosts i outs)).landed i i.g))))
  ∧ (∀ (s : State) (x : Issue) (g : Prog),
    let u := s.fetched x g
    ∀ c ∈ [(Instr.dgrad x, 0x40, BwdOp.dgrad), (.wgrad x, 0x41, .wgrad), (.matmulBf16 x, 0x42, .matmul)],
      s.Ready x c.2.1 (bwdFields c.2.2) g →
      let i := issOf x g c.2.1
      let op := c.2.2
      let full := u.unitFull i.key 1 = true
      let busy := u.hazard i.key (u.bwdReads i op) i.bwdWrites
      let gone := fun (t : State) (st : Status) (posts : List Post) => (t.giveUnit i 1 st 0 [] [] posts).landed i i.g
      (full → exec c.1 s = .next s)
      ∧ (¬ full → u.bwdCheck i op ≠ .ok → exec c.1 s = .next (gone u (u.bwdCheck i op) []))
      ∧ (¬ full → u.bwdCheck i op = .ok → u.bwdSkips i op = true →
        exec c.1 s = .next (gone u .ok [.count .TEN_BWD_WGRAD_SKIPPED i.part 0 1]))
      ∧ (¬ full → u.bwdCheck i op = .ok → u.bwdSkips i op = false →
        (u.inWindow i (u.bwdReads i op ++ i.bwdWrites) = false → exec c.1 s = .next (gone u .protection []))
        ∧ (u.inWindow i (u.bwdReads i op ++ i.bwdWrites) = true → busy = true → exec c.1 s = .next s)
        ∧ (u.inWindow i (u.bwdReads i op ++ i.bwdWrites) = true → busy = false → ∀ st stat t, u.bwdTiles i op = (st, stat, t) →
          let ft := u.bwdFmt i op
          (st ≠ .ok → exec c.1 s = .next (gone t st []))
          ∧ (st = .ok → bwdFaulty ft stat = true → exec c.1 s = .next (gone t .illegal [.count .TEN_BWD_RT_ILLEGAL i.part 0 1]))
          ∧ (st = .ok → bwdFaulty ft stat = false →
            let outs := t.bwdOuts i op ft stat
            exec c.1 s = .next (((t.writeOut i i.bwdArgs.d (outs.map (fun o => (o.1, o.2.1, o.2.2.1)))).giveUnit i 1 .ok 0
              (u.bwdReads i op) i.bwdWrites (u.bwdPosts i op (mxRange ft stat) outs)).landed i i.g)))))
  ∧ (∀ (s : State) (e : EngineId) (un : EngUnit),
    let first := s.oldest (e.part.val * 48 + e.engine.val) un
    (∀ r, (s.stopped = true ∨ first = none) → exec (.unitInstructionComplete e un r) s = .next s)
    ∧ (∀ o, s.stopped = false → first = some o →
      let t := ({ s with unitOps := s.unitOps.erase o } : State).startUnit (o.prog / 8) o.unit
      let w := match o.work with
        | some w => (t.cnvTiles (o.prog / 384) (t.opWindow o) w w.left).2
        | none => t
      let v := o.posts.foldl State.post w
      (v.prog o.prog = none → o.trap.status = .ok → exec (.unitInstructionComplete e un .done) s = .next v.settle)
      ∧ (∀ g, v.prog o.prog = some g → o.trap.status = .ok →
        exec (.unitInstructionComplete e un .done) s = .next (v.setProg o.prog { g with flags := g.flags ||| o.flags }).settle)
      ∧ (∀ g, v.prog o.prog = some g → o.trap.status ≠ .ok →
        exec (.unitInstructionComplete e un .done) s = .next
          ((v.setProg o.prog { g with flags := g.flags ||| o.flags }).raise o.prog o.trap).settle)
      ∧ (v.prog o.prog = none → o.trap.status ≠ .ok → exec (.unitInstructionComplete e un .done) s = .next (v.raise o.prog o.trap).settle)
      ∧ (∀ y, o.work = some y → 1 < y.left →
        let z := s.cnvTile (o.prog / 384) (s.opWindow o) y
        exec (.unitInstructionComplete e un .tile) s = .next
          { z.2 with unitOps := z.2.unitOps.replace o { o with work := some z.1 } })
      ∧ ((∀ y, o.work = some y → y.left ≤ 1) → exec (.unitInstructionComplete e un .tile) s = .next s)
      ∧ exec (.unitInstructionComplete e un .error) s = .next
          (((((t.spoilDest o).bump .PART_SRAM_UE (o.prog / 384) 0 1).alarm 0x16).raise o.prog { o.trap with status := .busError }).settle)))

/-! ### Queues and knots -/

/-- Tier 1, R266, R267, R268, R269, R271, R277. Writes of a queue's registers by a function that sees it: the tail, which wakes the queue unless it
runs beyond the ring (ERR 0x1); the acknowledgement, which may not pass the records written (ERR 0x2); ENABLE and DISABLE, with which the other
fields are taken only while the queue is disabled, VF not beyond 16; and the host's level, of which a virtual function sees its own. A queue that is
not live is only written. A queue, or a level, of another function stays. A ring read of a live queue takes up to eight entries that the tail
offers, the room for records allows, and the ring's end does not cut, from host memory or, SPACE 1, from HBM under the queue's context: they join
the queue in order, each under a number of its own, and FETCHED moves past them. An uncorrectable error puts the queue in ERROR with ERR 0x4, a ring
that its context may not read with ERR 0x3. A queue that is not live, or that has nothing to fetch, stays. A function that sees a knot writes its
count and adds to it; a sum beyond 32 bits stays at the largest count and sets SAT. -/
def Obligations.QueueRegisters : Prop :=
  (∀ (s : State) (bar : Bar) (p f : Nat) (q : Fin 8192) (v : W32), s.function bar = some (p, f) →
    (s.seesQueue p f q.val = true →
      let t := s.setReg .Q_TAIL p q.val v.toNat
      let a := s.setReg .Q_CPL_ACK p q.val v.toNat
      let old := s.reg .Q_CPL_ACK p q.val
      let took := fun (w : Nat) => if s.fld Q_STATUS.STATE p q.val = 0 then s.writeMasked .Q_CFG_CTRL p q.val
        (setBits (if 16 < Q_CFG_CTRL.VF.of w then setBits w 9 5 (bits (s.reg .Q_CFG_CTRL p q.val) 9 5) else w) 0 1
          (b2n (bit (s.reg .Q_CFG_CTRL p q.val) 0))) else s
      (t.queueLive p q.val = true →
        (v.toNat + 2 ^ 32 - t.reg .Q_CPL_ACK p q.val) % 2 ^ 32 ≤ 2 ^ t.fld Q_CFG_CTRL.SIZE_LOG2 p q.val →
        exec (.doorbell bar q v) s = .next (t.refreshQ p q.val))
      ∧ (t.queueLive p q.val = true →
        2 ^ t.fld Q_CFG_CTRL.SIZE_LOG2 p q.val < (v.toNat + 2 ^ 32 - t.reg .Q_CPL_ACK p q.val) % 2 ^ 32 →
        exec (.doorbell bar q v) s = .next (t.queueError p q.val 1))
      ∧ (t.queueLive p q.val = false → exec (.doorbell bar q v) s = .next t)
      ∧ (a.queueLive p q.val = false → exec (.cplAck bar q v) s = .next a)
      ∧ ((v.toNat % 2 ^ 32 + 2 ^ 32 - old) % 2 ^ 32 ≤ ((a.queue p q.val).records + 2 ^ 32 - old) % 2 ^ 32 → exec (.cplAck bar q v) s = .next a)
      ∧ (a.queueLive p q.val = true → ((a.queue p q.val).records + 2 ^ 32 - old) % 2 ^ 32 < (v.toNat % 2 ^ 32 + 2 ^ 32 - old) % 2 ^ 32 →
        exec (.cplAck bar q v) s = .next (a.queueError p q.val 2))
      ∧ (bit (s.reg .Q_CFG_CTRL p q.val) 0 = false →
        exec (.queueEnable bar q v) s = .next ((took (setBits v.toNat 0 1 1)).enableQueue p q.val))
      ∧ (bit (s.reg .Q_CFG_CTRL p q.val) 0 = true → exec (.queueEnable bar q v) s = .next (took (setBits v.toNat 0 1 1)))
      ∧ exec (.queueDisable bar q v) s = .next ((took (setBits v.toNat 0 1 0)).disableQueue p q.val))
    ∧ (s.seesQueue p f q.val = false → ∀ c ∈ [Instr.doorbell bar q v, .cplAck bar q v, .queueEnable bar q v, .queueDisable bar q v],
      exec c s = .next s)
    ∧ (∀ w : Fin 17, ((f = 0 ∨ f = w.val) →
        exec (.hostLevelWrite bar w v) s = .next (s.setReg .Q_HOST_LEVEL p w.val (v.toNat % 16 + min (v.toNat % 16) 1 * 16)))
      ∧ (f ≠ 0 → f ≠ w.val → exec (.hostLevelWrite bar w v) s = .next s)))
  ∧ (∀ (s : State) (x : QueueId),
    let p := x.part.val
    let q := x.q.val
    let size := 2 ^ s.fld Q_CFG_CTRL.SIZE_LOG2 p q
    let i := s.reg .Q_FETCHED p q
    let avail := (s.reg .Q_TAIL p q + 2 ^ 32 - i) % 2 ^ 32
    let n := s.fetchCount p q
    let a := s.reg .Q_CFG_RING p q + 64 * (i % size)
    let joined := fun (t : State) (b : List Byte) =>
      let new : List Cmd := (List.range n).map (fun k => ⟨t.nextOp + k, cmdWords ((b.drop (64 * k)).take 64), false, false, []⟩)
      (({ t.setQueue p q { t.queue p q with cmds := (t.queue p q).cmds ++ new } with nextOp := t.nextOp + n } : State).setReg
        .Q_FETCHED p q (t.reg .Q_FETCHED p q + n)).refreshQ p q
    let r := s.hbmRead (.ctx 6 p (s.fld Q_CFG_CTRL.CTX p q)) a (64 * n)
    (s.queueLive p q = true → avail ≤ size →
      n = min 8 (min avail (min (size - (i + 2 ^ 32 - s.reg .Q_CPL_ACK p q) % 2 ^ 32) (size - i % size))))
    ∧ ((s.queueLive p q = false ∨ size < avail) → n = 0)
    ∧ (n = 0 → ∀ e, exec (.commandFetch x e) s = .next s)
    ∧ (n ≠ 0 →
      (s.fld Q_CFG_CTRL.SPACE p q = 0 → exec (.commandFetch x false) s = .next (joined s (readBytes s.host a (64 * n))))
      ∧ (s.fld Q_CFG_CTRL.SPACE p q ≠ 0 → r.1 = .ok → exec (.commandFetch x false) s = .next (joined r.2.2 r.2.1))
      ∧ (s.fld Q_CFG_CTRL.SPACE p q ≠ 0 → r.1 = .busError → exec (.commandFetch x false) s = .next (r.2.2.queueError p q 4))
      ∧ (s.fld Q_CFG_CTRL.SPACE p q ≠ 0 → r.1 ≠ .ok → r.1 ≠ .busError → exec (.commandFetch x false) s = .next (r.2.2.queueError p q 3))
      ∧ exec (.commandFetch x true) s = .next (s.queueError p q 4)))
  ∧ (∀ (s : State) (bar : Bar) (p f : Nat) (k : Fin 2048) (v : W32), s.function bar = some (p, f) →
    (s.seesKnot p f k.val = true →
      exec (.knotWrite bar k v) s = .next (s.knotTo p k.val v.toNat)
      ∧ (s.reg .KNOT_COUNT p k.val + v.toNat < 2 ^ 32 →
        exec (.knotAdd bar k v) s = .next (s.knotTo p k.val (s.reg .KNOT_COUNT p k.val + v.toNat)))
      ∧ (2 ^ 32 ≤ s.reg .KNOT_COUNT p k.val + v.toNat →
        exec (.knotAdd bar k v) s = .next ((s.setFld KNOT_CFG.SAT p k.val 1).knotTo p k.val (2 ^ 32 - 1))))
    ∧ (s.seesKnot p f k.val = false → exec (.knotWrite bar k v) s = .next s ∧ exec (.knotAdd bar k v) s = .next s))

/-- Tier 1, R229, R230, R271, R272, R274, R275, R280, R285, R395, R414. The next command of a queue starts when it may and its queue is due: NOP
completes; LAUNCH runs a copy on each of its engines and has started when each has one, waits where one has no room, and completes with the first
check that fails; KWAIT completes at its count and waits below it; KSIG adds, or sends its addition to another device; TSIG schedules, and waits
while the list is full; PASS_OPEN, PASS_CLOSE and MSTEP_CLOSE act on passes and the micro-step. Each refusal has its status, LEVEL where the command
is not defined at level 1. No command starts outside Run, or of another type, or where its queue is not due; one of a suspect context waits. A
started LAUNCH of which every copy has ended completes with the status, flags, engine and RESULT of its copies, and adds to its knot where it names
one and has ended well. A queue without one stays. How a LAUNCH waits for room is the model's reading (log entry 25). -/
def Obligations.QueueCommands : Prop :=
  ((∀ (s : State) (x : QueueId) (cmd : Cmd), s.Starts x cmd →
    let p := x.part.val
    let q := x.q.val
    let c := s.queueCtx x
    let v := s.served x
    let u := v.progress p c
    let on := { cmd with started := true, blocked := false }
    let k := bits (cmd.word 0) 32 11
    ((cmd.type = 0 ∨ 6 ≤ cmd.type) → exec (.nopCommand x) s = .next (u.completeBare p q cmd .ok))
    ∧ (cmd.type = 1 → v.launchCheck p c cmd = .ok →
      let r := v.placeCopies p c q cmd
      (r.2.copies.length = (launchEngines r.2).length → exec (.launch x) s = .next
        ((r.1.progress p c).setCmd p q { r.2 with started := true, blocked := false }))
      ∧ (r.2.copies.length ≠ (launchEngines r.2).length → exec (.launch x) s = .next (r.1.blockCmd p q r.2)))
    ∧ (cmd.type = 1 → v.launchCheck p c cmd ≠ .ok → exec (.launch x) s = .next (u.completeBare p q cmd (v.launchCheck p c cmd)))
    ∧ (cmd.type = 2 → u.ownsKnot p c k = true →
      (bits (cmd.word 1) 0 32 ≤ u.reg .KNOT_COUNT p k → exec (.kwaitCommand x) s = .next (u.completeBare p q cmd .ok))
      ∧ (u.reg .KNOT_COUNT p k < bits (cmd.word 1) 0 32 → exec (.kwaitCommand x) s = .next (u.setCmd p q on)))
    ∧ (cmd.type = 2 → u.ownsKnot p c k = false → exec (.kwaitCommand x) s = .next (u.completeBare p q cmd .protection))
    ∧ (cmd.type = 3 → bit (cmd.word 0) 43 = false →
      (u.ownsKnot p c k = true →
        exec (.ksigCommand x) s = .next ((u.knotAdd p k (bits (cmd.word 1) 0 32)).completeBare p q cmd .ok))
      ∧ (u.ownsKnot p c k = false → exec (.ksigCommand x) s = .next (u.completeBare p q cmd .protection)))
    ∧ (cmd.type = 3 → bit (cmd.word 0) 43 = true →
      (bits (cmd.word 2) 14 2 = 0 → bits (cmd.word 2) 32 32 = 0 →
        ((u.keySet (u.jobOf p c)).isSome = true →
          exec (.ksigCommand x) s = .next ((u.setCmd p q on).sendKnotAdd p c 0 (.cmd (qkey p q) cmd.index) (cmd.word 2) (bits (cmd.word 1) 0 32)))
        ∧ (u.keySet (u.jobOf p c) = none → exec (.ksigCommand x) s = .next (u.completeBare p q cmd .protection)))
      ∧ ((bits (cmd.word 2) 14 2 ≠ 0 ∨ bits (cmd.word 2) 32 32 ≠ 0) → exec (.ksigCommand x) s = .next (u.completeBare p q cmd .illegal)))
    ∧ (cmd.type = 4 → v.ownsKnot p c k = true →
      (v.schedFull p = false → exec (.tsig x) s = .next { u.setCmd p q on with
        sched := (u.setCmd p q on).sched ++ [⟨p, c, cmd.word 1, k, bits (cmd.word 2) 0 32, some (q, cmd.index)⟩] })
      ∧ (v.schedFull p = true → exec (.tsig x) s = .next (v.blockCmd p q cmd)))
    ∧ (cmd.type = 4 → v.ownsKnot p c k = false → exec (.tsig x) s = .next (u.completeBare p q cmd .protection))
    ∧ (cmd.type = 5 → cmd.kind ≠ 2 → cmd.kind ≠ 3 →
      ((v.passesOf p c).length < 16 → exec (.passOpen x) s = .next
        (({ u with passes := v.passes ++ [(⟨p, c, q, (v.passSlots p c).1, (v.passSlots p c).2, v.passHalves p c⟩ : Pass)] } : State).completeBare
          p q cmd .ok))
      ∧ (16 ≤ (v.passesOf p c).length → exec (.passOpen x) s = .next (v.blockCmd p q cmd)))
    ∧ (cmd.type = 5 → cmd.kind = 2 →
      (∀ y, v.passes.find? (fun y => y.part = p && y.queue = q) = some y →
        exec (.passClose x) s = .next (({ u with passes := v.passes.erase y } : State).completeBare p q cmd .ok))
      ∧ (v.passes.find? (fun y => y.part = p && y.queue = q) = none → exec (.passClose x) s = .next (u.completeBare p q cmd .illegal)))
    ∧ (cmd.type = 5 → cmd.kind = 3 →
      (u.mayClose p c = true → exec (.mstepClose x) s = .next ((u.closeMicro p c).completeBare p q cmd .ok))
      ∧ (u.mayClose p c = false → exec (.mstepClose x) s = .next (u.completeBare p q cmd .illegal))))
  ∧ (∀ (s : State) (x : QueueId) (o : Option Cmd), s.nextCmd x.part.val x.q.val = o →
    let p := x.part.val
    let q := x.q.val
    let c := s.queueCtx x
    let starts := fun (i : Instr) (is : Cmd → Bool) =>
      ((∀ cmd, o = some cmd → is cmd = false) → exec i s = .next s)
      ∧ ((s.thermtrip = true ∨ s.fld PWR_STATE.CURRENT 0 0 ≠ 0) → exec i s = .next s)
      ∧ (∀ cmd, o = some cmd → is cmd = true → s.thermtrip = false → s.fld PWR_STATE.CURRENT 0 0 = 0 →
        (s.fld HANG_CTX_STATUS.STATE p c = 1 → exec i s = .next (s.blockCmd p q cmd))
        ∧ (s.fld HANG_CTX_STATUS.STATE p c ≠ 1 →
          (s.canStart p q = true → s.queueDue p q = false → exec i s = .next s)
          ∧ ((s.canStart p q = true → s.queueDue p q = true) → cmdLevelOk cmd = false →
            exec i s = .next (((s.served x).progress p c).completeBare p q cmd .level))))
    starts (.nopCommand x) (fun c => c.type = 0 || 6 ≤ c.type) ∧ starts (.launch x) (fun c => c.type = 1)
      ∧ starts (.kwaitCommand x) (fun c => c.type = 2) ∧ starts (.ksigCommand x) (fun c => c.type = 3)
      ∧ starts (.tsig x) (fun c => c.type = 4) ∧ starts (.passOpen x) (fun c => c.type = 5 && c.kind ≠ 2 && c.kind ≠ 3)
      ∧ starts (.passClose x) (fun c => c.type = 5 && c.kind = 2) ∧ starts (.mstepClose x) (fun c => c.type = 5 && c.kind = 3)))
  ∧ (∀ (s : State) (x : QueueId) (o : Option Cmd),
    (s.queue x.part.val x.q.val).cmds.find? (fun c => c.started && c.type = 1 && c.copies.all (fun y => y.ended.isSome)) = o →
    (o = none → exec (.launchComplete x) s = .next s)
    ∧ ∀ cmd, o = some cmd →
      let r := launchResult cmd (cmd.copies.filterMap (fun y => y.ended.map (fun z => (y.engine, z))))
      let t := s.complete x.part.val x.q.val cmd r.1 r.2.1 r.2.2.1 r.2.2.2
      ((bit (cmd.word 0) 44 && r.1.good) = true → exec (.launchComplete x) s = .next (t.knotAdd x.part.val (bits (cmd.word 0) 45 11) 1))
      ∧ ((bit (cmd.word 0) 44 && r.1.good) = false → exec (.launchComplete x) s = .next t))

/-! ### HBM, its cards and the board tier -/

/-- Tier 1, R183, R292, R295, R297, R298, R299, R302, R303, R305, R306, R307, R309, R314, R319. A read or write of HBM by an agent meets the cards
in the state in which the block's bits have turned: a check that fails answers with its status, and an access to a channel or bank that takes none
now, or behind one that waits for the same block, waits. Else a read gives what the blocks hold with their status; a write stores, and a poisoned
write of the host poisons its blocks. The HBM's own events: a lane that has reached LANE_LIMIT corrected symbols within a millisecond is repaired
while a spare is free, else alarm class 0x14 rises once for it; a repair's end counts it and names the lane it stands for, that of a spare which has
failed in its turn too, and serves what waited; a soft repair's end rewrites the row, is entered and counted, and serves; the temperature of a
powered stack is read; the rate of corrected errors is judged. A read of on-chip SRAM meets a block whose failing row and column checks are given:
none is no error; one of each, or one alone, is corrected and counted at its place; more are uncorrectable: counted, with alarm class 0x16, and the
block is lost: a beam line is dropped, a reduction slot fails with kind 0x2, a held packet is answered with TIMEOUT, an instruction cache is emptied
and counts nowhere. The scrubber reads the next block of each pseudo-channel of a channel that no traffic generator, lane replacement or row repair
holds, and goes on; after the last block its pass is counted and the stack's tracker cleared. A traffic generator that passes its check clears its
results and runs; one that does not gives the status of the check, LEVEL, ILLEGAL or PROTECTION; STOP tells a run to stop. A run completes with OK,
with BUS_ERROR and its first failure where it read otherwise than it expected, or with ABORTED where it was stopped; its rows take zero data, and
what waited is served. A run that has not ended stays. The bits that turn come with the command, and what waits is told by this entry (log entries
71, 120, 121 and 125). -/
def Obligations.HbmAccessAndRepair : Prop :=
  (∀ (s : State) (a : Agent) (addr : BitVec 40) (d : Damage),
    let u := s.turn (addr.toNat / 64) d
    (∀ n : Fin 65,
      let x := u.hbmCheck (agentWho a) false addr.toNat n.val
      let got := x.2.hbmTake (agentWho a).req 0 addr.toNat n.val
      (x.1 ≠ .ok → exec (.hbmRead a addr n d) s = .next (x.2.answer a x.1 []))
      ∧ (x.1 = .ok → x.2.mustWait (.read a addr.toNat n.val) = true →
        exec (.hbmRead a addr n d) s = .next { x.2 with hbmWaiting := x.2.hbmWaiting ++ [.read a addr.toNat n.val] })
      ∧ (x.1 = .ok → x.2.mustWait (.read a addr.toNat n.val) = false →
        exec (.hbmRead a addr n d) s = .next (got.2.2.answer a got.1 got.2.1)))
    ∧ (∀ b t,
      let x := u.hbmCheck (agentWho a) true addr.toNat b.length
      let put := x.2.hbmStore (agentWho a).req addr.toNat b
      (x.1 ≠ .ok → exec (.hbmWrite a addr b t d) s = .next (x.2.answer a x.1 []))
      ∧ (x.1 = .ok → x.2.mustWait (.write a addr.toNat b t) = true →
        exec (.hbmWrite a addr b t d) s = .next { x.2 with hbmWaiting := x.2.hbmWaiting ++ [.write a addr.toNat b t] })
      ∧ (x.1 = .ok → x.2.mustWait (.write a addr.toNat b t) = false →
        (t = false → exec (.hbmWrite a addr b t d) s = .next (put.2.answer a put.1 []))
        ∧ (t = true → exec (.hbmWrite a addr b t d) s = .next ((x.2.poisonBlocks (blocksOf addr.toNat b.length)).answer a .ok [])))))
  ∧ ((∀ (s : State) (st : Fin 16) (ch : Fin 32) (lane : Fin 74),
    let limit := s.fld HBM_REPAIR_CFG.LANE_LIMIT st.val 0
    ((limit = 0 ∨ s.laneCount st.val ch.val lane.val < limit ∨ s.laneBusyOn st.val ch.val = true) → exec (.laneRepair st ch lane) s = .next s)
    ∧ (limit ≠ 0 → limit ≤ s.laneCount st.val ch.val lane.val → s.laneBusyOn st.val ch.val = false →
      ((s.freeSpare st.val ch.val).isSome = true →
        exec (.laneRepair st ch lane) s = .next { s with laneBusy := s.laneBusy ++ [(st.val, ch.val, lane.val)] })
      ∧ (s.freeSpare st.val ch.val = none → (st.val, ch.val, lane.val) ∈ s.exhaustedLanes → exec (.laneRepair st ch lane) s = .next s)
      ∧ (s.freeSpare st.val ch.val = none → (st.val, ch.val, lane.val) ∉ s.exhaustedLanes →
        exec (.laneRepair st ch lane) s = .next (({ s with exhaustedLanes := (st.val, ch.val, lane.val) :: s.exhaustedLanes } : State).alarm 0x14))))
  ∧ (∀ (s : State) (st : Fin 16) (ch : Fin 32) (o : Option (Nat × Nat × Nat)),
    s.laneBusy.find? (fun x => x.1 = st.val && x.2.1 = ch.val) = o →
    (o = none → exec (.laneRepairComplete st ch) s = .next s)
    ∧ ∀ x, o = some x →
      let lane := if x.2.2 = 72 then s.fld HBM_CH_STATUS.LANE_A st.val ch.val else if x.2.2 = 73 then s.fld HBM_CH_STATUS.LANE_B st.val ch.val
        else x.2.2
      let t := ({ s with laneBusy := s.laneBusy.erase x } : State).setFld HBM_CH_STATUS.SPARES_USED st.val ch.val
        (s.fld HBM_CH_STATUS.SPARES_USED st.val ch.val + 1)
      (s.freeSpare st.val ch.val = some 72 → exec (.laneRepairComplete st ch) s = .next
        ((t.setFld HBM_CH_STATUS.LANE_A st.val ch.val lane).bump .HBM_LANE_REPAIRS st.val 0 1).serveWaiting)
      ∧ (s.freeSpare st.val ch.val ≠ some 72 → exec (.laneRepairComplete st ch) s = .next
        ((t.setFld HBM_CH_STATUS.LANE_B st.val ch.val lane).bump .HBM_LANE_REPAIRS st.val 0 1).serveWaiting))
  ∧ (∀ (s : State) (st : Fin 16) (o : Option Track),
    s.repairing.find? (fun t => t.stack = st.val && !s.laneBusyOn t.stack t.ch && !s.tgRuns t.stack t.ch) = o →
    (o = none → exec (.softRepairComplete st) s = .next s)
    ∧ ∀ t, o = some t →
      let u := ({ s with repairing := s.repairing.erase t } : State).rewriteRow t
      exec (.softRepairComplete st) s = .next (((u.putRepair t 1).getD u).bump .HBM_SOFT_REPAIRS st.val 0 1).serveWaiting)
  ∧ (∀ (s : State) (st : Fin 16) (t : BitVec 8),
    (s.fld HBM_STACK_STATUS.STATE st.val 0 ≠ 0 → exec (.tempReadout st t) s = .next (s.setFld HBM_STACK_STATUS.TEMP_C st.val 0 t.toNat))
    ∧ (s.fld HBM_STACK_STATUS.STATE st.val 0 = 0 → exec (.tempReadout st t) s = .next s))
  ∧ (∀ (s : State) (st : Fin 16),
    let n := s.reg .HBM_CE st.val 0
    let rise := (n + 2 ^ 64 - (SMap.get 0 s.ceMark st.val).toNat) % 2 ^ 64
    let limit := s.fld HBM_REPAIR_CFG.CE_ALARM st.val 0
    let t := ({ s with ceMark := SMap.set 0 s.ceMark st.val (BitVec.ofNat 64 n) } : State)
    (limit ≠ 0 → limit < rise → exec (.ceRateCheck st) s = .next (t.alarm 0x12))
    ∧ ((limit = 0 ∨ rise ≤ limit) → exec (.ceRateCheck st) s = .next t)))
  ∧ (∀ (s : State) (p : Fin 8) (e : SramError),
    let r := failing e.rows
    let c := failing e.cols
    let count := fun (part creel : RegName) (x : SramPlace) => match x with
      | .bobbin | .addressedBeam | .beamLine _ => s.bump part p.val 0 1
      | .accumulator t | .sideStore t => match s.slotOwner t.val with
        | some y => s.bump creel (s.fld PART_CTX_ACC.DIE y.1 y.2) 0 1
        | none => s
      | .held n => match s.heldPackets[n]? with
        | some h => s.bump creel h.die 0 1
        | none => s
      | .icache _ => s
    let lost := (count .PART_SRAM_UE .DEV_CREEL_SRAM_UE e.place).alarm 0x16
    (r = 0 → c = 0 → exec (.sramSweep p e) s = .next s)
    ∧ (r ≤ 1 → c ≤ 1 → r + c ≠ 0 → exec (.sramSweep p e) s = .next (count .PART_SRAM_CE .DEV_CREEL_SRAM_CE e.place))
    ∧ ((2 ≤ r ∨ 2 ≤ c) →
      ((e.place = .bobbin ∨ e.place = .addressedBeam) → exec (.sramSweep p e) s = .next lost)
      ∧ (∀ l, e.place = .beamLine l → exec (.sramSweep p e) s = .next (lost.dropLine l.toNat))
      ∧ (∀ t, e.place = .accumulator t ∨ e.place = .sideStore t →
        (s.slotOwner t.val = none → exec (.sramSweep p e) s = .next s)
        ∧ ((s.slotOwner t.val).isSome = true → exec (.sramSweep p e) s = .next (lost.failSlot t.val)))
      ∧ (∀ n, e.place = .held n →
        (s.heldPackets[n]? = none → exec (.sramSweep p e) s = .next s)
        ∧ (∀ h, s.heldPackets[n]? = some h →
          exec (.sramSweep p e) s = .next (({ lost with heldPackets := lost.heldPackets.erase h } : State).reply h.pk .timeout)))
      ∧ (∀ n, e.place = .icache n → exec (.sramSweep p e) s = .next (s.emptyCache (p.val * 48 + n.val)))))
  ∧ ((∀ (s : State) (st : Fin 16) (ch : Fin 32) (d0 d1 : Damage),
    let k := st.val * 32 + ch.val
    let i := (SMap.get 0 s.scrubPos k).toNat
    let t := (s.scrubBlock (scrubAddr st.val ch.val 0 i) d0).scrubBlock (scrubAddr st.val ch.val 1 i) d1
    let next := (i + 1) % 2 ^ 24
    let t1 := ({ t with scrubPos := SMap.set 0 t.scrubPos k (BitVec.ofNat 64 next) } : State)
    let t2 := if ch.val = 0 then t1.setReg .HBM_SCRUB_POS st.val 0 (scrubAddr st.val 0 0 next) else t1
    let idle := s.fld HBM_SCRUB_CFG.ENABLE st.val 0 = 0 ∨ 2 ≤ s.fld PWR_STATE.CURRENT 0 0 ∨ s.tgRuns st.val ch.val = true
      ∨ s.laneBusyOn st.val ch.val = true ∨ s.repairing.any (fun t => t.stack = st.val && t.ch = ch.val) = true
    (idle → exec (.scrubRead st ch d0 d1) s = .next s)
    ∧ (¬ idle → next ≠ 0 → exec (.scrubRead st ch d0 d1) s = .next t2)
    ∧ (¬ idle → next = 0 → exec (.scrubRead st ch d0 d1) s = .next
      { t2.bump .HBM_SCRUB_PASSES st.val 0 1 with tracks := t2.tracks.filter (fun t => t.stack ≠ st.val) }))
  ∧ (∀ (s : State) (st : Fin 16) (ch : Fin 32) (v : W32) (w : Nat) (c : Instr),
    (w = setBits v.toNat 0 1 1 ∧ c = .tgStart st ch v) ∨ (w = setBits v.toNat 3 1 1 ∧ c = .tgStop st ch v) →
    let t := s.writeMasked .HBM_TG_CTRL st.val ch.val w
    let ran := ((((t.setReg .HBM_TG_FAIL_LO st.val ch.val 0).setReg .HBM_TG_FAIL_HI st.val ch.val 0).setReg .HBM_TG_ERRORS st.val ch.val 0).setReg
      .HBM_TG_FIRST st.val ch.val 0).setReg .HBM_TG_STATUS st.val ch.val 1
    let after := fun (u : State) => if HBM_TG_CTRL.STOP.of w = 1 ∧ u.tgRuns st.val ch.val = true then
      { u with tgStopped := (st.val, ch.val) :: u.tgStopped } else u
    ((HBM_TG_CTRL.START.of w ≠ 1 ∨ t.tgRuns st.val ch.val = true) → exec c s = .next (after t))
    ∧ (HBM_TG_CTRL.START.of w = 1 → t.tgRuns st.val ch.val = false →
      (t.tgCheck st.val ch.val = .ok →
        exec c s = .next (after { ran with tgStopped := t.tgStopped.filter (fun x => x ≠ (st.val, ch.val)) }))
      ∧ (t.tgCheck st.val ch.val ≠ .ok →
        exec c s = .next (after (t.setFld HBM_TG_STATUS.RESULT st.val ch.val (t.tgCheck st.val ch.val).code)))))
  ∧ (∀ (s : State) (st : Fin 16) (ch : Fin 32) (flips : List Flip),
    (s.tgRuns st.val ch.val = false → exec (.tgRunComplete st ch flips) s = .next s)
    ∧ (s.tgRuns st.val ch.val = true → s.tgDone st.val ch.val s.fresh.1 = none → exec (.tgRunComplete st ch flips) s = .next s)
    ∧ (s.tgRuns st.val ch.val = true → ∀ done, s.tgDone st.val ch.val s.fresh.1 = some done →
      let bad := s.mismatches st.val ch.val done (flips.map Flip.place)
      let first := s.fld HBM_TG_RANGE.FIRST_ROW st.val ch.val
      let u := (s.fresh.2.zeroRows st.val ch.val (s.fld HBM_TG_CTRL.PC_MASK st.val ch.val) first
        (min (s.fld HBM_TG_RANGE.LAST_ROW st.val ch.val) (first + done - 1))).tgFound st.val ch.val bad
      let ended := fun (e : Status) => ((({ u with tgStopped := u.tgStopped.filter (fun x => x ≠ (st.val, ch.val)) } : State).setReg
        .HBM_TG_STATUS st.val ch.val (2 + e.code * 2 ^ 8)).serveWaiting)
      ((st.val, ch.val) ∈ s.tgStopped → exec (.tgRunComplete st ch flips) s = .next (ended .aborted))
      ∧ ((st.val, ch.val) ∉ s.tgStopped → bad = [] → exec (.tgRunComplete st ch flips) s = .next (ended .ok))
      ∧ ((st.val, ch.val) ∉ s.tgStopped → bad ≠ [] → exec (.tgRunComplete st ch flips) s = .next (ended .busError)))))

/-- Tier 1, R316, R317, R324, R325, R326, R327, R328, R330, R400, R433. CARD_FILL of pages that exist and COPY_ACTIVE begin a command on the
partition's shadow bank and are refused while one runs; at its end the shadow cards hold the value, FILLED counts the fill and BAD says that it
overlaps another, or they hold the active ones, FILLED is 0 and BAD clear, and STATE returns to 0. Without a command there is no end. The board
tier: the end of an enabled port's training, with one or two expanders, a retraining counted with alarm class 0x0F; the interleave map, whose build
needs one, two or four UP ports alike and whose removal needs every board card 0; a card write, whose two cards each keep their twelve bits and
whose change between two jobs is refused and counted; the failure of a mapped port, alarm class 0x10; and a read that is not answered, which ends
its copy. Which refusals keep the map is the model's reading (log entry 124). -/
def Obligations.CardsAndBoard : Prop :=
  ((∀ (s : State) (p : Fin 8) (v : W32),
    let first := s.fld PART_CARD_FIRST.PAGE p.val 0
    let n := s.fld PART_CARD_COUNT.PAGES p.val 0
    let begun := fun cmd => ({ s.setFld PART_CARD_CMD.STATE p.val 0 1 with
      cardOps := SMap.put s.cardOps p.val (cmd, first, n, s.fld PART_CARD_VALUE.CARD p.val 0) } : State)
    (s.fld PART_CARD_CMD.STATE p.val 0 ≠ 1 → exec (.copyActive p v) s = .next (begun 2)
      ∧ (n ≠ 0 → first + n ≤ 2 ^ 21 → exec (.cardFill p v) s = .next (begun 1))
      ∧ ((n = 0 ∨ 2 ^ 21 < first + n) → exec (.cardFill p v) s = .next (s.setFld PART_CARD_CMD.RESULT p.val 0 Status.illegal.code)))
    ∧ (s.fld PART_CARD_CMD.STATE p.val 0 = 1 → ∀ c ∈ [Instr.cardFill p v, .copyActive p v],
      exec c s = .next (s.setFld PART_CARD_CMD.RESULT p.val 0 Status.illegal.code)))
  ∧ (∀ (s : State) (p : Fin 8),
    (SMap.find s.cardOps p.val = none → exec (.cardCommandComplete p) s = .next s)
    ∧ ∀ cmd first n card, SMap.find s.cardOps p.val = some (cmd, first, n, card) →
      let t := (({ s with cardOps := SMap.erase s.cardOps p.val } : State).setFld PART_CARD_CMD.STATE p.val 0 0).setFld PART_CARD_CMD.RESULT
        p.val 0 0
      let u := (t.fillCards (1 - s.cardBank p.val) p.val first n (fun _ => card)).bumpFld TBL_SWITCH_STATUS.FILLED (8 + p.val) 0 1
      let covered := t.fills.any (fun x => x.1 = p.val && x.2.1 < first + n && first < x.2.1 + x.2.2)
      let bad := u.setFld TBL_SWITCH_STATUS.BAD (8 + p.val) 0 1
      (cmd = 1 → covered = false → exec (.cardCommandComplete p) s = .next { u with fills := u.fills ++ [(p.val, first, n)] })
      ∧ (cmd = 1 → covered = true → exec (.cardCommandComplete p) s = .next { bad with fills := bad.fills ++ [(p.val, first, n)] })
      ∧ (cmd ≠ 1 → exec (.cardCommandComplete p) s = .next
        ((({ t with cards := t.copyCards (1 - s.cardBank p.val) p.val, fills := t.fills.filter (fun x => x.1 ≠ p.val) } : State).setFld
          TBL_SWITCH_STATUS.FILLED (8 + p.val) 0 0).setFld TBL_SWITCH_STATUS.BAD (8 + p.val) 0 0))))
  ∧ ((∀ (s : State) (n : Fin 4),
    let t := if s.fld BTIER_PORT_STATUS.STATE n.val 0 = 2 then (s.bump .BTIER_PORT_RETRAINS n.val 0 1).alarm 0x0F else s
    let two := fun (u : State) (cap1 : Option (BitVec 16)) => u.fld BTIER_PORT_CTRL.BIFUR n.val 0 = 1 ∧ cap1.isSome = true
    ((s.fld BTIER_PORT_CTRL.ENABLE n.val 0 = 0 ∨ bit s.heldPorts (16 + n.val) = true) → ∀ r, exec (.btierPortTraining n r) s = .next s)
    ∧ (s.fld BTIER_PORT_CTRL.ENABLE n.val 0 ≠ 0 → bit s.heldPorts (16 + n.val) = false →
      exec (.btierPortTraining n .refused) s = .next ((t.setReg .BTIER_PORT_STATUS n.val 0 3).alarm 0x0D)
      ∧ (n.val ∉ t.mapPorts → exec (.btierPortTraining n .failed) s = .next (t.setReg .BTIER_PORT_STATUS n.val 0 4))
      ∧ (n.val ∈ t.mapPorts → exec (.btierPortTraining n .failed) s = .next ((t.setReg .BTIER_PORT_STATUS n.val 0 4).alarm 0x10))
      ∧ ∀ rate cap0 cap1,
        (¬ two t cap1 → exec (.btierPortTraining n (.up rate cap0 cap1)) s = .next
          ((t.setReg .BTIER_PORT_STATUS n.val 0 (2 + rate.val * 2 ^ 3 + 2 ^ 5)).setReg .BTIER_PORT_CAP n.val 0 cap0.toNat))
        ∧ (∀ c, cap1 = some c → two t cap1 → exec (.btierPortTraining n (.up rate cap0 cap1)) s = .next
          ((t.setReg .BTIER_PORT_STATUS n.val 0 (2 + rate.val * 2 ^ 3 + 2 * 2 ^ 5)).setReg .BTIER_PORT_CAP n.val 0
            (cap0.toNat + c.toNat * 2 ^ 16)))))
  ∧ (∀ (s : State) (v : W32),
    let ps := s.upPorts
    let e := s.fld BTIER_PORT_STATUS.EXPS (ps.getD 0 0) 0
    let alike := (ps.all (fun n => s.fld BTIER_PORT_STATUS.EXPS n 0 = e)) = true
    (ps.length ∈ [1, 2, 4] → alike → exec (.mapBuild v) s = .next { (s.setReg .BTIER_MAP 0 0 (1 + ps.length * 2 ^ 8 + e * 2 ^ 12)).setReg
        .BTIER_MAP_SIZE 0 0 (ps.length * e * (ps.flatMap s.expCaps).foldl min 2048) with mapPorts := ps })
    ∧ ((ps.length ∉ [1, 2, 4] ∨ ¬ alike) → exec (.mapBuild v) s = .next (s.setFld BTIER_MAP.RESULT 0 0 Status.illegal.code))
    ∧ ((∀ i < 4096, s.reg .BTIER_CARD i 0 = 0) →
      exec (.mapDisable v) s = .next { (s.setReg .BTIER_MAP 0 0 0).setReg .BTIER_MAP_SIZE 0 0 0 with mapPorts := [] })
    ∧ (∀ i < 4096, s.reg .BTIER_CARD i 0 ≠ 0 → exec (.mapDisable v) s = .next (s.setFld BTIER_MAP.RESULT 0 0 Status.illegal.code)))
  ∧ (∀ (s : State) (i : Fin 4096) (v : W32),
    let card := fun (t : State) (f : Field) (w : Nat) =>
      if bits (t.fld f i.val 0) 0 9 ≠ 0 ∧ bits w 0 9 ≠ 0 ∧ bits (t.fld f i.val 0) 0 9 ≠ bits w 0 9 then t.bump .BTIER_CARD_REFUSED 0 0 1
      else t.setFld f i.val 0 w
    exec (.btierCardWrite i v) s = .next (card (card s BTIER_CARD.EVEN (bits v.toNat 0 12)) BTIER_CARD.ODD (bits v.toNat 16 12)))
  ∧ (∀ (s : State) (n : Fin 4),
    (n.val ∈ s.mapPorts → exec (.btierPortFail n) s = .next ((s.setFld BTIER_PORT_STATUS.STATE n.val 0 4).alarm 0x10))
    ∧ (n.val ∉ s.mapPorts → exec (.btierPortFail n) s = .next (s.setFld BTIER_PORT_STATUS.STATE n.val 0 4)))
  ∧ (∀ (s : State) (op : Nat) (n : Fin 4),
    (∀ (o : AsyncOp) (src dst len h a : Nat), s.async op = some o → o.work = .copy src dst len h → locOf o.engine src = .board a →
      let r := s.moveBytes o true (some n.val)
      exec (.btierReadTimeout op n) s = .next (r.2.endAsync o r.1 true))
    ∧ ((∀ (o : AsyncOp) (src dst len h a : Nat), s.async op = some o → o.work = .copy src dst len h → locOf o.engine src ≠ .board a) →
      exec (.btierReadTimeout op n) s = .next s)))

/-! ### The selvage and snapshots -/

/-- Tier 1, R336, R340, R341, R342, R348, R364. A pairing request sends the device's message; without a link or without the twin's message it
negotiates, one whose message passes the checks makes the pair, and one that fails one is refused with it. A HEARTBEAT leaves while the link is up;
one that arrives under the pair key and verifies leaves the twin's flags, one not of level 1 or ill formed is answered LEVEL or ILLEGAL, any other
is dropped. A PAIRED device whose twin falls silent loses it; while the twin is ELEVATED the alarm rises. The layout of the pair message and the
handshake are the model's choice (log entries 33, 35 and 106). -/
def Obligations.PairingAndHeartbeats : Prop :=
  (∀ (s : State) (v : W32) (msg : Option PairMsg),
    let t := (s.setFld SELV_PAIR_CTRL.OVERRIDE 0 0 (bits v.toNat 1 1)).sendPair
    (t.linkUp 16 = false → exec (.pairAdmit v msg) s = .next (t.setFld SELV_PAIR_CTRL.STATE 0 0 1))
    ∧ (t.linkUp 16 = true → exec (.pairAdmit v none) s = .next (t.setFld SELV_PAIR_CTRL.STATE 0 0 1))
    ∧ (∀ m, msg = some m → t.linkUp 16 = true → t.pairCheck m ≠ .ok → exec (.pairAdmit v msg) s = .next (t.pairTo 3 (t.pairCheck m)))
    ∧ (∀ m d a feeds, msg = some m → t.linkUp 16 = true → t.pairCheck m = .ok → t.tabnex = some d → m.desc = some (a, feeds) →
      exec (.pairAdmit v msg) s = .next (t.pairUp m d feeds)))
  ∧ (∀ s : State,
    (s.linkUp 16 = true → exec .heartbeatSend s = .next
      (s.now.2.sendSelvage 0 0 0 0 0 0 (leBytes 8 s.now.1 ++ leBytes 1 s.now.2.beatFlags ++ List.replicate 23 0)))
    ∧ (s.linkUp 16 = false → exec .heartbeatSend s = .next s))
  ∧ (∀ (s : State) (pk : Packet),
    let k := asType 0 pk
    ((k.tagOk = false ∨ s.pairKey = none) → exec (.heartbeat pk) s = .next s)
    ∧ (k.tagOk = true → s.pairKey.isSome = true →
      (skLevelOk k = false → exec (.heartbeat pk) s = .next (s.ack k .level))
      ∧ (skLevelOk k = true → skFormOk k = false → exec (.heartbeat pk) s = .next (s.ack k .illegal))
      ∧ (skLevelOk k = true → skFormOk k = true →
        exec (.heartbeat pk) s = .next { s.bump .SELV_RX_BYTES 0 0 32 with twinFlags := pkByte pk 8 })))
  ∧ (∀ s : State, (s.paired = true → exec .twinLoss s = .next s.twinLost) ∧ (s.paired = false → exec .twinLoss s = .next s)
    ∧ (s.paired = true → bit s.twinFlags 0 = true → exec .twinElevated s = .next (s.alarm 0x18))
    ∧ ((s.paired = false ∨ bit s.twinFlags 0 = false) → exec .twinElevated s = .next s))

/-- Tier 1, R26, R222, R223, R340, R345, R346, R347, R348, R350, R366, R399. A selvage packet that passes its checks: MIRROR, DELTA, RECORD and
POINT for the context that mirrors their sender's, PROTECTION where there is none; a MIRROR and its side record are stored, a DELTA goes to a free
place or is ILLEGAL without one, a RECORD's bytes are stored, a POINT moves the mirror point where the bytes that came are those it names; DECISION
to the twin's record; ACK to the packet it answers; FLUSH folds every mirrored context of its job. A packet whose tag fails is dropped; LEVEL,
PROTECTION and ILLEGAL answer one that fails the later checks. An ACK is matched by its ARG and job to the packet that it answers: one to a DECISION
goes to the home's record; one of OK to a POINT moves SNAP_TX_POINT, one of ILLEGAL streams the commit again in full; an ILLEGAL to another packet
marks its entry, which is then streamed in full, with alarm class 0x1A. An ACK to no packet changes nothing. A mirrored context folds when its
interval is over: its deltas up to the commit before the mirror point go into its image in ascending order, and the fold is counted; the risk
estimator decays by one and what follows from its value is done, unless the management controller has stopped. Answers without a peer context and
the bound of a FLUSH are the model's reading (log entries 37 and 39). -/
def Obligations.SelvagePackets : Prop :=
  ((∀ (s t : State) (pk : Packet),
    (∀ p c, t.peerOf (asType 1 pk) = some (p, c) → s.SelvageIn (asType 1 pk) t →
      let k := asType 1 pk
      let base := t.mirrorSlot p c (skCommit k % 2)
      let x := t.hbmWrite (.job 4 (pkJob k)) (base + skOffset k) (t.stored k).1
      let y := x.2.hbmWrite (.job 4 (pkJob k)) (x.2.sideAt p c base (skOffset k) 8192) (t.stored k).2
      (x.1 = .ok → y.1 = .ok → exec (.mirror pk) s = .next (y.2.countRx p c (skCommit k) k.payload.length))
      ∧ (x.1 = .ok → y.1 ≠ .ok → exec (.mirror pk) s = .next (y.2.ack k y.1))
      ∧ (x.1 ≠ .ok → exec (.mirror pk) s = .next (x.2.ack k x.1)))
    ∧ (∀ p c, t.peerOf (asType 2 pk) = some (p, c) → s.SelvageIn (asType 2 pk) t →
      let k := asType 2 pk
      (t.deltaFree p c = none → exec (.delta pk) s = .next (t.ack k .illegal))
      ∧ ∀ i, t.deltaFree p c = some i →
        let x := t.hbmWrite (.job 4 (pkJob k)) (t.reg .SNAP_DELTA_BASE p c + 4224 * i) (t.deltaCell k)
        let u := ({ x.2 with deltas := x.2.deltas ++ [(⟨p, c, i, skCommit k, skOffset k⟩ : Delta)] } : State).countRx p c (skCommit k)
          k.payload.length
        (x.1 = .ok → (x.2.deltaFull p c = true ∨ u.deltaFull p c = false) → exec (.delta pk) s = .next u)
        ∧ (x.1 = .ok → x.2.deltaFull p c = false → u.deltaFull p c = true → exec (.delta pk) s = .next (u.fold p c (2 ^ 64 - 1)))
        ∧ (x.1 ≠ .ok → exec (.delta pk) s = .next (x.2.ack k x.1)))
    ∧ (∀ p c, t.peerOf (asType 4 pk) = some (p, c) → s.SelvageIn (asType 4 pk) t →
      let k := asType 4 pk
      let x := t.hbmWrite (.job 4 (pkJob k)) (t.recordAt p c (skCommit k) + skOffset k) (t.stored k).1
      (x.1 = .ok → exec (.record pk) s = .next (({ x.2 with
        recSides := SMap.set [] x.2.recSides (recSideKey p c (skCommit k) (skOffset k)) (t.stored k).2 } : State).countRx p c (skCommit k)
          k.payload.length))
      ∧ (x.1 ≠ .ok → exec (.record pk) s = .next (x.2.ack k x.1)))
    ∧ (∀ p c, t.peerOf (asType 3 pk) = some (p, c) → s.SelvageIn (asType 3 pk) t →
        let n := SMap.get (0, 0) t.rxStream (cidx p c)
        let u := ({ t with rxStream := SMap.set (0, 0) t.rxStream (cidx p c) (0, 0) } : State)
        ((if n.1 = skCommit (asType 3 pk) then n.2 else 0) = pkArg pk →
          exec (.point pk) s = .next ((u.setReg .SNAP_RX_POINT p c (skCommit (asType 3 pk))).ack (asType 3 pk) .ok))
        ∧ ((if n.1 = skCommit (asType 3 pk) then n.2 else 0) ≠ pkArg pk → exec (.point pk) s = .next (u.ack (asType 3 pk) .illegal)))
    ∧ (∀ (n : Nat) (c : Instr), (n, c) ∈ [(1, Instr.mirror pk), (2, .delta pk), (3, .point pk), (4, .record pk)] →
      t.peerOf (asType n pk) = none → s.SelvageIn (asType n pk) t → exec c s = .next (t.ack (asType n pk) .protection))
    ∧ (s.SelvageIn (asType 5 pk) t →
      let k := asType 5 pk
      (∀ r, t.twinRec (pkJob k) (pkArg k) = some r →
        ((r.decision = dAbort ∧ pkByte k 8 ≠ dAbort) → exec (.decision pk) s = .next (t.ack k .illegal))
        ∧ (¬ (r.decision = dAbort ∧ pkByte k 8 ≠ dAbort) → exec (.decision pk) s = .next (t.ack k .ok)))
      ∧ (t.twinRec (pkJob k) (pkArg k) = none → exec (.decision pk) s = .next (({ t with twinRecs := t.twinRecs ++
        [(⟨pkSrc k, pkJob k, pkArg k, pkByte k 8, leNat (k.payload.take 8), pkByte k 9, k.payload.drop 32⟩ : TwinRec)] } : State).ack k .ok)))
    ∧ (s.SelvageIn (asType 6 pk) t → exec (.ack pk) s = .next (t.takeAck (asType 6 pk)))
    ∧ (s.SelvageIn (asType 7 pk) t → exec (.flush pk) s = .next
        (((t.ctxsOfJob (pkJob (asType 7 pk))).filter (fun c => t.fld SNAP_CTX_CFG.MIRROR c.1 c.2 = 1)).foldl
          (fun s c => s.fold c.1 c.2 (pkArg pk)) t)))
  ∧ (∀ (s : State) (pk : Packet) (n : Nat) (c : Instr),
    (n, c) ∈ [(1, Instr.mirror pk), (2, .delta pk), (3, .point pk), (4, .record pk), (5, .decision pk), (6, .ack pk), (7, .flush pk)] →
    let k := asType n pk
    let u := (s.tagCheck (2 ^ 20) k).2
    let t := u.bump .SELV_RX_BYTES 0 0 k.payload.length
    ((s.tagCheck (2 ^ 20) k).1 = false → exec c s = .next u)
    ∧ ((s.tagCheck (2 ^ 20) k).1 = true →
      (skLevelOk k = false → exec c s = .next (t.ack k .level))
      ∧ (skLevelOk k = true → t.member k = false → exec c s = .next (t.ack k .protection))
      ∧ (skLevelOk k = true → t.member k = true → skFormOk k = false → exec c s = .next (t.ack k .illegal)))))
  ∧ (∀ (s : State) (k : Packet) (o : Option Packet), s.selvSent.find? (fun x => pkSeq x = pkArg k && pkJob x = pkJob k) = o →
    (o = none → s.takeAck k = s)
    ∧ ∀ x, o = some x →
      let t := ({ s with selvSent := s.selvSent.erase x } : State)
      let e := Status.ofCode (skStatus k)
      let u := ({ t with selvSent := t.selvSent.filter (fun y =>
        !(pkType y = 2 && skPart y = skPart x && skCtx y = skCtx x && skCommit y ≤ skCommit x)) } : State)
      (pkType x = 5 → s.takeAck k = t.twinAnswered (pkJob x) (pkArg x) e)
      ∧ (pkType x = 3 →
        (e = .ok → s.takeAck k = ({ u with restreaming := u.restreaming.filter (fun y => y ≠ cidx (skPart x) (skCtx x)) } : State).setReg
          .SNAP_TX_POINT (skPart x) (skCtx x) (skCommit x))
        ∧ (e = .illegal → s.takeAck k = u.restream (skPart x) (skCtx x))
        ∧ (e ≠ .ok → e ≠ .illegal → s.takeAck k = u))
      ∧ (pkType x ≠ 5 → pkType x ≠ 3 →
        (e = .illegal → s.takeAck k = ({ t with mirrorFull := (skPart x * 4096 + skEntry x) :: t.mirrorFull } : State).alarm 0x1A)
        ∧ (e ≠ .illegal → s.takeAck k = t)))
  ∧ ((∀ (s : State) (c : CtxId),
    let p := c.part.val
    let x := c.ctx.val
    let next := (SMap.get 0 s.lastFold (cidx p x)).toNat + s.fld SELV_RISK.INTERVAL 0 0
    (s.fld SNAP_CTX_CFG.MIRROR p x = 1 → next ≤ s.reg .SNAP_RX_POINT p x → exec (.fold c) s = .next (s.fold p x (2 ^ 64 - 1)))
    ∧ ((s.fld SNAP_CTX_CFG.MIRROR p x ≠ 1 ∨ s.reg .SNAP_RX_POINT p x < next) → exec (.fold c) s = .next s))
  ∧ (∀ (s : State) (p c top : Nat),
    let point := s.reg .SNAP_RX_POINT p c
    let t := (byCommit ((s.deltasOf p c).filter (fun d => d.commit + 1 ≤ point && d.commit ≤ top))).foldl (fun s d => s.foldDelta p c d) s
    s.fold p c top = { t.bump .SNAP_FOLDS p c 1 with lastFold := SMap.set 0 t.lastFold (cidx p c) (BitVec.ofNat 64 point) })
  ∧ (∀ s : State, (s.mgmtStopped = false → exec .riskDecay s = .next ({ s with riskE := s.riskE - 1 } : State).riskFollow)
    ∧ (s.mgmtStopped = true → exec .riskDecay s = .next s)))

/-- Tier 1, R355, R356, R357, R358, R361, R382. The commands of a present context: RESOLVE_COMMIT makes an UNDECIDED member flip at the next pick,
RESOLVE_ABORT aborts it with cause 0x8, both are ILLEGAL for another; ROLLBACK takes the context back by one commit, and is ILLEGAL in an open step,
without ROLLBACK_OK, for a generating context or with a snapshot held; PROMOTE starts where its point has come and its area is shared under its
keys, is ILLEGAL or PROTECTION elsewhere, and ends with its writes up to a tag that fails; RESTORE loads the context's record, and is ILLEGAL in an
open step or with a queue enabled. A context that is not present takes none. EXPORT of a held snapshot to an aligned address and IMPORT between
aligned addresses, with a key set installed, start with their container made or opened, and end with its bytes written and RESULT; without those
they are ILLEGAL or PROTECTION. A command while one runs, or of a context that is not present, is not taken. Statuses outside those the rules name
are the model's reading (log entries 40 to 43 and 54). -/
def Obligations.Snapshots : Prop :=
  ((∀ (s : State) (bar : Bar) (p : Nat) (c : Fin 64) (v : W32), s.function bar = some (p, 0) →
    (s.present p c.val = false → ∀ i ∈ [Instr.resolveCommit bar c v, .resolveAbort bar c v, .rollback bar c v, .promote bar c v, .restore bar c v],
      exec i s = .next s)
    ∧ (s.present p c.val = true →
      (s.stepState p c.val = 4 →
        let t := s.bump .BAT_FLIP_LATE p 0 1
        exec (.resolveCommit bar c v) s = .next ((((t.setStep p c.val { s.stepOf p c.val with flip := some (s.pick + 1) }).setStepStatus
          p c.val 3 0 0).snapResult p c.val .ok).settle)
        ∧ exec (.resolveAbort bar c v) s = .next ((s.endStep p c.val .aborted 8).snapResult p c.val .ok))
      ∧ (s.stepState p c.val ≠ 4 →
        exec (.resolveCommit bar c v) s = .next (s.snapResult p c.val .illegal)
        ∧ exec (.resolveAbort bar c v) s = .next (s.snapResult p c.val .illegal))
      ∧ ((s.stepState p c.val ≠ 0 ∨ s.fld SNAP_CTX_STATUS.ROLLBACK_OK p c.val ≠ 1 ∨ s.role p c.val = 1 ∨ s.fld BAT_SNAP_HOLD.ACTIVE p c.val ≠ 0) →
        exec (.rollback bar c v) s = .next (s.snapResult p c.val .illegal))
      ∧ (s.stepState p c.val = 0 → s.fld SNAP_CTX_STATUS.ROLLBACK_OK p c.val = 1 → s.role p c.val ≠ 1 → s.fld BAT_SNAP_HOLD.ACTIVE p c.val = 0 →
        let es := (s.moving p c.val).filter (fun e => s.ent BAT_REG_CTRL.SLOTS p e = 1)
        let b := es.foldl (fun s e => s.rotateBack p e) ((s.spoilSlots p es).spoilPlanes p c.val)
        let d := b.setFld RED_PLANE_CFG.PHASE p c.val ((b.phase p c.val + 2) % 3)
        let e := d.setReg .BAT_COMMIT_COUNT p c.val (d.reg .BAT_COMMIT_COUNT p c.val + 2 ^ 64 - 1)
        let f := (e.setReg .BAT_CURSOR_COMMITTED p c.val (e.reg .SNAP_PREV_CURSOR p c.val)).setReg .BAT_CURSOR_PROV p c.val
          (e.reg .SNAP_PREV_CURSOR p c.val)
        exec (.rollback bar c v) s = .next ((f.setFld SNAP_CTX_STATUS.ROLLBACK_OK p c.val 0).snapResult p c.val .ok))
      ∧ (s.fld SNAP_CTX_STATUS.BUSY p c.val = 1 → exec (.promote bar c v) s = .next s)
      ∧ (s.fld SNAP_CTX_STATUS.BUSY p c.val ≠ 1 →
        (s.reg .SNAP_RX_POINT p c.val < s.reg .SNAP_RST_COUNT p c.val → exec (.promote bar c v) s = .next (s.snapResult p c.val .illegal))
        ∧ (s.reg .SNAP_RST_COUNT p c.val ≤ s.reg .SNAP_RX_POINT p c.val →
          (s.rxShared p c.val = true → (s.keySet (s.jobOf p c.val)).isSome = true →
            exec (.promote bar c v) s = .next (({ s with
              snapJobs := s.snapJobs ++ [(⟨p, c.val, true, .ok, [], false, s.reg .SNAP_RST_COUNT p c.val⟩ : SnapJob)] } : State).setFld
                SNAP_CTX_STATUS.BUSY p c.val 1))
          ∧ ((s.rxShared p c.val = false ∨ s.keySet (s.jobOf p c.val) = none) →
            exec (.promote bar c v) s = .next (s.snapResult p c.val .protection))))
      ∧ ((s.stepState p c.val ≠ 0 ∨ ∃ q ∈ s.queuesOf p c.val, s.fld Q_CFG_CTRL.ENABLE p q = 1) →
        exec (.restore bar c v) s = .next (s.snapResult p c.val .illegal))
      ∧ (s.stepState p c.val = 0 → (∀ q ∈ s.queuesOf p c.val, s.fld Q_CFG_CTRL.ENABLE p q ≠ 1) →
        let x := s.hbmRead (.job 4 (s.jobOf p c.val)) (s.reg .SNAP_RST_ADDR p c.val) 16384
        let word := fun o n => leNat ((x.2.1.drop o).take n)
        (x.1 ≠ .ok → exec (.restore bar c v) s = .next (x.2.2.snapResult p c.val x.1))
        ∧ (x.1 = .ok →
          let a := (((x.2.2.setReg .BAT_COMMIT_COUNT p c.val (word 0 8)).setReg .BAT_CURSOR_COMMITTED p c.val (word 8 8)).setReg
            .BAT_CURSOR_PROV p c.val (word 8 8)).setReg .BAT_STEP_NUM p c.val (word 24 4)
          let b := (((a.queuesOf p c.val).take 128).zipIdx).foldl (fun s q => s.restoreQueue p q.1 ((x.2.1.drop (0x120 + 32 * q.2)).take 32)) a
          let d := (((b.knotRun p c.val).take 2048).zipIdx).foldl (fun s k => s.knotTo p k.1 (word (0x1120 + 4 * k.2) 4)) b
          let e := if d.fld SNAP_CTX_CFG.LEAD p c.val = 1 then (List.range 16).foldl (fun s i =>
            s.restoreStream p c.val i (word 8 8) ((x.2.1.drop (0x20 + 16 * i)).take 16)) d else d
          exec (.restore bar c v) s = .next (e.snapResult p c.val .ok)))))
  ∧ (∀ (s : State) (c : CtxId) (o : Option SnapJob),
    s.snapJobs.find? (fun j => j.promote && j.part = c.part.val && j.ctx = c.ctx.val) = o →
    (o = none → exec (.promoteComplete c) s = .next s)
    ∧ ∀ j, o = some j →
      let t := ({ s with snapJobs := s.snapJobs.erase j } : State).setFld SNAP_CTX_STATUS.BUSY c.part.val c.ctx.val 0
      let x := t.promoted c.part.val c.ctx.val j.size
      let r := x.1.foldl (fun (y : Status × State) w =>
        if y.1 ≠ .ok then y
        else match w.2 with
          | none => (.checksum, y.2)
          | some b => y.2.hbmWrite (.job 4 (y.2.jobOf c.part.val c.ctx.val)) w.1 b) (.ok, x.2)
      exec (.promoteComplete c) s = .next (r.2.snapResult c.part.val c.ctx.val r.1)))
  ∧ ((∀ (s : State) (bar : Bar) (p : Nat) (c : Fin 64) (v : W32), s.function bar = some (p, 0) →
    ((s.fld SNAP_EXP_CMD.BUSY p c.val = 1 ∨ s.present p c.val = false) →
      exec (.exportSnap bar c v) s = .next s ∧ exec (.importSnap bar c v) s = .next s)
    ∧ (s.fld SNAP_EXP_CMD.BUSY p c.val ≠ 1 → s.present p c.val = true →
      let t := s.setFld SNAP_EXP_CMD.SPACE p c.val (bits v.toNat 2 1)
      let dest := t.reg .SNAP_EXP_DEST p c.val
      let exportOk := t.fld BAT_SNAP_HOLD.ACTIVE p c.val ≠ 0 ∧ dest % 4096 = 0
      let importOk := dest % 4096 = 0 ∧ t.reg .SNAP_EXP_TARGET p c.val % 65536 = 0
      (¬ exportOk → exec (.exportSnap bar c v) s = .next (t.expResult p c.val .illegal))
      ∧ (¬ importOk → exec (.importSnap bar c v) s = .next (t.expResult p c.val .illegal))
      ∧ (t.keySet (t.jobOf p c.val) = none →
        (exportOk → exec (.exportSnap bar c v) s = .next (t.expResult p c.val .protection))
        ∧ (importOk → exec (.importSnap bar c v) s = .next (t.expResult p c.val .protection)))
      ∧ ∀ k, t.keySet (t.jobOf p c.val) = some k →
        (exportOk →
          let x := t.container p c.val k
          (x.1 = .ok → x.2.1.length ≤ x.2.2.reg .SNAP_EXP_LIMIT p c.val → exec (.exportSnap bar c v) s = .next
            (x.2.2.startSnap ⟨p, c.val, false, .ok, [(dest, x.2.1)], x.2.2.expHost p c.val, x.2.1.length⟩))
          ∧ (x.1 = .ok → x.2.2.reg .SNAP_EXP_LIMIT p c.val < x.2.1.length → exec (.exportSnap bar c v) s = .next
            (x.2.2.startSnap ⟨p, c.val, false, .illegal, [], true, 0⟩))
          ∧ (x.1 ≠ .ok → exec (.exportSnap bar c v) s = .next (x.2.2.startSnap ⟨p, c.val, false, x.1, [], true, 0⟩)))
        ∧ (importOk →
          let x := t.openContainer p c.val k
          (x.1 = .ok → exec (.importSnap bar c v) s = .next
            (x.2.2.startSnap ⟨p, c.val, false, .ok, [(t.reg .SNAP_EXP_TARGET p c.val, x.2.1)], false, 2 ^ 64⟩))
          ∧ (x.1 ≠ .ok → exec (.importSnap bar c v) s = .next (x.2.2.startSnap ⟨p, c.val, false, x.1, [], true, 0⟩)))))
  ∧ (∀ (s : State) (c : CtxId) (o : Option SnapJob),
    s.snapJobs.find? (fun j => !j.promote && j.part = c.part.val && j.ctx = c.ctx.val) = o →
    (o = none → exec (.snapCommandComplete c) s = .next s)
    ∧ ∀ j, o = some j →
      let t := ({ s with snapJobs := s.snapJobs.erase j } : State)
      (j.writes = [] → exec (.snapCommandComplete c) s = .next (t.expResult j.part j.ctx j.status))
      ∧ ∀ a b l, j.writes = (a, b) :: l →
        (j.size = 2 ^ 64 →
          let x := t.hbmWrite (.job 4 (t.jobOf j.part j.ctx)) a b
          exec (.snapCommandComplete c) s = .next (x.2.expResult j.part j.ctx x.1))
        ∧ (j.size ≠ 2 ^ 64 →
          let x := t.expWrite j.part j.ctx a j.host b
          (x.1 = .ok → exec (.snapCommandComplete c) s = .next ((x.2.setReg .SNAP_EXP_LIMIT j.part j.ctx j.size).expResult j.part j.ctx .ok))
          ∧ (x.1 ≠ .ok → exec (.snapCommandComplete c) s = .next (x.2.expResult j.part j.ctx x.1)))))

/-! ### Custody -/

/-- Tier 1, R364, R370. The SPDM requests: each is answered over the function it came through; version, capabilities and algorithms by their own
codes, a choice of algorithms that lacks one of the four by an error, digests of the slot 0 chain, the certificate chain of a slot, a challenge
signed by the alias key over its nonce, and measurements by index, their number at 0 and all at 0xFF. The response codes are presumed, and bodies
and signatures are free functions (log entries 10 and 34). -/
def Obligations.SpdmRequests : Prop :=
  ∀ (s : State) (f : SpdmFunc),
    let std := fun code => ({ s with free := s.free + 1, outs := s.outs ++ [.spdm (funcCode f) code (Config.spdmBody code s.free)] } : State)
    let out := fun (code : Nat) (b : List Byte) => ({ s with outs := s.outs ++ [.spdm (funcCode f) code b] } : State)
    let n := if funcCode f < 8 then 6 else 5
    exec (.getVersion f) s = .next (std 0x04)
    ∧ exec (.getCapabilities f) s = .next (std 0x61)
    ∧ exec (.negotiateAlgorithms f true true true true) s = .next (std 0x63)
    ∧ (∀ a b c d, (a && b && c && d) = false → exec (.negotiateAlgorithms f a b c d) s = .next (out 0x7F []))
    ∧ exec (.getDigests f) s = .next (out 0x01 (Config.sha384 (Config.certChain 0 s.aliasKey)))
    ∧ (∀ slot, exec (.getCertificate f slot) s = .next (out 0x02 (Config.certChain slot.toNat s.aliasKey)))
    ∧ (∀ nonce, exec (.challenge f nonce) s = .next { out 0x03 (Config.aliasSign s.aliasKey (Config.spdmBody 0x03 s.free ++ nonce)) with
        free := s.free + 1 })
    ∧ exec (.getMeasurements f 0) s = .next (out 0x60 (leBytes 1 n))
    ∧ (∀ i, 1 ≤ i.toNat → i.toNat ≤ n → exec (.getMeasurements f i) s = .next (out 0x60 (s.measurement (funcCode f) i.toNat)))
    ∧ exec (.getMeasurements f 0xFF) s = .next (out 0x60 ((List.range n).flatMap (fun j => s.measurement (funcCode f) (j + 1))))
    ∧ (∀ i, n < i.toNat → i.toNat < 0xFF → exec (.getMeasurements f i) s = .next (out 0x7F []))

/-- Tier 1, R364, R366, R367, R369, R370, R371, R372, R383. A key exchange on a partition's function in the field, without debug: it pins the
requester's key where the partition is ASSIGNED, opens a session for the pinned key, and is refused for another key, a FREE or a ZEROISING
partition; elsewhere in the lifecycle or under debug it is an SPDM error, and of a requester that does not authenticate an error or refused. On the
other functions it opens a session without a pin. FINISH, KEY_UPDATE, with new keys, and END_SESSION act on the session of their number, and are
errors without one. A custody message inside a finished session of a partition is answered with its status: the key set of a job, which is installed
once, not on a RETURNED device and not beyond 511; its rotation, which waits for its pick; its end, which destroys it; the tenant's policy on IDE;
and the status of what the tenant has. Each check that fails has its status. Outside a finished session each is an SPDM error, and inside the
session of another function each is PROTECTION. A rotated key set keeps its retired generations until the mirror point of every mirrored context of
the job is two commits on and no delta under one is left: the release takes away only the generation it names, of that job alone. The refusals the
rules do not name and the layout of CUSTODY_STATUS are the model's (log entries 44 to 46). -/
def Obligations.SessionsAndCustody : Prop :=
  ((∀ (s : State) (f : SpdmFunc) (sid : Nat) (pin : List Byte),
    let t := (s.freshBytes 64).2
    s.openSession f sid pin = ({ t with
      sessions := (t.sessions.filter (fun (x : Session) => !(x.func = funcCode f && x.id = sid)))
        ++ [(⟨funcCode f, sid, pin, false, 0, (s.freshBytes 64).1⟩ : Session)], free := t.free + 1 } : State).spdm f 0x64
          (Config.aliasSign t.aliasKey (Config.spdmBody 0x64 t.free)))
  ∧ (∀ (s : State) (p : Fin 8) (sid : W32) (k : List Byte),
    let f := SpdmFunc.partition p
    let h := Config.sha384 k
    let st := s.fld PART_ASSIGN.STATE p.val 0
    let field := s.fld SEC_LIFECYCLE.STATE 0 0 = 2 ∧ s.fld SEC_DEBUG.STATE 0 0 = 0
    (¬ field → ∀ key, exec (.keyExchange f sid key) s = .next (s.spdm f 0x7F []))
    ∧ (field →
      (st = 1 → exec (.keyExchange f sid (some k)) s = .next
        ((({ s with pins := SMap.set [] s.pins p.val h } : State).setFld PART_ASSIGN.STATE p.val 0 2).openSession f sid.toNat h))
      ∧ (st ≠ 0 → st ≠ 3 → st ≠ 1 → s.pinOf p.val = h → exec (.keyExchange f sid (some k)) s = .next (s.openSession f sid.toNat h))
      ∧ (st ≠ 0 → st ≠ 3 → st ≠ 1 → s.pinOf p.val ≠ h → exec (.keyExchange f sid (some k)) s = .next (s.refuseSession f))
      ∧ (st = 0 ∨ st = 3 → exec (.keyExchange f sid (some k)) s = .next (s.refuseSession f))
      ∧ (st = 1 → exec (.keyExchange f sid none) s = .next (s.spdm f 0x7F []))
      ∧ (st ≠ 1 → exec (.keyExchange f sid none) s = .next (s.refuseSession f))))
  ∧ (∀ (s : State) (f : SpdmFunc) (sid : W32) (key : Option (List Byte)), f ∈ [SpdmFunc.operator, .mctp] →
    exec (.keyExchange f sid key) s = .next (s.openSession f sid.toNat []))
  ∧ (∀ (s : State) (f : SpdmFunc) (sid : W32) (o : Option Session), s.session f sid.toNat = o →
    (o = none → ∀ c ∈ [Instr.finish f sid true, .finish f sid false, .keyUpdate f sid, .endSession f sid], exec c s = .next (s.spdm f 0x7F []))
    ∧ ∀ x, o = some x →
      exec (.finish f sid true) s = .next ((s.setSession { x with finished := true }).spdmStd f 0x65)
      ∧ exec (.finish f sid false) s = .next (({ s with sessions := s.sessions.erase x } : State).spdm f 0x7F [])
      ∧ (x.finished = true → exec (.keyUpdate f sid) s = .next (((s.freshBytes 64).2.setSession
        { x with updates := x.updates + 1, keys := (s.freshBytes 64).1 }).spdmStd f 0x69))
      ∧ (x.finished = false → exec (.keyUpdate f sid) s = .next (s.spdm f 0x7F []))
      ∧ exec (.endSession f sid) s = .next (({ s with sessions := s.sessions.erase x } : State).spdmStd f 0x6C)))
  ∧ ((∀ (s : State) (p : Fin 8) (sid : W32) (b : List Byte) (x : Session), s.session (.partition p) sid.toNat = some x → x.finished = true →
    let f := SpdmFunc.partition p
    let job := bodyJob b
    (b.length ≠ 194 → exec (.jobKeysSet f sid b) s = .next (s.custody f 1 .illegal []))
    ∧ (b.length = 194 →
      (s.fld SEC_LIFECYCLE.STATE 0 0 = 3 → exec (.jobKeysSet f sid b) s = .next (s.custody f 1 .protection []))
      ∧ (s.fld SEC_LIFECYCLE.STATE 0 0 ≠ 3 →
        (∀ k, s.keySet job = some k →
          (k.pin = x.pin ∧ k.keys = b.drop 2 → exec (.jobKeysSet f sid b) s = .next (s.custody f 1 .ok []))
          ∧ (¬ (k.pin = x.pin ∧ k.keys = b.drop 2) → exec (.jobKeysSet f sid b) s = .next (s.custody f 1 .protection [])))
        ∧ (s.keySet job = none →
          (511 ≤ s.keys.length → exec (.jobKeysSet f sid b) s = .next (s.custody f 1 .illegal []))
          ∧ (s.keys.length < 511 → exec (.jobKeysSet f sid b) s = .next ((s.installKeys job x.pin (b.drop 2)).custody f 1 .ok [])))))
    ∧ (s.keySet job = none → exec (.jobKeysRotate f sid b) s = .next (s.custody f 2 .protection [])
      ∧ exec (.jobEnd f sid b) s = .next (s.custody f 3 .protection []))
    ∧ (∀ k, s.keySet job = some k →
      (k.pin ≠ x.pin → exec (.jobKeysRotate f sid b) s = .next (s.custody f 2 .protection []))
      ∧ (k.pin = x.pin →
        ((b.length ≠ 74 ∨ k.next.isSome = true ∨ 2 ≤ k.retired.length) → exec (.jobKeysRotate f sid b) s = .next (s.custody f 2 .illegal []))
        ∧ (b.length = 74 → k.next = none → k.retired.length < 2 → exec (.jobKeysRotate f sid b) s = .next (({ s with
          keys := s.keys.map (fun y => if y.job = k.job then
            { y with next := some (leNat ((b.drop 2).take 8), (b.drop 10).take 32, b.drop 42) } else y) } : State).custody f 2 .ok [])))
      ∧ (b.length ≠ 2 → exec (.jobEnd f sid b) s = .next (s.custody f 3 .illegal []))
      ∧ (b.length = 2 → k.pin = x.pin → exec (.jobEnd f sid b) s = .next ((s.destroyKeys k.job).custody f 3 .ok []))
      ∧ (b.length = 2 → k.pin ≠ x.pin → exec (.jobEnd f sid b) s = .next (s.custody f 3 .protection [])))
    ∧ exec (.policySet f sid [0]) s = .next (({ s with ideWaived := p.val :: s.ideWaived.filter (fun q => q ≠ p.val) } : State).custody f 4 .ok [])
    ∧ exec (.policySet f sid [1]) s = .next (({ s with ideWaived := s.ideWaived.filter (fun q => q ≠ p.val) } : State).custody f 4 .ok [])
    ∧ (b ≠ [0] → b ≠ [1] → exec (.policySet f sid b) s = .next (s.custody f 4 .illegal []))
    ∧ exec (.custodyStatus f sid b) s = .next (s.custody f 5 .ok (s.custodyStatus x)))
  ∧ (∀ (s : State) (f : SpdmFunc) (sid : W32) (b : List Byte), (∀ x, s.session f sid.toNat = some x → x.finished = false) →
    ∀ c ∈ [Instr.jobKeysSet f sid b, .jobKeysRotate f sid b, .jobEnd f sid b, .policySet f sid b, .custodyStatus f sid b],
      exec c s = .next (s.spdm f 0x7F []))
  ∧ (∀ (s : State) (f : SpdmFunc) (sid : W32) (b : List Byte) (x : Session), f ∈ [SpdmFunc.operator, .mctp] →
    s.session f sid.toNat = some x → x.finished = true →
    ∀ c ∈ [(1, Instr.jobKeysSet f sid b), (2, .jobKeysRotate f sid b), (3, .jobEnd f sid b), (4, .policySet f sid b), (5, .custodyStatus f sid b)],
      exec c.2 s = .next (s.custody f c.1 .protection [])))
  ∧ (∀ (s : State) (job : BitVec 16) (gen : BitVec 8), exec (.retiredKeyRelease job gen) s = .next { s with keys := s.keys.map (fun k =>
    if k.job = job.toNat then { k with retired := k.retired.filter (fun r => !(r.1 % 256 = gen.toNat
      && ((s.ctxsOfJob k.job).filter (fun c => s.fld SNAP_CTX_CFG.MIRROR c.1 c.2 = 1)).all (fun c => r.2.2 + 2 ≤ s.reg .SNAP_RX_POINT c.1 c.2)
      && !s.deltaUnder k.job gen.toNat)) }
    else k) })

/-- Tier 1, R369, R373, R377, R384. LIFECYCLE advances by one state only: to provisioned with the certificate, on to the field without debug, and to
returned once everything is zeroised; it then destroys every key set and the tenants' sessions are over, which is the model's reading (log entry
127). Any other request is refused with PROTECTION. A FREE partition is assigned to an owner other than 0; an ASSIGNED or PINNED one with no context
admitted is zeroised, its sessions over; anything else is ILLEGAL; ZERO_ALL with no context admitted destroys every key and zeroises every
partition, and does nothing otherwise; the end of a partition's zeroisation leaves it FREE, and the last one ends ZERO_ALL. The vendor's part is an
operand, and the corner of ZERO_ALL is the model's reading (log entries 48, 49 and 127). -/
def Obligations.LifecycleAndPartitions : Prop :=
  (∀ (s : State) (v : W32) (cert : Bool),
    let st := s.fld SEC_LIFECYCLE.STATE 0 0
    let ok := SEC_LIFECYCLE.ADVANCE.of v.toNat = st + 1
      ∧ (if st = 0 then cert = true else if st = 1 then s.fld SEC_DEBUG.STATE 0 0 = 0 else s.zeroedAll = true)
    (ok → exec (.lifecycleAdvance v cert) s = .next
      { ((s.setFld SEC_LIFECYCLE.STATE 0 0 (st + 1)).setFld SEC_LIFECYCLE.RESULT 0 0 0).destroyAllKeys with
        sessions := s.sessions.filter (fun x => 8 ≤ x.func) })
    ∧ (¬ ok → exec (.lifecycleAdvance v cert) s = .next (s.setFld SEC_LIFECYCLE.RESULT 0 0 3)))
  ∧ ((∀ (s : State) (p : Fin 8) (v : W32),
    let st := s.fld PART_ASSIGN.STATE p.val 0
    let owner := PART_ASSIGN.OWNER.of (setBits v.toNat 20 1 0)
    let idle := ∀ c < 64, s.admitted p.val c = false
    (st = 0 → owner ≠ 0 → exec (.partAssign p v) s = .next
      (((s.setFld PART_ASSIGN.OWNER p.val 0 owner).setFld PART_ASSIGN.STATE p.val 0 1).assignResult p.val .ok))
    ∧ ((st ≠ 0 ∨ owner = 0) → exec (.partAssign p v) s = .next (s.assignResult p.val .illegal))
    ∧ ((st = 1 ∨ st = 2) → idle → exec (.zeroise p v) s = .next ((({ s with
        sessions := s.sessions.filter (fun x => x.func ≠ p.val) } : State).setFld PART_ASSIGN.STATE p.val 0 3).assignResult p.val .ok))
    ∧ ((st ≠ 1 ∧ st ≠ 2) ∨ ¬ idle → exec (.zeroise p v) s = .next (s.assignResult p.val .illegal)))
  ∧ (∀ (s : State) (v : W32),
    (bit v.toNat 0 = true → (∀ c ∈ allCtx, s.admitted c.1 c.2 = false) → exec (.zeroAll v) s = .next
      (((List.range 8).foldl State.startZero s.destroyAllKeys).setFld SEC_ZERO_ALL.BUSY 0 0 1))
    ∧ ((bit v.toNat 0 = false ∨ ∃ c ∈ allCtx, s.admitted c.1 c.2 = true) → exec (.zeroAll v) s = .next s))
  ∧ (∀ (s : State) (p : Fin 8),
    (s.fld PART_ASSIGN.STATE p.val 0 ≠ 3 → exec (.zeroisationComplete p) s = .next s)
    ∧ (s.fld PART_ASSIGN.STATE p.val 0 = 3 →
      let t := ((s.zeroPart p.val).setFld PART_ASSIGN.STATE p.val 0 0).setFld PART_ASSIGN.OWNER p.val 0 0
      ((t.fld SEC_ZERO_ALL.BUSY 0 0 ≠ 1 ∨ ∃ q < 8, t.fld PART_ASSIGN.STATE q 0 = 3) → exec (.zeroisationComplete p) s = .next t)
      ∧ (t.fld SEC_ZERO_ALL.BUSY 0 0 = 1 → (∀ q < 8, t.fld PART_ASSIGN.STATE q 0 ≠ 3) →
        exec (.zeroisationComplete p) s = .next (({ t with zeroedAll := true } : State).setFld SEC_ZERO_ALL.BUSY 0 0 0)))))

/-- Tier 1, R225, R374, R375, R376. ADMIT takes a context that passes its checks and has an index for its job, and answers the check that fails
where one does; LEAVE ends an admitted one with cause 0x5 and is ILLEGAL for another; the end of the leave frees it; and the index of a job that
nothing uses any more is torn down: the pages and board cards that name it are zeroed and its records go. Without a leave, or with the job in use,
nothing ends. -/
def Obligations.Admission : Prop :=
  (∀ (s : State) (c : CtxId) (v : W32),
    let p := c.part.val
    let x := c.ctx.val
    let t := if s.present p x then s else s.setFld PART_CTX_ADMIT.ROLE p x (PART_CTX_ADMIT.ROLE.of v.toNat)
    (∀ i, t.admitCheck p x = .ok → t.indexFor (t.jobOf p x) = some i → exec (.admission c v) s = .next (t.admitNow p x i))
    ∧ (t.admitCheck p x = .ok → t.indexFor (t.jobOf p x) = none → exec (.admission c v) s = .next (t.admitResult p x .illegal))
    ∧ (t.admitCheck p x ≠ .ok → exec (.admission c v) s = .next (t.admitResult p x (t.admitCheck p x)))
    ∧ (t.admitted p x = true → exec (.leave c v) s = .next (t.leaveNow p x 5))
    ∧ (t.admitted p x = false → exec (.leave c v) s = .next (t.admitResult p x .illegal))
    ∧ (s.fld PART_CTX_ADMIT.STATE p x = 2 → exec (.leaveComplete c) s = .next (s.freeCtx p x))
    ∧ (s.fld PART_CTX_ADMIT.STATE p x ≠ 2 → exec (.leaveComplete c) s = .next s))
  ∧ (∀ (s : State) (i : Fin 512),
    ((i.val = 0 ∨ s.fld SEC_JOB.STATE i.val 0 ≠ 3) → exec (.jobTeardown i) s = .next s)
    ∧ (i.val ≠ 0 → s.fld SEC_JOB.STATE i.val 0 = 3 →
      let t := ((s.pagesNamed i.val).foldl State.zeroPage s).dropBoardCards i.val
      let u := t.setReg .SEC_JOB i.val 0 0
      exec (.jobTeardown i) s = .next { u with
        homes := t.homes.filter (fun h => h.job ≠ t.fld SEC_JOB.JOB i.val 0),
        twinRecs := t.twinRecs.filter (fun r => r.job ≠ t.fld SEC_JOB.JOB i.val 0) }))

/-- Tier 1, R383. Debug consent needs debug not OPEN, every partition FREE without a session, and no pair: it gives a fresh challenge; a token over
that challenge, signed by the debug key, opens the scope it names, and another closes the consent, and one outside consent is only written; consent
that expires is over. CONSENT in OPEN is the model's reading (log entry 53). -/
def Obligations.DebugUnlock : Prop :=
  (∀ (s : State) (v : W32), bit v.toNat 0 = true →
    ((s.fld SEC_DEBUG.STATE 0 0 = 2 ∨ (∃ p < 8, s.fld PART_ASSIGN.STATE p 0 ≠ 0) ∨ (∃ x ∈ s.sessions, x.func < 8) ∨ s.paired = true) →
      exec (.consent v) s = .next (s.setFld SEC_DEBUG.RESULT 0 0 2))
    ∧ (s.fld SEC_DEBUG.STATE 0 0 ≠ 2 → (∀ p < 8, s.fld PART_ASSIGN.STATE p 0 = 0) → (∀ x ∈ s.sessions, 8 ≤ x.func) → s.paired = false →
      exec (.consent v) s = .next (((List.range 8).foldl (fun t i => t.setReg .SEC_DEBUG_NONCE i 0
        (leNat (((s.freshBytes 32).1.drop (4 * i)).take 4))) (s.freshBytes 32).2).debugTo 1 0 .ok)))
  ∧ (∀ (s : State) (v : W32),
    let t := s.setReg .SEC_DEBUG_TOKEN 32 0 v.toNat
    let ok := (t.token.drop 4).take 32 = t.challenge
      ∧ Config.ecdsaOk Config.debugKeyHash (Config.sha384 (Config.identityKey ++ t.token.take 36)) (t.token.drop 36) = true
    (t.fld SEC_DEBUG.STATE 0 0 = 1 → exec (.debugToken v) s = .next
      (if ok then t.debugTo 2 (leNat (t.token.take 4) % 8) .ok else t.debugTo 0 0 .protection))
    ∧ (t.fld SEC_DEBUG.STATE 0 0 ≠ 1 → exec (.debugToken v) s = .next t))
  ∧ (∀ s : State, (s.fld SEC_DEBUG.STATE 0 0 = 1 → exec .consentExpiry s = .next (s.debugTo 0 0 .protection))
    ∧ (s.fld SEC_DEBUG.STATE 0 0 ≠ 1 → exec .consentExpiry s = .next s)
    ∧ ∀ v : W32, bit v.toNat 0 = false → exec (.consent v) s = .next s)

/-! ### Hangs, resets, alarms and logs -/

/-- Tier 1, R26, R385, R386, R387, R388, R389, R390, R391, R394, R395, R396. The watchdogs: a context's, with its watchdog in use and work
outstanding that does not only wait for picks, stops the context and quarantines a suspect under replay; the engines where what it started still
runs after the drain are reset where level 2 is allowed; a unit that hangs resets its engine, and a suspect that hangs in its replay is stopped and
quarantined first; a partition that makes no progress is reset where level 3 is allowed; and the management controller's stops it and is counted.
Outside these conditions a watchdog changes nothing. The ends of resets: an engine's begins the replay of its suspects, one that does not end
escalates to its partition or, at the highest level, leaves the engine held; a partition's frees what was leaving and trains its stacks, one that
does not end escalates to the chip or leaves its stacks failed and the partition held; a replay that succeeds clears its suspect and goes on to the
next. Where no such reset or replay runs nothing ends. The times of the watchdogs are not measured (log entry 6). -/
def Obligations.WatchdogsAndResetEnds : Prop :=
  ((∀ (s : State) (c : CtxId),
    let p := c.part.val
    let x := c.ctx.val
    let hung := s.admitted p x = true ∧ s.fld HANG_CTX_CFG.ENABLE p x = 1 ∧ s.hasWork p x = true ∧ s.onlyPicks p x = false
    (¬ hung → exec (.contextWatchdog c) s = .next s)
    ∧ (hung → s.suspects.find? (fun y => y.1 / 48 = p && s.replaying y.1 = some x) = none →
        exec (.contextWatchdog c) s = .next (s.stopCtx p x).settle)
    ∧ (hung → ∀ n, s.suspects.find? (fun y => y.1 / 48 = p && s.replaying y.1 = some x) = some n →
        exec (.contextWatchdog c) s = .next ((s.stopCtx p x).quarantine n.1 x).settle))
  ∧ (∀ (s : State) (c : CtxId),
    let k := cidx c.part.val c.ctx.val
    let es := ((s.draining.filter (fun x => x.1 = k)).map (·.2)).filter (fun n =>
      s.unitOps.any (fun o => o.prog / 8 = n && (s.prog o.prog).isNone))
    let t := es.foldl (fun s n => s.engineReset (n / 48) (n % 48) 0) s
    (s.maxLevel < 2 → exec (.drainExpiry c) s = .next { s with draining := s.draining.filter (fun x => x.1 ≠ k) })
    ∧ (2 ≤ s.maxLevel → exec (.drainExpiry c) s = .next { t with draining := t.draining.filter (fun x => x.1 ≠ k) }))
  ∧ (∀ (s : State) (e : EngineId),
    let n := e.part.val * 48 + e.engine.val
    ((s.maxLevel < 2 ∨ ∀ o ∈ s.unitOps, o.prog / 8 ≠ n) → exec (.unitWatchdog e) s = .next s)
    ∧ (2 ≤ s.maxLevel → (∃ o ∈ s.unitOps, o.prog / 8 = n) →
      (s.replaying n = none → exec (.unitWatchdog e) s = .next (s.engineReset e.part.val e.engine.val 0))
      ∧ (∀ c, s.replaying n = some c → exec (.unitWatchdog e) s = .next
        (((s.stopCtx e.part.val c).quarantine n c).engineReset e.part.val e.engine.val 0))))
  ∧ (∀ (s : State) (p : Fin 8),
    (3 ≤ s.maxLevel → (s.treadleWork p.val = true ∨ s.battenWork p.val = true) →
      exec (.progressWatchdog p) s = .next (s.partReset p.val 0))
    ∧ ((s.maxLevel < 3 ∨ (s.treadleWork p.val = false ∧ s.battenWork p.val = false)) → exec (.progressWatchdog p) s = .next s))
  ∧ (∀ s : State, exec .mgmtWatchdog s = .next ((({ s with mgmtStopped := true } : State).alarm 0x04).bumpFld RST_CAUSE.MGMT_RESTARTS 0 0 1)))
  ∧ ((∀ (s : State) (e : EngineId),
    let n := e.part.val * 48 + e.engine.val
    ((2, n) ∉ s.resetting → exec (.engineResetComplete e) s = .next s ∧ exec (.engineResetTimeout e) s = .next s)
    ∧ ((2, n) ∈ s.resetting →
      let t := ({ s with resetting := s.resetting.erase (2, n) } : State).resetBusy
      exec (.engineResetComplete e) s = .next (t.nextReplay n)
      ∧ (3 ≤ s.maxLevel → exec (.engineResetTimeout e) s = .next (s.partReset e.part.val 0))
      ∧ (s.maxLevel < 3 → exec (.engineResetTimeout e) s = .next (t.setReg .HANG_PART_HELD e.part.val 0
        (setBits (s.reg .HANG_PART_HELD e.part.val 0) e.engine.val 1 1)))))
  ∧ (∀ (s : State) (p : Fin 8) (r : Training),
    ((3, p.val) ∉ s.resetting → exec (.partitionResetComplete p r) s = .next s ∧ exec (.partitionResetTimeout p) s = .next s)
    ∧ ((3, p.val) ∈ s.resetting →
      let t := ({ s with resetting := s.resetting.erase (3, p.val) } : State).resetBusy
      let held := ({ s with resetting := s.resetting.erase (3, p.val), heldParts := p.val :: s.heldParts.filter (fun x => x ≠ p.val) } : State)
      exec (.partitionResetComplete p r) s = .next (((List.range 64).foldl (fun s c =>
        if s.fld PART_CTX_ADMIT.STATE p.val c = 2 then s.freeCtx p.val c else s) t).trainPart r p.val)
      ∧ (4 ≤ s.maxLevel → exec (.partitionResetTimeout p) s = .next (s.chipReset 2))
      ∧ (s.maxLevel < 4 → exec (.partitionResetTimeout p) s = .next
        ((held.resetBusy.setFld HBM_STACK_STATUS.STATE (2 * p.val) 0 2).setFld HBM_STACK_STATUS.STATE (2 * p.val + 1) 0 2))))
  ∧ (∀ (s : State) (e : EngineId),
    let n := e.part.val * 48 + e.engine.val
    (s.replaying n = none → exec (.replayClear e) s = .next s)
    ∧ ∀ c, s.replaying n = some c → exec (.replayClear e) s = .next ((s.clearSuspect n c).nextReplay n)))

/-- Tier 1, R392, R393. A request at level 1 stops an admitted context, at level 2 resets an engine that exists, at level 3 a partition, at level 4
the chip, each with RESULT OK; a context or engine that is not there is ILLEGAL; level 5 tells the tray controller and resets the chip when it
acknowledges, and is PROTECTION without an acknowledgement or a descriptor. -/
def Obligations.ResetRequests : Prop :=
  ∀ (s : State) (v : W32),
    let p := RST_REQ.PART.of v.toNat
    let c := RST_REQ.CTX.of v.toNat
    let e := RST_REQ.ENGINE.of v.toNat
    (s.admitted p c = true → exec (.contextStopRequest v) s = .next ((s.stopCtx p c).settle.rstResult .ok))
    ∧ (s.admitted p c = false → exec (.contextStopRequest v) s = .next (s.rstResult .illegal))
    ∧ (e < 48 → exec (.engineResetRequest v) s = .next ((s.engineReset p e 1).rstResult .ok))
    ∧ (48 ≤ e → exec (.engineResetRequest v) s = .next (s.rstResult .illegal))
    ∧ exec (.partitionResetRequest v) s = .next ((s.partReset p 1).rstResult .ok)
    ∧ exec (.chipResetRequest v) s = .next ((s.chipReset 1).rstResult .ok)
    ∧ (∀ d, s.tabnex = some d → exec (.powerCycleRequest v true) s = .next
        ((s.emit (.i3c d.tray (leBytes 1 0xC1 ++ leBytes 1 (s.fld RST_CAUSE.LAST 0 0)))).alarm 0x09 |>.chipReset 4))
    ∧ (∀ d, s.tabnex = some d → exec (.powerCycleRequest v false) s = .next
        ((s.emit (.i3c d.tray (leBytes 1 0xC1 ++ leBytes 1 (s.fld RST_CAUSE.LAST 0 0)))).rstResult .protection))
    ∧ (s.tabnex = none → ∀ ack, exec (.powerCycleRequest v ack) s = .next (s.rstResult .protection))

/-- Tier 2, R389, R397. A chip reset keeps the bits that the field tables give as Kept of the registers of the always-on domain, of the lifecycle
and of the settings in OTP, and takes their other bits to the reset value; every register outside these and OTP_GEN_STATUS has its reset value; and
the memories of the device, programs, queues, steps, keys and sessions are gone. -/
def Obligations.ChipResetKeeps : Prop :=
  ∀ (s : State) (i j : Nat), i < 2 ^ 20 → j < 2 ^ 20 →
    (SMap.Rising s.regs → ∀ r ∈ alwaysOn ++ [.SEC_LIFECYCLE, .OTP_GEN_DATA], ∀ k < 64,
      bit (s.resetChip.reg r i j) k = if bit r.info.kept k then bit (s.reg r i j) k else bit r.info.reset k)
    ∧ (∀ r, r ∉ alwaysOn → r ∉ fused → s.resetChip.reg r i j = State.reset.reg r i j)
    ∧ s.resetChip.hbm = [] ∧ s.resetChip.bobbin = [] ∧ s.resetChip.beam = [] ∧ s.resetChip.progs = [] ∧ s.resetChip.queues = []
    ∧ s.resetChip.keys = [] ∧ s.resetChip.sessions = [] ∧ s.resetChip.steps = []

/-- Tier 2, R399. An event of an alarm class raises its count by one, up to the largest that 64 bits hold, sets its bit of ALM_SUMMARY, and leaves
every other class's count, first and last time as they were; its first time stays unless its count was 0. -/
def Obligations.AlarmCounts : Prop :=
  ∀ (s : State) (cls : Nat), cls < 64 →
    (s.alarm cls).reg .ALM_COUNT cls 0 = min (s.reg .ALM_COUNT cls 0 + 1) (2 ^ 64 - 1)
    ∧ bit ((s.alarm cls).reg .ALM_SUMMARY 0 0) cls = true
    ∧ (s.reg .ALM_COUNT cls 0 ≠ 0 → (s.alarm cls).reg .ALM_FIRST cls 0 = s.reg .ALM_FIRST cls 0)
    ∧ (s.reg .ALM_COUNT cls 0 = 0 → (s.alarm cls).reg .ALM_FIRST cls 0 = (s.alarm cls).reg .ALM_LAST cls 0)
    ∧ ∀ d, d < 64 → d ≠ cls → (s.alarm cls).reg .ALM_COUNT d 0 = s.reg .ALM_COUNT d 0
      ∧ (s.alarm cls).reg .ALM_FIRST d 0 = s.reg .ALM_FIRST d 0 ∧ (s.alarm cls).reg .ALM_LAST d 0 = s.reg .ALM_LAST d 0

/-- Tier 1, R399, R400, R402, R404, R406, R407, R408. A write of ALM_CTRL with CLEAR takes a class's count, times and summary bit away, unless its
cause stands: then it is held. Reserved classes take no write. The oldest staged record of a ring is written out: into the ring where it is enabled
and its memory takes it, a full ring losing its oldest, else it is lost and counted. A read pointer is clamped to what the ring holds, and the
operator's latches its record; enabling a ring empties it, and its size is taken from 11 to 24 while it is disabled; a coalesced record of an entry
leaves; and incident mode ends, its entries written, once every ring's staged records are below an eighth of its quota and the rate is below an
eighth of RATE. -/
def Obligations.AlarmsAndLogs : Prop :=
  (∀ (s : State) (cls : Fin 64) (v : W32),
    let t := ((s.setReg .ALM_COUNT cls.val 0 0).setReg .ALM_FIRST cls.val 0 0).setReg .ALM_LAST cls.val 0 0
    (cls.val ≠ 0x1F → cls.val < 0x29 → s.alarmStands cls.val = false → exec (.alarmClear cls v) s = .next
      ((t.setReg .ALM_SUMMARY 0 0 (setBits (t.reg .ALM_SUMMARY 0 0) cls.val 1 0)).setFld ALM_CTRL.HELD cls.val 0 0))
    ∧ (cls.val ≠ 0x1F → cls.val < 0x29 → s.alarmStands cls.val = true →
      exec (.alarmClear cls v) s = .next (s.setFld ALM_CTRL.HELD cls.val 0 1))
    ∧ ((cls.val = 0x1F ∨ 0x29 ≤ cls.val) → exec (.alarmClear cls v) s = .next s))
  ∧ ((∀ (s : State) (ring : Fin 9),
    (s.staged.find? (fun r => r.ring = ring.val) = none → exec (.recordWriteOut ring) s = .next s)
    ∧ ∀ r, s.staged.find? (fun r => r.ring = ring.val) = some r →
      let t := ({ s with staged := s.staged.erase r } : State)
      let wr := t.regAt (ringWr r.ring)
      let x := t.hbmWrite (.ring r.ring) (t.ringAt r.ring wr) r.bytes
      let rd := x.2.regAt (ringRd r.ring)
      (t.regAt (ringCfg r.ring) % 2 = 0 → exec (.recordWriteOut ring) s = .next (t.logLoss r.ring))
      ∧ (t.regAt (ringCfg r.ring) % 2 = 1 → x.1 ≠ .ok → exec (.recordWriteOut ring) s = .next (x.2.logLoss r.ring))
      ∧ (t.regAt (ringCfg r.ring) % 2 = 1 → x.1 = .ok →
        (wr - rd ≠ x.2.ringSize r.ring → exec (.recordWriteOut ring) s = .next (x.2.setAt (ringWr r.ring) ((wr + 1) % 2 ^ 64)))
        ∧ (wr - rd = x.2.ringSize r.ring → exec (.recordWriteOut ring) s = .next
          (((x.2.setAt (ringRd r.ring) (rd + 1)).logLoss r.ring).setAt (ringWr r.ring) ((wr + 1) % 2 ^ 64)))))
  ∧ (∀ (s : State) (v : W64), exec (.logRdWrite .operator v) s = .next
      (s.setReg .LOG_OP_RD 0 0 (max (s.reg .LOG_OP_WR 0 0 - s.ringSize 8) (min (s.reg .LOG_OP_WR 0 0) v.toNat))).latchRecord)
  ∧ (∀ (s : State) (bar : Bar) (p : Nat) (v : W64), s.function bar = some (p, 0) → p < 8 → exec (.logRdWrite bar v) s = .next
      (s.setReg .SCHED_LOG_RD p 0 (max (s.reg .SCHED_LOG_WR p 0 - s.ringSize p) (min (s.reg .SCHED_LOG_WR p 0) v.toNat))))
  ∧ (∀ (s : State) (v : W32),
      let old := s.reg .LOG_OP_CFG 0 0
      let w := setBits v.toNat 0 1 1
      let t := s.writeMasked .LOG_OP_CFG 0 0 (if old % 2 = 1 ∨ bits w 8 5 < 11 ∨ 24 < bits w 8 5 then setBits w 8 5 (bits old 8 5) else w)
      (old % 2 = 0 → exec (.logEnable .operator v) s = .next ((t.setReg .LOG_OP_WR 0 0 0).setReg .LOG_OP_RD 0 0 0))
      ∧ (old % 2 = 1 → exec (.logEnable .operator v) s = .next t))
  ∧ (∀ (s : State) (bar : Bar) (p : Nat) (v : W32), s.function bar = some (p, 0) → p < 8 →
      let old := s.reg .SCHED_LOG_CFG p 0
      let w := setBits v.toNat 0 1 1
      let t := s.writeMasked .SCHED_LOG_CFG p 0 (if old % 2 = 1 ∨ bits w 8 5 < 11 ∨ 24 < bits w 8 5 then setBits w 8 5 (bits old 8 5) else w)
      (old % 2 = 0 → exec (.logEnable bar v) s = .next ((t.setReg .SCHED_LOG_WR p 0 0).setReg .SCHED_LOG_RD p 0 0))
      ∧ (old % 2 = 1 → exec (.logEnable bar v) s = .next t))
  ∧ (∀ (s : State) (bar : Bar) (p f : Nat) (v : W64) (w : W32), s.function bar = some (p, f + 1) →
      exec (.logRdWrite bar v) s = .next s ∧ exec (.logEnable bar w) s = .next s)
  ∧ (∀ (s : State) (n : Nat), (s.coalesce[n]? = none → exec (.coalesceFlush n) s = .next s)
      ∧ ∀ r, s.coalesce[n]? = some r →
        exec (.coalesceFlush n) s = .next (({ s with coalesce := s.coalesce.erase r } : State).writeEntry r))
  ∧ (∀ s : State,
      let calm := s.incident = true ∧ (∀ r < 9, 8 * s.stagedOf r < quota r) ∧ 8 * s.msRecords < max 1 (s.fld LOG_INCIDENT.RATE 0 0)
      (calm → exec .incidentExit s = .next (s.coalesce.foldl State.writeEntry
        (({ s with coalesce := [] } : State).setFld LOG_INCIDENT.ACTIVE 0 0 0)))
      ∧ (¬ calm → exec .incidentExit s = .next s)))

/-! ### Power, supplies and boot -/

/-- Tier 1, R26, R410, R411, R412, R413, R414, R415, R416, R417. A target no deeper than the present state is reached at once; a deeper one with a
vote against it is refused, its holders are counted and the first is the last event; a reserved one leaves STATE. A host vote is written whole. The
entry, once its hold has passed, reaches the deepest state its votes allow, or is undone by a wake; a wake takes the device to the deepest state
allowed, with RESULT where that is the target; and D4 is left to Run by WAKE or I3C alone, with every host vote set. A thermal trip, a reset or a
stopped management controller leaves the state as it is. PWR_STATE.HELD and the effect of WAKE outside D4 are the model's reading (log entry 64). -/
def Obligations.PowerStates : Prop :=
  (∀ (s : State) (v : W32),
    let t0 := s.traceVote .PWR_TARGET 0 v.toNat
    let t := t0.writeMasked .PWR_TARGET 0 0 v.toNat
    let cur := t.fld PWR_STATE.CURRENT 0 0
    let n := v.toNat % 8
    (4 < n → exec (.entryAttempt v) s = .next (t0.writeMasked .PWR_TARGET 0 0 (setBits v.toNat 0 3 (t0.fld PWR_TARGET.STATE 0 0))))
    ∧ (n ≤ 4 → n = cur → exec (.entryAttempt v) s = .next (t.setFld PWR_TARGET.RESULT 0 0 0))
    ∧ (n ≤ 4 → n < cur → exec (.entryAttempt v) s = .next t)
    ∧ (n ≤ 4 → cur < n → t.firstHolder n = none → exec (.entryAttempt v) s = .next (t.setFld PWR_TARGET.RESULT 0 0 1))
    ∧ (n ≤ 4 → cur < n → ∀ k p c d, t.firstHolder n = some (k, p, c, d) → exec (.entryAttempt v) s = .next
      ((((List.range 5).foldl (fun u k => if (List.range n).any (fun d => t.kindVotes k d) then u.bump .PWR_REFUSED_K k 0 1 else u) t).setFld
        PWR_TARGET.RESULT 0 0 2).lastEvent k 0 p c d)))
  ∧ (∀ (s : State) (v : W32), exec (.hostVote v) s = .next ((s.traceVote .PWR_VOTE_HOST 0 v.toNat).writeMasked .PWR_VOTE_HOST 0 0 v.toNat))
  ∧ (∀ (s : State) (point : Fin 5) (kind : Fin 6) (dom : Fin 4) (c : CtxId),
    let cur := s.fld PWR_STATE.CURRENT 0 0
    let n := s.deepest (s.fld PWR_TARGET.STATE 0 0)
    let enters := cur < n ∧ s.thermtrip = false ∧ s.mgmtStopped = false ∧ s.resetting = []
    let wakes := (if cur = 0 then 1 else cur + 2) ≤ point.val ∧ point.val ≤ n
    let t := (if 3 ≤ n ∧ cur < 3 then s.hbmOff else s).powerTo n
    let u := if 4 ≤ point.val then s.hbmOff else s
    let r := ((u.setFld PWR_TARGET.RESULT 0 0 3).bump .PWR_ABORTED_K kind.val 0 1).lastEvent kind.val 1
      (if kind.val = 0 then c.part.val else 0) (if kind.val = 0 then c.ctx.val else 0) dom.val
    (¬ enters → exec (.powerEntry point kind dom c) s = .next s)
    ∧ (enters → ¬ wakes → n = t.fld PWR_TARGET.STATE 0 0 → exec (.powerEntry point kind dom c) s = .next (t.setFld PWR_TARGET.RESULT 0 0 0))
    ∧ (enters → ¬ wakes → n ≠ t.fld PWR_TARGET.STATE 0 0 → exec (.powerEntry point kind dom c) s = .next t)
    ∧ (enters → wakes →
      exec (.powerEntry point kind dom c) s = .next ((r.powerTo (max cur (point.val - 1))).wakeTo (min (point.val - 1) dom.val))))
  ∧ (∀ s : State,
    let t := s.wakeTo (s.deepest (s.fld PWR_TARGET.STATE 0 0))
    let out := s.fld PWR_STATE.CURRENT 0 0 = 4 ∨ s.thermtrip = true ∨ s.mgmtStopped = true
    (out → exec .powerExit s = .next s)
    ∧ (¬ out → t.fld PWR_STATE.CURRENT 0 0 = t.fld PWR_TARGET.STATE 0 0 → exec .powerExit s = .next (t.setFld PWR_TARGET.RESULT 0 0 0))
    ∧ (¬ out → t.fld PWR_STATE.CURRENT 0 0 ≠ t.fld PWR_TARGET.STATE 0 0 → exec .powerExit s = .next t))
  ∧ (∀ (s : State), ∀ c ∈ [Instr.wakeLand, .i3cWake],
    (s.fld PWR_STATE.CURRENT 0 0 = 4 → s.thermtrip = false →
      exec c s = .next (((s.setReg .PWR_VOTE_HOST 0 0 0xF).setFld PWR_TARGET.STATE 0 0 0).wakeTo 0))
    ∧ ((s.fld PWR_STATE.CURRENT 0 0 ≠ 4 ∨ s.thermtrip = true) → exec c s = .next s))

/-- Tier 1, R350, R418, R419, R420, R421, R422, R423, R440, R446. The supplies: an excursion of a supervised rail is recorded, limits the clock and
raises alarm class 0x00 or 0x01, and its FLUSH leaves; its end leaves the record of the dip; CLEAR takes that away; a crossing of the reset level on
an HBM rail resets the chip at once, on another once it has lasted, and on a loom rail what would read that die's stacks does not go; and the stacks
train when HBM_PG rises after a wake. A rail that is not supervised, or already in its excursion, changes nothing. -/
def Obligations.SupplyExcursions : Prop :=
  (∀ (s : State) (rail : Fin 16) (mv : BitVec 16),
    let r := rail.val
    let t := s.now.1
    let u := ((s.now.2.setFld PWR_RAIL_I.MV r 0 mv.toNat).setFld PWR_RAIL_I.EXCURSION r 0 1).bumpFld PWR_RAIL_COUNT.COUNT r 0 1
    (s.supervised r = true → s.fld PWR_RAIL_I.EXCURSION r 0 ≠ 1 → exec (.excursionStart rail mv) s = .next
      (((({ u with dips := SMap.put u.dips r (BitVec.ofNat 64 (t - 800)), calmSince := none } : State).forceClock 1).alarm
        (if r = 0 then 0x00 else 0x01)).dipFlushNow t))
    ∧ ((s.supervised r = false ∨ s.fld PWR_RAIL_I.EXCURSION r 0 = 1) → exec (.excursionStart rail mv) s = .next s))
  ∧ (∀ (s : State) (rail : Fin 16) (lo mv : BitVec 16) (us : W32),
    (SMap.find s.dips rail.val = none → exec (.excursionEnd rail lo mv us) s = .next s)
    ∧ ∀ t0 : W64, SMap.find s.dips rail.val = some t0 →
      let r := rail.val
      let u := ((((s.now.2.setFld PWR_RAIL_I.MV r 0 mv.toNat).setFld PWR_RAIL_I.EXCURSION r 0 0).setReg .PWR_DIP_LAST 0 0
        (r + 2 ^ 4 + lo.toNat * 2 ^ 16)).setReg .PWR_DIP_DURATION 0 0 us.toNat).setReg .PWR_DIP_TIME 0 0 t0.toNat
      let left := SMap.erase u.dips r
      exec (.excursionEnd rail lo mv us) s = .next { u with dips := left, calmSince := if left = [] then some s.now.1 else u.calmSince })
  ∧ (∀ (s : State) (v : W32), exec (.dipClear v) s = .next
      (((s.setReg .PWR_DIP_LAST 0 0 0).setReg .PWR_DIP_DURATION 0 0 0).setReg .PWR_DIP_TIME 0 0 0))
  ∧ (∀ (s : State) (rail : Fin 16) (mv : BitVec 16),
    let t := ({ s with resetCrossed := true } : State).setFld PWR_RAIL_I.MV rail.val 0 mv.toNat
    (s.supervised rail.val = false → exec (.resetLevelCrossing rail mv) s = .next s)
    ∧ (s.supervised rail.val = true →
      (1 ≤ rail.val → rail.val ≤ 3 → exec (.resetLevelCrossing rail mv) s = .next t.supplyReset)
      ∧ (5 ≤ rail.val → rail.val ≤ 8 → exec (.resetLevelCrossing rail mv) s = .next (t.dropLoom (rail.val - 5)))
      ∧ ((rail.val = 0 ∨ rail.val = 4 ∨ 9 ≤ rail.val) → exec (.resetLevelCrossing rail mv) s = .next t)))
  ∧ (∀ s : State, (s.resetCrossed = true → exec .supplyChipReset s = .next s.supplyReset)
    ∧ (s.resetCrossed = false → exec .supplyChipReset s = .next s))
  ∧ (∀ (s : State) (level : Bool) (t : Training),
    (s.exiting = true → exec (.hbmPg level t) s = .next ((List.range 8).foldl (fun s p => s.trainPart t p)
      { s with hbmPg := level, exiting := false }))
    ∧ (s.exiting = false → exec (.hbmPg level t) s = .next { s with hbmPg := level }))

/-- Tier 1, R269, R397, R398, R441, R442, R443, R445, R447. The lands: a junction that trips resets the chip with alarm class 0x02 and asserts
THERMTRIP until RESET_N of at least 10 µs; RESET_N resets the chip; PERST ends every session but the management plane's, puts the enabled rings in
host memory in ERROR and takes the host's levels; a function's reset takes that function's level; power-on keeps OTP and the fuses; and the always-
on supply comes up. What a function reset and PERST_N leave is the model's reading (log entry 66). -/
def Obligations.ControlLands : Prop :=
  (∀ s : State,
    let t := ({ ((s.alarm 0x02).uncount).resetChip with thermtrip := true } : State).setFld RST_CAUSE.LAST 0 0 5
    (s.thermtrip = false → exec .thermalTrip s = .next (t.emit (.pin 1 false)))
    ∧ (s.thermtrip = true → exec .thermalTrip s = .next s))
  ∧ (∀ (s : State) (us : Nat), (us < 10 → exec (.resetN us) s = .next s)
    ∧ (10 ≤ us →
      let t := s.uncount.chipReset (if s.resetCrossed then 3 else 0)
      (s.thermtrip = false → exec (.resetN us) s = .next t)
      ∧ (s.thermtrip = true → exec (.resetN us) s = .next (({ t with thermtrip := false } : State).emit (.pin 1 true)))))
  ∧ (∀ s : State,
    let t := ({ s with perst := true, sessions := s.sessions.filter (fun x => x.func = 9) } : State)
    exec .pciePerst s = .next ((List.range 8).foldl (fun s p => (List.range 17).foldl (fun s f => s.setReg .Q_HOST_LEVEL p f 0) s)
      ((t.enabledQueues.filter (fun x => t.fld Q_CFG_CTRL.SPACE x.1 x.2 = 0)).foldl (fun s x => s.queueError x.1 x.2 3) t))
    ∧ exec .pciePerstRelease s = .next { s with perst := false }
    ∧ exec .vaonUp s = .next { s with vaon := true })
  ∧ (∀ (s : State) (p : Fin 8) (vf : Fin 17), exec (.functionReset p vf) s = .next (s.setReg .Q_HOST_LEVEL p.val vf.val 0))
  ∧ (∀ s : State,
    let t := ({ (s.wipe fused).drivePerst s with vaon := false } : State)
    (s.hbmEn = true → exec .powerOnReset s = .next (t.emit (.pin 0 false)))
    ∧ (s.hbmEn = false → exec .powerOnReset s = .next t))

/-- Tier 1, R294, R393, R424, R425, R426, R427, R429, R430, R431, R432, R433, R446. A boot of a device that has its supply and is not up: after
three attempts it is in tabby mode; with bad fuses, unreadable settings, or a flash that does not answer it fails with their cause; without its
reference it stays at stage 1; otherwise it takes an image and goes on as far as its surroundings let it, and one that has its image goes on from
where it stands; one that runs out of time fails with 0x0B, unless the power cycle that was to come is acknowledged. The steps of a boot that has
its image, each taken while the step reached is past the stage: the settings in force are applied; a missing regulator, die or firmware fails it
with its cause; the stacks train, and none in service fails it with 9; the ports train; and the last step ends it. RETRY in tabby mode clears the
attempts and resets the chip, and is ILLEGAL outside it; the image preferred is taken with it unless it is 0x3; SMBus reads of tabby mode answer the
status, the cause and the attempts, and another, or one outside it, is not answered. That a boot is one command with its surroundings is the model's
choice (log entries 67 to 69). -/
def Obligations.BootOutcomes : Prop :=
  ((∀ (s : State) (env : BootEnv),
    let n := s.fld BOOT_STATUS.ATTEMPTS 0 0
    let out := s.thermtrip = true ∨ s.vaon = false ∨ 7 ≤ s.fld BOOT_STATUS.STAGE 0 0
    let worn := 3 ≤ n ∧ s.booting = false
    let t := (if s.booting then s else s.setFld BOOT_STATUS.ATTEMPTS 0 0 (n + 1)).readOtp
    let on := t.booting = true ∧ t.hasImage = true
    let lost := t.inForce = 0 ∧ ∃ g ∈ [1, 2, 3, 4], t.genMark g ≠ 0
    (out → exec (.bootStart env) s = .next s)
    ∧ (¬ out → worn → exec (.bootStart env) s = .next
      ({ (((s.readOtp).setFld BOOT_STATUS.TABBY 0 0 1).bootStage 8) with resetting := s.resetting.filter (fun x => x.1 ≠ 4) } : State).resetBusy)
    ∧ (¬ out → ¬ worn → on → exec (.bootStart env) s = .next (t.bootSteps env env.reached.val 7))
    ∧ (¬ out → ¬ worn → ¬ on →
      (env.fuses = false → exec (.bootStart env) s = .next (t.bootFail 0x0C))
      ∧ (env.fuses = true → lost → exec (.bootStart env) s = .next (t.bootFail 3))
      ∧ (env.fuses = true → ¬ lost →
        (t.refclk ≠ 0 ∨ env.reached.val = 0 → exec (.bootStart env) s = .next (t.bootStage 1))
        ∧ (t.refclk = 0 → env.reached.val ≠ 0 → env.flash = false → exec (.bootStart env) s = .next (t.bootFail 2))
        ∧ (t.refclk = 0 → env.reached.val ≠ 0 → env.flash = true →
          (∀ x, t.chooseImage = .ok x → exec (.bootStart env) s = .next ((t.takeImage x).bootSteps env env.reached.val 7))
          ∧ (∀ e, t.chooseImage = .error e → exec (.bootStart env) s = .next (t.bootFail e))))))
  ∧ (∀ (s : State) (ack : Bool),
    let t := s.setReg .BOOT_FAIL_CAUSE 0 0 0x0B
    let u := if s.maxBefore = 5 then t.powerCycle ack else t
    (s.booting = false → exec (.bootTimeout ack) s = .next s)
    ∧ (s.booting = true →
      (s.maxBefore = 5 ∧ s.tabnex.isSome = true ∧ ack = true → exec (.bootTimeout ack) s = .next u)
      ∧ (¬ (s.maxBefore = 5 ∧ s.tabnex.isSome = true ∧ ack = true) → exec (.bootTimeout ack) s = .next (u.bootFail 0x0B)))))
  ∧ (∀ (s : State) (env : BootEnv) (r n : Nat),
    let k := s.fld BOOT_STATUS.STAGE 0 0
    let trained := s.bootHbm env
    (r ≤ k → s.bootSteps env r (n + 1) = s)
    ∧ (k < r → k = 1 → s.bootSteps env r (n + 1) = s.applySettings.bootSteps env r n)
    ∧ (k < r → k = 2 →
      (env.regulators = false → s.bootSteps env r (n + 1) = s.bootFail 5)
      ∧ (env.regulators = true → env.creel = false → s.bootSteps env r (n + 1) = s.bootFail 6)
      ∧ (env.regulators = true → env.creel = true → env.loom = false → s.bootSteps env r (n + 1) = s.bootFail 7)
      ∧ (env.regulators = true → env.creel = true → env.loom = true → env.firmware = false → s.bootSteps env r (n + 1) = s.bootFail 8)
      ∧ (env.regulators = true → env.creel = true → env.loom = true → env.firmware = true →
        s.bootSteps env r (n + 1) = (s.bootStage 3).bootSteps env r n))
    ∧ (k < r → k = 3 →
      ((∀ st < 16, trained.fld HBM_STACK_STATUS.STATE st 0 = 2) → s.bootSteps env r (n + 1) = trained.bootFail 9)
      ∧ (∀ st < 16, trained.fld HBM_STACK_STATUS.STATE st 0 ≠ 2 → s.bootSteps env r (n + 1) = trained.bootSteps env r n))
    ∧ (k < r → k = 4 → s.bootSteps env r (n + 1) = s.bootPorts.bootSteps env r n)
    ∧ (k < r → k = 5 → s.bootSteps env r (n + 1) = (s.bootStage 6).bootSteps env r n)
    ∧ (k < r → (k = 0 ∨ 6 ≤ k) → s.bootSteps env r (n + 1) = s.bootDone))
  ∧ ((∀ (s : State) (v : W32),
    let w := setBits v.toNat 4 1 1
    let t := if w % 4 = 3 then s else s.setFld BOOT_CTRL.PREF 0 0 w
    (t.fld BOOT_STATUS.TABBY 0 0 = 1 → exec (.retry v) s = .next ((t.setFld BOOT_STATUS.ATTEMPTS 0 0 0).chipReset 1))
    ∧ (t.fld BOOT_STATUS.TABBY 0 0 ≠ 1 → exec (.retry v) s = .next (t.setFld BOOT_CTRL.RESULT 0 0 Status.illegal.code)))
  ∧ (∀ s : State,
    (s.fld BOOT_STATUS.TABBY 0 0 ≠ 0 →
      exec (.smbusReadByte 0x20) s = .next (s.emit (.smbus (s.reg .BOOT_STATUS 0 0 % 256)))
      ∧ exec (.smbusReadByte 0x21) s = .next (s.emit (.smbus (s.fld BOOT_FAIL_CAUSE.CAUSE 0 0)))
      ∧ exec (.smbusReadByte 0x22) s = .next (s.emit (.smbus (s.fld BOOT_STATUS.ATTEMPTS 0 0)))
      ∧ ∀ c, c ≠ 0x20 → c ≠ 0x21 → c ≠ 0x22 → exec (.smbusReadByte c) s = .next s)
    ∧ (s.fld BOOT_STATUS.TABBY 0 0 = 0 → ∀ c, exec (.smbusReadByte c) s = .next s)))

/-- Tier 1, R432, R435. A flash command with its address aligned starts: an erase of 64 KiB, a program of 256 B from the window, a read into it;
outside tabby mode the image in use is neither erased nor programmed; a command while one runs, or not aligned, is ILLEGAL. Its end makes the
change. OTP_PROGRAM burns the next generation, outside the blank state without the vendor, and takes it into OTP_GEN_STATUS at its end; its refusals
have their statuses. The order of the refusals is the model's reading (log entries 68 and 69). -/
def Obligations.FlashAndOtp : Prop :=
  (∀ (s : State) (v : W32),
    let a := s.fld BOOT_FLASH_ADDR.ADDR 0 0
    let sel := s.fld BOOT_FLASH_ADDR.SEL 0 0
    let begun := fun cmd page => ({ s with flashOp := some ⟨cmd, sel, a, page⟩ } : State).setFld BOOT_FLASH_CMD.BUSY 0 0 1
    let free := s.fld BOOT_STATUS.TABBY 0 0 ≠ 0 ∨ sel ≠ s.fld BOOT_STATUS.IMAGE 0 0
    (s.flashOp.isSome = true → ∀ c ∈ [Instr.flashErase v, .flashProgram v, .flashRead v], exec c s = .next (s.flashResult .illegal))
    ∧ (s.flashOp = none →
      (a % 65536 = 0 → free → exec (.flashErase v) s = .next (begun 1 []))
      ∧ (a % 256 = 0 → free → exec (.flashProgram v) s = .next (begun 2 s.window))
      ∧ (a % 256 = 0 → exec (.flashRead v) s = .next (begun 3 []))
      ∧ (a % 65536 = 0 → ¬ free → exec (.flashErase v) s = .next (s.flashResult .protection))
      ∧ (a % 256 = 0 → ¬ free → exec (.flashProgram v) s = .next (s.flashResult .protection))
      ∧ (a % 65536 ≠ 0 → exec (.flashErase v) s = .next (s.flashResult .illegal))
      ∧ (a % 256 ≠ 0 → ∀ c ∈ [Instr.flashProgram v, .flashRead v], exec c s = .next (s.flashResult .illegal))))
  ∧ (∀ (s : State) (op : Option FlashOp), s.flashOp = op →
    (op = none → exec .flashCommandComplete s = .next s)
    ∧ ∀ o, op = some o →
      let t := ((({ s with flashOp := none } : State).setFld BOOT_FLASH_CMD.BUSY 0 0 0).flashResult .ok)
      let k := o.sel * 2 ^ 28 + o.addr
      (o.cmd = 1 → exec .flashCommandComplete s = .next { t with flash := SMap.clearRange t.flash k 65536 })
      ∧ (o.cmd = 2 → exec .flashCommandComplete s = .next
        { t with flash := (o.page.zipIdx).foldl (fun m b => SMap.set (0xFF : Byte) m (k + b.2) b.1) t.flash })
      ∧ (o.cmd ≠ 1 → o.cmd ≠ 2 → exec .flashCommandComplete s = .next ((List.range 64).foldl (fun u i =>
        u.setReg .BOOT_FLASH_DATA i 0 (leNat (((t.readFlash o.sel o.addr 256).drop (4 * i)).take 4))) t)))
  ∧ (∀ (s : State) (v : W32) (vendor : Bool),
    let life := s.fld SEC_LIFECYCLE.STATE 0 0
    let may := life ≠ 3 ∧ (life ≠ 0 ∨ vendor = true)
    let next := [1, 2, 3, 4].find? (fun g => s.genMark g = 0 && (s.otpOp.map (·.1)) ≠ some g)
    (¬ may → exec (.otpProgram v vendor) s = .next (s.otpResult .protection))
    ∧ (may → next = none → exec (.otpProgram v vendor) s = .next (s.otpResult .illegal))
    ∧ (may → ∀ g, next = some g →
      (s.otpStaged.getD 0x3F 0 ≠ 0 → exec (.otpProgram v vendor) s = .next (s.otpResult .level))
      ∧ (s.otpStaged.getD 0x3F 0 = 0 →
        (s.otpOp.isSome = true → exec (.otpProgram v vendor) s = .next (s.otpResult .illegal))
        ∧ (s.otpOp = none →
          exec (.otpProgram v vendor) s = .next (({ s with otpOp := some (g, s.otpImage g) } : State).setFld OTP_CMD.BUSY 0 0 1)))))
  ∧ (∀ (s : State) (o : Option (Nat × List Byte)), s.otpOp = o →
    (o = none → exec .otpProgramComplete s = .next s)
    ∧ ∀ g b, o = some (g, b) →
      let t := (List.range 32).foldl (fun s i => s.setReg .OTP_GEN_DATA (g - 1) i (leNat ((b.drop (4 * i)).take 4))) { s with otpOp := none }
      exec .otpProgramComplete s = .next
        (((t.setReg .OTP_GEN_STATUS 0 0 (setBits (t.reg .OTP_GEN_STATUS 0 0) (2 * (g - 1)) 2 1)).setFld OTP_CMD.BUSY 0 0 0).otpResult .ok))

/-! ### Numbers -/

/-- Tier 3, R63, R64, R70. Decoding and encoding agree: every finite code of FP32, FP64, BF16 and A24, decoded and rounded back to its format in any
direction, gives the same code and raises no flag, whichever way tininess is detected. -/
def Obligations.FormatsRoundTrip : Prop :=
  ∀ f ∈ [Fmt.fp32, Fmt.fp64, Fmt.bf16, Fmt.a24], ∀ (tiny : Bool) (rm : RM) (c : Nat) (neg : Bool) (d : Dy),
    c < 2 ^ (f.eb + f.fb + 1) → f.decode c = .fin neg d → f.roundDy tiny rm neg d = (c, {})
end

