-- ==== Sys2Proof/Laws/Access.lean ====
section
/-! SUPPORT. What an access through a BAR can do, said once (R14 to R17, R371). -/

namespace Sys2Proof.Machine
open Sys2Proof

/-- An access that acts for a function. -/
theorem viaTenant_some {s : State} {bar : Bar} {p n : Nat} {f : Nat → Nat → State} (h : s.function bar = some (p, n)) :
    s.viaTenant bar f = f p n := by
  by_cases ht : s.fld BOOT_STATUS.TABBY 0 0 = 1
  · simp [State.function, ht] at h
  · rcases bar with _ | ⟨q, ide⟩ | ⟨q, v, ide⟩
    · simp [State.function, ht] at h
    all_goals
      simp only [State.function, if_neg ht, State.ideRefuses] at h
      simp only [State.viaTenant, if_neg ht]
      by_cases h1 : ide = true <;> by_cases h2 : s.fld PART_ASSIGN.STATE q.val 0 = 2 <;>
        by_cases h3 : q.val ∈ s.ideWaived <;> simp [h1, h2, h3] at h ⊢ <;> simp_all

/-- An access that acts for a partition's physical function. -/
theorem viaPhysical_some {s : State} {bar : Bar} {p : Nat} {f : Nat → State} (h : s.function bar = some (p, 0)) :
    s.viaPhysical bar f = f p := by
  simp [State.viaPhysical, viaTenant_some h]

/-- A virtual function reaches none of the registers of the physical one (R17). -/
theorem viaPhysical_virtual {s : State} {bar : Bar} {p n : Nat} {f : Nat → State} (h : s.function bar = some (p, n + 1)) :
    s.viaPhysical bar f = s := by
  simp [State.viaPhysical, viaTenant_some h]

end Sys2Proof.Machine
end

