-- ==== Sys2Proof/Laws/Alarms.lean ====
section
/-! SUPPORT. What the shared operations of alarms and logs can change, said once: an alarm changes registers, what leaves the device and what
its ports hold, the risk estimator and what is sent to the twin; a log record changes the logs as well. -/

namespace Sys2Proof.Machine
open Sys2Proof

/-- `t` is `s` but for what an alarm may change (R348, R349, R399). -/
def AlarmOnly (s t : State) : Prop :=
  ∃ r o f e q v x, t = { s with regs := r, outs := o, free := f, riskE := e, sendSeq := q, selvSent := v, ports := x }

/-- `t` is `s` but for what a log record may change (R399, R407, R408). -/
def LogOnly (s t : State) : Prop :=
  ∃ r o f e q v x g c m, t = { s with regs := r, outs := o, free := f, riskE := e, sendSeq := q, selvSent := v, ports := x, staged := g, coalesce := c,
                                             msRecords := m }

theorem AlarmOnly.refl (s : State) : AlarmOnly s s := ⟨_, _, _, _, _, _, _, rfl⟩
theorem AlarmOnly.trans {s t u : State} : AlarmOnly s t → AlarmOnly t u → AlarmOnly s u := by
  rintro ⟨_, _, _, _, _, _, _, rfl⟩ ⟨_, _, _, _, _, _, _, rfl⟩; exact ⟨_, _, _, _, _, _, _, rfl⟩
theorem LogOnly.refl (s : State) : LogOnly s s := ⟨_, _, _, _, _, _, _, _, _, _, rfl⟩
theorem LogOnly.trans {s t u : State} : LogOnly s t → LogOnly t u → LogOnly s u := by
  rintro ⟨_, _, _, _, _, _, _, _, _, _, rfl⟩ ⟨_, _, _, _, _, _, _, _, _, _, rfl⟩; exact ⟨_, _, _, _, _, _, _, _, _, _, rfl⟩
theorem AlarmOnly.log {s t : State} : AlarmOnly s t → LogOnly s t := by
  rintro ⟨_, _, _, _, _, _, _, rfl⟩; exact ⟨_, _, _, _, _, _, _, _, _, _, rfl⟩

theorem setReg_alarmOnly (s : State) (r : RegName) (i j v : Nat) : AlarmOnly s (s.setReg r i j v) := ⟨_, _, _, _, _, _, _, rfl⟩
theorem fresh_alarmOnly (s : State) : AlarmOnly s s.fresh.2 := ⟨_, _, _, _, _, _, _, rfl⟩
theorem now_alarmOnly (s : State) : AlarmOnly s s.now.2 := ⟨_, _, _, _, _, _, _, rfl⟩
theorem emit_alarmOnly (s : State) (o : Out) : AlarmOnly s (s.emit o) := ⟨_, _, _, _, _, _, _, rfl⟩

theorem setPort_alarmOnly (s : State) (l : Nat) (x : Port) : AlarmOnly s (s.setPort l x) := ⟨_, _, _, _, _, _, _, rfl⟩

theorem sent_alarmOnly (s : State) (l : Nat) (y : List Flit × Port) : AlarmOnly s (match y with
    | (fs, x) => { s with ports := SMap.set {} s.ports l x, outs := s.outs ++ fs.map (Flit.out l x.ack) }) := by
  obtain ⟨fs, x⟩ := y
  exact ⟨s.regs, _, s.free, s.riskE, s.sendSeq, s.selvSent, _, rfl⟩

/-- What a link sends at once changes its port and what leaves the device (R166, R169). -/
theorem pump_alarmOnly (s : State) (l : Nat) : AlarmOnly s (s.pump l) := by
  unfold State.pump
  exact sent_alarmOnly s l _

theorem enqueue_alarmOnly (s : State) (l cls : Nat) (pk : Packet) (b : List Byte) : AlarmOnly s (s.enqueue l cls pk b) := by
  unfold State.enqueue
  exact AlarmOnly.trans (setPort_alarmOnly s l _) (pump_alarmOnly _ l)

theorem sendSelvage_alarmOnly (s : State) (type job commit w2 offset arg : Nat) (b : List Byte) :
    AlarmOnly s (s.sendSelvage type job commit w2 offset arg b) := by
  unfold State.sendSelvage
  dsimp only
  split
  · split
    · exact .refl s
    · refine AlarmOnly.trans ?_ (enqueue_alarmOnly ..)
      split
      · exact (AlarmOnly.trans ⟨_, _, _, _, _, _, _, rfl⟩ (setReg_alarmOnly ..)).trans ⟨_, _, _, _, _, _, _, rfl⟩
      · exact AlarmOnly.trans ⟨_, _, _, _, _, _, _, rfl⟩ (setReg_alarmOnly ..)
  · exact .refl s

theorem foldl_alarmOnly {α : Type} (f : State → α → State) (h : ∀ s x, AlarmOnly s (f s x)) (l : List α) (s : State) :
    AlarmOnly s (l.foldl f s) := by
  induction l generalizing s with
  | nil => exact .refl s
  | cons x l ih => exact (h s x).trans (ih (f s x))

theorem sendFlush_alarmOnly (s : State) : AlarmOnly s s.sendFlush := by
  unfold State.sendFlush
  split
  · exact (setReg_alarmOnly ..).trans (foldl_alarmOnly _ (fun s x => sendSelvage_alarmOnly ..) ..)
  · exact .refl s

theorem riskFollow_alarmOnly (s : State) : AlarmOnly s s.riskFollow := by
  have h := (setReg_alarmOnly s SELV_RISK.VALUE.reg 0 0
    (setBits (s.reg SELV_RISK.VALUE.reg 0 0) SELV_RISK.VALUE.lo SELV_RISK.VALUE.len (riskOf s.riskE s.junction)))
  unfold State.riskFollow
  dsimp only
  split
  · exact .refl s
  · split
    · exact (h.trans (setReg_alarmOnly ..)).trans (sendFlush_alarmOnly _)
    · exact h.trans (setReg_alarmOnly ..)

/-- An alarm changes registers, outputs, the free values taken, the risk estimator and the selvage's sending (R348, R399). -/
theorem alarm_alarmOnly (s : State) (cls : Nat) : AlarmOnly s (s.alarm cls) := by
  have go : ∀ (u : State) (w : Nat), AlarmOnly s u →
      AlarmOnly s (if (w = 0 || u.mgmtStopped) = true then u else ({ u with riskE := min 255 (u.riskE + w) } : State).riskFollow) := by
    intro u w h
    split
    · exact h
    · exact (h.trans ⟨_, _, _, _, _, _, _, rfl⟩).trans (riskFollow_alarmOnly _)
  unfold State.alarm
  dsimp only
  refine go _ _ ?_
  refine ((AlarmOnly.trans ?_ (setReg_alarmOnly ..)).trans (setReg_alarmOnly ..)).trans (setReg_alarmOnly ..)
  split
  · exact (now_alarmOnly s).trans (setReg_alarmOnly ..)
  · exact now_alarmOnly s

theorem logLoss_alarmOnly (s : State) (ring : Nat) : AlarmOnly s (s.logLoss ring) := by
  unfold State.logLoss
  split <;> exact (setReg_alarmOnly ..).trans (alarm_alarmOnly ..)

theorem stage_logOnly (s : State) (r : LogRec) : LogOnly s (s.stage r) := by
  unfold State.stage
  split
  · exact ⟨_, _, _, _, _, _, _, _, _, _, rfl⟩
  · exact (logLoss_alarmOnly ..).log

theorem coalesceRec_logOnly (s : State) (r : LogRec) : LogOnly s (s.coalesceRec r) := by
  unfold State.coalesceRec
  split
  · exact ⟨_, _, _, _, _, _, _, _, _, _, rfl⟩
  · split
    · exact ⟨_, _, _, _, _, _, _, _, _, _, rfl⟩
    · split
      · exact ⟨_, _, _, _, _, _, _, _, _, _, rfl⟩
      · exact (stage_logOnly s _).trans ⟨_, _, _, _, _, _, _, _, _, _, rfl⟩

theorem incidentCheck_alarmOnly (s : State) : AlarmOnly s s.incidentCheck := by
  unfold State.incidentCheck
  dsimp only
  split
  · exact (setReg_alarmOnly ..).trans (alarm_alarmOnly ..)
  · exact .refl s

/-- A log record changes what an alarm may, the staging store, the coalescing table and the count of the millisecond (R407, R408). -/
theorem logRec_logOnly (s : State) (ring kind source : Nat) (body : List Byte) : LogOnly s (s.logRec ring kind source body) := by
  unfold State.logRec
  dsimp only
  refine LogOnly.trans ?_ (incidentCheck_alarmOnly _).log
  split
  · exact ((now_alarmOnly s).log.trans ⟨_, _, _, _, _, _, _, _, _, _, rfl⟩).trans (coalesceRec_logOnly ..)
  · exact ((now_alarmOnly s).log.trans ⟨_, _, _, _, _, _, _, _, _, _, rfl⟩).trans (stage_logOnly ..)

/-- Whether THERMTRIP_N is asserted is no matter of alarms or logs. -/
theorem LogOnly.thermtrip {s t : State} (h : LogOnly s t) : t.thermtrip = s.thermtrip := by
  obtain ⟨_, _, _, _, _, _, _, _, _, _, rfl⟩ := h; rfl

/-- A chip reset does not end a thermal trip (R441). -/
theorem chipReset_thermtrip (s : State) (cause : Nat) : (s.chipReset cause).thermtrip = s.thermtrip := by
  have h1 : (s.alarm 0x08).thermtrip = s.thermtrip := (alarm_alarmOnly s 0x08).log.thermtrip
  have h2 : ∀ u : State, u.resetChip.thermtrip = u.thermtrip := by
    intro u; unfold State.resetChip; dsimp only; split <;> rfl
  have h3 : ∀ u : State, u.resetBusy.thermtrip = u.thermtrip := by intro u; rfl
  unfold State.chipReset
  dsimp only
  rw [h3, (logRec_logOnly ..).thermtrip]
  split
  · exact (h2 _).trans h1
  · exact (h2 _).trans h1

end Sys2Proof.Machine
end

