-- ==== Sys2Proof/Laws/Issue.lean ====
section
/-! SUPPORT. What the issue of an Onaile instruction (R236, R238, R243 to R246) and the start of a queue's command (R271, R273, R275) can do,
said once. -/

namespace Sys2Proof.Machine
open Sys2Proof

/-- The issue of a program state that stands at the word its command spells. -/
theorem issue_stands {s : State} {x : Issue} {r : Row} {g : Prog} (h : s.Stands x g (spelled x r.opcode)) :
    s.issue x r = (if (x.lvl = 1 && r.sub x.op.toNat) = true then
        if !namedOnly x.op.toNat r.fields then (s.fetched x g).trapped (issOf x g r.opcode) .level
        else match r.effect (issOf x g r.opcode) (s.fetched x g) with
          | .raise st => (s.fetched x g).trapped (issOf x g r.opcode) st
          | .hold => s
          | .go g2 s2 => s2.landed (issOf x g r.opcode) g2
      else if (rowOf (spelled x r.opcode)).isSome then s
      else (s.fetched x g).trapped (g.iss x.part.val x.engine.val x.ps.val (bits (spelled x r.opcode) 56 8) 0 false) .level) := by
  obtain ⟨h1, h2, h3, h4, h5, h6, h7⟩ := h
  rcases hx : s.fetch x.part.val x.engine.val g with ⟨st, w, u⟩
  simp only [hx] at h6 h7
  subst h6
  have h9 : (g.trap.isSome || g.wait ≠ Wait.none || s.stopped || !s.due x.part.val x.engine.val x.ps.val) = false := by simp [h2, h3, h4, h5]
  have hf : s.fetched x g = u.turnTo x.part.val x.engine.val x.ps.val := by simp [State.fetched, hx]
  rw [hf]
  unfold State.issue
  dsimp only
  rw [h1]
  dsimp only
  rw [if_neg (by rw [h9]; simp), hx]
  dsimp only
  rw [h7]
  simp only [spelled, decide_true, Bool.true_and]
  rfl

/-- A ready instruction whose effect goes on lands. -/
theorem issue_go {s : State} {x : Issue} {r : Row} {g g2 : Prog} {s2 : State} (h : s.Ready x r.opcode r.fields g)
    (hs : r.sub x.op.toNat = true) (hf : r.effect (issOf x g r.opcode) (s.fetched x g) = .go g2 s2) :
    s.issue x r = s2.landed (issOf x g r.opcode) g2 := by
  obtain ⟨h1, h2, h3⟩ := h
  rw [issue_stands h1, if_pos (by simp [h2, hs]), if_neg (by simp [h3]), hf]

/-- A ready instruction that meets an exception. -/
theorem issue_raise {s : State} {x : Issue} {r : Row} {g : Prog} {st : Status} (h : s.Ready x r.opcode r.fields g)
    (hs : r.sub x.op.toNat = true) (hf : r.effect (issOf x g r.opcode) (s.fetched x g) = .raise st) :
    s.issue x r = (s.fetched x g).trapped (issOf x g r.opcode) st := by
  obtain ⟨h1, h2, h3⟩ := h
  rw [issue_stands h1, if_pos (by simp [h2, hs]), if_neg (by simp [h3]), hf]

/-- An instruction that names a bit outside its fields completes with LEVEL (R244, R245). -/
theorem issue_level {s : State} {x : Issue} {r : Row} {g : Prog} (h : s.Stands x g (spelled x r.opcode)) (hl : x.lvl = 1)
    (hs : r.sub x.op.toNat = true) (hn : namedOnly x.op.toNat r.fields = false) :
    s.issue x r = (s.fetched x g).trapped (issOf x g r.opcode) .level := by
  rw [issue_stands h, if_pos (by simp [hl, hs]), if_pos (by simp [hn])]

/-- A word that no row spells, a reserved level among them, completes with LEVEL and does nothing (R245). -/
theorem issue_reserved {s : State} {x : Issue} {r : Row} {g : Prog} (h : s.Stands x g (spelled x r.opcode))
    (hl : x.lvl ≠ 1 ∨ r.sub x.op.toNat = false) (hr : rowOf (spelled x r.opcode) = none) :
    s.issue x r = (s.fetched x g).trapped (g.iss x.part.val x.engine.val x.ps.val (bits (spelled x r.opcode) 56 8) 0 false) .level := by
  rw [issue_stands h, if_neg (by rcases hl with h | h <;> simp_all), if_neg (by simp [hr])]

/-- A program state that is free, waits or has met an exception issues nothing, and neither does a stopped engine, nor one whose turn it is
not. -/
theorem issue_idle {s : State} {x : Issue} {r : Row}
    (h : ∀ g, s.prog (progKey x.part.val x.engine.val x.ps.val) = some g → g.trap.isSome ∨ g.wait ≠ .none ∨ s.stopped = true
      ∨ s.due x.part.val x.engine.val x.ps.val = false) :
    s.issue x r = s := by
  rcases hp : s.prog (progKey x.part.val x.engine.val x.ps.val) with _ | g
  · simp [State.issue, hp]
  · have h9 : (g.trap.isSome || g.wait ≠ Wait.none || s.stopped || !s.due x.part.val x.engine.val x.ps.val) = true := by
      rcases h g hp with a | a | a | a <;> simp [a]
    unfold State.issue
    dsimp only
    rw [hp]
    exact if_pos h9

/-- A command that starts has its effect in the state after its queue is served (R275). -/
theorem startCmd_go {s : State} {x : QueueId} {cmd : Cmd} {is : Cmd → Bool} {f} (h : s.Starts x cmd) (hi : is cmd = true) :
    s.startCmd x is f = f (s.served x) x.part.val x.q.val (s.queueCtx x) cmd := by
  obtain ⟨h1, h2, h3, h4, h5, h6⟩ := h
  have h7 : (s.canStart x.part.val x.q.val && !s.queueDue x.part.val x.q.val) = false := by
    cases h : s.canStart x.part.val x.q.val with
    | false => rfl
    | true => simp [h6 h]
  simp only [State.startCmd, h1, hi, h2, h3, h4, h5, h7, State.served, State.queueCtx]
  simp

end Sys2Proof.Machine
end

