-- ==== Sys2Proof/Laws/Memory.lean ====
section
/-! SUPPORT. The sparse stores: what a read gives after each operation, and that every operation keeps the canonical form. -/

namespace Sys2Proof.Machine
open Sys2Proof

/-! ### Reading back -/

theorem SMap.get_erase {α : Type} (d : α) (m : SMap α) (k j : Nat) :
    SMap.get d (SMap.erase m k) j = if j = k then d else SMap.get d m j := by
  induction m with
  | nil => simp [SMap.erase, SMap.get]
  | cons c t ih =>
    obtain ⟨k', v⟩ := c
    simp only [SMap.erase] at ih ⊢
    by_cases h : k' = k
    · subst h
      rw [List.filter_cons_of_neg (by simp), ih]
      by_cases hj : j = k'
      · simp [hj]
      · have : ¬ k' = j := fun e => hj e.symm
        simp [hj, SMap.get, this]
    · rw [List.filter_cons_of_pos (by simpa using h)]
      by_cases hj : k' = j
      · subst hj; simp [SMap.get, h]
      · simp only [SMap.get, hj, if_false, ih]

theorem SMap.get_insert {α : Type} (d : α) (k : Nat) (v : α) (m : SMap α) (j : Nat) (h : ∀ c ∈ m, c.1 ≠ k) :
    SMap.get d (SMap.insert k v m) j = if j = k then v else SMap.get d m j := by
  induction m with
  | nil =>
    by_cases hj : j = k
    · simp [SMap.insert, SMap.get, hj]
    · simp [SMap.insert, SMap.get, hj, Ne.symm hj]
  | cons c t ih =>
    obtain ⟨k', v'⟩ := c
    have hk : k' ≠ k := h (k', v') (by simp)
    by_cases hlt : k < k'
    · simp only [SMap.insert, hlt, if_true, SMap.get]
      by_cases hj : k = j
      · simp [hj]
      · simp [hj, Ne.symm hj]
    · simp only [SMap.insert, hlt, if_false, SMap.get]
      by_cases hj : k' = j
      · subst hj; simp [hk]
      · simp only [hj, if_false]
        exact ih (fun c hc => h c (List.mem_cons_of_mem _ hc))

theorem SMap.mem_erase {α : Type} {m : SMap α} {k : Nat} {c : Nat × α} : c ∈ SMap.erase m k ↔ c ∈ m ∧ c.1 ≠ k := by
  simp [SMap.erase]

/-- A read after a write gives the value written, and every other key reads as before. -/
theorem SMap.get_set {α : Type} [DecidableEq α] (d : α) (m : SMap α) (k : Nat) (v : α) (j : Nat) :
    SMap.get d (SMap.set d m k v) j = if j = k then v else SMap.get d m j := by
  unfold SMap.set
  by_cases h : v = d
  · rw [if_pos h, SMap.get_erase, h]
  · rw [if_neg h, SMap.get_insert _ _ _ _ _ (fun c hc => (SMap.mem_erase.mp hc).2), SMap.get_erase]
    by_cases hj : j = k <;> simp [hj]

/-! ### The canonical form -/

theorem SMap.erase_rising {α : Type} {m : SMap α} (h : SMap.Rising m) (k : Nat) : SMap.Rising (SMap.erase m k) := h.filter _

theorem SMap.mem_insert {α : Type} {k : Nat} {v : α} {m : SMap α} {c : Nat × α} : c ∈ SMap.insert k v m ↔ c = (k, v) ∨ c ∈ m := by
  induction m with
  | nil => simp [SMap.insert]
  | cons e t ih =>
    obtain ⟨k', v'⟩ := e
    unfold SMap.insert
    split
    · simp
    · rw [List.mem_cons, ih, List.mem_cons, or_left_comm]

theorem SMap.insert_rising {α : Type} {m : SMap α} (h : SMap.Rising m) (k : Nat) (v : α) (hk : ∀ c ∈ m, c.1 ≠ k) :
    SMap.Rising (SMap.insert k v m) := by
  induction m with
  | nil => simp [SMap.insert, SMap.Rising]
  | cons e t ih =>
    obtain ⟨k', v'⟩ := e
    have h' := List.pairwise_cons.mp h
    unfold SMap.insert
    split
    · rename_i hlt
      refine List.pairwise_cons.mpr ⟨fun c hc => ?_, h⟩
      rcases List.mem_cons.mp hc with rfl | hc
      · exact hlt
      · exact Nat.lt_trans hlt (h'.1 c hc)
    · rename_i hlt
      refine List.pairwise_cons.mpr ⟨fun c hc => ?_, ih h'.2 (fun c hc => hk c (List.mem_cons_of_mem _ hc))⟩
      rcases SMap.mem_insert.mp hc with rfl | hc
      · have := hk (k', v') (by simp)
        simp only at this ⊢
        omega
      · exact h'.1 c hc

theorem SMap.put_rising {α : Type} {m : SMap α} (h : SMap.Rising m) (k : Nat) (v : α) : SMap.Rising (SMap.put m k v) :=
  SMap.insert_rising (SMap.erase_rising h k) k v (fun _ hc => (SMap.mem_erase.mp hc).2)

theorem SMap.set_rising {α : Type} [DecidableEq α] {m : SMap α} (h : SMap.Rising m) (d : α) (k : Nat) (v : α) :
    SMap.Rising (SMap.set d m k v) := by
  unfold SMap.set
  split
  · exact SMap.erase_rising h k
  · exact SMap.put_rising h k v

theorem SMap.filter_wf {α : Type} {d : Nat → α} {m : SMap α} (h : SMap.Wf d m) (p : Nat × α → Bool) : SMap.Wf d (m.filter p) :=
  ⟨h.1.filter _, fun c hc => h.2 c (List.mem_filter.mp hc).1⟩

theorem SMap.clearRange_wf {α : Type} {d : Nat → α} {m : SMap α} (h : SMap.Wf d m) (a n : Nat) : SMap.Wf d (SMap.clearRange m a n) :=
  SMap.filter_wf h _

/-- Writing a key keeps the canonical form. -/
theorem SMap.set_wf {α : Type} [DecidableEq α] {d : α} {m : SMap α} (h : SMap.Wf (fun _ => d) m) (k : Nat) (v : α) :
    SMap.Wf (fun _ => d) (SMap.set d m k v) := by
  refine ⟨SMap.set_rising h.1 d k v, ?_⟩
  unfold SMap.set
  split
  · exact fun c hc => h.2 c (SMap.mem_erase.mp hc).1
  · rename_i hv
    intro c hc
    rcases SMap.mem_insert.mp hc with rfl | hc
    · exact hv
    · exact h.2 c (SMap.mem_erase.mp hc).1

/-- Storing a run of bytes keeps the canonical form. -/
theorem writeBytes_wf {m : SMap Byte} (h : SMap.Wf (fun _ => (0 : Byte)) m) (a : Nat) (bs : List Byte) :
    SMap.Wf (fun _ => (0 : Byte)) (writeBytes m a bs) := by
  induction bs generalizing m a with
  | nil => exact h
  | cons b bs ih => exact ih (SMap.set_wf h a b) (a + 1)

theorem fillBytes_wf {m : SMap Byte} (h : SMap.Wf (fun _ => (0 : Byte)) m) (a n : Nat) (f : Nat → Byte) :
    SMap.Wf (fun _ => (0 : Byte)) (fillBytes m a n f) := writeBytes_wf h a _

/-! ### Registers -/

theorem regKey_inj {r r' : RegName} {i j i' j' : Nat} (hi : i < 2 ^ 20) (hj : j < 2 ^ 20) (hi' : i' < 2 ^ 20) (hj' : j' < 2 ^ 20)
    (h : regKey r i j = regKey r' i' j') : r.ctorIdx = r'.ctorIdx ∧ i = i' ∧ j = j' := by
  unfold regKey at h
  rw [Nat.mod_eq_of_lt hi, Nat.mod_eq_of_lt hj, Nat.mod_eq_of_lt hi', Nat.mod_eq_of_lt hj'] at h
  omega

/-- A register write is a write of one key of the register store, which stays in canonical order. -/
theorem setReg_rising {s : State} (h : SMap.Rising s.regs) (r : RegName) (i j v : Nat) : SMap.Rising (s.setReg r i j v).regs :=
  SMap.set_rising h _ _ _

end Sys2Proof.Machine
end

