-- ==== Sys2Proof/Laws/Packets.lean ====
section
/-! SUPPORT. What a packet's arrival answers (R179), once, and the check of a run of zeros. -/

namespace Sys2Proof.Machine
open Sys2Proof

/-- A packet from an UP port of the fabric that passes every check arrives in the state that its tag's check leaves. -/
theorem arrive_ok {s t : State} {k : Packet} {port : Fin 16} (hp : k.port = some port) (hu : s.linkUp port.val = true)
    (ht : (s.owe port.val k).tagCheck 0 k = (true, t))
    (hl : pkLevelOk k = true) (hm : t.member k = true) (hf : pkFormOk k = true)
    (h1 : pkType k = 1 → reduceCheck (t.redH (pkJob k) (pkStep k) (pkRed k)) (pkBlock k) k.payload = pkCheck k)
    (h5 : pkType k = 5 → gatherCheck (t.redH (pkJob k) (pkStep k) (pkRed k)) (pkArg k) k.payload = pkCheck k) :
    s.arrive k = (some t, t) := by
  have e : ¬ (pkType k = 1 ∧ ¬ reduceCheck (t.redH (pkJob k) (pkStep k) (pkRed k)) (pkBlock k) k.payload = pkCheck k ∨
      pkType k = 5 ∧ ¬ gatherCheck (t.redH (pkJob k) (pkStep k) (pkRed k)) (pkArg k) k.payload = pkCheck k) := by
    rintro (⟨a, b⟩ | ⟨a, b⟩)
    · exact b (h1 a)
    · exact b (h5 a)
  simp [State.arrive, State.arrival, State.checkFails, hp, hu, ht, hl, hm, hf, e]

/-- A packet from the fabric whose tag does not verify is discarded and counted (R179). -/
theorem arrive_refused {s t : State} {k : Packet} {port : Fin 16} (hp : k.port = some port) (hu : s.linkUp port.val = true)
    (ht : (s.owe port.val k).tagCheck 0 k = (false, t)) :
    s.arrive k = (none, t.bump .WEFT_PORT_AUTH_FAIL port.val 0 1) := by
  simp [State.arrive, State.arrival, hp, hu, ht]

/-- The check of zeros is zero, whatever the multiplier (R180). -/
theorem checkSum_zeros (h g n : Nat) : checkSum h g (List.replicate n 0) = 0 := by
  have key : ∀ (n a : Nat), (List.foldl (fun (x : Nat × Nat) v => ((x.1 + v % redP * x.2) % redP, x.2 * h % redP)) (0, a)
      (List.replicate n 0)).1 = 0 := by
    intro n
    induction n with
    | zero => intro a; rfl
    | succ n ih => intro a; rw [List.replicate_succ, List.foldl_cons]; simpa using ih (a * h % redP)
  exact key n _

theorem reduceCheck_zeros (h b n : Nat) : reduceCheck h b (List.replicate n 0) = 0 := by
  rw [reduceCheck, List.map_replicate]; exact checkSum_zeros _ _ _

theorem leNat_zeros (n : Nat) : leNat (List.replicate n (0 : Byte)) = 0 := by
  induction n with
  | zero => rfl
  | succ n ih => rw [List.replicate_succ, leNat, ih]; rfl

theorem gatherCheck_zeros (h a n : Nat) : gatherCheck h a (List.replicate n 0) = 0 := by
  have e : (List.range ((List.replicate n (0 : Byte)).length / 8)).map (fun i => leNat (((List.replicate n (0 : Byte)).drop (8 * i)).take 8))
      = List.replicate ((List.replicate n (0 : Byte)).length / 8) 0 := by
    rw [List.eq_replicate_iff]
    refine ⟨by simp, fun x hx => ?_⟩
    obtain ⟨i, -, rfl⟩ := List.mem_map.mp hx
    rw [List.drop_replicate, List.take_replicate]
    exact leNat_zeros _
  rw [gatherCheck, e]
  exact checkSum_zeros _ _ _

end Sys2Proof.Machine
end

