-- ==== Sys2Proof/Laws/State.lean ====
section
/-! SUPPORT. What each update of a state leaves as it was, one lemma for a field: writing a register, a field, a counter, or sending changes
nothing else; and the small lemmas of the updates of programs, steps, slots, queues and ports. -/

namespace Sys2Proof.Machine
open Sys2Proof

/-! ### setReg -/

@[simp] theorem setReg_pending (s : State) (r : RegName) (i j v : Nat) : (s.setReg r i j v).pending = s.pending := rfl
@[simp] theorem setReg_heldLow (s : State) (r : RegName) (i j v : Nat) : (s.setReg r i j v).heldLow = s.heldLow := rfl
@[simp] theorem setReg_latchedHigh (s : State) (r : RegName) (i j v : Nat) : (s.setReg r i j v).latchedHigh = s.latchedHigh := rfl
@[simp] theorem setReg_free (s : State) (r : RegName) (i j v : Nat) : (s.setReg r i j v).free = s.free := rfl
@[simp] theorem setReg_outs (s : State) (r : RegName) (i j v : Nat) : (s.setReg r i j v).outs = s.outs := rfl
@[simp] theorem setReg_hbm (s : State) (r : RegName) (i j v : Nat) : (s.setReg r i j v).hbm = s.hbm := rfl
@[simp] theorem setReg_bobbin (s : State) (r : RegName) (i j v : Nat) : (s.setReg r i j v).bobbin = s.bobbin := rfl
@[simp] theorem setReg_beam (s : State) (r : RegName) (i j v : Nat) : (s.setReg r i j v).beam = s.beam := rfl
@[simp] theorem setReg_board (s : State) (r : RegName) (i j v : Nat) : (s.setReg r i j v).board = s.board := rfl
@[simp] theorem setReg_lines (s : State) (r : RegName) (i j v : Nat) : (s.setReg r i j v).lines = s.lines := rfl
@[simp] theorem setReg_mapPorts (s : State) (r : RegName) (i j v : Nat) : (s.setReg r i j v).mapPorts = s.mapPorts := rfl
@[simp] theorem setReg_host (s : State) (r : RegName) (i j v : Nat) : (s.setReg r i j v).host = s.host := rfl
@[simp] theorem setReg_poison (s : State) (r : RegName) (i j v : Nat) : (s.setReg r i j v).poison = s.poison := rfl
@[simp] theorem setReg_damage (s : State) (r : RegName) (i j v : Nat) : (s.setReg r i j v).damage = s.damage := rfl
@[simp] theorem setReg_cards (s : State) (r : RegName) (i j v : Nat) : (s.setReg r i j v).cards = s.cards := rfl
@[simp] theorem setReg_unzeroed (s : State) (r : RegName) (i j v : Nat) : (s.setReg r i j v).unzeroed = s.unzeroed := rfl
@[simp] theorem setReg_fills (s : State) (r : RegName) (i j v : Nat) : (s.setReg r i j v).fills = s.fills := rfl
@[simp] theorem setReg_progs (s : State) (r : RegName) (i j v : Nat) : (s.setReg r i j v).progs = s.progs := rfl
@[simp] theorem setReg_nextTurn (s : State) (r : RegName) (i j v : Nat) : (s.setReg r i j v).nextTurn = s.nextTurn := rfl
@[simp] theorem setReg_icache (s : State) (r : RegName) (i j v : Nat) : (s.setReg r i j v).icache = s.icache := rfl
@[simp] theorem setReg_unitOps (s : State) (r : RegName) (i j v : Nat) : (s.setReg r i j v).unitOps = s.unitOps := rfl
@[simp] theorem setReg_asyncs (s : State) (r : RegName) (i j v : Nat) : (s.setReg r i j v).asyncs = s.asyncs := rfl
@[simp] theorem setReg_nextOp (s : State) (r : RegName) (i j v : Nat) : (s.setReg r i j v).nextOp = s.nextOp := rfl
@[simp] theorem setReg_queues (s : State) (r : RegName) (i j v : Nat) : (s.setReg r i j v).queues = s.queues := rfl
@[simp] theorem setReg_nextQueue (s : State) (r : RegName) (i j v : Nat) : (s.setReg r i j v).nextQueue = s.nextQueue := rfl
@[simp] theorem setReg_sched (s : State) (r : RegName) (i j v : Nat) : (s.setReg r i j v).sched = s.sched := rfl
@[simp] theorem setReg_passes (s : State) (r : RegName) (i j v : Nat) : (s.setReg r i j v).passes = s.passes := rfl
@[simp] theorem setReg_steps (s : State) (r : RegName) (i j v : Nat) : (s.setReg r i j v).steps = s.steps := rfl
@[simp] theorem setReg_validated (s : State) (r : RegName) (i j v : Nat) : (s.setReg r i j v).validated = s.validated := rfl
@[simp] theorem setReg_rots (s : State) (r : RegName) (i j v : Nat) : (s.setReg r i j v).rots = s.rots := rfl
@[simp] theorem setReg_tension (s : State) (r : RegName) (i j v : Nat) : (s.setReg r i j v).tension = s.tension := rfl
@[simp] theorem setReg_nfRose (s : State) (r : RegName) (i j v : Nat) : (s.setReg r i j v).nfRose = s.nfRose := rfl
@[simp] theorem setReg_wideAreas (s : State) (r : RegName) (i j v : Nat) : (s.setReg r i j v).wideAreas = s.wideAreas := rfl
@[simp] theorem setReg_slots (s : State) (r : RegName) (i j v : Nat) : (s.setReg r i j v).slots = s.slots := rfl
@[simp] theorem setReg_acc (s : State) (r : RegName) (i j v : Nat) : (s.setReg r i j v).acc = s.acc := rfl
@[simp] theorem setReg_accMask (s : State) (r : RegName) (i j v : Nat) : (s.setReg r i j v).accMask = s.accMask := rfl
@[simp] theorem setReg_accMax (s : State) (r : RegName) (i j v : Nat) : (s.setReg r i j v).accMax = s.accMax := rfl
@[simp] theorem setReg_heldPackets (s : State) (r : RegName) (i j v : Nat) : (s.setReg r i j v).heldPackets = s.heldPackets := rfl
@[simp] theorem setReg_sent (s : State) (r : RegName) (i j v : Nat) : (s.setReg r i j v).sent = s.sent := rfl
@[simp] theorem setReg_loop (s : State) (r : RegName) (i j v : Nat) : (s.setReg r i j v).loop = s.loop := rfl
@[simp] theorem setReg_sendSeq (s : State) (r : RegName) (i j v : Nat) : (s.setReg r i j v).sendSeq = s.sendSeq := rfl
@[simp] theorem setReg_homes (s : State) (r : RegName) (i j v : Nat) : (s.setReg r i j v).homes = s.homes := rfl
@[simp] theorem setReg_twinRecs (s : State) (r : RegName) (i j v : Nat) : (s.setReg r i j v).twinRecs = s.twinRecs := rfl
@[simp] theorem setReg_selvSent (s : State) (r : RegName) (i j v : Nat) : (s.setReg r i j v).selvSent = s.selvSent := rfl
@[simp] theorem setReg_streamed (s : State) (r : RegName) (i j v : Nat) : (s.setReg r i j v).streamed = s.streamed := rfl
@[simp] theorem setReg_mirrorFull (s : State) (r : RegName) (i j v : Nat) : (s.setReg r i j v).mirrorFull = s.mirrorFull := rfl
@[simp] theorem setReg_restreaming (s : State) (r : RegName) (i j v : Nat) : (s.setReg r i j v).restreaming = s.restreaming := rfl
@[simp] theorem setReg_rxStream (s : State) (r : RegName) (i j v : Nat) : (s.setReg r i j v).rxStream = s.rxStream := rfl
@[simp] theorem setReg_deltas (s : State) (r : RegName) (i j v : Nat) : (s.setReg r i j v).deltas = s.deltas := rfl
@[simp] theorem setReg_lastFold (s : State) (r : RegName) (i j v : Nat) : (s.setReg r i j v).lastFold = s.lastFold := rfl
@[simp] theorem setReg_twinFlags (s : State) (r : RegName) (i j v : Nat) : (s.setReg r i j v).twinFlags = s.twinFlags := rfl
@[simp] theorem setReg_recSides (s : State) (r : RegName) (i j v : Nat) : (s.setReg r i j v).recSides = s.recSides := rfl
@[simp] theorem setReg_tabnex (s : State) (r : RegName) (i j v : Nat) : (s.setReg r i j v).tabnex = s.tabnex := rfl
@[simp] theorem setReg_commonTwin (s : State) (r : RegName) (i j v : Nat) : (s.setReg r i j v).commonTwin = s.commonTwin := rfl
@[simp] theorem setReg_resetCrossed (s : State) (r : RegName) (i j v : Nat) : (s.setReg r i j v).resetCrossed = s.resetCrossed := rfl
@[simp] theorem setReg_pairKey (s : State) (r : RegName) (i j v : Nat) : (s.setReg r i j v).pairKey = s.pairKey := rfl
@[simp] theorem setReg_ports (s : State) (r : RegName) (i j v : Nat) : (s.setReg r i j v).ports = s.ports := rfl
@[simp] theorem setReg_selvLink (s : State) (r : RegName) (i j v : Nat) : (s.setReg r i j v).selvLink = s.selvLink := rfl
@[simp] theorem setReg_everLocked (s : State) (r : RegName) (i j v : Nat) : (s.setReg r i j v).everLocked = s.everLocked := rfl
@[simp] theorem setReg_goodExchanges (s : State) (r : RegName) (i j v : Nat) : (s.setReg r i j v).goodExchanges = s.goodExchanges := rfl
@[simp] theorem setReg_servo (s : State) (r : RegName) (i j v : Nat) : (s.setReg r i j v).servo = s.servo := rfl
@[simp] theorem setReg_demoted (s : State) (r : RegName) (i j v : Nat) : (s.setReg r i j v).demoted = s.demoted := rfl
@[simp] theorem setReg_ahead (s : State) (r : RegName) (i j v : Nat) : (s.setReg r i j v).ahead = s.ahead := rfl
@[simp] theorem setReg_mgmtStopped (s : State) (r : RegName) (i j v : Nat) : (s.setReg r i j v).mgmtStopped = s.mgmtStopped := rfl
@[simp] theorem setReg_refclk (s : State) (r : RegName) (i j v : Nat) : (s.setReg r i j v).refclk = s.refclk := rfl
@[simp] theorem setReg_tracks (s : State) (r : RegName) (i j v : Nat) : (s.setReg r i j v).tracks = s.tracks := rfl
@[simp] theorem setReg_repairing (s : State) (r : RegName) (i j v : Nat) : (s.setReg r i j v).repairing = s.repairing := rfl
@[simp] theorem setReg_laneHits (s : State) (r : RegName) (i j v : Nat) : (s.setReg r i j v).laneHits = s.laneHits := rfl
@[simp] theorem setReg_badSpares (s : State) (r : RegName) (i j v : Nat) : (s.setReg r i j v).badSpares = s.badSpares := rfl
@[simp] theorem setReg_hbmWaiting (s : State) (r : RegName) (i j v : Nat) : (s.setReg r i j v).hbmWaiting = s.hbmWaiting := rfl
@[simp] theorem setReg_exhaustedLanes (s : State) (r : RegName) (i j v : Nat) : (s.setReg r i j v).exhaustedLanes = s.exhaustedLanes := rfl
@[simp] theorem setReg_heldParts (s : State) (r : RegName) (i j v : Nat) : (s.setReg r i j v).heldParts = s.heldParts := rfl
@[simp] theorem setReg_laneBusy (s : State) (r : RegName) (i j v : Nat) : (s.setReg r i j v).laneBusy = s.laneBusy := rfl
@[simp] theorem setReg_ceMark (s : State) (r : RegName) (i j v : Nat) : (s.setReg r i j v).ceMark = s.ceMark := rfl
@[simp] theorem setReg_scrubPos (s : State) (r : RegName) (i j v : Nat) : (s.setReg r i j v).scrubPos = s.scrubPos := rfl
@[simp] theorem setReg_tgStopped (s : State) (r : RegName) (i j v : Nat) : (s.setReg r i j v).tgStopped = s.tgStopped := rfl
@[simp] theorem setReg_cardOps (s : State) (r : RegName) (i j v : Nat) : (s.setReg r i j v).cardOps = s.cardOps := rfl
@[simp] theorem setReg_keys (s : State) (r : RegName) (i j v : Nat) : (s.setReg r i j v).keys = s.keys := rfl
@[simp] theorem setReg_sessions (s : State) (r : RegName) (i j v : Nat) : (s.setReg r i j v).sessions = s.sessions := rfl
@[simp] theorem setReg_pins (s : State) (r : RegName) (i j v : Nat) : (s.setReg r i j v).pins = s.pins := rfl
@[simp] theorem setReg_ideWaived (s : State) (r : RegName) (i j v : Nat) : (s.setReg r i j v).ideWaived = s.ideWaived := rfl
@[simp] theorem setReg_windows (s : State) (r : RegName) (i j v : Nat) : (s.setReg r i j v).windows = s.windows := rfl
@[simp] theorem setReg_snapJobs (s : State) (r : RegName) (i j v : Nat) : (s.setReg r i j v).snapJobs = s.snapJobs := rfl
@[simp] theorem setReg_staged (s : State) (r : RegName) (i j v : Nat) : (s.setReg r i j v).staged = s.staged := rfl
@[simp] theorem setReg_riskE (s : State) (r : RegName) (i j v : Nat) : (s.setReg r i j v).riskE = s.riskE := rfl
@[simp] theorem setReg_junction (s : State) (r : RegName) (i j v : Nat) : (s.setReg r i j v).junction = s.junction := rfl
@[simp] theorem setReg_coalesce (s : State) (r : RegName) (i j v : Nat) : (s.setReg r i j v).coalesce = s.coalesce := rfl
@[simp] theorem setReg_msRecords (s : State) (r : RegName) (i j v : Nat) : (s.setReg r i j v).msRecords = s.msRecords := rfl
@[simp] theorem setReg_msNumber (s : State) (r : RegName) (i j v : Nat) : (s.setReg r i j v).msNumber = s.msNumber := rfl
@[simp] theorem setReg_traced (s : State) (r : RegName) (i j v : Nat) : (s.setReg r i j v).traced = s.traced := rfl
@[simp] theorem setReg_profileReq (s : State) (r : RegName) (i j v : Nat) : (s.setReg r i j v).profileReq = s.profileReq := rfl
@[simp] theorem setReg_clockTarget (s : State) (r : RegName) (i j v : Nat) : (s.setReg r i j v).clockTarget = s.clockTarget := rfl
@[simp] theorem setReg_calmSince (s : State) (r : RegName) (i j v : Nat) : (s.setReg r i j v).calmSince = s.calmSince := rfl
@[simp] theorem setReg_coolSince (s : State) (r : RegName) (i j v : Nat) : (s.setReg r i j v).coolSince = s.coolSince := rfl
@[simp] theorem setReg_handSrc (s : State) (r : RegName) (i j v : Nat) : (s.setReg r i j v).handSrc = s.handSrc := rfl
@[simp] theorem setReg_holdCursor (s : State) (r : RegName) (i j v : Nat) : (s.setReg r i j v).holdCursor = s.holdCursor := rfl
@[simp] theorem setReg_zeroedAll (s : State) (r : RegName) (i j v : Nat) : (s.setReg r i j v).zeroedAll = s.zeroedAll := rfl
@[simp] theorem setReg_aliasKey (s : State) (r : RegName) (i j v : Nat) : (s.setReg r i j v).aliasKey = s.aliasKey := rfl
@[simp] theorem setReg_measured (s : State) (r : RegName) (i j v : Nat) : (s.setReg r i j v).measured = s.measured := rfl
@[simp] theorem setReg_suspects (s : State) (r : RegName) (i j v : Nat) : (s.setReg r i j v).suspects = s.suspects := rfl
@[simp] theorem setReg_resetting (s : State) (r : RegName) (i j v : Nat) : (s.setReg r i j v).resetting = s.resetting := rfl
@[simp] theorem setReg_draining (s : State) (r : RegName) (i j v : Nat) : (s.setReg r i j v).draining = s.draining := rfl
@[simp] theorem setReg_resetDue (s : State) (r : RegName) (i j v : Nat) : (s.setReg r i j v).resetDue = s.resetDue := rfl
@[simp] theorem setReg_maxBefore (s : State) (r : RegName) (i j v : Nat) : (s.setReg r i j v).maxBefore = s.maxBefore := rfl
@[simp] theorem setReg_flash (s : State) (r : RegName) (i j v : Nat) : (s.setReg r i j v).flash = s.flash := rfl
@[simp] theorem setReg_flashOp (s : State) (r : RegName) (i j v : Nat) : (s.setReg r i j v).flashOp = s.flashOp := rfl
@[simp] theorem setReg_otpOp (s : State) (r : RegName) (i j v : Nat) : (s.setReg r i j v).otpOp = s.otpOp := rfl
@[simp] theorem setReg_hbmPg (s : State) (r : RegName) (i j v : Nat) : (s.setReg r i j v).hbmPg = s.hbmPg := rfl
@[simp] theorem setReg_hbmEn (s : State) (r : RegName) (i j v : Nat) : (s.setReg r i j v).hbmEn = s.hbmEn := rfl
@[simp] theorem setReg_thermtrip (s : State) (r : RegName) (i j v : Nat) : (s.setReg r i j v).thermtrip = s.thermtrip := rfl
@[simp] theorem setReg_perst (s : State) (r : RegName) (i j v : Nat) : (s.setReg r i j v).perst = s.perst := rfl
@[simp] theorem setReg_exiting (s : State) (r : RegName) (i j v : Nat) : (s.setReg r i j v).exiting = s.exiting := rfl
@[simp] theorem setReg_vaon (s : State) (r : RegName) (i j v : Nat) : (s.setReg r i j v).vaon = s.vaon := rfl
@[simp] theorem setReg_dips (s : State) (r : RegName) (i j v : Nat) : (s.setReg r i j v).dips = s.dips := rfl
@[simp] theorem setReg_dipFlush (s : State) (r : RegName) (i j v : Nat) : (s.setReg r i j v).dipFlush = s.dipFlush := rfl

/-! ### setFld -/

@[simp] theorem setFld_pending (s : State) (f : Field) (i j v : Nat) : (s.setFld f i j v).pending = s.pending := rfl
@[simp] theorem setFld_heldLow (s : State) (f : Field) (i j v : Nat) : (s.setFld f i j v).heldLow = s.heldLow := rfl
@[simp] theorem setFld_latchedHigh (s : State) (f : Field) (i j v : Nat) : (s.setFld f i j v).latchedHigh = s.latchedHigh := rfl
@[simp] theorem setFld_free (s : State) (f : Field) (i j v : Nat) : (s.setFld f i j v).free = s.free := rfl
@[simp] theorem setFld_outs (s : State) (f : Field) (i j v : Nat) : (s.setFld f i j v).outs = s.outs := rfl
@[simp] theorem setFld_hbm (s : State) (f : Field) (i j v : Nat) : (s.setFld f i j v).hbm = s.hbm := rfl
@[simp] theorem setFld_bobbin (s : State) (f : Field) (i j v : Nat) : (s.setFld f i j v).bobbin = s.bobbin := rfl
@[simp] theorem setFld_beam (s : State) (f : Field) (i j v : Nat) : (s.setFld f i j v).beam = s.beam := rfl
@[simp] theorem setFld_board (s : State) (f : Field) (i j v : Nat) : (s.setFld f i j v).board = s.board := rfl
@[simp] theorem setFld_lines (s : State) (f : Field) (i j v : Nat) : (s.setFld f i j v).lines = s.lines := rfl
@[simp] theorem setFld_mapPorts (s : State) (f : Field) (i j v : Nat) : (s.setFld f i j v).mapPorts = s.mapPorts := rfl
@[simp] theorem setFld_host (s : State) (f : Field) (i j v : Nat) : (s.setFld f i j v).host = s.host := rfl
@[simp] theorem setFld_poison (s : State) (f : Field) (i j v : Nat) : (s.setFld f i j v).poison = s.poison := rfl
@[simp] theorem setFld_damage (s : State) (f : Field) (i j v : Nat) : (s.setFld f i j v).damage = s.damage := rfl
@[simp] theorem setFld_cards (s : State) (f : Field) (i j v : Nat) : (s.setFld f i j v).cards = s.cards := rfl
@[simp] theorem setFld_unzeroed (s : State) (f : Field) (i j v : Nat) : (s.setFld f i j v).unzeroed = s.unzeroed := rfl
@[simp] theorem setFld_fills (s : State) (f : Field) (i j v : Nat) : (s.setFld f i j v).fills = s.fills := rfl
@[simp] theorem setFld_progs (s : State) (f : Field) (i j v : Nat) : (s.setFld f i j v).progs = s.progs := rfl
@[simp] theorem setFld_nextTurn (s : State) (f : Field) (i j v : Nat) : (s.setFld f i j v).nextTurn = s.nextTurn := rfl
@[simp] theorem setFld_icache (s : State) (f : Field) (i j v : Nat) : (s.setFld f i j v).icache = s.icache := rfl
@[simp] theorem setFld_unitOps (s : State) (f : Field) (i j v : Nat) : (s.setFld f i j v).unitOps = s.unitOps := rfl
@[simp] theorem setFld_asyncs (s : State) (f : Field) (i j v : Nat) : (s.setFld f i j v).asyncs = s.asyncs := rfl
@[simp] theorem setFld_nextOp (s : State) (f : Field) (i j v : Nat) : (s.setFld f i j v).nextOp = s.nextOp := rfl
@[simp] theorem setFld_queues (s : State) (f : Field) (i j v : Nat) : (s.setFld f i j v).queues = s.queues := rfl
@[simp] theorem setFld_nextQueue (s : State) (f : Field) (i j v : Nat) : (s.setFld f i j v).nextQueue = s.nextQueue := rfl
@[simp] theorem setFld_sched (s : State) (f : Field) (i j v : Nat) : (s.setFld f i j v).sched = s.sched := rfl
@[simp] theorem setFld_passes (s : State) (f : Field) (i j v : Nat) : (s.setFld f i j v).passes = s.passes := rfl
@[simp] theorem setFld_steps (s : State) (f : Field) (i j v : Nat) : (s.setFld f i j v).steps = s.steps := rfl
@[simp] theorem setFld_validated (s : State) (f : Field) (i j v : Nat) : (s.setFld f i j v).validated = s.validated := rfl
@[simp] theorem setFld_rots (s : State) (f : Field) (i j v : Nat) : (s.setFld f i j v).rots = s.rots := rfl
@[simp] theorem setFld_tension (s : State) (f : Field) (i j v : Nat) : (s.setFld f i j v).tension = s.tension := rfl
@[simp] theorem setFld_nfRose (s : State) (f : Field) (i j v : Nat) : (s.setFld f i j v).nfRose = s.nfRose := rfl
@[simp] theorem setFld_wideAreas (s : State) (f : Field) (i j v : Nat) : (s.setFld f i j v).wideAreas = s.wideAreas := rfl
@[simp] theorem setFld_slots (s : State) (f : Field) (i j v : Nat) : (s.setFld f i j v).slots = s.slots := rfl
@[simp] theorem setFld_acc (s : State) (f : Field) (i j v : Nat) : (s.setFld f i j v).acc = s.acc := rfl
@[simp] theorem setFld_accMask (s : State) (f : Field) (i j v : Nat) : (s.setFld f i j v).accMask = s.accMask := rfl
@[simp] theorem setFld_accMax (s : State) (f : Field) (i j v : Nat) : (s.setFld f i j v).accMax = s.accMax := rfl
@[simp] theorem setFld_heldPackets (s : State) (f : Field) (i j v : Nat) : (s.setFld f i j v).heldPackets = s.heldPackets := rfl
@[simp] theorem setFld_sent (s : State) (f : Field) (i j v : Nat) : (s.setFld f i j v).sent = s.sent := rfl
@[simp] theorem setFld_loop (s : State) (f : Field) (i j v : Nat) : (s.setFld f i j v).loop = s.loop := rfl
@[simp] theorem setFld_sendSeq (s : State) (f : Field) (i j v : Nat) : (s.setFld f i j v).sendSeq = s.sendSeq := rfl
@[simp] theorem setFld_homes (s : State) (f : Field) (i j v : Nat) : (s.setFld f i j v).homes = s.homes := rfl
@[simp] theorem setFld_twinRecs (s : State) (f : Field) (i j v : Nat) : (s.setFld f i j v).twinRecs = s.twinRecs := rfl
@[simp] theorem setFld_selvSent (s : State) (f : Field) (i j v : Nat) : (s.setFld f i j v).selvSent = s.selvSent := rfl
@[simp] theorem setFld_streamed (s : State) (f : Field) (i j v : Nat) : (s.setFld f i j v).streamed = s.streamed := rfl
@[simp] theorem setFld_mirrorFull (s : State) (f : Field) (i j v : Nat) : (s.setFld f i j v).mirrorFull = s.mirrorFull := rfl
@[simp] theorem setFld_restreaming (s : State) (f : Field) (i j v : Nat) : (s.setFld f i j v).restreaming = s.restreaming := rfl
@[simp] theorem setFld_rxStream (s : State) (f : Field) (i j v : Nat) : (s.setFld f i j v).rxStream = s.rxStream := rfl
@[simp] theorem setFld_deltas (s : State) (f : Field) (i j v : Nat) : (s.setFld f i j v).deltas = s.deltas := rfl
@[simp] theorem setFld_lastFold (s : State) (f : Field) (i j v : Nat) : (s.setFld f i j v).lastFold = s.lastFold := rfl
@[simp] theorem setFld_twinFlags (s : State) (f : Field) (i j v : Nat) : (s.setFld f i j v).twinFlags = s.twinFlags := rfl
@[simp] theorem setFld_recSides (s : State) (f : Field) (i j v : Nat) : (s.setFld f i j v).recSides = s.recSides := rfl
@[simp] theorem setFld_tabnex (s : State) (f : Field) (i j v : Nat) : (s.setFld f i j v).tabnex = s.tabnex := rfl
@[simp] theorem setFld_commonTwin (s : State) (f : Field) (i j v : Nat) : (s.setFld f i j v).commonTwin = s.commonTwin := rfl
@[simp] theorem setFld_resetCrossed (s : State) (f : Field) (i j v : Nat) : (s.setFld f i j v).resetCrossed = s.resetCrossed := rfl
@[simp] theorem setFld_pairKey (s : State) (f : Field) (i j v : Nat) : (s.setFld f i j v).pairKey = s.pairKey := rfl
@[simp] theorem setFld_ports (s : State) (f : Field) (i j v : Nat) : (s.setFld f i j v).ports = s.ports := rfl
@[simp] theorem setFld_selvLink (s : State) (f : Field) (i j v : Nat) : (s.setFld f i j v).selvLink = s.selvLink := rfl
@[simp] theorem setFld_everLocked (s : State) (f : Field) (i j v : Nat) : (s.setFld f i j v).everLocked = s.everLocked := rfl
@[simp] theorem setFld_goodExchanges (s : State) (f : Field) (i j v : Nat) : (s.setFld f i j v).goodExchanges = s.goodExchanges := rfl
@[simp] theorem setFld_servo (s : State) (f : Field) (i j v : Nat) : (s.setFld f i j v).servo = s.servo := rfl
@[simp] theorem setFld_demoted (s : State) (f : Field) (i j v : Nat) : (s.setFld f i j v).demoted = s.demoted := rfl
@[simp] theorem setFld_ahead (s : State) (f : Field) (i j v : Nat) : (s.setFld f i j v).ahead = s.ahead := rfl
@[simp] theorem setFld_mgmtStopped (s : State) (f : Field) (i j v : Nat) : (s.setFld f i j v).mgmtStopped = s.mgmtStopped := rfl
@[simp] theorem setFld_refclk (s : State) (f : Field) (i j v : Nat) : (s.setFld f i j v).refclk = s.refclk := rfl
@[simp] theorem setFld_tracks (s : State) (f : Field) (i j v : Nat) : (s.setFld f i j v).tracks = s.tracks := rfl
@[simp] theorem setFld_repairing (s : State) (f : Field) (i j v : Nat) : (s.setFld f i j v).repairing = s.repairing := rfl
@[simp] theorem setFld_laneHits (s : State) (f : Field) (i j v : Nat) : (s.setFld f i j v).laneHits = s.laneHits := rfl
@[simp] theorem setFld_badSpares (s : State) (f : Field) (i j v : Nat) : (s.setFld f i j v).badSpares = s.badSpares := rfl
@[simp] theorem setFld_hbmWaiting (s : State) (f : Field) (i j v : Nat) : (s.setFld f i j v).hbmWaiting = s.hbmWaiting := rfl
@[simp] theorem setFld_exhaustedLanes (s : State) (f : Field) (i j v : Nat) : (s.setFld f i j v).exhaustedLanes = s.exhaustedLanes := rfl
@[simp] theorem setFld_heldParts (s : State) (f : Field) (i j v : Nat) : (s.setFld f i j v).heldParts = s.heldParts := rfl
@[simp] theorem setFld_laneBusy (s : State) (f : Field) (i j v : Nat) : (s.setFld f i j v).laneBusy = s.laneBusy := rfl
@[simp] theorem setFld_ceMark (s : State) (f : Field) (i j v : Nat) : (s.setFld f i j v).ceMark = s.ceMark := rfl
@[simp] theorem setFld_scrubPos (s : State) (f : Field) (i j v : Nat) : (s.setFld f i j v).scrubPos = s.scrubPos := rfl
@[simp] theorem setFld_tgStopped (s : State) (f : Field) (i j v : Nat) : (s.setFld f i j v).tgStopped = s.tgStopped := rfl
@[simp] theorem setFld_cardOps (s : State) (f : Field) (i j v : Nat) : (s.setFld f i j v).cardOps = s.cardOps := rfl
@[simp] theorem setFld_keys (s : State) (f : Field) (i j v : Nat) : (s.setFld f i j v).keys = s.keys := rfl
@[simp] theorem setFld_sessions (s : State) (f : Field) (i j v : Nat) : (s.setFld f i j v).sessions = s.sessions := rfl
@[simp] theorem setFld_pins (s : State) (f : Field) (i j v : Nat) : (s.setFld f i j v).pins = s.pins := rfl
@[simp] theorem setFld_ideWaived (s : State) (f : Field) (i j v : Nat) : (s.setFld f i j v).ideWaived = s.ideWaived := rfl
@[simp] theorem setFld_windows (s : State) (f : Field) (i j v : Nat) : (s.setFld f i j v).windows = s.windows := rfl
@[simp] theorem setFld_snapJobs (s : State) (f : Field) (i j v : Nat) : (s.setFld f i j v).snapJobs = s.snapJobs := rfl
@[simp] theorem setFld_staged (s : State) (f : Field) (i j v : Nat) : (s.setFld f i j v).staged = s.staged := rfl
@[simp] theorem setFld_riskE (s : State) (f : Field) (i j v : Nat) : (s.setFld f i j v).riskE = s.riskE := rfl
@[simp] theorem setFld_junction (s : State) (f : Field) (i j v : Nat) : (s.setFld f i j v).junction = s.junction := rfl
@[simp] theorem setFld_coalesce (s : State) (f : Field) (i j v : Nat) : (s.setFld f i j v).coalesce = s.coalesce := rfl
@[simp] theorem setFld_msRecords (s : State) (f : Field) (i j v : Nat) : (s.setFld f i j v).msRecords = s.msRecords := rfl
@[simp] theorem setFld_msNumber (s : State) (f : Field) (i j v : Nat) : (s.setFld f i j v).msNumber = s.msNumber := rfl
@[simp] theorem setFld_traced (s : State) (f : Field) (i j v : Nat) : (s.setFld f i j v).traced = s.traced := rfl
@[simp] theorem setFld_profileReq (s : State) (f : Field) (i j v : Nat) : (s.setFld f i j v).profileReq = s.profileReq := rfl
@[simp] theorem setFld_clockTarget (s : State) (f : Field) (i j v : Nat) : (s.setFld f i j v).clockTarget = s.clockTarget := rfl
@[simp] theorem setFld_calmSince (s : State) (f : Field) (i j v : Nat) : (s.setFld f i j v).calmSince = s.calmSince := rfl
@[simp] theorem setFld_coolSince (s : State) (f : Field) (i j v : Nat) : (s.setFld f i j v).coolSince = s.coolSince := rfl
@[simp] theorem setFld_handSrc (s : State) (f : Field) (i j v : Nat) : (s.setFld f i j v).handSrc = s.handSrc := rfl
@[simp] theorem setFld_holdCursor (s : State) (f : Field) (i j v : Nat) : (s.setFld f i j v).holdCursor = s.holdCursor := rfl
@[simp] theorem setFld_zeroedAll (s : State) (f : Field) (i j v : Nat) : (s.setFld f i j v).zeroedAll = s.zeroedAll := rfl
@[simp] theorem setFld_aliasKey (s : State) (f : Field) (i j v : Nat) : (s.setFld f i j v).aliasKey = s.aliasKey := rfl
@[simp] theorem setFld_measured (s : State) (f : Field) (i j v : Nat) : (s.setFld f i j v).measured = s.measured := rfl
@[simp] theorem setFld_suspects (s : State) (f : Field) (i j v : Nat) : (s.setFld f i j v).suspects = s.suspects := rfl
@[simp] theorem setFld_resetting (s : State) (f : Field) (i j v : Nat) : (s.setFld f i j v).resetting = s.resetting := rfl
@[simp] theorem setFld_draining (s : State) (f : Field) (i j v : Nat) : (s.setFld f i j v).draining = s.draining := rfl
@[simp] theorem setFld_resetDue (s : State) (f : Field) (i j v : Nat) : (s.setFld f i j v).resetDue = s.resetDue := rfl
@[simp] theorem setFld_maxBefore (s : State) (f : Field) (i j v : Nat) : (s.setFld f i j v).maxBefore = s.maxBefore := rfl
@[simp] theorem setFld_flash (s : State) (f : Field) (i j v : Nat) : (s.setFld f i j v).flash = s.flash := rfl
@[simp] theorem setFld_flashOp (s : State) (f : Field) (i j v : Nat) : (s.setFld f i j v).flashOp = s.flashOp := rfl
@[simp] theorem setFld_otpOp (s : State) (f : Field) (i j v : Nat) : (s.setFld f i j v).otpOp = s.otpOp := rfl
@[simp] theorem setFld_hbmPg (s : State) (f : Field) (i j v : Nat) : (s.setFld f i j v).hbmPg = s.hbmPg := rfl
@[simp] theorem setFld_hbmEn (s : State) (f : Field) (i j v : Nat) : (s.setFld f i j v).hbmEn = s.hbmEn := rfl
@[simp] theorem setFld_thermtrip (s : State) (f : Field) (i j v : Nat) : (s.setFld f i j v).thermtrip = s.thermtrip := rfl
@[simp] theorem setFld_perst (s : State) (f : Field) (i j v : Nat) : (s.setFld f i j v).perst = s.perst := rfl
@[simp] theorem setFld_exiting (s : State) (f : Field) (i j v : Nat) : (s.setFld f i j v).exiting = s.exiting := rfl
@[simp] theorem setFld_vaon (s : State) (f : Field) (i j v : Nat) : (s.setFld f i j v).vaon = s.vaon := rfl
@[simp] theorem setFld_dips (s : State) (f : Field) (i j v : Nat) : (s.setFld f i j v).dips = s.dips := rfl
@[simp] theorem setFld_dipFlush (s : State) (f : Field) (i j v : Nat) : (s.setFld f i j v).dipFlush = s.dipFlush := rfl

/-! ### bump -/

@[simp] theorem bump_pending (s : State) (r : RegName) (i j n : Nat) : (s.bump r i j n).pending = s.pending := rfl
@[simp] theorem bump_heldLow (s : State) (r : RegName) (i j n : Nat) : (s.bump r i j n).heldLow = s.heldLow := rfl
@[simp] theorem bump_latchedHigh (s : State) (r : RegName) (i j n : Nat) : (s.bump r i j n).latchedHigh = s.latchedHigh := rfl
@[simp] theorem bump_free (s : State) (r : RegName) (i j n : Nat) : (s.bump r i j n).free = s.free := rfl
@[simp] theorem bump_outs (s : State) (r : RegName) (i j n : Nat) : (s.bump r i j n).outs = s.outs := rfl
@[simp] theorem bump_hbm (s : State) (r : RegName) (i j n : Nat) : (s.bump r i j n).hbm = s.hbm := rfl
@[simp] theorem bump_bobbin (s : State) (r : RegName) (i j n : Nat) : (s.bump r i j n).bobbin = s.bobbin := rfl
@[simp] theorem bump_beam (s : State) (r : RegName) (i j n : Nat) : (s.bump r i j n).beam = s.beam := rfl
@[simp] theorem bump_board (s : State) (r : RegName) (i j n : Nat) : (s.bump r i j n).board = s.board := rfl
@[simp] theorem bump_lines (s : State) (r : RegName) (i j n : Nat) : (s.bump r i j n).lines = s.lines := rfl
@[simp] theorem bump_mapPorts (s : State) (r : RegName) (i j n : Nat) : (s.bump r i j n).mapPorts = s.mapPorts := rfl
@[simp] theorem bump_host (s : State) (r : RegName) (i j n : Nat) : (s.bump r i j n).host = s.host := rfl
@[simp] theorem bump_poison (s : State) (r : RegName) (i j n : Nat) : (s.bump r i j n).poison = s.poison := rfl
@[simp] theorem bump_damage (s : State) (r : RegName) (i j n : Nat) : (s.bump r i j n).damage = s.damage := rfl
@[simp] theorem bump_cards (s : State) (r : RegName) (i j n : Nat) : (s.bump r i j n).cards = s.cards := rfl
@[simp] theorem bump_unzeroed (s : State) (r : RegName) (i j n : Nat) : (s.bump r i j n).unzeroed = s.unzeroed := rfl
@[simp] theorem bump_fills (s : State) (r : RegName) (i j n : Nat) : (s.bump r i j n).fills = s.fills := rfl
@[simp] theorem bump_progs (s : State) (r : RegName) (i j n : Nat) : (s.bump r i j n).progs = s.progs := rfl
@[simp] theorem bump_nextTurn (s : State) (r : RegName) (i j n : Nat) : (s.bump r i j n).nextTurn = s.nextTurn := rfl
@[simp] theorem bump_icache (s : State) (r : RegName) (i j n : Nat) : (s.bump r i j n).icache = s.icache := rfl
@[simp] theorem bump_unitOps (s : State) (r : RegName) (i j n : Nat) : (s.bump r i j n).unitOps = s.unitOps := rfl
@[simp] theorem bump_asyncs (s : State) (r : RegName) (i j n : Nat) : (s.bump r i j n).asyncs = s.asyncs := rfl
@[simp] theorem bump_nextOp (s : State) (r : RegName) (i j n : Nat) : (s.bump r i j n).nextOp = s.nextOp := rfl
@[simp] theorem bump_queues (s : State) (r : RegName) (i j n : Nat) : (s.bump r i j n).queues = s.queues := rfl
@[simp] theorem bump_nextQueue (s : State) (r : RegName) (i j n : Nat) : (s.bump r i j n).nextQueue = s.nextQueue := rfl
@[simp] theorem bump_sched (s : State) (r : RegName) (i j n : Nat) : (s.bump r i j n).sched = s.sched := rfl
@[simp] theorem bump_passes (s : State) (r : RegName) (i j n : Nat) : (s.bump r i j n).passes = s.passes := rfl
@[simp] theorem bump_steps (s : State) (r : RegName) (i j n : Nat) : (s.bump r i j n).steps = s.steps := rfl
@[simp] theorem bump_validated (s : State) (r : RegName) (i j n : Nat) : (s.bump r i j n).validated = s.validated := rfl
@[simp] theorem bump_rots (s : State) (r : RegName) (i j n : Nat) : (s.bump r i j n).rots = s.rots := rfl
@[simp] theorem bump_tension (s : State) (r : RegName) (i j n : Nat) : (s.bump r i j n).tension = s.tension := rfl
@[simp] theorem bump_nfRose (s : State) (r : RegName) (i j n : Nat) : (s.bump r i j n).nfRose = s.nfRose := rfl
@[simp] theorem bump_wideAreas (s : State) (r : RegName) (i j n : Nat) : (s.bump r i j n).wideAreas = s.wideAreas := rfl
@[simp] theorem bump_slots (s : State) (r : RegName) (i j n : Nat) : (s.bump r i j n).slots = s.slots := rfl
@[simp] theorem bump_acc (s : State) (r : RegName) (i j n : Nat) : (s.bump r i j n).acc = s.acc := rfl
@[simp] theorem bump_accMask (s : State) (r : RegName) (i j n : Nat) : (s.bump r i j n).accMask = s.accMask := rfl
@[simp] theorem bump_accMax (s : State) (r : RegName) (i j n : Nat) : (s.bump r i j n).accMax = s.accMax := rfl
@[simp] theorem bump_heldPackets (s : State) (r : RegName) (i j n : Nat) : (s.bump r i j n).heldPackets = s.heldPackets := rfl
@[simp] theorem bump_sent (s : State) (r : RegName) (i j n : Nat) : (s.bump r i j n).sent = s.sent := rfl
@[simp] theorem bump_loop (s : State) (r : RegName) (i j n : Nat) : (s.bump r i j n).loop = s.loop := rfl
@[simp] theorem bump_sendSeq (s : State) (r : RegName) (i j n : Nat) : (s.bump r i j n).sendSeq = s.sendSeq := rfl
@[simp] theorem bump_homes (s : State) (r : RegName) (i j n : Nat) : (s.bump r i j n).homes = s.homes := rfl
@[simp] theorem bump_twinRecs (s : State) (r : RegName) (i j n : Nat) : (s.bump r i j n).twinRecs = s.twinRecs := rfl
@[simp] theorem bump_selvSent (s : State) (r : RegName) (i j n : Nat) : (s.bump r i j n).selvSent = s.selvSent := rfl
@[simp] theorem bump_streamed (s : State) (r : RegName) (i j n : Nat) : (s.bump r i j n).streamed = s.streamed := rfl
@[simp] theorem bump_mirrorFull (s : State) (r : RegName) (i j n : Nat) : (s.bump r i j n).mirrorFull = s.mirrorFull := rfl
@[simp] theorem bump_restreaming (s : State) (r : RegName) (i j n : Nat) : (s.bump r i j n).restreaming = s.restreaming := rfl
@[simp] theorem bump_rxStream (s : State) (r : RegName) (i j n : Nat) : (s.bump r i j n).rxStream = s.rxStream := rfl
@[simp] theorem bump_deltas (s : State) (r : RegName) (i j n : Nat) : (s.bump r i j n).deltas = s.deltas := rfl
@[simp] theorem bump_lastFold (s : State) (r : RegName) (i j n : Nat) : (s.bump r i j n).lastFold = s.lastFold := rfl
@[simp] theorem bump_twinFlags (s : State) (r : RegName) (i j n : Nat) : (s.bump r i j n).twinFlags = s.twinFlags := rfl
@[simp] theorem bump_recSides (s : State) (r : RegName) (i j n : Nat) : (s.bump r i j n).recSides = s.recSides := rfl
@[simp] theorem bump_tabnex (s : State) (r : RegName) (i j n : Nat) : (s.bump r i j n).tabnex = s.tabnex := rfl
@[simp] theorem bump_commonTwin (s : State) (r : RegName) (i j n : Nat) : (s.bump r i j n).commonTwin = s.commonTwin := rfl
@[simp] theorem bump_resetCrossed (s : State) (r : RegName) (i j n : Nat) : (s.bump r i j n).resetCrossed = s.resetCrossed := rfl
@[simp] theorem bump_pairKey (s : State) (r : RegName) (i j n : Nat) : (s.bump r i j n).pairKey = s.pairKey := rfl
@[simp] theorem bump_ports (s : State) (r : RegName) (i j n : Nat) : (s.bump r i j n).ports = s.ports := rfl
@[simp] theorem bump_selvLink (s : State) (r : RegName) (i j n : Nat) : (s.bump r i j n).selvLink = s.selvLink := rfl
@[simp] theorem bump_everLocked (s : State) (r : RegName) (i j n : Nat) : (s.bump r i j n).everLocked = s.everLocked := rfl
@[simp] theorem bump_goodExchanges (s : State) (r : RegName) (i j n : Nat) : (s.bump r i j n).goodExchanges = s.goodExchanges := rfl
@[simp] theorem bump_servo (s : State) (r : RegName) (i j n : Nat) : (s.bump r i j n).servo = s.servo := rfl
@[simp] theorem bump_demoted (s : State) (r : RegName) (i j n : Nat) : (s.bump r i j n).demoted = s.demoted := rfl
@[simp] theorem bump_ahead (s : State) (r : RegName) (i j n : Nat) : (s.bump r i j n).ahead = s.ahead := rfl
@[simp] theorem bump_mgmtStopped (s : State) (r : RegName) (i j n : Nat) : (s.bump r i j n).mgmtStopped = s.mgmtStopped := rfl
@[simp] theorem bump_refclk (s : State) (r : RegName) (i j n : Nat) : (s.bump r i j n).refclk = s.refclk := rfl
@[simp] theorem bump_tracks (s : State) (r : RegName) (i j n : Nat) : (s.bump r i j n).tracks = s.tracks := rfl
@[simp] theorem bump_repairing (s : State) (r : RegName) (i j n : Nat) : (s.bump r i j n).repairing = s.repairing := rfl
@[simp] theorem bump_laneHits (s : State) (r : RegName) (i j n : Nat) : (s.bump r i j n).laneHits = s.laneHits := rfl
@[simp] theorem bump_badSpares (s : State) (r : RegName) (i j n : Nat) : (s.bump r i j n).badSpares = s.badSpares := rfl
@[simp] theorem bump_hbmWaiting (s : State) (r : RegName) (i j n : Nat) : (s.bump r i j n).hbmWaiting = s.hbmWaiting := rfl
@[simp] theorem bump_exhaustedLanes (s : State) (r : RegName) (i j n : Nat) : (s.bump r i j n).exhaustedLanes = s.exhaustedLanes := rfl
@[simp] theorem bump_heldParts (s : State) (r : RegName) (i j n : Nat) : (s.bump r i j n).heldParts = s.heldParts := rfl
@[simp] theorem bump_laneBusy (s : State) (r : RegName) (i j n : Nat) : (s.bump r i j n).laneBusy = s.laneBusy := rfl
@[simp] theorem bump_ceMark (s : State) (r : RegName) (i j n : Nat) : (s.bump r i j n).ceMark = s.ceMark := rfl
@[simp] theorem bump_scrubPos (s : State) (r : RegName) (i j n : Nat) : (s.bump r i j n).scrubPos = s.scrubPos := rfl
@[simp] theorem bump_tgStopped (s : State) (r : RegName) (i j n : Nat) : (s.bump r i j n).tgStopped = s.tgStopped := rfl
@[simp] theorem bump_cardOps (s : State) (r : RegName) (i j n : Nat) : (s.bump r i j n).cardOps = s.cardOps := rfl
@[simp] theorem bump_keys (s : State) (r : RegName) (i j n : Nat) : (s.bump r i j n).keys = s.keys := rfl
@[simp] theorem bump_sessions (s : State) (r : RegName) (i j n : Nat) : (s.bump r i j n).sessions = s.sessions := rfl
@[simp] theorem bump_pins (s : State) (r : RegName) (i j n : Nat) : (s.bump r i j n).pins = s.pins := rfl
@[simp] theorem bump_ideWaived (s : State) (r : RegName) (i j n : Nat) : (s.bump r i j n).ideWaived = s.ideWaived := rfl
@[simp] theorem bump_windows (s : State) (r : RegName) (i j n : Nat) : (s.bump r i j n).windows = s.windows := rfl
@[simp] theorem bump_snapJobs (s : State) (r : RegName) (i j n : Nat) : (s.bump r i j n).snapJobs = s.snapJobs := rfl
@[simp] theorem bump_staged (s : State) (r : RegName) (i j n : Nat) : (s.bump r i j n).staged = s.staged := rfl
@[simp] theorem bump_riskE (s : State) (r : RegName) (i j n : Nat) : (s.bump r i j n).riskE = s.riskE := rfl
@[simp] theorem bump_junction (s : State) (r : RegName) (i j n : Nat) : (s.bump r i j n).junction = s.junction := rfl
@[simp] theorem bump_coalesce (s : State) (r : RegName) (i j n : Nat) : (s.bump r i j n).coalesce = s.coalesce := rfl
@[simp] theorem bump_msRecords (s : State) (r : RegName) (i j n : Nat) : (s.bump r i j n).msRecords = s.msRecords := rfl
@[simp] theorem bump_msNumber (s : State) (r : RegName) (i j n : Nat) : (s.bump r i j n).msNumber = s.msNumber := rfl
@[simp] theorem bump_traced (s : State) (r : RegName) (i j n : Nat) : (s.bump r i j n).traced = s.traced := rfl
@[simp] theorem bump_profileReq (s : State) (r : RegName) (i j n : Nat) : (s.bump r i j n).profileReq = s.profileReq := rfl
@[simp] theorem bump_clockTarget (s : State) (r : RegName) (i j n : Nat) : (s.bump r i j n).clockTarget = s.clockTarget := rfl
@[simp] theorem bump_calmSince (s : State) (r : RegName) (i j n : Nat) : (s.bump r i j n).calmSince = s.calmSince := rfl
@[simp] theorem bump_coolSince (s : State) (r : RegName) (i j n : Nat) : (s.bump r i j n).coolSince = s.coolSince := rfl
@[simp] theorem bump_handSrc (s : State) (r : RegName) (i j n : Nat) : (s.bump r i j n).handSrc = s.handSrc := rfl
@[simp] theorem bump_holdCursor (s : State) (r : RegName) (i j n : Nat) : (s.bump r i j n).holdCursor = s.holdCursor := rfl
@[simp] theorem bump_zeroedAll (s : State) (r : RegName) (i j n : Nat) : (s.bump r i j n).zeroedAll = s.zeroedAll := rfl
@[simp] theorem bump_aliasKey (s : State) (r : RegName) (i j n : Nat) : (s.bump r i j n).aliasKey = s.aliasKey := rfl
@[simp] theorem bump_measured (s : State) (r : RegName) (i j n : Nat) : (s.bump r i j n).measured = s.measured := rfl
@[simp] theorem bump_suspects (s : State) (r : RegName) (i j n : Nat) : (s.bump r i j n).suspects = s.suspects := rfl
@[simp] theorem bump_resetting (s : State) (r : RegName) (i j n : Nat) : (s.bump r i j n).resetting = s.resetting := rfl
@[simp] theorem bump_draining (s : State) (r : RegName) (i j n : Nat) : (s.bump r i j n).draining = s.draining := rfl
@[simp] theorem bump_resetDue (s : State) (r : RegName) (i j n : Nat) : (s.bump r i j n).resetDue = s.resetDue := rfl
@[simp] theorem bump_maxBefore (s : State) (r : RegName) (i j n : Nat) : (s.bump r i j n).maxBefore = s.maxBefore := rfl
@[simp] theorem bump_flash (s : State) (r : RegName) (i j n : Nat) : (s.bump r i j n).flash = s.flash := rfl
@[simp] theorem bump_flashOp (s : State) (r : RegName) (i j n : Nat) : (s.bump r i j n).flashOp = s.flashOp := rfl
@[simp] theorem bump_otpOp (s : State) (r : RegName) (i j n : Nat) : (s.bump r i j n).otpOp = s.otpOp := rfl
@[simp] theorem bump_hbmPg (s : State) (r : RegName) (i j n : Nat) : (s.bump r i j n).hbmPg = s.hbmPg := rfl
@[simp] theorem bump_hbmEn (s : State) (r : RegName) (i j n : Nat) : (s.bump r i j n).hbmEn = s.hbmEn := rfl
@[simp] theorem bump_thermtrip (s : State) (r : RegName) (i j n : Nat) : (s.bump r i j n).thermtrip = s.thermtrip := rfl
@[simp] theorem bump_perst (s : State) (r : RegName) (i j n : Nat) : (s.bump r i j n).perst = s.perst := rfl
@[simp] theorem bump_exiting (s : State) (r : RegName) (i j n : Nat) : (s.bump r i j n).exiting = s.exiting := rfl
@[simp] theorem bump_vaon (s : State) (r : RegName) (i j n : Nat) : (s.bump r i j n).vaon = s.vaon := rfl
@[simp] theorem bump_dips (s : State) (r : RegName) (i j n : Nat) : (s.bump r i j n).dips = s.dips := rfl
@[simp] theorem bump_dipFlush (s : State) (r : RegName) (i j n : Nat) : (s.bump r i j n).dipFlush = s.dipFlush := rfl

/-! ### emit -/

@[simp] theorem emit_pending (s : State) (o : Out) : (s.emit o).pending = s.pending := rfl
@[simp] theorem emit_regs (s : State) (o : Out) : (s.emit o).regs = s.regs := rfl
@[simp] theorem emit_heldLow (s : State) (o : Out) : (s.emit o).heldLow = s.heldLow := rfl
@[simp] theorem emit_latchedHigh (s : State) (o : Out) : (s.emit o).latchedHigh = s.latchedHigh := rfl
@[simp] theorem emit_free (s : State) (o : Out) : (s.emit o).free = s.free := rfl
@[simp] theorem emit_hbm (s : State) (o : Out) : (s.emit o).hbm = s.hbm := rfl
@[simp] theorem emit_bobbin (s : State) (o : Out) : (s.emit o).bobbin = s.bobbin := rfl
@[simp] theorem emit_beam (s : State) (o : Out) : (s.emit o).beam = s.beam := rfl
@[simp] theorem emit_board (s : State) (o : Out) : (s.emit o).board = s.board := rfl
@[simp] theorem emit_lines (s : State) (o : Out) : (s.emit o).lines = s.lines := rfl
@[simp] theorem emit_mapPorts (s : State) (o : Out) : (s.emit o).mapPorts = s.mapPorts := rfl
@[simp] theorem emit_host (s : State) (o : Out) : (s.emit o).host = s.host := rfl
@[simp] theorem emit_poison (s : State) (o : Out) : (s.emit o).poison = s.poison := rfl
@[simp] theorem emit_damage (s : State) (o : Out) : (s.emit o).damage = s.damage := rfl
@[simp] theorem emit_cards (s : State) (o : Out) : (s.emit o).cards = s.cards := rfl
@[simp] theorem emit_unzeroed (s : State) (o : Out) : (s.emit o).unzeroed = s.unzeroed := rfl
@[simp] theorem emit_fills (s : State) (o : Out) : (s.emit o).fills = s.fills := rfl
@[simp] theorem emit_progs (s : State) (o : Out) : (s.emit o).progs = s.progs := rfl
@[simp] theorem emit_nextTurn (s : State) (o : Out) : (s.emit o).nextTurn = s.nextTurn := rfl
@[simp] theorem emit_icache (s : State) (o : Out) : (s.emit o).icache = s.icache := rfl
@[simp] theorem emit_unitOps (s : State) (o : Out) : (s.emit o).unitOps = s.unitOps := rfl
@[simp] theorem emit_asyncs (s : State) (o : Out) : (s.emit o).asyncs = s.asyncs := rfl
@[simp] theorem emit_nextOp (s : State) (o : Out) : (s.emit o).nextOp = s.nextOp := rfl
@[simp] theorem emit_queues (s : State) (o : Out) : (s.emit o).queues = s.queues := rfl
@[simp] theorem emit_nextQueue (s : State) (o : Out) : (s.emit o).nextQueue = s.nextQueue := rfl
@[simp] theorem emit_sched (s : State) (o : Out) : (s.emit o).sched = s.sched := rfl
@[simp] theorem emit_passes (s : State) (o : Out) : (s.emit o).passes = s.passes := rfl
@[simp] theorem emit_steps (s : State) (o : Out) : (s.emit o).steps = s.steps := rfl
@[simp] theorem emit_validated (s : State) (o : Out) : (s.emit o).validated = s.validated := rfl
@[simp] theorem emit_rots (s : State) (o : Out) : (s.emit o).rots = s.rots := rfl
@[simp] theorem emit_tension (s : State) (o : Out) : (s.emit o).tension = s.tension := rfl
@[simp] theorem emit_nfRose (s : State) (o : Out) : (s.emit o).nfRose = s.nfRose := rfl
@[simp] theorem emit_wideAreas (s : State) (o : Out) : (s.emit o).wideAreas = s.wideAreas := rfl
@[simp] theorem emit_slots (s : State) (o : Out) : (s.emit o).slots = s.slots := rfl
@[simp] theorem emit_acc (s : State) (o : Out) : (s.emit o).acc = s.acc := rfl
@[simp] theorem emit_accMask (s : State) (o : Out) : (s.emit o).accMask = s.accMask := rfl
@[simp] theorem emit_accMax (s : State) (o : Out) : (s.emit o).accMax = s.accMax := rfl
@[simp] theorem emit_heldPackets (s : State) (o : Out) : (s.emit o).heldPackets = s.heldPackets := rfl
@[simp] theorem emit_sent (s : State) (o : Out) : (s.emit o).sent = s.sent := rfl
@[simp] theorem emit_loop (s : State) (o : Out) : (s.emit o).loop = s.loop := rfl
@[simp] theorem emit_sendSeq (s : State) (o : Out) : (s.emit o).sendSeq = s.sendSeq := rfl
@[simp] theorem emit_homes (s : State) (o : Out) : (s.emit o).homes = s.homes := rfl
@[simp] theorem emit_twinRecs (s : State) (o : Out) : (s.emit o).twinRecs = s.twinRecs := rfl
@[simp] theorem emit_selvSent (s : State) (o : Out) : (s.emit o).selvSent = s.selvSent := rfl
@[simp] theorem emit_streamed (s : State) (o : Out) : (s.emit o).streamed = s.streamed := rfl
@[simp] theorem emit_mirrorFull (s : State) (o : Out) : (s.emit o).mirrorFull = s.mirrorFull := rfl
@[simp] theorem emit_restreaming (s : State) (o : Out) : (s.emit o).restreaming = s.restreaming := rfl
@[simp] theorem emit_rxStream (s : State) (o : Out) : (s.emit o).rxStream = s.rxStream := rfl
@[simp] theorem emit_deltas (s : State) (o : Out) : (s.emit o).deltas = s.deltas := rfl
@[simp] theorem emit_lastFold (s : State) (o : Out) : (s.emit o).lastFold = s.lastFold := rfl
@[simp] theorem emit_twinFlags (s : State) (o : Out) : (s.emit o).twinFlags = s.twinFlags := rfl
@[simp] theorem emit_recSides (s : State) (o : Out) : (s.emit o).recSides = s.recSides := rfl
@[simp] theorem emit_tabnex (s : State) (o : Out) : (s.emit o).tabnex = s.tabnex := rfl
@[simp] theorem emit_commonTwin (s : State) (o : Out) : (s.emit o).commonTwin = s.commonTwin := rfl
@[simp] theorem emit_resetCrossed (s : State) (o : Out) : (s.emit o).resetCrossed = s.resetCrossed := rfl
@[simp] theorem emit_pairKey (s : State) (o : Out) : (s.emit o).pairKey = s.pairKey := rfl
@[simp] theorem emit_ports (s : State) (o : Out) : (s.emit o).ports = s.ports := rfl
@[simp] theorem emit_selvLink (s : State) (o : Out) : (s.emit o).selvLink = s.selvLink := rfl
@[simp] theorem emit_everLocked (s : State) (o : Out) : (s.emit o).everLocked = s.everLocked := rfl
@[simp] theorem emit_goodExchanges (s : State) (o : Out) : (s.emit o).goodExchanges = s.goodExchanges := rfl
@[simp] theorem emit_servo (s : State) (o : Out) : (s.emit o).servo = s.servo := rfl
@[simp] theorem emit_demoted (s : State) (o : Out) : (s.emit o).demoted = s.demoted := rfl
@[simp] theorem emit_ahead (s : State) (o : Out) : (s.emit o).ahead = s.ahead := rfl
@[simp] theorem emit_mgmtStopped (s : State) (o : Out) : (s.emit o).mgmtStopped = s.mgmtStopped := rfl
@[simp] theorem emit_refclk (s : State) (o : Out) : (s.emit o).refclk = s.refclk := rfl
@[simp] theorem emit_tracks (s : State) (o : Out) : (s.emit o).tracks = s.tracks := rfl
@[simp] theorem emit_repairing (s : State) (o : Out) : (s.emit o).repairing = s.repairing := rfl
@[simp] theorem emit_laneHits (s : State) (o : Out) : (s.emit o).laneHits = s.laneHits := rfl
@[simp] theorem emit_badSpares (s : State) (o : Out) : (s.emit o).badSpares = s.badSpares := rfl
@[simp] theorem emit_hbmWaiting (s : State) (o : Out) : (s.emit o).hbmWaiting = s.hbmWaiting := rfl
@[simp] theorem emit_exhaustedLanes (s : State) (o : Out) : (s.emit o).exhaustedLanes = s.exhaustedLanes := rfl
@[simp] theorem emit_heldParts (s : State) (o : Out) : (s.emit o).heldParts = s.heldParts := rfl
@[simp] theorem emit_laneBusy (s : State) (o : Out) : (s.emit o).laneBusy = s.laneBusy := rfl
@[simp] theorem emit_ceMark (s : State) (o : Out) : (s.emit o).ceMark = s.ceMark := rfl
@[simp] theorem emit_scrubPos (s : State) (o : Out) : (s.emit o).scrubPos = s.scrubPos := rfl
@[simp] theorem emit_tgStopped (s : State) (o : Out) : (s.emit o).tgStopped = s.tgStopped := rfl
@[simp] theorem emit_cardOps (s : State) (o : Out) : (s.emit o).cardOps = s.cardOps := rfl
@[simp] theorem emit_keys (s : State) (o : Out) : (s.emit o).keys = s.keys := rfl
@[simp] theorem emit_sessions (s : State) (o : Out) : (s.emit o).sessions = s.sessions := rfl
@[simp] theorem emit_pins (s : State) (o : Out) : (s.emit o).pins = s.pins := rfl
@[simp] theorem emit_ideWaived (s : State) (o : Out) : (s.emit o).ideWaived = s.ideWaived := rfl
@[simp] theorem emit_windows (s : State) (o : Out) : (s.emit o).windows = s.windows := rfl
@[simp] theorem emit_snapJobs (s : State) (o : Out) : (s.emit o).snapJobs = s.snapJobs := rfl
@[simp] theorem emit_staged (s : State) (o : Out) : (s.emit o).staged = s.staged := rfl
@[simp] theorem emit_riskE (s : State) (o : Out) : (s.emit o).riskE = s.riskE := rfl
@[simp] theorem emit_junction (s : State) (o : Out) : (s.emit o).junction = s.junction := rfl
@[simp] theorem emit_coalesce (s : State) (o : Out) : (s.emit o).coalesce = s.coalesce := rfl
@[simp] theorem emit_msRecords (s : State) (o : Out) : (s.emit o).msRecords = s.msRecords := rfl
@[simp] theorem emit_msNumber (s : State) (o : Out) : (s.emit o).msNumber = s.msNumber := rfl
@[simp] theorem emit_traced (s : State) (o : Out) : (s.emit o).traced = s.traced := rfl
@[simp] theorem emit_profileReq (s : State) (o : Out) : (s.emit o).profileReq = s.profileReq := rfl
@[simp] theorem emit_clockTarget (s : State) (o : Out) : (s.emit o).clockTarget = s.clockTarget := rfl
@[simp] theorem emit_calmSince (s : State) (o : Out) : (s.emit o).calmSince = s.calmSince := rfl
@[simp] theorem emit_coolSince (s : State) (o : Out) : (s.emit o).coolSince = s.coolSince := rfl
@[simp] theorem emit_handSrc (s : State) (o : Out) : (s.emit o).handSrc = s.handSrc := rfl
@[simp] theorem emit_holdCursor (s : State) (o : Out) : (s.emit o).holdCursor = s.holdCursor := rfl
@[simp] theorem emit_zeroedAll (s : State) (o : Out) : (s.emit o).zeroedAll = s.zeroedAll := rfl
@[simp] theorem emit_aliasKey (s : State) (o : Out) : (s.emit o).aliasKey = s.aliasKey := rfl
@[simp] theorem emit_measured (s : State) (o : Out) : (s.emit o).measured = s.measured := rfl
@[simp] theorem emit_suspects (s : State) (o : Out) : (s.emit o).suspects = s.suspects := rfl
@[simp] theorem emit_resetting (s : State) (o : Out) : (s.emit o).resetting = s.resetting := rfl
@[simp] theorem emit_draining (s : State) (o : Out) : (s.emit o).draining = s.draining := rfl
@[simp] theorem emit_resetDue (s : State) (o : Out) : (s.emit o).resetDue = s.resetDue := rfl
@[simp] theorem emit_maxBefore (s : State) (o : Out) : (s.emit o).maxBefore = s.maxBefore := rfl
@[simp] theorem emit_flash (s : State) (o : Out) : (s.emit o).flash = s.flash := rfl
@[simp] theorem emit_flashOp (s : State) (o : Out) : (s.emit o).flashOp = s.flashOp := rfl
@[simp] theorem emit_otpOp (s : State) (o : Out) : (s.emit o).otpOp = s.otpOp := rfl
@[simp] theorem emit_hbmPg (s : State) (o : Out) : (s.emit o).hbmPg = s.hbmPg := rfl
@[simp] theorem emit_hbmEn (s : State) (o : Out) : (s.emit o).hbmEn = s.hbmEn := rfl
@[simp] theorem emit_thermtrip (s : State) (o : Out) : (s.emit o).thermtrip = s.thermtrip := rfl
@[simp] theorem emit_perst (s : State) (o : Out) : (s.emit o).perst = s.perst := rfl
@[simp] theorem emit_exiting (s : State) (o : Out) : (s.emit o).exiting = s.exiting := rfl
@[simp] theorem emit_vaon (s : State) (o : Out) : (s.emit o).vaon = s.vaon := rfl
@[simp] theorem emit_dips (s : State) (o : Out) : (s.emit o).dips = s.dips := rfl
@[simp] theorem emit_dipFlush (s : State) (o : Out) : (s.emit o).dipFlush = s.dipFlush := rfl

/-! ### Programs, steps, slots, queues and ports -/

@[simp] theorem setProg_regs (s : State) (k : Nat) (g : Prog) : (s.setProg k g).regs = s.regs := rfl
@[simp] theorem setProg_pending (s : State) (k : Nat) (g : Prog) : (s.setProg k g).pending = s.pending := rfl
@[simp] theorem setProg_hbm (s : State) (k : Nat) (g : Prog) : (s.setProg k g).hbm = s.hbm := rfl
@[simp] theorem setProg_bobbin (s : State) (k : Nat) (g : Prog) : (s.setProg k g).bobbin = s.bobbin := rfl
@[simp] theorem setProg_beam (s : State) (k : Nat) (g : Prog) : (s.setProg k g).beam = s.beam := rfl
@[simp] theorem setProg_host (s : State) (k : Nat) (g : Prog) : (s.setProg k g).host = s.host := rfl
@[simp] theorem setProg_free (s : State) (k : Nat) (g : Prog) : (s.setProg k g).free = s.free := rfl
@[simp] theorem setProg_outs (s : State) (k : Nat) (g : Prog) : (s.setProg k g).outs = s.outs := rfl
@[simp] theorem setProg_steps (s : State) (k : Nat) (g : Prog) : (s.setProg k g).steps = s.steps := rfl
@[simp] theorem setProg_slots (s : State) (k : Nat) (g : Prog) : (s.setProg k g).slots = s.slots := rfl
@[simp] theorem setProg_queues (s : State) (k : Nat) (g : Prog) : (s.setProg k g).queues = s.queues := rfl
@[simp] theorem setProg_ports (s : State) (k : Nat) (g : Prog) : (s.setProg k g).ports = s.ports := rfl
@[simp] theorem setProg_reg (s : State) (k : Nat) (g : Prog) (r : RegName) (i j : Nat) : (s.setProg k g).reg r i j = s.reg r i j := rfl
@[simp] theorem setProg_fld (s : State) (k : Nat) (g : Prog) (f : Field) (i j : Nat) : (s.setProg k g).fld f i j = s.fld f i j := rfl

@[simp] theorem setStep_regs (s : State) (p c : Nat) (r : StepRec) : (s.setStep p c r).regs = s.regs := rfl
@[simp] theorem setStep_pending (s : State) (p c : Nat) (r : StepRec) : (s.setStep p c r).pending = s.pending := rfl
@[simp] theorem setStep_hbm (s : State) (p c : Nat) (r : StepRec) : (s.setStep p c r).hbm = s.hbm := rfl
@[simp] theorem setStep_bobbin (s : State) (p c : Nat) (r : StepRec) : (s.setStep p c r).bobbin = s.bobbin := rfl
@[simp] theorem setStep_beam (s : State) (p c : Nat) (r : StepRec) : (s.setStep p c r).beam = s.beam := rfl
@[simp] theorem setStep_host (s : State) (p c : Nat) (r : StepRec) : (s.setStep p c r).host = s.host := rfl
@[simp] theorem setStep_free (s : State) (p c : Nat) (r : StepRec) : (s.setStep p c r).free = s.free := rfl
@[simp] theorem setStep_outs (s : State) (p c : Nat) (r : StepRec) : (s.setStep p c r).outs = s.outs := rfl
@[simp] theorem setStep_progs (s : State) (p c : Nat) (r : StepRec) : (s.setStep p c r).progs = s.progs := rfl
@[simp] theorem setStep_slots (s : State) (p c : Nat) (r : StepRec) : (s.setStep p c r).slots = s.slots := rfl
@[simp] theorem setStep_queues (s : State) (p c : Nat) (r : StepRec) : (s.setStep p c r).queues = s.queues := rfl
@[simp] theorem setStep_ports (s : State) (p c : Nat) (r : StepRec) : (s.setStep p c r).ports = s.ports := rfl
@[simp] theorem setStep_reg (s : State) (p c : Nat) (x : StepRec) (r : RegName) (i j : Nat) : (s.setStep p c x).reg r i j = s.reg r i j := rfl
@[simp] theorem setStep_fld (s : State) (p c : Nat) (r : StepRec) (f : Field) (i j : Nat) : (s.setStep p c r).fld f i j = s.fld f i j := rfl

@[simp] theorem setSlot_regs (s : State) (n : Nat) (x : Slot) : (s.setSlot n x).regs = s.regs := rfl
@[simp] theorem setSlot_pending (s : State) (n : Nat) (x : Slot) : (s.setSlot n x).pending = s.pending := rfl
@[simp] theorem setSlot_hbm (s : State) (n : Nat) (x : Slot) : (s.setSlot n x).hbm = s.hbm := rfl
@[simp] theorem setSlot_bobbin (s : State) (n : Nat) (x : Slot) : (s.setSlot n x).bobbin = s.bobbin := rfl
@[simp] theorem setSlot_beam (s : State) (n : Nat) (x : Slot) : (s.setSlot n x).beam = s.beam := rfl
@[simp] theorem setSlot_host (s : State) (n : Nat) (x : Slot) : (s.setSlot n x).host = s.host := rfl
@[simp] theorem setSlot_free (s : State) (n : Nat) (x : Slot) : (s.setSlot n x).free = s.free := rfl
@[simp] theorem setSlot_outs (s : State) (n : Nat) (x : Slot) : (s.setSlot n x).outs = s.outs := rfl
@[simp] theorem setSlot_progs (s : State) (n : Nat) (x : Slot) : (s.setSlot n x).progs = s.progs := rfl
@[simp] theorem setSlot_steps (s : State) (n : Nat) (x : Slot) : (s.setSlot n x).steps = s.steps := rfl
@[simp] theorem setSlot_queues (s : State) (n : Nat) (x : Slot) : (s.setSlot n x).queues = s.queues := rfl
@[simp] theorem setSlot_ports (s : State) (n : Nat) (x : Slot) : (s.setSlot n x).ports = s.ports := rfl
@[simp] theorem setSlot_reg (s : State) (n : Nat) (x : Slot) (r : RegName) (i j : Nat) : (s.setSlot n x).reg r i j = s.reg r i j := rfl
@[simp] theorem setSlot_fld (s : State) (n : Nat) (x : Slot) (f : Field) (i j : Nat) : (s.setSlot n x).fld f i j = s.fld f i j := rfl

@[simp] theorem setQueue_regs (s : State) (p q : Nat) (x : Queue) : (s.setQueue p q x).regs = s.regs := rfl
@[simp] theorem setQueue_pending (s : State) (p q : Nat) (x : Queue) : (s.setQueue p q x).pending = s.pending := rfl
@[simp] theorem setQueue_hbm (s : State) (p q : Nat) (x : Queue) : (s.setQueue p q x).hbm = s.hbm := rfl
@[simp] theorem setQueue_bobbin (s : State) (p q : Nat) (x : Queue) : (s.setQueue p q x).bobbin = s.bobbin := rfl
@[simp] theorem setQueue_beam (s : State) (p q : Nat) (x : Queue) : (s.setQueue p q x).beam = s.beam := rfl
@[simp] theorem setQueue_host (s : State) (p q : Nat) (x : Queue) : (s.setQueue p q x).host = s.host := rfl
@[simp] theorem setQueue_free (s : State) (p q : Nat) (x : Queue) : (s.setQueue p q x).free = s.free := rfl
@[simp] theorem setQueue_outs (s : State) (p q : Nat) (x : Queue) : (s.setQueue p q x).outs = s.outs := rfl
@[simp] theorem setQueue_progs (s : State) (p q : Nat) (x : Queue) : (s.setQueue p q x).progs = s.progs := rfl
@[simp] theorem setQueue_steps (s : State) (p q : Nat) (x : Queue) : (s.setQueue p q x).steps = s.steps := rfl
@[simp] theorem setQueue_slots (s : State) (p q : Nat) (x : Queue) : (s.setQueue p q x).slots = s.slots := rfl
@[simp] theorem setQueue_ports (s : State) (p q : Nat) (x : Queue) : (s.setQueue p q x).ports = s.ports := rfl
@[simp] theorem setQueue_reg (s : State) (p q : Nat) (x : Queue) (r : RegName) (i j : Nat) : (s.setQueue p q x).reg r i j = s.reg r i j := rfl
@[simp] theorem setQueue_fld (s : State) (p q : Nat) (x : Queue) (f : Field) (i j : Nat) : (s.setQueue p q x).fld f i j = s.fld f i j := rfl

@[simp] theorem setPort_regs (s : State) (l : Nat) (x : Port) : (s.setPort l x).regs = s.regs := rfl
@[simp] theorem setPort_pending (s : State) (l : Nat) (x : Port) : (s.setPort l x).pending = s.pending := rfl
@[simp] theorem setPort_hbm (s : State) (l : Nat) (x : Port) : (s.setPort l x).hbm = s.hbm := rfl
@[simp] theorem setPort_bobbin (s : State) (l : Nat) (x : Port) : (s.setPort l x).bobbin = s.bobbin := rfl
@[simp] theorem setPort_beam (s : State) (l : Nat) (x : Port) : (s.setPort l x).beam = s.beam := rfl
@[simp] theorem setPort_host (s : State) (l : Nat) (x : Port) : (s.setPort l x).host = s.host := rfl
@[simp] theorem setPort_free (s : State) (l : Nat) (x : Port) : (s.setPort l x).free = s.free := rfl
@[simp] theorem setPort_outs (s : State) (l : Nat) (x : Port) : (s.setPort l x).outs = s.outs := rfl
@[simp] theorem setPort_progs (s : State) (l : Nat) (x : Port) : (s.setPort l x).progs = s.progs := rfl
@[simp] theorem setPort_steps (s : State) (l : Nat) (x : Port) : (s.setPort l x).steps = s.steps := rfl
@[simp] theorem setPort_slots (s : State) (l : Nat) (x : Port) : (s.setPort l x).slots = s.slots := rfl
@[simp] theorem setPort_queues (s : State) (l : Nat) (x : Port) : (s.setPort l x).queues = s.queues := rfl
@[simp] theorem setPort_reg (s : State) (l : Nat) (x : Port) (r : RegName) (i j : Nat) : (s.setPort l x).reg r i j = s.reg r i j := rfl
@[simp] theorem setPort_fld (s : State) (l : Nat) (x : Port) (f : Field) (i j : Nat) : (s.setPort l x).fld f i j = s.fld f i j := rfl

@[simp] theorem emit_reg (s : State) (o : Out) (r : RegName) (i j : Nat) : (s.emit o).reg r i j = s.reg r i j := rfl
@[simp] theorem emit_fld (s : State) (o : Out) (f : Field) (i j : Nat) : (s.emit o).fld f i j = s.fld f i j := rfl

end Sys2Proof.Machine
end

