-- ==== Sys2Proof/WellFormed.lean ====
section
/-! DEFINITION. What an operand of a command must fit beyond its type: lengths that the spec fixes. A command that is not well formed is
one that no sender can form; the block's answer to malformed packets and bodies is in the meanings. -/

namespace Sys2Proof

/-- What turned in a stored block: at most its 64 data and 8 side-band bytes (R300). -/
def Damage.wf (d : Damage) : Bool := d.data.length ≤ 64 && d.side.length ≤ 8

/-- A packet's payload is whole units of 32 B, at most 256 of them (R177). -/
def Packet.wf (k : Packet) : Bool := k.payload.length % 32 = 0 && k.payload.length ≤ 8192

/-- The failing lanes of a channel are named once each (R294). -/
def LaneFail.wf (t : LaneFail) : Bool := t.lanes.eraseDups.length = t.lanes.length

/-- Whether an instruction is well formed. -/
def Instr.wf : Instr → Bool
  | .flitReceive _ _ payload _ _ => payload.length = 496
  | .statusPacket pk | .reduce pk | .drop pk | .calib pk | .expmax pk | .expset pk | .gather pk | .remoteKnotAdd pk | .signal pk | .veto pk
  | .outcome pk | .query pk | .answer pk | .heartbeat pk | .mirror pk | .delta pk | .record pk | .point pk | .decision pk | .ack pk
  | .flush pk => pk.wf
  | .hbmRead _ addr n d => 0 < n.val && addr.toNat % 64 + n.val ≤ 64 && d.wf
  | .hbmWrite _ addr bytes _ d => 0 < bytes.length && addr.toNat % 64 + bytes.length ≤ 64 && d.wf
  | .scrubRead _ _ d0 d1 => d0.wf && d1.wf
  | .challenge _ nonce => nonce.length = 32
  | .partitionResetComplete _ t | .hbmPg _ t => t.lanes.all LaneFail.wf
  | .bootStart env => env.training.lanes.all LaneFail.wf
  | _ => true

end Sys2Proof
end

