-- ==== Sys2Proof/Tests/Slice0.lean ====
section
/-! SUPPORT. The tests of the model: ill-formed terms that WellFormed refuses, values that the spec works out, and for the statements a
concrete state that meets their hypotheses. -/

namespace Sys2Proof.Tests
set_option Elab.async false
open Sys2Proof Sys2Proof.Machine

/-! ### The states of the witnesses -/

/-- Context 0 of partition 0 is admitted for job 7 as a training context, with registration entries, layers, slots 0 to 3 and engines 0 and 1. -/
def ctx : State :=
  (((((((((((((State.reset.setFld PART_CTX_ADMIT.STATE 0 0 1).setFld PART_CTX_JOB.JOB 0 0 7).setFld PART_CTX_JOB.BOB_SIZE 0 0 1).setFld
    PART_CTX_ENGINES.MASK 0 0 3).setFld PART_CTX_LAYERS.COUNT 0 0 2).setFld PART_CTX_REGS.COUNT 0 0 2).setFld PART_CTX_SLOTS.COUNT 0 0 4).setFld
    PART_CTX_ACC_LEN.BLOCKS 0 0 64).setFld PART_CTX_PLACE.BEAM_SIZE 0 0 1).setFld KNOT_CFG.OWNED 0 3 1).setFld SEC_JOB.JOB 1 0 7).setFld
    SEC_JOB.STATE 1 0 1).setFld PART_CTX_ADMIT.JOB_INDEX 0 0 1)

/-- The key set of job 7. -/
def keySet : KeySet := ⟨7, 1, [], List.replicate 192 0, none, [], 0, []⟩

/-- And the job has its keys. -/
def keyed : State := { ctx with keys := [keySet] }

/-- Partition 0 is PINNED. -/
def pinned : State := State.reset.setFld PART_ASSIGN.STATE 0 0 2

/-- Tabby mode. -/
def tabby : State := State.reset.setFld BOOT_STATUS.TABBY 0 0 1

/-- The tenant BAR of partition 0. -/
def bar0 : Bar := .tenant 0 true

/-! ### Well-formedness: an ill-formed term for each check is refused -/

/-- A packet of the tests: header words 0 to 5 and a payload. -/
def pkt (w0 w1 w2 w3 w4 w5 : Nat) (payload : List Byte) : Packet :=
  { port := some 0, tagOk := true, oldKey := false, srcMember := true, w0 := BitVec.ofNat 64 w0, w1 := BitVec.ofNat 64 w1,
    w2 := BitVec.ofNat 64 w2, w3 := BitVec.ofNat 64 w3, w4 := BitVec.ofNat 64 w4, w5 := BitVec.ofNat 64 w5, w6 := 0, w7 := 0, payload := payload }

/-- Nothing turned. -/
def clean : Damage := ⟨[], []⟩

theorem test_wf_flit : (Instr.flitReceive 0 0 [] 0 0).wf = false := by decide +kernel
theorem test_wf_packet_unit : (Instr.reduce (pkt 0 0 0 0 0 0 [0])).wf = false := by decide +kernel
theorem test_wf_packet_length : (Instr.gather (pkt 0 0 0 0 0 0 (List.replicate 8224 0))).wf = false := by decide +kernel
theorem test_wf_read_empty : (Instr.hbmRead .scrubber 0 0 clean).wf = false := by decide +kernel
theorem test_wf_read_block : (Instr.hbmRead .scrubber 32 64 clean).wf = false := by decide +kernel
theorem test_wf_write_block : (Instr.hbmWrite .scrubber 63 [1, 2] false clean).wf = false := by decide +kernel
theorem test_wf_damage : (Instr.scrubRead 0 0 ⟨List.replicate 65 0, []⟩ clean).wf = false := by decide +kernel
theorem test_wf_nonce : (Instr.challenge .mctp [1]).wf = false := by decide +kernel
theorem test_wf_lanes : (Instr.hbmPg true ⟨[⟨0, 0, [3, 3]⟩], []⟩).wf = false := by decide +kernel
theorem test_wf_boot_lanes : (Instr.bootStart ⟨true, true, true, true, true, true, true, ⟨[⟨1, 2, [0, 0]⟩], []⟩, [], 7⟩).wf = false := by decide +kernel
theorem test_wf_good : (Instr.hbmWrite .scrubber 62 [1, 2] false clean).wf = true := by decide +kernel

/-! ### Values that the spec works out -/

/-- The check of contributor A in the example after R186: −250 modulo p. -/
theorem test_check_a : checkSum 10 0 [5, redP - 3, 0] = 2305843009213693701 := by decide +kernel
/-- Contributor C there: −5,960 modulo p. -/
theorem test_check_c : checkSum 10 0 [4, 0, redP - 6] = 2305843009213687991 := by decide +kernel
/-- The scales of the example after R100: 2.6 takes 0x6E, and 0.75 takes 0x60. -/
theorem test_scale_block0 : chosenScale 0 ⟨2726297, -20⟩ = 0x6E ∧ chosenScale 0 ⟨3, -2⟩ = 0x60 := by decide +kernel
/-- Its element 1: −1.09375 over 0.4375 is a tie, which goes to the even code of 2. -/
theorem test_quant_tie : quantK 0 ⟨35, -5⟩ (e5m3 0x6E) = (4, false) := by decide +kernel
/-- Its element 8: 1.53125 over 0.4375 is a tie, which goes to 4. -/
theorem test_quant_tie_up : quantK 0 ⟨49, -5⟩ (e5m3 0x6E) = (6, false) := by decide +kernel
/-- R49: code 0x78 is 1.0 and 0xFE is 114,688. -/
theorem test_e5m3 : (e5m3 0x78).eq ⟨1, 0⟩ = true ∧ (e5m3 0xFE).eq ⟨114688, 0⟩ = true := by decide +kernel
/-- −96.0 is 0xC2C0 in BF16 (the example after R100). -/
theorem test_bf16 : Fmt.bf16.decode 0xC2C0 = .fin true ⟨-192, -1⟩ := by decide +kernel
/-- FIPS 197, sections 4.2 and 5.1.1: {57} × {83} = {C1}, and the S-box takes {53} to {ED}. -/
theorem test_aes_bytes : gfMul 0x57 0x83 = 0xC1 ∧ sbox 0x53 = 0xED := by decide +kernel
/-- R348 by hand: E = 200 and 100 °C give 200 + 4 × 15, held at 255; E = 10 and 90 °C give 30. -/
theorem test_risk : riskOf 200 100 = 255 ∧ riskOf 10 90 = 30 := by decide +kernel

/-! ### Witnesses: the step, the stores, the registers -/

theorem wit_StepRunsFront : ({ State.reset with pending := [.vaonUp] }).pending = .vaonUp :: [] ∧ State.reset.pending = []
    ∧ State.reset.everLocked = false ∧ ({ State.reset with everLocked := true }).everLocked = true := by decide +kernel
theorem wit_StepKeepsMemWf : State.reset.MemWf ∧ (∃ t, step State.reset = .next t) := by
  refine ⟨?_, _, rfl⟩
  simp [State.MemWf, State.reset, SMap.Wf, SMap.Rising]
theorem wit_MemoryWrite : SMap.Wf (fun _ => (0 : Byte)) [(3, 5)] := by decide +kernel
theorem wit_RegisterWriteRead : (0 : Nat) < 2 ^ 20 ∧ SMap.Rising State.reset.regs ∧ (RegName.DEV_PROFILE, 0, 1) ≠ (.DEV_PROFILE, 0, 0) := by
  decide +kernel
theorem wit_ReservedBitsDiscarded : SMap.Rising State.reset.regs ∧ 31 < RegName.DEV_PROFILE.info.width
    ∧ (RegName.PWR_TARGET, 0, 0) ≠ (.DEV_PROFILE, 0, 0) := by decide +kernel
theorem wit_UndefinedOffsets : State.reset.placeOf .operator 0x30 = none ∧ State.reset.placeOf .operator 0x34 = none
    ∧ (State.reset.function bar0).isSome = true ∧ (State.reset.placeOf bar0 0x7FFFF0).isNone = true
    ∧ tabby.fld BOOT_STATUS.TABBY 0 0 = 1 ∧ (tabby.placeOf bar0 0x40000).isNone = true := by decide +kernel
theorem wit_RegisterAccess_write :
    ((State.reset.placeOf .operator 0x20).map (fun x => (x.1, x.2.reg, x.2.reg.info.width))) = some (8, .DEV_PROFILE, 32)
    ∧ ((State.reset.placeOf .operator 0x30018).map (fun x => (x.1, x.2.reg, x.2.reg.info.width, x.2.byte))) = some (8, .TIME_EPOCH, 64, 0)
    ∧ wideAt .operator 0x30018 = true ∧ (operatorAt 0x30).isNone = true
    ∧ (State.reset.writeOperator .PART_CARD_VALUE 0 0 5).isNone = true ∧ (State.reset.writeTenant 0 .CNV_KAPPA 0 0 5).isNone = true := by
  decide +kernel
theorem wit_RegisterAccess_split :
    ((State.reset.placeOf .operator (0x30018 + 4)).map (fun x => (x.2.reg, x.2.byte))) = some (.TIME_EPOCH, 4)
    ∧ SMap.find ({ State.reset with heldLow := SMap.put [] (regKey .TIME_EPOCH 0 0) 9 }).heldLow (regKey .TIME_EPOCH 0 0) = some 9
    ∧ SMap.find State.reset.heldLow (regKey .TIME_EPOCH 0 0) = none := by decide +kernel
theorem wit_RegisterAccess_bar : State.reset.function bar0 = some (0, 0) ∧ tabby.fld BOOT_STATUS.TABBY 0 0 = 1
    ∧ pinned.fld BOOT_STATUS.TABBY 0 0 ≠ 1 ∧ pinned.ideRefuses 0 false = true := by decide +kernel

/-! ### Witnesses: counters, profiles and clocks -/

theorem wit_CounterClears : State.reset.function bar0 = some (0, 0) := by decide +kernel
theorem wit_TensionCommands : ctx.function bar0 = some (0, 0) ∧ bit 0x80000000 31 = true ∧ bit 0x7FFFFFFF 31 = false
    ∧ ctx.layerSeen 0 1 = true ∧ ctx.layerSeen 0 2 = false ∧ (ctx.setFld PART_ROLE.ROLE 1 0 1).bothRoles = true
    ∧ State.reset.bothRoles = false := by decide +kernel
/-- Layer 1 waits for its widening copy, which has no tile. -/
def widening : State :=
  { ctx.setFld TEN_LAYER_STATE.WIDE_PENDING 0 1 1 with wideAreas := [⟨0, 0, 1, [], 0, false⟩] }
/-- Its forward copy is entry 0: one K4 tile on page 0, whose first code is an escape that nothing names. The
partition's beam store is all its own. -/
def widensTile : State :=
  { (widening.setFld BAT_REG_CTRL.VALID 0 0 1).setFld PART_BEAM_SPLIT.ADDR_MIB 0 0 64 with
    cards := [(0, 513)], hbm := [(0, 8)], keys := [keySet],
    validated := [(regKey .BAT_REG_CTRL 0 0, 2), (regKey .BAT_REG_ID 0 0, 2 ^ 16), (regKey .BAT_REG_LEN 0 0, 1)] }
theorem wit_TensionCommands_widen : widening.wideAreas.find? (fun w => w.part = 0 && w.layer = 1 && !w.gone) = some ⟨0, 0, 1, [], 0, false⟩
    ∧ widening.fld TEN_LAYER_STATE.WIDE_PENDING 0 1 = 1 ∧ widening.fld TEN_LAYER_CFG.SENSITIVE 0 1 = 0
    ∧ (widening.packWide ⟨0, 0, 1, [], 0, false⟩).1 = .ok ∧ widening.unionPending 0 0 1 = false
    ∧ (widening.setStep 0 0 { saved := [(regKey .TEN_LAYER_STATE 0 1, 2)] }).unionPending 0 0 1 = true
    ∧ (widening.setFld TEN_LAYER_CFG.SENSITIVE 0 1 1).fld TEN_LAYER_CFG.SENSITIVE 0 1 = 1
    ∧ ctx.fld TEN_LAYER_STATE.WIDE_PENDING 0 1 = 0 := by decide +kernel
theorem wit_TensionCommands_fails : (widensTile.packWide ⟨0, 0, 1, [], 0, false⟩).1 = .illegal
    ∧ ({ widensTile with cards := [] }.packWide ⟨0, 0, 1, [], 0, false⟩).1 = .protection := by decide +kernel
/-- MIXED is in force. -/
def mixed : State := State.reset.setFld DEV_PROFILE_STATUS.CURRENT 0 0 2
theorem wit_RolesClocksAndHeat :
    State.reset.fld DEV_PROFILE_STATUS.CURRENT 0 0 ≠ 2
    ∧ (mixed.traceVote .PART_ROLE 0 1).fld DEV_PROFILE_STATUS.CURRENT 0 0 = 2
    ∧ ((mixed.traceVote .PART_ROLE 0 1).setFld PART_ROLE.ROLE 0 0 1).bothRoles = true
    ∧ ((mixed.traceVote .PART_ROLE 0 0).setFld PART_ROLE.ROLE 0 0 0).bothRoles = false
    ∧ 1200 % 4096 = 1200 ∧ 2200 % 100 = 0 ∧ 2250 % 100 ≠ 0
    ∧ bit (State.reset.fld DEV_PROFILE_STATUS.FORCE_CAUSE 0 0) 1 = false
    ∧ bit ((State.reset.forceClock 2).fld DEV_PROFILE_STATUS.FORCE_CAUSE 0 0) 1 = true ∧ 95 < (96 : BitVec 8).toNat ∧ (95 : BitVec 8).toNat ≤ 95 := by
  decide +kernel
theorem wit_RiskValue : State.reset.fld SELV_RISK_CFG.T_QUARTER 0 0 ≤ 255 ∧ State.reset.fld SELV_RISK_CFG.T_ONE 0 0 ≤ 255
    ∧ State.reset.fld SELV_RISK_CFG.T_QUARTER 0 0 ≤ State.reset.fld SELV_RISK_CFG.T_ONE 0 0 := by decide +kernel
/-- Each line of R90's table at its edges: y = 0.25, 0.75, 1.25, 1.75, 2.5, 3.5, 5 and beyond 6. -/
theorem wit_QuantiseK : [1, 3, 5, 7, 10, 14, 20, 24, 25].map (fun n => quantK 0 ⟨n, -2⟩ ⟨1, 0⟩)
    = [(0, false), (2, false), (2, false), (4, false), (4, false), (6, false), (6, false), (7, false), (7, true)]
    ∧ [1, 3, 5, 6, 7].map (fun n => quantK 1 ⟨n, -2⟩ ⟨1, 0⟩) = [(0, false), (2, false), (2, false), (3, false), (3, true)] := by decide +kernel

/-! ### Witnesses: links and time -/

/-- Port 0 in a state. -/
def linkAt (n : Nat) : State := State.reset.setFld WEFT_PORT_STATUS.STATE 0 0 n
/-- Its link layer. -/
def linkWith (n : Nat) (x : Port) : State := (linkAt n).setPort 0 x
theorem wit_LinkStates_training : (2 : W32).toNat % 2 = 0 ∧ (1 : W32).toNat % 2 = 1
    ∧ State.reset.fld WEFT_PORT_CTRL.ENABLE 0 0 = 1 ∧ (State.reset.setFld WEFT_PORT_CTRL.ENABLE 0 0 0).fld WEFT_PORT_CTRL.ENABLE 0 0 = 0
    ∧ ((State.reset.setFld WEFT_PORT_CTRL.ENABLE 0 0 0).setFld WEFT_PORT_CTRL.ENABLE 0 0 1).linkEnabled 0 = true
    ∧ ({ State.reset with refclk := 2 }.setFld WEFT_PORT_CTRL.ENABLE 0 0 1).linkEnabled 0 = false
    ∧ State.reset.linkState 0 = 0 ∧ State.reset.linkEnabled 0 = true ∧ (State.reset.port 0).failures < 3
    ∧ 3 ≤ ((linkWith 0 { failures := 3 }).port 0).failures ∧ (linkAt 1).linkState 0 = 1 ∧ (linkAt 2).linkState 0 ≠ 1
    ∧ [0xFF, 0x0F, 0x1F, 0xF0, 0xF8, 0x77].map (fun m : Nat => (m &&& 0x0F == 0x0F, m &&& 0xF0 == 0xF0))
      = [(true, true), (true, false), (true, false), (false, true), (false, true), (false, false)]
    ∧ ({ State.reset with selvLink := 1 }).linkState 16 = 1 := by decide +kernel
theorem wit_LinkStates_negotiation : (linkAt 2).linkState 0 = 2 ∧ ((linkAt 2).port 0).heard = false ∧ (linkAt 5).linkState 0 = 5
    ∧ ((linkWith 2 { heard := true }).port 0).heard = true ∧ (linkAt 3).linkState 0 ≠ 2 ∧ (linkAt 3).linkState 0 ≠ 5 ∧ (1 : BitVec 4) ≠ 0 := by
  decide +kernel
theorem wit_LinkStates_partner : Config.deviceId + 1 ≠ Config.deviceId := by
  intro h; simp at h
/-- Seventeen replays, the last still within the millisecond. -/
def replaying : State := (linkWith 3 { faults := List.replicate 17 (0, false) }).setReg .TIME_FABRIC 0 0 8000000
theorem wit_LinkStates_retrain : (linkAt 3).linkUp 0 = true ∧ replaying.linkUp 0 = true
    ∧ 16 < ((replaying.port 0).faults.filter (fun f => f.2 = false && f.1 ≤ replaying.reg .TIME_FABRIC 0 0
      && replaying.reg .TIME_FABRIC 0 0 ≤ f.1 + msUnits)).length
    ∧ (let t := replaying.setReg .TIME_FABRIC 0 0 8000001
       ((t.port 0).faults.filter (fun f => f.2 = false && f.1 ≤ t.reg .TIME_FABRIC 0 0 && t.reg .TIME_FABRIC 0 0 ≤ f.1 + msUnits)).length ≤ 16)
    ∧ (linkAt 5).linkState 0 = 5 ∧ 3 ≤ ((linkWith 5 { failures := 2 }).port 0).failures + 1 ∧ ((linkAt 5).port 0).failures + 1 < 3
    ∧ ({ State.reset with selvLink := 5 }).linkState 16 = 5
    ∧ ({ State.reset with selvLink := 5 }.setFld SELV_PAIR_CTRL.STATE 0 0 2).paired = true := by decide +kernel
/-- The selvage link is UP, with one flit that is not acknowledged. -/
def selvUp : State := { State.reset with selvLink := 3 }.setPort 16 { txSeq := 1, unacked := [⟨0, 0, 0, .retryReq 5⟩] }
/-- An empty flit. -/
def flit : List Byte := List.replicate 496 0
/-- The check of an empty flit is 0 (initial value 0). -/
theorem crc_zero (n : Nat) : crc64 (List.replicate n (0 : Byte)) = 0 := by
  unfold crc64
  induction n with
  | zero => rfl
  | succ n ih => rw [List.replicate_succ, List.foldl_cons, show (List.range 8).foldl (fun c _ => crcBit c) (0 ^^^ ((0 : Byte).toNat * 2 ^ 56)) = 0 from by decide +kernel, ih]
theorem crc_flit : crc64 (leBytes 8 0 ++ flit) = 0 := crc_zero 504
theorem wit_FlitReceive : selvUp.linkAlive 16 = true ∧ bits 0 0 2 < 2 ∧ flit.length = 496 ∧ crc64 (leBytes 8 0 ++ flit) = (0 : W64).toNat
    ∧ bits 0 2 12 = (selvUp.port 16).rxNext ∧ bits 0 0 2 = 0 ∧ bits 1 0 2 = 1 ∧ crc64 (leBytes 8 0 ++ flit) ≠ (1 : W64).toNat
    ∧ State.reset.linkAlive 16 = false ∧ (selvUp.port 16).unacked = [] ++ ⟨0, 0, 0, .retryReq 5⟩ :: [] ∧ bits 0 14 12 = 0
    ∧ (selvUp.port 16).ctl = [] ∧ (selvUp.port 16).queue = [] ∧ (selvUp.port 16).unacked.length < 256 := by
  rw [crc_flit]; decide +kernel
/-- A device that was ahead by one pick and holds its time. -/
def ahead : State := { State.reset with ahead := 2 * State.reset.pickUnits }
theorem wit_FabricTime_boundary : State.reset.ahead = 0 ∧ (State.reset.pick + 1) * State.reset.pickUnits < 2 ^ 64
    ∧ 0 < ahead.ahead := by decide +kernel
/-- The root, with port 0 UP. -/
def root : State := ((linkAt 3).setFld TIME_CFG.ROOT 0 0 1).setFld TIME_STATUS.PTP_LOCK 0 0 1
/-- A device whose upstream port is 0. -/
def child : State := (((linkAt 3).setFld WEFT_PORT_TIME.ROLE 0 0 1).setFld TIME_STATUS.FABRIC_LOCK 0 0 1).setPort 0 { last := some (1, 2, 3) }
/-- A TIME message of one hop under lock. -/
def beat (t4 : Option W64) : TimeMsg := { t1 := 10, t2 := 20, t3 := 30, t4 := t4, hops := 1, lock := true, epoch := 7 }
theorem wit_FabricTime_messages : root.linkUp 0 = true ∧ ((linkAt 3).port 0).unacked.length < 256 ∧ root.actsRoot = true ∧ (root.port 0).last = none
    ∧ 256 ≤ ((linkWith 3 { unacked := List.replicate 256 ⟨0, 0, 0, .idle⟩ }).port 0).unacked.length ∧ (linkAt 2).linkUp 0 = false
    ∧ child.linkUp 0 = true ∧ (child.port 0).last = some (1, 2, 3) ∧ (beat (some 40)).t4 = some 40 ∧ (beat none).t4 = none
    ∧ child.fld WEFT_PORT_TIME.ROLE (child.fld TIME_STATUS.UPSTREAM 0 0) 0 = 1 ∧ child.actsRoot = false
    ∧ child.fld TIME_STATUS.FABRIC_LOCK 0 0 = 1 ∧ (child.setFld TIME_STATUS.FABRIC_LOCK 0 0 0).fld TIME_STATUS.FABRIC_LOCK 0 0 = 0
    ∧ root.fld WEFT_PORT_TIME.ROLE (root.fld TIME_STATUS.UPSTREAM 0 0) 0 ≠ 1 := by decide +kernel
/-- It is the message of the upstream port for a device that is not root, and is not for a root. -/
theorem wit_FabricTime_upstream :
    (let t1 := (child.setFld WEFT_PORT_TIME.HOPS 0 0 1).setFld WEFT_PORT_TIME.LOCK 0 0 1
     let t3 := t1.chooseUpstream.setPort 0 { t1.chooseUpstream.port 0 with last := some (10, 20, 30), lastRx := some 20 }
     t3.actsRoot = false ∧ t3.fld WEFT_PORT_TIME.ROLE 0 0 = 1)
    ∧ (let t1 := (root.setFld WEFT_PORT_TIME.HOPS 0 0 1).setFld WEFT_PORT_TIME.LOCK 0 0 1
       (t1.chooseUpstream.setPort 0 { t1.chooseUpstream.port 0 with last := some (10, 20, 30), lastRx := some 20 }).actsRoot = true) := by
  decide +kernel
theorem wit_FabricTime_root : (child.setFld TIME_STATUS.PTP_LOCK 0 0 1).actsRoot = false ∧ (root.setFld TIME_STATUS.PTP_LOCK 0 0 0).actsRoot = true
    ∧ (root.setFld TIME_STATUS.PTP_LOCK 0 0 1).everLocked = false
    ∧ ({ root with everLocked := true }.setFld TIME_STATUS.PTP_LOCK 0 0 1).everLocked = true
    ∧ root.fld TIME_CFG.ROOT 0 0 = 1 ∧ root.fld TIME_STATUS.PTP_LOCK 0 0 = 1 ∧ Int.natAbs (-8000) ≤ 8000 ∧ 8000 < Int.natAbs 8001
    ∧ (child.fld TIME_CFG.ROOT 0 0 = 0) ∧ State.reset.refclk = 0 ∧ ({ State.reset with refclk := 1 }).refclk = 1
    ∧ ({ State.reset with refclk := 2 }).refclk = 2 := by decide +kernel
/-- A correction of one pick slews; of a quarter nanosecond more it steps, or holds. -/
theorem wit_FabricTime_correct : let pick : Int := 2 * State.reset.pickUnits
    (-pick ≤ pick ∧ pick ≤ pick ∧ State.reset.ahead = 0) ∧ pick < pick + 1 ∧ -pick - 1 < -pick := by decide +kernel

/-! ### Witnesses: packets and slots -/

/-- A step is open in a state. -/
def inStep (s : State) (n : Nat) : State := s.setFld BAT_STEP_STATUS.STATE 0 0 n
/-- A packet of job 7 from device 9 of a type, with an argument, LEN units, word 1, word 5 and a payload. -/
def pk7 (type cls len w1 w5 check : Nat) (payload : List Byte) : Packet :=
  pkt (type + 16 + cls * 2 ^ 8 + 7 * 2 ^ 16 + 9 * 2 ^ 32) w1 (len * 2 ^ 32) check 1 w5 payload
/-- Port 0 is UP, the beam store of partition 0 is all its own, and knot 3, which context 0 owns, takes remote additions. -/
def wired : State := ((keyed.setFld WEFT_PORT_STATUS.STATE 0 0 3).setFld PART_BEAM_SPLIT.ADDR_MIB 0 0 64).setFld KNOT_CFG.REMOTE 0 3 1
/-- A packet passes the checks of its arrival, as a decision. -/
def arrives (s : State) (k : Packet) : Bool :=
  (s.arrival k).1 && pkLevelOk k && (s.arrival k).2.member k && pkFormOk k && !(s.arrival k).2.checkFails k
theorem arrives_of {s : State} {k : Packet} (h : arrives s k = true) : s.Arrives k := by
  simp only [arrives, Bool.and_eq_true, Bool.not_eq_true'] at h
  exact ⟨h.1.1.1.1, h.1.1.1.2, h.1.1.2, h.1.2, h.2⟩
/-- A REDUCE or GATHER of zeros has the check 0. -/
theorem arrives_zeros {s : State} {k : Packet} (n : Nat) (h : ((s.arrival k).1 && pkLevelOk k && (s.arrival k).2.member k && pkFormOk k) = true)
    (hp : k.payload = List.replicate n 0) (hc : pkCheck k = 0) : s.Arrives k := by
  simp only [Bool.and_eq_true] at h
  refine ⟨h.1.1.1, h.1.1.2, h.1.2, h.2, ?_⟩
  unfold State.checkFails
  dsimp only
  rw [hp, hc, reduceCheck_zeros, gatherCheck_zeros]
  simp
/-- One unit of zeros. -/
def zeros : List Byte := List.replicate 32 0
/-- A REDUCE, DROP, CALIB, EXPMAX, EXPSET and GATHER of step 0. -/
def reduce0 : Packet := asType 1 (pk7 1 2 1 0 0 0 zeros)
def calib0 : Packet := asType 3 (pk7 3 2 1 0 1 0 zeros)
def drop0 : Packet := asType 2 (pk7 2 2 0 0 0 0 [])
def expmax0 (step n : Nat) : Packet := asType 4 (pk7 4 3 1 step 1 0 (BitVec.ofNat 8 n :: List.replicate 31 0))
def expset0 (step : Nat) : Packet := asType 7 (pk7 7 3 1 step 1 0 zeros)
def gather0 (step : Nat) : Packet := asType 5 (pk7 5 3 1 step 0 0 zeros)
theorem wit_ReductionPackets : wired.Arrives reduce0 ∧ wired.Arrives calib0 ∧ wired.Arrives drop0 :=
  ⟨arrives_zeros 32 (by decide +kernel) rfl (by decide +kernel), arrives_of (by decide +kernel), arrives_of (by decide +kernel)⟩
/-- A step of context 0 is open, and slot 0 takes block 0 of RED_ID 0, or is for calibration. -/
def summing (op : Nat) : State :=
  (((((wired.setFld BAT_STEP_STATUS.STATE 0 0 1).setFld RED_SLOT_CTRL.STATE 0 0 1).setFld RED_SLOT_LEN.LEN 0 0 1).setFld RED_SLOT_CONTRIB.EXPECTED 0
    0 1).setFld RED_SLOT_CTRL.OP 0 0 op).setFld BAT_STEP_STATUS.STATE 0 0 1
/-- The conditions of the verdict, at the one block that slot 0 still expects. -/
theorem wit_ReductionPackets_accept : ∀ x ∈ [(summing 0, reduce0), (summing 1, calib0)],
    (pkType x.2 = 1 ∨ pkType x.2 = 3) ∧ pkStep x.2 ∉ (x.1.stepOf 0 0).ended ∧ pkStep x.2 = x.1.reg .BAT_STEP_NUM 0 0 ∧ x.1.stepState 0 0 ≠ 0
    ∧ (x.1.slotsFor 0 0 (pkStep x.2) (pkRed x.2)).filter (fun u => x.1.fld RED_SLOT_BASE.BLOCK u 0 < pkBlock x.2 + pkBlocks x.2
      && pkBlock x.2 < x.1.fld RED_SLOT_BASE.BLOCK u 0 + x.1.fld RED_SLOT_LEN.LEN u 0) = [0]
    ∧ x.1.fld RED_SLOT_BASE.BLOCK 0 0 ≤ pkBlock x.2 ∧ pkBlock x.2 + pkBlocks x.2 ≤ x.1.fld RED_SLOT_BASE.BLOCK 0 0 + x.1.fld RED_SLOT_LEN.LEN 0 0
    ∧ x.1.fld RED_SLOT_CTRL.STATE 0 0 = 1 ∧ x.1.windowClosed 0 0 = false ∧ pkEpoch x.2 = x.1.epoch 0
    ∧ x.1.fld RED_SLOT_ID.EPOCH 0 0 = pkEpoch x.2 ∧ (x.1.slot 0).clearing = false
    ∧ (x.1.fld RED_SLOT_CTRL.OP 0 0 = 1 ↔ pkType x.2 = 3) ∧ (x.1.slot 0).accepted + pkBlocks x.2 ≤ x.1.slotGoal 0 := by decide +kernel
/-- A STATUS of job 7 with a code for packet 4. -/
def status0 (code : Nat) : Packet := asType 0 (pk7 0 1 0 (code * 2 ^ 32) 4 0 [])
/-- Packet 4 is a REDUCE, with its replies counted, or a DROP, or an addition to a remote knot; its operation is number 5. -/
def awaits (k : Packet) (fails : Nat) : State :=
  { wired with sent := [⟨4, 7, 5, fails, false, k⟩], asyncs := [⟨5, .device, 0, 0, 0, .send 0 0, none, none⟩] }
theorem wit_PacketsMatched_status : (∀ code ∈ [0, 0x07, 0x08], arrives wired (status0 code) = true)
    ∧ (wired.arrival (status0 0)).2.sent.find? (fun x => x.seq = pkArg (status0 0) && x.job = pkJob (status0 0)) = none
    ∧ (∀ n ∈ [0, 2], arrives (awaits reduce0 n) (status0 0) = true
      ∧ (((awaits reduce0 n).arrival (status0 0)).2.sent.find? (fun x => x.seq = pkArg (status0 0) && x.job = pkJob (status0 0))).map
        (fun x => (x.fails, pkType x.pk)) = some (n, 1))
    ∧ (Status.ofCode Status.checksum.code, Status.ofCode Status.epoch.code, Status.ofCode 0) = (Status.checksum, Status.epoch, Status.ok)
    ∧ ((awaits reduce0 2).arrival (status0 0)).2.async 5 = some ⟨5, .device, 0, 0, 0, .send 0 0, none, none⟩
    ∧ ({ awaits reduce0 2 with asyncs := [] }).async 5 = none
    ∧ newer ((awaits drop0 0).epoch 0) (pkEpoch drop0) = false
    ∧ newer ((awaits drop0 0).setFld TBL_SWITCH_GEN.GEN 0 0 1 |>.epoch 0) (pkEpoch drop0) = true
    ∧ pkType (asKnot 0 (pk7 6 1 0 0 3 0 [])) = 6 := by decide +kernel
/-- Page 0 is job 7's; the peer table there has a row for RED_ID 0 of 32 blocks; a step of context 0 is open. -/
def peered : State :=
  { wired.setFld BAT_STEP_STATUS.STATE 0 0 1 with cards := [(0, 513), (1, 513)], hbm := [(24, 32), (31, 0x80)] }
theorem wit_PacketsMatched_exponents :
    arrives peered (expmax0 0 3) = true ∧ ((peered.arrival (expmax0 0 3)).2.expmaxCtxs (expmax0 0 3)) = [(0, 0)]
    ∧ (∀ i < pkCount (expmax0 0 3), expNibble (expmax0 0 3) i < 8)
    ∧ ¬ (∀ i < pkCount (expmax0 0 9), expNibble (expmax0 0 9) i < 8 ∨ expNibble (expmax0 0 9) i = 15)
    ∧ (State.takeExpmax (expmax0 0 3) (.ok, (peered.arrival (expmax0 0 3)).2) (0, 0)).1 = .ok
    ∧ (State.takeExpmax (expmax0 0 3) (.ok, ({ peered with hbm := [] }.arrival (expmax0 0 3)).2) (0, 0)).1 ≠ .ok
    ∧ ({ peered with hbm := [] }).expmaxCtxs (expmax0 0 3) = [(0, 0)]
    ∧ arrives peered (expmax0 5 3) = true ∧ (peered.arrival (expmax0 5 3)).2.expmaxCtxs (expmax0 5 3) = []
    ∧ arrives peered (expset0 0) = true ∧ (peered.arrival (expset0 0)).2.expsetCtxs (expset0 0) = [(0, 0)]
    ∧ (State.takeExpset (expset0 0) (.ok, (peered.arrival (expset0 0)).2) (0, 0)).1 = .ok
    ∧ (State.takeExpset (expset0 0) (.ok, (((peered.setReg .RED_PLANE 0 0 1).arrival (expset0 0)).2)) (0, 0)).1 ≠ .ok
    ∧ arrives peered (expset0 5) = true ∧ (peered.arrival (expset0 5)).2.expsetCtxs (expset0 5) = [] := by decide +kernel
/-- Entry 0 is a BF16 forward copy of RED_ID 0 of one tile, in slots on pages 0 and 1. -/
def gathers : State :=
  { ((peered.setFld BAT_REG_CTRL.VALID 0 0 1).setFld BAT_REG_SLOTS.BACK 0 0 1) with
    validated := [(regKey .BAT_REG_CTRL 0 0, 2 + 8 * 2 ^ 12), (regKey .BAT_REG_LEN 0 0, 1), (regKey .BAT_REG_STRIDE 0 0, 1)] }
theorem wit_PacketsMatched_gather : wired.Arrives (gather0 0) ∧ gathers.Arrives (gather0 0) :=
  ⟨arrives_zeros 32 (by decide +kernel) rfl (by decide +kernel), arrives_zeros 32 (by decide +kernel) rfl (by decide +kernel)⟩
theorem wit_PacketsMatched_gathered :
    wired.gatherCtxs (gather0 0) = [] ∧ (gathers.arrival (gather0 0)).2.gatherCtxs (gather0 0) = [(0, 0)]
    ∧ gathers.reg .BAT_STEP_NUM 0 0 < pkStep (gather0 1) ∧ pkStep (gather0 0) < (gathers.setReg .BAT_STEP_NUM 0 0 1).reg .BAT_STEP_NUM 0 0
    ∧ pkStep (gather0 0) = gathers.reg .BAT_STEP_NUM 0 0 ∧ gathers.stepState 0 0 ≠ 0 ∧ (gathers.setFld BAT_STEP_STATUS.STATE 0 0 0).stepState 0 0 = 0
    ∧ gathers.gatherWaits [(0, 0)] (gather0 0) = false
    ∧ ({ gathers with passes := [⟨0, 0, 0, 0, [(0, 1)], []⟩] }).gatherWaits [(0, 0)] (gather0 0) = true
    ∧ (State.takeGather (gather0 0) (.ok, 0, (gathers.arrival (gather0 0)).2) (0, 0)).1 = .ok
    ∧ (State.takeGather (gather0 0) (.ok, 0, { gathers with cards := [] }) (0, 0)).1 ∉ [.ok, .veto] := by decide +kernel
/-- A KNOT packet of job 7. -/
def knotPk (len w1 arg : Nat) (payload : List Byte) : Packet := pk7 6 1 len w1 arg 0 payload
/-- A SIGNAL of STEP 0 from device 9's context 0 that names MEMBERS and FLIP_LEAD. -/
def signal0 (members lead : Nat) : Packet := asKnot 1 (knotPk 0 0 (members * 2 ^ 20 + lead * 2 ^ 40) [])
theorem wit_CommitPackets_add : arrives wired (asKnot 0 (knotPk 0 0 3 [])) = true ∧ arrives keyed (asKnot 0 (knotPk 0 0 3 [])) = false
    ∧ (let t := (wired.arrival (asKnot 0 (knotPk 0 0 3 []))).2
       (t.fld KNOT_CFG.OWNED 0 3, t.jobOf 0 (t.fld KNOT_CFG.CTX 0 3), t.fld KNOT_CFG.REMOTE 0 3) = (1, 7, 1))
    ∧ pkJob (asKnot 0 (knotPk 0 0 3 [])) = 7 ∧ bits (pkArg (asKnot 0 (knotPk 0 0 3 []))) 0 11 = 3
    ∧ arrives wired (asKnot 0 (knotPk 0 0 4 [])) = true ∧ wired.fld KNOT_CFG.OWNED 0 4 = 0 := by decide +kernel
/-- The home has had a signal of two members, or one that it has decided on. -/
def homed (signals : List (Nat × Nat)) (d : Option (Nat × Nat × Nat)) (sent : Bool) : State :=
  { wired with homes := [⟨7, 0, 2, 1, 0, signals, [], d, sent⟩] }
theorem wit_CommitPackets_signal : arrives wired (signal0 2 1) = true ∧ (wired.homeOf 7 0).decision = none ∧ (wired.homeOf 7 0).signals = []
    ∧ (pkSrc (signal0 2 1), bits (pkArg (signal0 2 1)) 20 20, bits (pkArg (signal0 2 1)) 40 4) = (9, 2, 1)
    ∧ ([] ++ [(9, 0)]).length < 2 ∧ 2 ≤ ([(8, 0)] ++ [(9, 0)]).length
    ∧ ((homed [(8, 0)] none false).homeOf 7 0).signals = [(8, 0)] ∧ ((homed [(8, 0)] none false).homeOf 7 0).decision = none
    ∧ bits (pkArg (signal0 3 1)) 20 20 ≠ ((homed [(8, 0)] none false).homeOf 7 0).members
    ∧ (9, 0) ∈ ((homed [(9, 0)] none false).homeOf 7 0).signals ∧ bits (pkArg (signal0 2 1)) 20 20 = ((homed [(9, 0)] none false).homeOf 7 0).members
    ∧ ((homed [(8, 0)] (some (1, 0, 6)) true).homeOf 7 0).decision = some (1, 0, 6) ∧ ((homed [(8, 0)] (some (1, 0, 6)) true).homeOf 7 0).sent = true
    ∧ ((homed [(8, 0)] (some (1, 0, 6)) false).homeOf 7 0).sent = false
    ∧ (∀ s ∈ [homed [(8, 0)] none false, homed [(9, 0)] none false, homed [(8, 0)] (some (1, 0, 6)) true], ∀ n ∈ [2, 3], arrives s (signal0 n 1) = true) := by
  decide +kernel
theorem wit_CommitPackets_others : arrives wired (asKnot 2 (knotPk 0 0 0 [])) = true
    ∧ arrives (homed [] (some (1, 0, 6)) true) (asKnot 2 (knotPk 0 0 0 [])) = true
    ∧ arrives wired (asKnot 4 (knotPk 0 0 0 [])) = true ∧ wired.twinRec 7 0 = none
    ∧ ({ wired with twinRecs := [⟨0, 7, 0, 2, 0, 7, []⟩] }).twinRec 7 0 = some ⟨0, 7, 0, 2, 0, 7, []⟩
    ∧ arrives ({ wired with twinRecs := [⟨0, 7, 0, 2, 0, 7, []⟩] }) (asKnot 4 (knotPk 0 0 0 [])) = true := by decide +kernel
/-- An OUTCOME or ANSWER with a decision for STEP `n` to context 0, which is in STEP 0; a COMMIT flips at pick 5. -/
def outcome0 (op dec n : Nat) : Packet :=
  asKnot op (knotPk 1 n 0 ([5, 0, 0, 0, 0, 0, 0, 0, BitVec.ofNat 8 dec] ++ List.replicate 23 0))
theorem wit_CommitPackets_outcome : (∀ op ∈ [3, 5], arrives wired (outcome0 op 1 0) = true ∧ arrives wired (outcome0 op 2 0) = true)
    ∧ (let t := (wired.arrival (outcome0 3 1 0)).2
       t.present 0 0 = true ∧ t.jobOf 0 0 = pkJob (outcome0 3 1 0) ∧ t.reg .BAT_STEP_NUM 0 0 = pkStep (outcome0 3 1 0) ∧ t.present 0 1 = false)
    ∧ (∀ d ∈ [0, 1, 2, 3], pkByte (outcome0 3 d 0) 8 = d) ∧ (inStep wired 2).pick < leNat ((outcome0 3 0 0).payload.take 8)
    ∧ leNat ((outcome0 3 0 0).payload.take 8) ≤ ((inStep wired 2).setReg .TIME_PICK 0 0 5).pick
    ∧ (inStep wired 2).stepState 0 0 = 2 ∧ (inStep wired 1).stepState 0 0 = 1 ∧ wired.stepState 0 0 = 0 := by decide +kernel
theorem wit_PacketTagRefused : wired.linkUp 0 = true ∧ State.reset.linkUp 0 = false
    ∧ ({ knotPk 0 0 0 [] with tagOk := false }).port = some 0 ∧ ({ knotPk 0 0 0 [] with tagOk := false }).tagOk = false := by
  decide +kernel
/-- The outcome of STEP 5 meets a member in STEP 0. -/
theorem wit_OutcomeOfAnotherStep : ∀ op ∈ [3, 5], arrives wired (outcome0 op 2 5) = true
    ∧ (let t := (wired.arrival (outcome0 op 2 5)).2
       (t.present 0 0, t.jobOf 0 0, t.reg .BAT_STEP_NUM 0 0) = (true, 7, 0))
    ∧ bits (pkArg (outcome0 op 2 5)) 0 6 = 0 ∧ bits (pkArg (outcome0 op 2 5)) 11 3 = 0 ∧ pkJob (outcome0 op 2 5) = 7
    ∧ pkByte (outcome0 op 2 5) 8 ≤ 2 ∧ 0 ≠ pkStep (outcome0 op 2 5) := by decide +kernel
/-- Slot 0 of context 0 in a state. -/
def slotAt (n : Nat) : State := ctx.setFld RED_SLOT_CTRL.STATE 0 0 n
/-- The device owns block 0 of RED_ID 0, for which slot 0 may open; a DROP of its one contributor has come in the second case. -/
def owning (drops : List Dropped) : State :=
  let s := ((((peered.setFld OWN_CTRL.VALID 0 0 1).setFld OWN_COUNT.BLOCKS 0 0 1).setFld RED_SLOT_LEN.LEN 0 0 1).setFld RED_SLOT_CONTRIB.EXPECTED 0 0
    1).setStep 0 0 { drops := drops }
  { s with regs := s.regs ++ [(regKey .OWN_ID 0 0, BitVec.ofNat 64 (Config.deviceId.toNat * 65536))] }
theorem owner_word {d : Nat} (h : d < 65536) : (BitVec.ofNat 64 (d * 65536)).toNat = d * 65536 ∧ bits (d * 65536) 0 16 = 0
    ∧ bits (d * 65536) 16 16 = d := by
  unfold bits
  rw [BitVec.toNat_ofNat]
  omega
theorem get_listed {α : Type} {d v : α} {k : Nat} {a b : SMap α} (h : a.all (fun c => decide (c.1 ≠ k)) = true) :
    SMap.get d (a ++ (k, v) :: b) k = v := by
  induction a with
  | nil => simp [SMap.get]
  | cons c t ih =>
    simp only [List.all_cons, Bool.and_eq_true, decide_eq_true_eq] at h
    simp only [List.cons_append, SMap.get, if_neg h.1]
    exact ih (by simpa using h.2)
theorem owning_owns (d : List Dropped) (hd : d = [] ∨ d = [⟨0, 0, 9, 0⟩]) : (owning d).ownsBlock 0 0 0 0 = true := by
  obtain ⟨w1, w2, w3⟩ := owner_word (d := Config.deviceId.toNat) Config.deviceId.isLt
  have hi : (owning d).reg .OWN_ID 0 0 = Config.deviceId.toNat * 65536 := by
    rw [← w1]
    refine congrArg BitVec.toNat (get_listed (b := []) ?_)
    rcases hd with rfl | rfl <;> decide +kernel
  have hr : (owning d).fld OWN_ID.RED_ID 0 0 = 0 := (congrArg (fun w => bits w 0 16) hi).trans w2
  have ho : (owning d).fld OWN_ID.OWNER 0 0 = Config.deviceId.toNat := (congrArg (fun w => bits w 16 16) hi).trans w3
  have hf : ((owning d).fld TBL_SWITCH_STATUS.ACTIVE 0 0, (owning d).fld OWN_CTRL.VALID 0 0, (owning d).fld OWN_CTRL.CTX 0 0,
      (owning d).fld OWN_FIRST.BLOCK 0 0, (owning d).fld OWN_COUNT.BLOCKS 0 0) = (0, 1, 0, 0, 1) := by
    rcases hd with rfl | rfl <;> decide +kernel
  simp only [Prod.mk.injEq] at hf
  obtain ⟨f1, f2, f3, f4, f5⟩ := hf
  unfold State.ownsBlock State.ownerOf
  rw [f1, show List.range 8192 = 0 :: (List.range 8191).map Nat.succ from List.range_succ_eq_map]
  simp [f2, f3, f4, f5, hr, ho]
theorem wit_SlotCommands_opens (d : List Dropped) (hd : d = [] ∨ d = [⟨0, 0, 9, 0⟩]) : ((owning d).openResult 0 0 0).1 = .ok := by
  have hl : (owning d).fld RED_SLOT_LEN.LEN 0 0 = 1 ∧ (owning d).fld RED_SLOT_ID.RED_ID 0 0 = 0 ∧ (owning d).fld RED_SLOT_BASE.BLOCK 0 0 = 0 := by
    rcases hd with rfl | rfl <;> decide +kernel
  have ha : (List.range 1).all (fun i => (owning d).ownsBlock 0 0 0 (0 + i)) = true := by simp [owning_owns d hd]
  have hc : (owning d).openCheck 0 0 0 = .ok := by
    unfold State.openCheck
    dsimp only
    rw [hl.1, hl.2.1, hl.2.2, ha]
    rcases hd with rfl | rfl <;> decide +kernel
  unfold State.openResult
  rw [hc]
  rcases hd with rfl | rfl <;> decide +kernel
theorem wit_SlotCommands_commands : ctx.function bar0 = some (0, 0) ∧ ctx.slotOwner 0 = some (0, 0) ∧ ctx.slotOwner 3 = some (0, 0)
    ∧ ctx.slotOwner 4 = none ∧ (slotAt 0).fld RED_SLOT_CTRL.STATE 0 0 = 0 ∧ (((slotAt 0).setFld RED_SLOT_CTRL.OP 0 0 0).openResult 0 0 0).1 ≠ .ok
    ∧ (slotAt 2).fld RED_SLOT_CTRL.STATE 0 0 ∈ [1, 2] ∧ 3 ≤ (slotAt 3).fld RED_SLOT_CTRL.STATE 0 0
    ∧ (owning []).function bar0 = some (0, 0) ∧ (owning []).slotOwner 0 = some (0, 0) ∧ (owning []).dropsOf 0 0 0 0 = []
    ∧ (owning [⟨0, 0, 9, 0⟩]).dropsOf 0 0 0 0 = [⟨0, 0, 9, 0⟩] ∧ (owning []).fld RED_SLOT_CONTRIB.EXPECTED 0 0 = 1 := by decide +kernel
/-- Slot 1 is complete: one contributor of one block, all zero; its accumulators sum to zero. -/
def summed : State :=
  (((((keyed.setFld RED_SLOT_CTRL.STATE 1 0 1).setFld RED_SLOT_LEN.LEN 1 0 1).setFld RED_SLOT_CONTRIB.EXPECTED 1 0 1).setSlot 1
    { accepted := 1 }))
theorem wit_SlotCommands_progress : ((ctx.setSlot 0 { clearing := true }).slot 0).clearing = true
    ∧ ((ctx.setSlot 0 { clearing := true }).setSlot 0 {}).windowClosed 0 0 = false ∧ (ctx.slot 0).clearing = false
    ∧ (((ctx.setFld SCHED_WIN_STATUS.CLOSED 0 0 1).setSlot 0 { clearing := true }).setSlot 0 {}).windowClosed 0 0 = true
    ∧ summed.slotOwner 1 = some (0, 0) ∧ summed.fld RED_SLOT_CTRL.OP 1 0 = 0 ∧ summed.slotComplete 0 0 1 = true
    ∧ (summed.setFld RED_SLOT_CTRL.OP 1 0 1).fld RED_SLOT_CTRL.OP 1 0 = 1 ∧ (summed.setSlot 1 {}).slotComplete 0 0 1 = false := by decide +kernel
/-- Its zeros have the check 0, whatever the multiplier: they agree with a sum of 0 and not with one of 1. -/
theorem wit_SlotCommands_sum : (∀ h, checkSum h 0 (List.replicate 32 0) = (summed.slot 1).sin) ∧ ∀ h, checkSum h 0 (List.replicate 32 0) ≠ 1 := by
  have e : (summed.slot 1).sin = 0 := by decide +kernel
  exact ⟨fun h => by rw [checkSum_zeros, e], fun h => by rw [checkSum_zeros]; decide⟩
/-- A packet of context 0 held since pick 0. -/
def heldNow (k : Packet) : Held := ⟨0, 0, 0, 0, k⟩
def holding (k : Packet) : State := { gathers with heldPackets := [heldNow k] }
/-- A DROP of an earlier step no longer waits, and bytes for a later step do. -/
theorem wit_SlotCommands_holds : (let s := (holding drop0).setReg .BAT_STEP_NUM 0 0 1
      s.heldPackets.find? s.heldDue = some (heldNow drop0))
    ∧ pkType drop0 ≠ 5 ∧ pkType (gather0 0) = 5 ∧ (holding (gather0 0)).heldPackets.find? (holding (gather0 0)).heldDue = some (heldNow (gather0 0))
    ∧ (∀ h ∈ (holding (gather0 1)).heldPackets, (holding (gather0 1)).heldDue h = false)
    ∧ (holding drop0).heldPackets[0]? = some (heldNow drop0) := by decide +kernel
theorem wit_SlotCommands_timeout : let late := fun n => (holding drop0).setReg .TIME_PICK 0 0 n
    RED_POLICY.HOLD_PICKS.of ((late 65536).policy 0 0) < (late 65536).pick - 0
    ∧ (late 0).pick - 0 ≤ RED_POLICY.HOLD_PICKS.of ((late 0).policy 0 0) := by
  decide +kernel
theorem wit_SlotCommands_replay : (awaits reduce0 0).sent.find?
    (fun (x : Sent) => x.seq = (4 : W64).toNat && !x.bounced && pkType x.pk ≠ 6) = some ⟨4, 7, 5, 0, false, reduce0⟩
    ∧ (∀ x ∈ (awaits (asKnot 0 (knotPk 0 0 3 [])) 0).sent, x.seq = (4 : W64).toNat → x.bounced = true ∨ pkType x.pk = 6) := by decide +kernel

/-! ### Witnesses: the batten and the commit -/

/-- The pages 0 and 1 of HBM are mapped to job 7, and a peer table at address 0 has a row for RED_ID 0 of 32 blocks. -/
def paged : State :=
  { keyed.setFld PART_BEAM_SPLIT.ADDR_MIB 0 0 64 with cards := [(0, 513), (1, 513)], hbm := [(24, 32), (31, 0x80)] }
/-- Entry 0 is a BF16 forward copy of one tile in two slots, on pages 0 and 1. -/
def copyEntry : State :=
  (((paged.setFld BAT_REG_CTRL.KIND 0 0 1).setFld BAT_REG_CTRL.FWD_FMT 0 0 8).setFld BAT_REG_LEN.TILES 0 0
    1).setFld BAT_REG_STRIDE.UNITS 0 0 1
theorem wit_BattenEntries_validate : copyEntry.entryOwner 0 (BAT_REG_CMD.ENTRY.of 5) = none ∧ copyEntry.function bar0 = some (0, 0)
    ∧ copyEntry.entryOwner 0 (BAT_REG_CMD.ENTRY.of 0) = some 0
    ∧ (copyEntry.takeEntry 0 0).entryError 0 0 0 = none
    ∧ ((copyEntry.setFld BAT_REG_LEN.TILES 0 0 0).takeEntry 0 0).entryError 0 0 0 = some 3
    ∧ copyEntry.stepState 0 0 = 0 ∧ (copyEntry.setFld BAT_STEP_STATUS.STATE 0 0 1).stepState 0 0 ≠ 0 := by decide +kernel
/-- Entry 1 is a valid shard of an open step. -/
def shard : State := (inStep paged 1).setFld BAT_REG_CTRL.VALID 0 1 1
/-- A forward copy of the same tensor waits for its step. -/
def shardWaits : State :=
  let t := ((((shard.setFld PART_CTX_ADMIT.STATE 0 1 1).setFld PART_CTX_JOB.JOB 0 1 7).setFld PART_CTX_REGS.COUNT 0 1 1).setFld
    PART_CTX_REGS.BASE 0 1 9).setFld BAT_REG_CTRL.VALID 0 9 1
  { t with validated := [(regKey .BAT_REG_CTRL 0 9, 2), (regKey .BAT_REG_LEN 0 1, 1), (regKey .BAT_REG_LEN 0 9, 1)] }
theorem wit_BattenEntries_shards : shard.entryOwner 0 1 = some 0 ∧ shard.stepState 0 0 = 1 ∧ 1 ∈ shard.moving 0 0
    ∧ shard.ent BAT_REG_CTRL.KIND 0 1 = 0 ∧ 1 ∉ (shard.stepOf 0 0).updated ∧ shard.copiesReady 0 0 1 = (true, false)
    ∧ shard.mirrorLets 0 0 = true ∧ shard.ent BAT_REG_CTRL.GRAD_SRC 0 1 = 0 := by decide +kernel
theorem wit_BattenEntries_others : shard.entryOwner 0 5 = none ∧ (inStep shard 2).stepState 0 0 ≠ 1
    ∧ shardWaits.copiesReady 0 0 1 = (false, false) := by
  decide +kernel
/-- Its gradients: with no tile; with a peer table that is refused; and with a tile whose blocks no slot has. -/
theorem wit_BattenEntries_grads : (shard.slotGrads 0 0 1).map (fun x => (x.1, x.2.1.size)) = some (.ok, 0)
    ∧ (({ shard with cards := [] } : State).slotGrads 0 0 1).map (fun x => (x.1, x.2.1.size)) = some (.protection, 0)
    ∧ (({ shard with validated := [(regKey .BAT_REG_LEN 0 1, 1)] } : State).slotGrads 0 0 1).isNone = true := by decide +kernel
/-- Its gradients lie in HBM: the read of none is good, one that the cards refuse is not, and an infinity is no finite number. -/
def shardLocal : State := { shard with validated := [(regKey .BAT_REG_CTRL 0 1, 2 ^ 7 + 2 ^ 25)] }
theorem wit_BattenEntries_local : shardLocal.ent BAT_REG_CTRL.GRAD_SRC 0 1 ≠ 0
    ∧ (shardLocal.hbmRead (.ctx 1 0 0) (shardLocal.ent BAT_REG_GRAD.ADDR 0 1) (shardLocal.elems 0 1 * shardLocal.gradBytes 0 1)).1 = .ok
    ∧ (∀ x ∈ (List.range (shardLocal.elems 0 1)).map (localGrad 2 #[]), x ≠ none)
    ∧ (({ shardLocal with cards := [], validated := [(regKey .BAT_REG_CTRL 0 1, 2 ^ 7 + 2 ^ 25), (regKey .BAT_REG_LEN 0 1, 1)] }).hbmRead (.ctx 1 0 0) 0 32768).1 ≠ .ok
    ∧ localGrad 2 #[0x80, 0x7F] 0 = none := by decide +kernel
/-- The copy's back slot is held by a pass, and its step is open. -/
def shardHeld : State :=
  { shardWaits.setFld BAT_STEP_STATUS.STATE 0 1 1 with passes := [⟨0, 1, 0, 1, [(9, (shardWaits.fld BAT_REG_SLOTS.BACK 0 9))], []⟩] }
/-- The pair is up, and the mirror point is behind. -/
def shardMirror : State :=
  ((shard.setFld SELV_PAIR_CTRL.STATE 0 0 2).setFld SNAP_CTX_CFG.MIRROR 0 0 1).setReg .BAT_COMMIT_COUNT 0 0 5
theorem wit_BattenEntries_wait : shardHeld.copiesReady 0 0 1 = (true, true) ∧ shardHeld.entryOwner 0 1 = some 0 ∧ shardHeld.stepState 0 0 = 1
    ∧ 1 ∈ shardHeld.moving 0 0 ∧ shardMirror.copiesReady 0 0 1 = (true, false) ∧ shardMirror.mirrorLets 0 0 = false := by decide +kernel
theorem wit_StepsAndCommit : ctx.present 0 1 = false ∧ ctx.mgmtStopped = false ∧ ({ ctx with mgmtStopped := true }).mgmtStopped = true
    ∧ ctx.present 0 0 = true ∧ ctx.admitted 0 0 = true ∧ ctx.stepState 0 0 = 0 ∧ ctx.role 0 0 ≠ 1
    ∧ (inStep ctx 4).stepState 0 0 ≠ 0 ∧ (ctx.setFld PART_CTX_ADMIT.ROLE 0 0 1).role 0 0 = 1 ∧ (inStep ctx 1).stepState 0 0 = 1
    ∧ bit 1 0 = true ∧ bit 2 0 = false ∧ (inStep ctx 2).stepState 0 0 = 2 ∧ (inStep ctx 3).stepState 0 0 ∉ [1, 2] := by decide +kernel
/-- COMMIT has been requested, and the gather knot has come. -/
def committing : State := ((inStep ctx 1).setStep 0 0 { commitReq := true }).setReg .KNOT_COUNT 0 0 1
theorem wit_StepsAndCommit_deadlines : committing.maySignal 0 0 = true ∧ ctx.maySignal 0 0 = false
    ∧ ((inStep ctx 2).stepOf 0 0).queryPick = none ∧ ((inStep ctx 2).stepOf 0 0).signalPick + (inStep ctx 2).deadline 0 0 ≤ 255
    ∧ ((inStep ctx 2).setReg .TIME_PICK 0 0 255).pick = 255
    ∧ (((inStep ctx 2).setStep 0 0 { queryPick := some 0 }).stepOf 0 0).queryPick = some 0 := by decide +kernel
/-- A QUERY for STEP 5, with and without a record of it. -/
def recorded : State := { wired with twinRecs := [⟨0, 7, 5, 2, 0, 7, []⟩] }
theorem wit_TwinRecordFinal : arrives wired (asKnot 4 (knotPk 0 5 0 [])) = true ∧ (wired.arrival (asKnot 4 (knotPk 0 5 0 []))).2.twinRec 7 5 = none
    ∧ arrives recorded (asKnot 4 (knotPk 0 5 0 [])) = true
    ∧ ((recorded.arrival (asKnot 4 (knotPk 0 5 0 []))).2.twinRec 7 5).isSome = true := by decide +kernel

/-! ### Witnesses: Onaile instructions -/

/-- A program state of context 0 that stands at the start of its beam store. -/
def g0 : Prog := { ctx := 0, queue := 0, cmd := 0, pc := 0, beam := true }
/-- An instruction of level 1 with operand bits. -/
def ins (op : Nat) : Issue := ⟨0, 0, 0, 1, BitVec.ofNat 52 op⟩
/-- A state in which that program stands at a word. -/
def atWord (s : State) (g : Prog) (w : Nat) : State := { s with progs := [(0, g)], beam := writeBytes [] 0 (leBytes 8 w) }
/-- It stands at the instruction of an OPCODE with operand bits. -/
def at0 (g : Prog) (opc op : Nat) : State := atWord keyed g (spelled (ins op) opc)
/-- It stands at a word, as a decision. -/
def standsAt (s : State) (g : Prog) (x : Issue) (w : Nat) : Bool :=
  s.prog (progKey x.part.val x.engine.val x.ps.val) = some g && g.trap = none && g.wait = .none && !s.stopped
    && s.due x.part.val x.engine.val x.ps.val
    && (s.fetch x.part.val x.engine.val g).1 = .ok && (s.fetch x.part.val x.engine.val g).2.1.toNat = w
theorem stands_of {s : State} {g : Prog} {x : Issue} {w : Nat} (h : standsAt s g x w = true) : s.Stands x g w := by
  simp only [standsAt, Bool.and_eq_true, decide_eq_true_eq, Bool.not_eq_true'] at h
  obtain ⟨⟨⟨⟨⟨⟨h1, h2⟩, h3⟩, h4⟩, h5⟩, h6⟩, h7⟩ := h
  exact ⟨h1, h2, h3, h4, h5, h6, h7⟩
/-- Ready, as a decision. -/
def readyAt (s : State) (g : Prog) (opc op : Nat) (fs : List (Nat × Nat)) : Bool :=
  standsAt s g (ins op) (spelled (ins op) opc) && namedOnly (ins op).op.toNat fs
theorem ready_of {s : State} {g : Prog} {opc op : Nat} {fs : List (Nat × Nat)} (h : readyAt s g opc op fs = true) : s.Ready (ins op) opc fs g := by
  simp only [readyAt, Bool.and_eq_true] at h
  exact ⟨stands_of h.1, rfl, h.2⟩
/-- Ready where it stands alone. -/
def ready0 (g : Prog) (opc op : Nat) (fs : List (Nat × Nat)) : Bool := readyAt (at0 g opc op) g opc op fs

theorem wit_LevelException : standsAt (at0 g0 0 1) g0 (ins 1) (spelled (ins 1) rowNopInstr.opcode) = true ∧ namedOnly (ins 1).op.toNat [] = false
    ∧ rowNopInstr.sub (ins 1).op.toNat = true
    ∧ standsAt (atWord keyed g0 (2 ^ 53)) g0 ⟨0, 0, 0, 2, 0⟩ (spelled ⟨0, 0, 0, 2, 0⟩ rowNopInstr.opcode) = true
    ∧ (2 : BitVec 4) ≠ 1 := by decide +kernel
/-- A BSTEP with the reserved CMD 0x0, and one with the CMD of another command. -/
theorem wit_LevelException_sub : standsAt (at0 g0 rowBstepOpen.opcode 0) g0 (ins 0) (spelled (ins 0) rowBstepOpen.opcode) = true
    ∧ rowBstepOpen.sub (ins 0).op.toNat = false ∧ (rowOf (spelled (ins 0) rowBstepOpen.opcode)).isNone = true
    ∧ standsAt (at0 g0 rowBstepOpen.opcode (2 * 2 ^ 45)) g0 (ins (2 * 2 ^ 45)) (spelled (ins (2 * 2 ^ 45)) rowBstepOpen.opcode) = true
    ∧ rowBstepOpen.sub (ins (2 * 2 ^ 45)).op.toNat = false
    ∧ (rowOf (spelled (ins (2 * 2 ^ 45)) rowBstepOpen.opcode)).isSome = true := by decide +kernel
/-- A program that stands beyond its beam store fetches nothing; one that waits issues nothing. -/
def gOut : Prog := { g0 with pc := 2 ^ 30 }
theorem wit_LevelException_fetch : keyed.prog 0 = none ∧ (at0 gOut 0 0).prog 0 = some gOut ∧ (at0 gOut 0 0).due 0 0 0 = true
    ∧ (at0 gOut 0 0).stopped = false
    ∧ ((at0 gOut 0 0).fetch 0 0 gOut).1 ≠ .ok ∧ (at0 { g0 with wait := .units 0 } 0 0).prog 0 = some { g0 with wait := .units 0 } := by decide +kernel

/-- Registers that the instructions use: S1 = 1, S2 = 32, A1 a place in the beam store, A2 an address of HBM, T0 zero. -/
def g1 : Prog := { g0 with s := [(1, 1), (2, 32)], a := [(1, 0x2000000000000008), (2, 0x3000000000010000)] }
theorem wit_ControlInstructions : ready0 g1 0x00 0 [] = true ∧ ready0 g1 0x06 0 [] = true ∧ ready0 g1 0x01 (2 ^ 48) [(49, 3), (48, 1), (0, 32)] = true
    ∧ ready0 g1 0x01 0 [(49, 3), (48, 1), (0, 32)] = true ∧ g1.getP 0 % 2 = bits (2 ^ 48) 48 1 ∧ g1.getP 0 % 2 ≠ bits 0 48 1
    ∧ ready0 g1 0x02 (2 ^ 48) [(48, 4)] = true ∧ ready0 g1 0x02 0 [(48, 4)] = true ∧ (g1.jump (g1.getA 1)).isSome = true
    ∧ (g1.jump (g1.getA 0)).isNone = true
    ∧ ready0 g1 0x03 (2 ^ 48) [(48, 4), (0, 32)] = true ∧ ready0 g1 0x04 (2 ^ 47) [(47, 5), (0, 32)] = true
    ∧ ready0 g1 0x04 (2 * 2 ^ 47) [(47, 5), (0, 32)] = true
    ∧ (g1.getS 2 + 2 ^ 64 - 1) % 2 ^ 64 ≠ 0 ∧ (g1.getS 1 + 2 ^ 64 - 1) % 2 ^ 64 = 0
    ∧ ready0 g1 0x05 (2 ^ 46) [(46, 6)] = true ∧ ready0 g1 0x07 (2 ^ 47) [(47, 5)] = true := by decide +kernel
theorem wit_ScalarInstructions_sop : ready0 g1 0x10 (13 * 2 ^ 32) [(47, 5), (42, 5), (37, 5), (32, 5)] = true
    ∧ Machine.sop (bits (13 * 2 ^ 32) 32 5) 1 2 = some 2 ∧ 0x0E ≤ bits (14 * 2 ^ 32) 32 5
    ∧ ready0 g1 0x10 (14 * 2 ^ 32) [(47, 5), (42, 5), (37, 5), (32, 5)] = true
    ∧ ready0 g1 0x11 0 [(47, 5), (42, 5), (32, 5), (0, 32)] = true ∧ (Machine.sop (bits 0 32 5) 0 0).isSome = true
    ∧ ready0 g1 0x11 (14 * 2 ^ 32) [(47, 5), (42, 5), (32, 5), (0, 32)] = true ∧ ready0 g1 0x12 (2 ^ 46) [(47, 5), (46, 1), (0, 32)] = true
    ∧ bits (2 ^ 46) 46 1 = 1 ∧ ready0 g1 0x12 0 [(47, 5), (46, 1), (0, 32)] = true ∧ bits 0 46 1 = 0
    ∧ ready0 g1 0x15 (5 * 2 ^ 32) [(47, 3), (42, 5), (37, 5), (32, 3)] = true ∧ scond (bits (5 * 2 ^ 32) 32 3) 0 1 = some false
    ∧ ready0 g1 0x15 (6 * 2 ^ 32) [(47, 3), (42, 5), (37, 5), (32, 3)] = true ∧ 6 ≤ bits (6 * 2 ^ 32) 32 3 := by decide +kernel
theorem wit_ScalarInstructions_aop : ready0 g1 0x16 (2 ^ 41) [(48, 4), (42, 5), (41, 1), (0, 32)] = true ∧ bits (2 ^ 41) 41 1 = 1
    ∧ ready0 g1 0x16 (15 * 2 ^ 42) [(48, 4), (42, 5), (41, 1), (0, 32)] = true ∧ bits (15 * 2 ^ 42) 42 5 < 16
    ∧ ready0 g1 0x16 (16 * 2 ^ 42) [(48, 4), (42, 5), (41, 1), (0, 32)] = true ∧ 16 ≤ bits (16 * 2 ^ 42) 42 5
    ∧ ready0 g1 0x17 0 [(47, 5), (43, 4), (0, 32)] = true ∧ ready0 g1 0x1A 256 [(47, 5), (0, 32)] = true
    ∧ ready0 g1 0x1A (2 ^ 32 - 256) [(47, 5), (0, 32)] = true
    ∧ (0 : Int) ≤ (bits 0 0 23 : Int) + signed 32 256 ∧ ((bits 0 0 23 : Int) + signed 32 256) % 256 = 0
    ∧ (bits 0x7FFF00 0 23 : Int) + signed 32 0 ≤ 0x7FFFFF ∧ ((bits 0 0 23 : Int) + signed 32 (2 ^ 32 - 256)) < 0 := by decide +kernel
theorem wit_ScalarInstructions_sys : (∀ sel ∈ [0x01, 0x0C, 0x0E], ready0 g1 0x1B (sel * 2 ^ 32) [(47, 5), (32, 8)] = true)
    ∧ (∀ sel ∈ [0x0B, 0x0C, 0x0D], ready0 g1 0x1C (sel * 2 ^ 32) [(47, 5), (32, 8)] = true)
    ∧ (((at0 g1 0x1B (2 ^ 32)).fetched (ins (2 ^ 32)) g1).sysr (issOf (ins (2 ^ 32)) g1 0x1B) 0x01).1 = some 7
    ∧ g1.getS 0 % 8 < 5 ∧ ({ g1 with s := [(1, 5)] }.getS 1) % 8 = 5 := by decide +kernel
/-- A2 is offset 8 of the own bobbin, A3 the end of the window and A4 no multiple of 8; A0 is offset 0. -/
def g2 : Prog := { g0 with s := [(1, 1), (2, 32)], a := [(2, 8), (3, 0x10000), (4, 4)] }
/-- It stands at SLD of A0, or of another. -/
def loads (opc a : Nat) : State := at0 g2 opc (a * 2 ^ 43)
/-- An instruction of the program in a unit writes bytes 0 to 255. -/
def writing : UnitOp := ⟨0, 0, 0, ⟨0, .ok, 0, 0x30⟩, 0, [], [(0, 256)], [], none⟩
theorem wit_ScalarInstructions_memory : (∀ c ∈ [(0x13, 8), (0x14, 8), (0x18, 16), (0x19, 16)], ready0 g2 c.1 0 [(47, 5), (43, 4), (0, 32)] = true
      ∧ ready0 g2 c.1 (3 * 2 ^ 43) [(47, 5), (43, 4), (0, 32)] = true ∧ ready0 g2 c.1 (4 * 2 ^ 43) [(47, 5), (43, 4), (0, 32)] = true
      ∧ ownOff (issOf (ins 0) g2 c.1).addr = some 0 ∧ (issOf (ins 0) g2 c.1).addr % c.2 = 0
      ∧ ((loads c.1 0).fetched (ins 0) g2).inWindow (issOf (ins 0) g2 c.1) [(0, c.2)] = true
      ∧ ((loads c.1 0).fetched (ins 0) g2).hazard 0 [(0, c.2)] [(0, c.2)] = false
      ∧ ({ loads c.1 0 with unitOps := [writing] }.fetched (ins 0) g2).hazard 0 [(0, c.2)] [] = true
      ∧ ({ loads c.1 0 with unitOps := [writing] }.fetched (ins 0) g2).hazard 0 [] [(0, c.2)] = true
      ∧ ownOff (issOf (ins (3 * 2 ^ 43)) g2 c.1).addr = some 0x10000
      ∧ ((loads c.1 3).fetched (ins (3 * 2 ^ 43)) g2).inWindow (issOf (ins (3 * 2 ^ 43)) g2 c.1) [(0x10000, c.2)] = false
      ∧ (issOf (ins (4 * 2 ^ 43)) g2 c.1).addr % c.2 ≠ 0) := by decide +kernel
theorem wit_ProgramRegisters : (63 : Nat) < 64 := by decide
/-- What an instruction leaves of its program state. -/
def leaves (c : Instr) (s : State) : Option Prog := match exec c s with | .next t => t.prog 0 | _ => none
/-- SOP of S1 and S2 into S3 leaves the program without an exception, and so do the others of the frame. -/
theorem wit_ScalarFrame : (let op := 3 * 2 ^ 47 + 2 ^ 42 + 2 * 2 ^ 37
      (leaves (.sop (ins op)) (at0 g1 0x10 op)).map (fun h => (h.getS 3, h.trap, h.pc)) = some (33, none, 8)
      ∧ ready0 g1 0x10 op [(47, 5), (42, 5), (37, 5), (32, 5)] = true)
    ∧ (leaves (.sopi (ins (2 ^ 47))) (at0 g1 0x11 (2 ^ 47))).map (fun h => h.trap) = some none
    ∧ (leaves (.sli (ins (2 ^ 47))) (at0 g1 0x12 (2 ^ 47))).map (fun h => h.trap) = some none
    ∧ (leaves (.aget (ins (2 ^ 47))) (at0 g1 0x17 (2 ^ 47))).map (fun h => h.trap) = some none := by decide +kernel
theorem wit_ScalarFrame_predicates :
    (leaves (.aop (ins (2 ^ 48 + 2 ^ 41))) (at0 g1 0x16 (2 ^ 48 + 2 ^ 41))).map (fun h => (h.getA 1, h.trap)) = some (0, none)
    ∧ ready0 g1 0x16 (2 ^ 48 + 2 ^ 41) [(48, 4), (42, 5), (41, 1), (0, 32)] = true
    ∧ (leaves (.scmp (ins (2 ^ 47))) (at0 g1 0x15 (2 ^ 47))).map (fun h => (h.getP 1, h.trap)) = some (2 ^ 64 - 1, none)
    ∧ ready0 g1 0x15 (2 ^ 47) [(47, 3), (42, 5), (37, 5), (32, 3)] = true := by decide +kernel

/-- The registers of a shuttle operation: A1 offset 0 and A2 offset 64 of the own bobbin, A3 the board tier, S1 32 bytes. -/
def g3 : Prog := { g0 with s := [(1, 32), (2, 16)], a := [(2, 64), (3, 0x4000000000000000)] }
/-- The state after the fetch of one of its instructions, and the instruction. -/
def met (s : State) (opc op : Nat) : State × Iss := ((atWord s g3 (spelled (ins op) opc)).fetched (ins op) g3, issOf (ins op) g3 opc)
/-- Sixteen operations of the program. -/
def sixteen (s : State) : State := { s with asyncs := List.replicate 16 ⟨1, .prog 0 0 0 0x20, 0, 0, 0, .fill 0 32, none, none⟩ }
/-- The context's objects are on, with a table at address 0 whose object 0 is 4 KiB of HBM at 0x1000. -/
def objects : State :=
  { (keyed.setFld PART_BEAM_SPLIT.ADDR_MIB 0 0 64).setFld PART_CTX_PLACE.MODE 0 0 1 |>.setFld PART_CTX_OBJECTS.OBJECTS 0 0 1 with
    cards := [(0, 513)], hbm := [(0, 1), (9, 0x10), (15, 0x30), (17, 0x10)] }
theorem wit_ShuttleInstructions_copy :
    let fs := [(48, 4), (44, 4), (39, 5), (36, 3), (35, 1), (24, 11)]
    let op := 2 ^ 48 + 2 * 2 ^ 44 + 2 ^ 39 + 3 * 2 ^ 36
    let ok := fun (x : State × Iss) => x.1.shuttleCheck x.2 [x.2.g.getA 1, x.2.g.getA 2] (x.2.g.getS 1) (x.2.f 35 1 = 1) (x.2.f 24 11)
    ready0 g3 0x20 op fs = true ∧ ready0 g3 0x20 (4 * 2 ^ 36) fs = true ∧ 4 ≤ (met keyed 0x20 (4 * 2 ^ 36)).2.f 36 3
      ∧ (met keyed 0x20 op).2.f 36 3 < 4 ∧ (met keyed 0x20 op).1.asyncHeld 0 2 < 16 ∧ 16 ≤ (met (sixteen keyed) 0x20 op).1.asyncHeld 0 2
      ∧ ok (met keyed 0x20 op) = .ok ∧ (met keyed 0x20 op).1.objectMode (met keyed 0x20 op).2 = false
      ∧ ok (met objects 0x20 op) = .ok ∧ (met objects 0x20 op).1.objectMode (met objects 0x20 op).2 = true
      ∧ (isBoard (g3.getA 1) || isBoard (g3.getA 2)) = false ∧ isBoard (g3.getA 3) = true
      ∧ (met keyed 0x20 0).1.shuttleCheck (met keyed 0x20 0).2 [0, 0] 5 false 0 ≠ .ok := by decide +kernel
theorem wit_ShuttleInstructions_fill :
    let fs := [(48, 4), (39, 5), (35, 1), (24, 11)]
    let op := 2 ^ 48 + 2 ^ 39
    let ok := fun (x : State × Iss) => x.1.shuttleCheck x.2 [x.2.g.getA (x.2.f 48 4)] (x.2.g.getS (x.2.f 39 5)) (x.2.f 35 1 = 1) (x.2.f 24 11)
    ready0 g3 0x22 op fs = true ∧ ready0 g3 0x22 (2 ^ 48 + 2 * 2 ^ 39) fs = true ∧ 16 ≤ (met (sixteen keyed) 0x22 op).1.asyncHeld 0 2
      ∧ (met keyed 0x22 op).1.asyncHeld 0 2 < 16 ∧ ok (met keyed 0x22 op) = .ok ∧ ok (met keyed 0x22 (2 ^ 48 + 2 * 2 ^ 39)) ≠ .ok
      ∧ ((met keyed 0x22 op).1.objectMode (met keyed 0x22 op).2 && isBoard (g3.getA 1)) = false
      ∧ ok (met objects 0x22 (3 * 2 ^ 48 + 2 ^ 39)) = .ok
      ∧ ((met objects 0x22 (3 * 2 ^ 48 + 2 ^ 39)).1.objectMode (met objects 0x22 (3 * 2 ^ 48 + 2 ^ 39)).2 && isBoard (g3.getA 3)) = true
      ∧ ready0 g3 0x23 16 [(0, 5)] = true := by decide +kernel
/-- COPYOBJ of 32 bytes of object 0 into A1: S3 names it at offset 0, S4 at offset 16, and S2 is 16 bytes. -/
theorem wit_ShuttleInstructions_object :
    let fs := [(48, 4), (43, 5), (38, 5), (37, 1), (35, 1), (24, 11)]
    let op := 2 ^ 48 + 3 * 2 ^ 43 + 2 ^ 38
    let x := met objects 0x21 op
    let entry := x.1.hbmReadAs 1 (.ctx 0 0 0) (x.1.reg .PART_CTX_TABLE 0 0) 32
    readyAt (atWord objects g3 (spelled (ins op) 0x21)) g3 0x21 op fs = true ∧ ready0 g3 0x21 op fs = true ∧ x.1.objectMode x.2 = true
      ∧ isBoard (x.2.g.getA 1) = false ∧ x.1.asyncHeld 0 2 < 16 ∧ 16 ≤ (met (sixteen objects) 0x21 op).1.asyncHeld 0 2
      ∧ x.1.shuttleCheck x.2 [x.2.g.getA 1] (x.2.g.getS 1) (x.2.f 35 1 = 1) (x.2.f 24 11) = .ok
      ∧ x.1.shuttleCheck x.2 [x.2.g.getA 1] (x.2.g.getS 2) (x.2.f 35 1 = 1) (x.2.f 24 11) ≠ .ok
      ∧ bits (x.2.g.getS 3) 48 16 < x.1.fld PART_CTX_OBJECTS.OBJECTS 0 0 ∧ bits (x.2.g.getS 3) 0 48 % 32 = 0 ∧ bits (x.2.g.getS 2) 0 48 % 32 ≠ 0
      ∧ (met keyed 0x21 op).1.objectMode (met keyed 0x21 op).2 = false
      ∧ entry.1 = .ok ∧ objectPlace (fun k => leNat ((entry.2.1.drop (8 * k)).take 8)) 0 32 false = some (0x3000000000001000, 0)
      ∧ objectPlace (fun k => leNat ((entry.2.1.drop (8 * k)).take 8)) 4096 32 false = none
      ∧ ((met { objects with cards := [] } 0x21 op).1.hbmReadAs 1 (.ctx 0 0 0) 0 32).1 ≠ .ok := by
  decide +kernel
theorem wit_ShuttleInstructions_end :
    (({ ctx with asyncs := [⟨5, .device, 0, 0, 0, .fill 0 32, none, none⟩] }).async 5).map (fun (o : AsyncOp) => (o.id, o.work)) = some (5, Work.fill 0 32)
    ∧ (({ ctx with asyncs := [⟨5, .device, 0, 0, 0, .copy 0 64 32 0, none, none⟩] }).async 5).map (fun (o : AsyncOp) => (o.id, o.work)) = some (5, Work.copy 0 64 32 0)
    ∧ ctx.async 5 = none := by
  decide +kernel

/-! ### Witnesses: vector, knot, reduction and unit instructions -/

/-- The state after the fetch of an instruction. -/
def after0 (g : Prog) (opc op : Nat) : State := (at0 g opc op).fetched (ins op) g
/-- A unit of engine 0 holds five instructions. -/
def fullOf (un : Nat) (s : State) : State := { s with unitOps := List.replicate 5 ⟨0, 0, un, ⟨0, .ok, 0, 0x30⟩, 0, [], [], [], none⟩ }
/-- An instruction that finds the unit full stands there all the same. -/
def meetsFull (g : Prog) (un opc op : Nat) (fs : List (Nat × Nat)) : Bool :=
  readyAt (fullOf un (at0 g opc op)) g opc op fs && ((fullOf un (at0 g opc op)).fetched (ins op) g).unitFull 0 un
/-- And one that finds room. -/
def meetsRoom (g : Prog) (un opc op : Nat) (fs : List (Nat × Nat)) : Bool := ready0 g opc op fs && !(after0 g opc op).unitFull 0 un

/-- S1 is a stream number that a program may draw from; S2 is one it may not. A2 lies off the alignment of VLD, A3 beyond the window, A5 in no
bobbin. -/
def g4 : Prog := { g0 with s := [(1, 2 ^ 31), (2, 1)], a := [(2, 8), (3, 0x10000), (5, 0x4000000000000000)] }
/-- The fields of VOP, VFMA, VLD, VRED, VCVT and VCMP. -/
def vopFs : List (Nat × Nat) := [(47, 5), (42, 5), (37, 5), (29, 3), (27, 2), (22, 5), (21, 1)]
def vfmaFs : List (Nat × Nat) := [(47, 5), (42, 5), (37, 5), (32, 5), (29, 3), (27, 2), (21, 1)]
def vldFs : List (Nat × Nat) := [(47, 5), (43, 4), (40, 3), (0, 32)]
def vredFs : List (Nat × Nat) := [(47, 5), (42, 5), (29, 3), (27, 2), (22, 5)]
def vcvtFs : List (Nat × Nat) := [(47, 5), (42, 5), (37, 5), (29, 3), (22, 5), (21, 1)]
def vcmpFs : List (Nat × Nat) := [(47, 3), (42, 5), (37, 5), (29, 3), (27, 2), (22, 5)]
theorem wit_VectorInstructions_elements : meetsRoom g4 3 0x60 (0x12 * 2 ^ 22) vopFs = true ∧ meetsFull g4 3 0x60 (0x12 * 2 ^ 22) vopFs = true
    ∧ vopTyped 0x12 (bits (0x12 * 2 ^ 22) 27 2) = false ∧ vopTyped 0x12 3 = true ∧ vopTyped 0x0C 0 = true
    ∧ meetsRoom g4 3 0x60 (3 * 2 ^ 27 + 0x12 * 2 ^ 22) vopFs = true ∧ bits (3 * 2 ^ 27 + 0x12 * 2 ^ 22) 27 2 = 3
    ∧ ready0 g4 0x60 (0x13 * 2 ^ 22) vopFs = true ∧ 0x13 ≤ bits (0x13 * 2 ^ 22) 22 5
    ∧ meetsRoom g4 3 0x61 0 vfmaFs = true ∧ meetsFull g4 3 0x61 0 vfmaFs = true := by decide +kernel
/-- VLD and VST of A0; of A2, which is not aligned; of A3, beyond the window; of A5, no place of a bobbin; and where the ordering rule holds. -/
theorem wit_VectorInstructions_memory : ∀ c ∈ [0x62, 0x63], meetsRoom g4 3 c 0 vldFs = true ∧ meetsFull g4 3 c 0 vldFs = true
    ∧ (∀ a ∈ [2, 3, 5], meetsRoom g4 3 c (a * 2 ^ 43) vldFs = true)
    ∧ (issOf (ins (2 * 2 ^ 43)) g4 c).addr % 64 ≠ 0 ∧ ownOff (issOf (ins (5 * 2 ^ 43)) g4 c).addr = none
    ∧ ownOff (issOf (ins 0) g4 c).addr = some 0 ∧ (after0 g4 c 0).inWindow (issOf (ins 0) g4 c) [(0, 256)] = true
    ∧ (after0 g4 c 0).hazard 0 [(0, 256)] [(0, 256)] = false
    ∧ ({ at0 g4 c 0 with unitOps := [writing] }.fetched (ins 0) g4).hazard 0 [(0, 256)] [] = true
    ∧ ({ at0 g4 c 0 with unitOps := [writing] }.fetched (ins 0) g4).hazard 0 [] [(0, 256)] = true
    ∧ readyAt { at0 g4 c 0 with unitOps := [writing] } g4 c 0 vldFs = true
    ∧ ownOff (issOf (ins (3 * 2 ^ 43)) g4 c).addr = some 0x10000
    ∧ (after0 g4 c (3 * 2 ^ 43)).inWindow (issOf (ins (3 * 2 ^ 43)) g4 c) [(0x10000, 256)] = false := by decide +kernel
theorem wit_VectorInstructions_rest : (∀ f ∈ [0, 5, 6], meetsRoom g4 3 0x64 (f * 2 ^ 22) vredFs = true ∧ bits (f * 2 ^ 22) 22 5 = f)
    ∧ meetsFull g4 3 0x64 0 vredFs = true ∧ ready0 g4 0x64 (2 ^ 22) vredFs = true ∧ bits (2 ^ 22) 22 5 ∉ [0, 5, 6]
    ∧ meetsRoom g4 3 0x65 (9 * 2 ^ 22) vcvtFs = true ∧ meetsFull g4 3 0x65 (9 * 2 ^ 22) vcvtFs = true ∧ bits (9 * 2 ^ 22) 22 5 < 0x0A
    ∧ ready0 g4 0x65 (0x0A * 2 ^ 22) vcvtFs = true ∧ 0x0A ≤ bits (0x0A * 2 ^ 22) 22 5
    ∧ meetsRoom g4 3 0x66 (6 * 2 ^ 22) vcmpFs = true ∧ meetsFull g4 3 0x66 (6 * 2 ^ 22) vcmpFs = true ∧ bits (6 * 2 ^ 22) 22 5 < 7
    ∧ bits (6 * 2 ^ 22) 27 2 ≠ tBF16 ∧ ¬(bits (6 * 2 ^ 22) 27 2 = tINT32 ∧ bits (6 * 2 ^ 22) 22 5 = 6)
    ∧ meetsRoom g4 3 0x66 (tBF16 * 2 ^ 27) vcmpFs = true ∧ bits (tBF16 * 2 ^ 27) 27 2 = tBF16
    ∧ ready0 g4 0x66 (7 * 2 ^ 22) vcmpFs = true ∧ 7 ≤ bits (7 * 2 ^ 22) 22 5 := by decide +kernel
theorem wit_VectorInstructions_lanes : meetsRoom g4 3 0x67 0 [(47, 5), (42, 5), (37, 5), (29, 3)] = true
    ∧ meetsFull g4 3 0x67 0 [(47, 5), (42, 5), (37, 5), (29, 3)] = true
    ∧ meetsRoom g4 3 0x68 0 [(47, 5), (42, 5)] = true ∧ meetsFull g4 3 0x68 0 [(47, 5), (42, 5)] = true
    ∧ meetsRoom g4 3 0x69 (2 ^ 42) [(47, 5), (42, 5), (37, 5), (32, 5)] = true
    ∧ meetsFull g4 3 0x69 (2 ^ 42) [(47, 5), (42, 5), (37, 5), (32, 5)] = true
    ∧ meetsRoom g4 3 0x69 (2 * 2 ^ 42) [(47, 5), (42, 5), (37, 5), (32, 5)] = true
    ∧ 2 ^ 31 ≤ g4.getS (bits (2 ^ 42) 42 5) % 2 ^ 32 ∧ ((after0 g4 0x69 (2 ^ 42)).keySet ((after0 g4 0x69 (2 ^ 42)).jobOf 0 0)).isSome = true
    ∧ g4.getS (bits (2 * 2 ^ 42) 42 5) % 2 ^ 32 < 2 ^ 31 := by decide +kernel

/-- The fields of KSIG. -/
def ksigFs : List (Nat × Nat) := [(47, 5), (46, 1), (41, 5), (30, 11)]
/-- S3 is a word of KSIG with a reserved bit. -/
def g8 : Prog := { g4 with s := [(3, 2 ^ 14)] }
/-- The job has no keys. -/
def noKeys (s : State) : State := { s with keys := [] }
theorem wit_KnotStepAndTimeInstructions_knots : ready0 g4 0x70 (3 * 2 ^ 30) ksigFs = true ∧ ready0 g4 0x70 (4 * 2 ^ 30) ksigFs = true
    ∧ ready0 g4 0x70 (2 ^ 46 + 2 ^ 41) ksigFs = true ∧ ready0 g8 0x70 (2 ^ 46 + 3 * 2 ^ 41) ksigFs = true
    ∧ readyAt (noKeys (at0 g4 0x70 (2 ^ 46 + 2 ^ 41))) g4 0x70 (2 ^ 46 + 2 ^ 41) ksigFs = true
    ∧ bits (g4.getS 1) 14 2 = 0 ∧ bits (g4.getS 1) 32 32 = 0 ∧ bits (g8.getS 3) 14 2 ≠ 0
    ∧ (after0 g4 0x70 (3 * 2 ^ 30)).ownsKnot 0 0 3 = true ∧ (after0 g4 0x70 (4 * 2 ^ 30)).ownsKnot 0 0 4 = false
    ∧ ((after0 g4 0x70 (2 ^ 46 + 2 ^ 41)).keySet ((after0 g4 0x70 (2 ^ 46 + 2 ^ 41)).jobOf 0 0)).isSome = true
    ∧ (noKeys (at0 g4 0x70 (2 ^ 46 + 2 ^ 41))).keySet 7 = none
    ∧ (∀ opc ∈ [0x71, 0x72], ready0 g4 opc (3 * 2 ^ 30) [(47, 5), (30, 11)] = true ∧ ready0 g4 opc (4 * 2 ^ 30) [(47, 5), (30, 11)] = true
      ∧ (after0 g4 opc (3 * 2 ^ 30)).ownsKnot 0 0 3 = true ∧ (after0 g4 opc (4 * 2 ^ 30)).ownsKnot 0 0 4 = false) := by decide +kernel
/-- A remote addition of nobody's, and one that a packet still carries. -/
def adding : State := { ctx with asyncs := [⟨5, .device, 0, 0, 0, .knotAdd, none, none⟩] }
theorem wit_KnotStepAndTimeInstructions_knots_remote :
    (adding.async 5).map (fun (o : AsyncOp) => (o.id, o.work)) = some (5, Work.knotAdd)
    ∧ (adding.sent.any (fun x => x.op = 5 && adding.loop.contains x.pk)) = false
    ∧ ctx.async 5 = none := by decide +kernel

/-- A send of block 0 of RED_ID 0 in FP32 from offset 0 of the bobbin: S1 names one block. -/
def g5 : Prog := { g0 with s := [(1, 2 ^ 32)] }
/-- It stands at an instruction of its OPCODE; its context is in an open step, and device 0 owns the block. -/
def sending (opc op : Nat) : State :=
  ((((({ inStep (at0 g5 opc op) 1 with cards := [(0, 513)], hbm := [(24, 32), (31, 0x80)] }.setFld PART_BEAM_SPLIT.ADDR_MIB 0 0 64).setFld
    OWN_CTRL.VALID 0 0 1).setFld OWN_COUNT.BLOCKS 0 0 32).setFld RED_POLICY.POISON 0 0 0).setReg .RED_PLANE 0 0 0)
/-- After the fetch, and the instruction. -/
def sends (opc op : Nat) : State × Iss := ((sending opc op).fetched (ins op) g5, issOf (ins op) g5 opc)
/-- The open step has scanned 256 pairs. -/
def scanned (s : State) : State := s.setStep 0 0 { s.stepOf 0 0 with scans := (List.range 256).map (fun n => ⟨1, n, none⟩) }
theorem wit_ReductionInstructions_send :
    let op := 9 * 2 ^ 44 + 2 ^ 39
    (∀ c ∈ [(0x80, 0), (0x81, 1), (0x82, 2)], readyAt (sending c.1 op) g5 c.1 op sendFields = true
      ∧ (sends c.1 op).1.redIssue (sends c.1 op).2 c.2 = .ok
      ∧ readyAt (sending c.1 0) g5 c.1 0 sendFields = true ∧ (sends c.1 0).1.redIssue (sends c.1 0).2 c.2 ≠ .ok)
    ∧ ((sends 0x81 op).1.scanPairs 0 0).length < 256 := by decide +kernel
theorem wit_ReductionInstructions_scans :
    let op := 9 * 2 ^ 44 + 2 ^ 39
    let s := (scanned (sending 0x81 op)).fetched (ins op) g5
    readyAt (scanned (sending 0x81 op)) g5 0x81 op sendFields = true ∧ s.redIssue (issOf (ins op) g5 0x81) 1 = .ok
    ∧ ((sends 0x81 op).2.sendArgs.red, (sends 0x81 op).2.sendArgs.ord) ∉ s.scanPairs 0 0 ∧ 256 ≤ (s.scanPairs 0 0).length := by decide +kernel
/-- An operation with its status. -/
def asyncOp (w : Work) (st : Option Status) : AsyncOp := ⟨5, .device, 0, 0, 0, w, none, st⟩
/-- What an operation is, beside its owner. -/
def opIs (s : State) : Option (Work × Option Status) := (s.async 5).map (fun (o : AsyncOp) => (o.work, o.status))
theorem wit_ReductionInstructions_ends : opIs { ctx with asyncs := [asyncOp (.send 0 0) none] } = some (.send 0 0, none)
    ∧ (ctx.sent.any (fun x => x.op = 5)) = false
    ∧ ({ ctx with sent := [⟨0, 7, 5, 0, false, pk7 0 1 2 0 0 0 []⟩] } : State).sent.any (fun x => x.op = 5) = true
    ∧ opIs { ctx with asyncs := [asyncOp (.send 0 0) (some .saturated)] } = some (.send 0 0, some .saturated)
    ∧ opIs { inStep ctx 1 with asyncs := [asyncOp (.scan 0 0 none) none] } = some (.scan 0 0 none, none)
    ∧ (inStep ctx 1).stepState 0 0 = 1 ∧ ctx.stepState 0 0 ≠ 1 ∧ ctx.async 5 = none := by decide +kernel
/-- S1 names a slot of the context, S2 one of nobody; A1 lies in no bobbin, A3 beyond the window. -/
def g6 : Prog := { g0 with s := [(1, 1), (2, 4000)], a := [(1, 0x4000000000000000), (3, 0x10000)] }
theorem wit_ReductionInstructions_slots :
    let opens := 2 ^ 38 + 2 ^ 36
    let releases := 2 ^ 38 + 2 * 2 ^ 36
    ready0 g6 0x83 opens rslotFields = true ∧ ready0 g6 0x83 releases rslotFields = true ∧ ready0 g6 0x83 (releases + 2 ^ 38) rslotFields = true
    ∧ ready0 g6 0x83 (opens + 2 ^ 38) rslotFields = true ∧ ready0 g6 0x83 (opens + 2 ^ 43) rslotFields = true
    ∧ ready0 g6 0x83 (opens + 3 * 2 ^ 43) rslotFields = true
    ∧ bits opens 36 2 = 1 ∧ bits releases 36 2 = 2 ∧ (after0 g6 0x83 opens).ownsSlot (issOf (ins opens) g6 0x83) = true
    ∧ (after0 g6 0x83 (opens + 2 ^ 38)).ownsSlot (issOf (ins (opens + 2 ^ 38)) g6 0x83) = false
    ∧ (after0 g6 0x83 releases).ownsSlot (issOf (ins releases) g6 0x83) = true
    ∧ (after0 g6 0x83 (releases + 2 ^ 38)).ownsSlot (issOf (ins (releases + 2 ^ 38)) g6 0x83) = false
    ∧ ownOff (g6.getA 0) = some 0 ∧ ownOff (g6.getA 1) = none ∧ ownOff (g6.getA 3) = some 0x10000
    ∧ (after0 g6 0x83 opens).inWindow (issOf (ins opens) g6 0x83) [(0, 32)] = true
    ∧ (after0 g6 0x83 opens).inWindow (issOf (ins opens) g6 0x83) [(0x10000, 32)] = false
    ∧ (after0 g6 0x83 opens).hazard 0 [(0, 32)] [] = false
    ∧ ({ at0 g6 0x83 opens with unitOps := [writing] }.fetched (ins opens) g6).hazard 0 [(0, 32)] [] = true
    ∧ readyAt { at0 g6 0x83 opens with unitOps := [writing] } g6 0x83 opens rslotFields = true
    ∧ (after0 g6 0x83 opens).fld RED_SLOT_CTRL.STATE 1 0 = 0 := by decide +kernel

/-- The partition's table of scheduled additions is full. -/
def crowded (s : State) : State := { s with sched := List.replicate 512 ⟨0, 0, 9, 3, 1, none⟩ }
theorem wit_KnotStepAndTimeInstructions_steps : (∀ n ∈ [1, 2, 3], ready0 g4 0x90 (n * 2 ^ 45) [(47, 5), (45, 2)] = true ∧ bits (n * 2 ^ 45) 45 2 = n)
    ∧ (∀ n ∈ [0, 1, 2], ready0 g4 0x92 (n * 2 ^ 45) [(47, 5), (45, 2)] = true)
    ∧ readyAt (inStep (at0 g4 0x92 (2 * 2 ^ 45)) 1) g4 0x92 (2 * 2 ^ 45) [(47, 5), (45, 2)] = true
    ∧ (inStep (after0 g4 0x92 (2 * 2 ^ 45)) 1).stepState 0 0 = 1 ∧ (after0 g4 0x92 (2 * 2 ^ 45)).stepState 0 0 ≠ 1
    ∧ (∀ n ∈ [0, 1, 2, 3], ready0 g4 0xA0 (n * 2 ^ 45) [(47, 5), (45, 2)] = true)
    ∧ (∀ n ∈ [0, 1], ready0 g4 0x91 (n * 2 ^ 46) [(47, 5), (46, 1)] = true ∧ bits (n * 2 ^ 46) 46 1 = n)
    ∧ ready0 g4 0xA1 (2 ^ 47) [(47, 5)] = true ∧ ready0 g4 0xA2 (3 * 2 ^ 30) [(47, 5), (42, 5), (30, 11)] = true
    ∧ ready0 g4 0xA2 (4 * 2 ^ 30) [(47, 5), (42, 5), (30, 11)] = true ∧ (after0 g4 0xA2 (3 * 2 ^ 30)).ownsKnot 0 0 3 = true
    ∧ (after0 g4 0xA2 (4 * 2 ^ 30)).ownsKnot 0 0 4 = false ∧ (after0 g4 0xA2 (3 * 2 ^ 30)).schedFull 0 = false := by decide +kernel
theorem wit_KnotStepAndTimeInstructions_steps_full : readyAt (crowded (at0 g4 0xA2 (3 * 2 ^ 30))) g4 0xA2 (3 * 2 ^ 30) [(47, 5), (42, 5), (30, 11)] = true
    ∧ ((crowded (at0 g4 0xA2 (3 * 2 ^ 30))).fetched (ins (3 * 2 ^ 30)) g4).schedFull 0 = true := by decide +kernel

/-- A context with a window of 1 MiB. -/
def roomy (s : State) : State := s.setFld PART_CTX_JOB.BOB_SIZE 0 0 16
/-- A descriptor of a tile format, rows, tiles and rotation at a base. -/
def desc (fmt rows base : Nat) : BitVec 128 := BitVec.ofNat 128 (base + fmt * 2 ^ 24 + rows * 2 ^ 32 + 2 ^ 48)
/-- Tiles of one row: T1 K4 at 0, T2 BF16 at 0x10000, T3 FP32 at 0x20000 and T8 at 0x80000, T4 E4M3 at 0x30000; T5 and T6 of 128 rows, E4M3 at
0x40000 and BF16 at 0x50000; T7 FP32 beyond the window; T9 K4 of 128 rows at 0x60000; A2 a place of a scale plane. -/
def g9 : Prog :=
  { g0 with a := [(2, 0x70000)],
            t := [(1, desc 0 1 0), (2, desc 8 1 0x10000), (3, desc 9 1 0x20000), (4, desc 2 1 0x30000), (5, desc 2 128 0x40000),
                  (6, desc 8 128 0x50000), (7, desc 9 1 0x200000), (8, desc 9 1 0x80000), (9, desc 0 128 0x60000), (10, desc 8 1 0x200000)] }
/-- It stands there, its window roomy. -/
def stands9 (opc op : Nat) : State := roomy (at0 g9 opc op)
/-- After the fetch. -/
def after9 (opc op : Nat) : State := (stands9 opc op).fetched (ins op) g9
/-- Destination and source of a converter instruction, with its scale plane. -/
def cop (d x a : Nat) : Nat := d * 2 ^ 47 + x * 2 ^ 42 + a * 2 ^ 38
/-- A faulty K4 group: its first code is the escape, and no outlier entry names it. -/
def faultyRow (s : State) : State := { s with bobbin := writeBytes s.bobbin 0 [8] }
/-- Whether a converter instruction passes its checks and waits for nothing. -/
def cnvRuns (c : CnvOp) (opc op : Nat) : Bool :=
  let i := issOf (ins op) g9 opc
  let u := after9 opc op
  readyAt (stands9 opc op) g9 opc op cnvFields && u.cnvCheck i c = .ok && !u.unitFull 0 2 && !u.hazard 0 (u.cnvReads i c) (u.cnvWrites i c)
theorem wit_ConverterInstructions : cnvRuns .packAct 0x50 (cop 1 2 0) = true ∧ cnvRuns .packWgtInit 0x51 (cop 1 2 2) = true
    ∧ cnvRuns .packWgt 0x52 (cop 1 2 2) = true ∧ cnvRuns .unpack 0x53 (cop 2 1 0) = true ∧ cnvRuns .rotate 0x54 (cop 3 8 0) = true
    ∧ cnvRuns .round 0x55 (cop 2 3 0) = true ∧ (after9 0x53 (cop 2 1 0)).cnvFaulty (issOf (ins (cop 2 1 0)) g9 0x53) = none
    ∧ ((faultyRow (stands9 0x53 (cop 2 1 0))).fetched (ins (cop 2 1 0)) g9).cnvFaulty (issOf (ins (cop 2 1 0)) g9 0x53) ≠ none
    ∧ (after9 0x52 (cop 1 2 2)).planeBad (issOf (ins (cop 1 2 2)) g9 0x52) .packWgt = false
    ∧ (({ stands9 0x52 (cop 1 2 2) with bobbin := writeBytes [] 0x70000 [0xFF] }).fetched (ins (cop 1 2 2)) g9).planeBad
      (issOf (ins (cop 1 2 2)) g9 0x52) .packWgt = true := by decide +kernel
/-- The same with the unit full, with a check that fails, and with an instruction before it that writes its source. -/
theorem wit_ConverterInstructions_holds : (∀ c ∈ [0x50, 0x51, 0x52, 0x53, 0x54, 0x55], readyAt (fullOf 2 (stands9 c 0)) g9 c 0 cnvFields = true
      ∧ ((fullOf 2 (stands9 c 0)).fetched (ins 0) g9).unitFull 0 2 = true ∧ (after9 c 0).unitFull 0 2 = false)
    ∧ (∀ c ∈ [(0x50, CnvOp.packAct), (0x51, .packWgtInit), (0x52, .packWgt), (0x53, .unpack), (0x54, .rotate), (0x55, .round)],
      (after9 c.1 0).cnvCheck (issOf (ins 0) g9 c.1) c.2 ≠ .ok)
    ∧ (let s := { stands9 0x53 (cop 2 1 0) with unitOps := [writing] }
      readyAt s g9 0x53 (cop 2 1 0) cnvFields = true
      ∧ (s.fetched (ins (cop 2 1 0)) g9).hazard 0 ((s.fetched (ins (cop 2 1 0)) g9).cnvReads (issOf (ins (cop 2 1 0)) g9 0x53) .unpack) [] = true) := by
  decide +kernel

/-- Operands of FMUL: output, activations and weights. -/
def fop (d a w : Nat) : Nat := d * 2 ^ 47 + a * 2 ^ 42 + w * 2 ^ 37
/-- Whether FMUL passes its checks and waits for nothing. -/
def fmulRuns (op : Nat) : Bool :=
  let i := issOf (ins op) g9 0x30
  let u := after9 0x30 op
  readyAt (stands9 0x30 op) g9 0x30 op fmulFields && u.fmulCheck i = .ok && !u.unitFull 0 0 && !u.hazard 0 (u.fmulReads i) i.fmulWrites
theorem wit_ArrayInstructions_forward : fmulRuns (fop 3 4 5) = true ∧ fmulRuns (fop 3 1 9) = true
    ∧ ((after9 0x30 (fop 3 4 5)).fmulWeights (issOf (ins (fop 3 4 5)) g9 0x30)).1 = .ok
    ∧ (after9 0x30 (fop 3 4 5)).fmulFaulty (issOf (ins (fop 3 4 5)) g9 0x30) ((after9 0x30 (fop 3 4 5)).fmulWide (issOf (ins (fop 3 4 5)) g9 0x30)) [] = false
    ∧ readyAt (fullOf 0 (stands9 0x30 0)) g9 0x30 0 fmulFields = true ∧ ((fullOf 0 (stands9 0x30 0)).fetched (ins 0) g9).unitFull 0 0 = true
    ∧ (after9 0x30 0).fmulCheck (issOf (ins 0) g9 0x30) ≠ .ok
    ∧ (let s := { stands9 0x30 (fop 3 1 9) with unitOps := [writing] }
      readyAt s g9 0x30 (fop 3 1 9) fmulFields = true
      ∧ (s.fetched (ins (fop 3 1 9)) g9).hazard 0 ((s.fetched (ins (fop 3 1 9)) g9).fmulReads (issOf (ins (fop 3 1 9)) g9 0x30)) [] = true) := by
  decide +kernel
theorem wit_ArrayInstructions_faulty : ((faultyRow (stands9 0x30 (fop 3 1 9))).fetched (ins (fop 3 1 9)) g9).fmulFaulty
      (issOf (ins (fop 3 1 9)) g9 0x30) ((after9 0x30 (fop 3 1 9)).fmulWide (issOf (ins (fop 3 1 9)) g9 0x30)) [] = true := by decide +kernel
/-- Whether a backward instruction passes its checks. -/
def bwdRuns (c : BwdOp) (opc op : Nat) : Bool :=
  let i := issOf (ins op) g9 opc
  let u := after9 opc op
  readyAt (stands9 opc op) g9 opc op (bwdFields c) && u.bwdCheck i c = .ok && !u.unitFull 0 1 && !u.bwdSkips i c
/-- Layer 0 is frozen. -/
def frozen0 (s : State) : State := s.setFld TEN_LAYER_GSTATE.FROZEN_ACTIVE 0 0 1
theorem wit_ArrayInstructions_backward : (∀ c ∈ [(0x40, BwdOp.dgrad), (0x41, .wgrad), (0x42, .matmul)],
      let i := issOf (ins (fop 3 2 6)) g9 c.1
      let u := after9 c.1 (fop 3 2 6)
      bwdRuns c.2 c.1 (fop 3 2 6) = true ∧ u.inWindow i (u.bwdReads i c.2 ++ i.bwdWrites) = true ∧ u.hazard 0 (u.bwdReads i c.2) i.bwdWrites = false
      ∧ u.bwdFmt i c.2 = 8 ∧ (u.bwdTiles i c.2).1 = .ok
      ∧ bwdRuns c.2 c.1 (fop 7 2 6) = true
      ∧ (after9 c.1 (fop 7 2 6)).inWindow (issOf (ins (fop 7 2 6)) g9 c.1)
        ((after9 c.1 (fop 7 2 6)).bwdReads (issOf (ins (fop 7 2 6)) g9 c.1) c.2 ++ (issOf (ins (fop 7 2 6)) g9 c.1).bwdWrites) = false
      ∧ readyAt (fullOf 1 (stands9 c.1 0)) g9 c.1 0 (bwdFields c.2) = true ∧ ((fullOf 1 (stands9 c.1 0)).fetched (ins 0) g9).unitFull 0 1 = true
      ∧ (after9 c.1 0).bwdCheck (issOf (ins 0) g9 c.1) c.2 ≠ .ok) := by decide +kernel
theorem wit_ArrayInstructions_backward2 :
    (let s := frozen0 (stands9 0x41 (fop 3 2 6));
      readyAt s g9 0x41 (fop 3 2 6) (bwdFields .wgrad) = true
      ∧ (s.fetched (ins (fop 3 2 6)) g9).bwdCheck (issOf (ins (fop 3 2 6)) g9 0x41) .wgrad = .ok
      ∧ (s.fetched (ins (fop 3 2 6)) g9).bwdSkips (issOf (ins (fop 3 2 6)) g9 0x41) .wgrad = true)
    ∧ bwdRuns .dgrad 0x40 (fop 3 2 9) = true ∧ bwdFaulty 0 [(0, 0, (List.replicate 10240 8).toArray)] = true ∧ bwdFaulty 8 [] = false
    ∧ (let s := { stands9 0x40 (fop 3 2 6) with unitOps := [{ writing with writes := [(0x50000, 256)] }] }
      readyAt s g9 0x40 (fop 3 2 6) (bwdFields .dgrad) = true
      ∧ (s.fetched (ins (fop 3 2 6)) g9).hazard 0 ((s.fetched (ins (fop 3 2 6)) g9).bwdReads (issOf (ins (fop 3 2 6)) g9 0x40) .dgrad) [] = true) := by
  decide +kernel

/-- The converter of engine 0 holds an instruction: of two tiles, or of one, with an exception or without; or the forward array another's. -/
def work2 (tiles : Nat) : CnvWork := ⟨.round, BitVec.ofNat 128 (9 * 2 ^ 24 + 2 ^ 32 + tiles * 2 ^ 48), desc 8 1 0x10000, 8, 0, none, 0, 0, none⟩
def inUnit (un : Nat) (st : Status) (w : Option CnvWork) : UnitOp := ⟨0, 0, un, ⟨0, st, 0, 0x30⟩, 0, [], [], [], w⟩
def unitBusy (un : Nat) (st : Status) (w : Option CnvWork) : State := { at0 g0 0 0 with unitOps := [inUnit un st w] }
theorem wit_ArrayInstructions_completion : (unitBusy 0 .ok none).stopped = false ∧ (unitBusy 0 .ok none).oldest 0 .forward = some (inUnit 0 .ok none)
    ∧ (unitBusy 0 .illegal none).oldest 0 .forward = some (inUnit 0 .illegal none) ∧ (unitBusy 0 .ok none).oldest 0 .vector = none
    ∧ (unitBusy 2 .ok (some (work2 2))).oldest 0 .converter = some (inUnit 2 .ok (some (work2 2))) ∧ 1 < (work2 2).left ∧ (work2 1).left ≤ 1
    ∧ (unitBusy 2 .ok (some (work2 1))).oldest 0 .converter = some (inUnit 2 .ok (some (work2 1)))
    ∧ (({ unitBusy 0 .ok none with unitOps := [] }).startUnit 0 0).prog 0 = some g0
    ∧ (({ unitBusy 0 .ok none with unitOps := [], progs := [] }).startUnit 0 0).prog 0 = none
    ∧ ({ unitBusy 0 .ok none with thermtrip := true }).stopped = true := by decide +kernel

/-! ### Witnesses: queues and knots -/

/-- Queue 0 of context 0, of 16 entries, is enabled and IDLE; its ring is at host address 0. -/
def queued : State := (((keyed.setReg .Q_CFG_CTRL 0 0 0x40000041).setFld Q_STATUS.STATE 0 0 1).setReg .Q_TAIL 0 0 1)
theorem wit_QueueRegisters : queued.function bar0 = some (0, 0) ∧ queued.seesQueue 0 0 0 = true
    ∧ (queued.setReg .Q_TAIL 0 0 16).queueLive 0 0 = true ∧ (State.reset.setReg .Q_TAIL 0 0 16).queueLive 0 0 = false
    ∧ (16 + 2 ^ 32 - (queued.setReg .Q_TAIL 0 0 16).reg .Q_CPL_ACK 0 0) % 2 ^ 32 ≤ 2 ^ (queued.setReg .Q_TAIL 0 0 16).fld Q_CFG_CTRL.SIZE_LOG2 0 0
    ∧ 2 ^ (queued.setReg .Q_TAIL 0 0 17).fld Q_CFG_CTRL.SIZE_LOG2 0 0 < (17 + 2 ^ 32 - (queued.setReg .Q_TAIL 0 0 17).reg .Q_CPL_ACK 0 0) % 2 ^ 32
    ∧ (queued.queue 0 0).records = 0 ∧ queued.reg .Q_CPL_ACK 0 0 = 0 ∧ (queued.setReg .Q_CPL_ACK 0 0 1).queueLive 0 0 = true
    ∧ ctx.fld Q_STATUS.STATE 0 0 = 0 ∧ bit (ctx.reg .Q_CFG_CTRL 0 0) 0 = false ∧ Q_CFG_CTRL.VF.of (setBits 0 0 1 1) ≤ 16
    ∧ (ctx.setFld Q_STATUS.STATE 0 0 4).fld Q_STATUS.STATE 0 0 ≠ 0 ∧ queued.seesQueue 0 1 0 = false := by decide +kernel
theorem wit_QueueRegisters_fetching : queued.queueLive 0 0 = true ∧ (queued.reg .Q_TAIL 0 0 + 2 ^ 32 - queued.reg .Q_FETCHED 0 0) % 2 ^ 32 = 1
    ∧ queued.fld Q_CFG_CTRL.SIZE_LOG2 0 0 = 4 ∧ queued.reg .Q_FETCHED 0 0 = 0 ∧ queued.fld Q_CFG_CTRL.SPACE 0 0 = 0 := by decide +kernel
/-- The queue holds one fetched command. -/
def holds1 (w0 w1 w2 : Nat) : Cmd := ⟨0, [BitVec.ofNat 64 w0, BitVec.ofNat 64 w1, BitVec.ofNat 64 w2], false, false, []⟩
def withCmd (s : State) (c : Cmd) : State := s.setQueue 0 0 { cmds := [c] }
/-- Starts, as a decision. -/
def startsIn (s : State) (c : Cmd) : Bool :=
  s.nextCmd 0 0 = some c && s.thermtrip = false && s.fld PWR_STATE.CURRENT 0 0 = 0
    && s.fld HANG_CTX_STATUS.STATE 0 (s.fld Q_CFG_CTRL.CTX 0 0) ≠ 1 && cmdLevelOk c && s.queueDue 0 0
theorem starts_of {s : State} {c : Cmd} (h : startsIn s c = true) : s.Starts ⟨0, 0⟩ c := by
  simp only [startsIn, Bool.and_eq_true, decide_eq_true_eq] at h
  obtain ⟨⟨⟨⟨⟨h1, h2⟩, h3⟩, h4⟩, h5⟩, h6⟩ := h
  exact ⟨h1, h2, h3, h4, h5, fun _ => h6⟩
/-- Each type of command that level 1 defines starts; those that it reserves do not reach it. -/
theorem wit_QueueCommands_starts : ∀ c ∈ [holds1 0 0 0, holds1 (1 + 1 * 2 ^ 38) 0 0, holds1 (1 + 0 * 2 ^ 38) 0 0, holds1 (2 + 3 * 2 ^ 32) 0 0,
      holds1 (2 + 3 * 2 ^ 32) 1 0, holds1 (2 + 4 * 2 ^ 32) 0 0, holds1 (3 + 3 * 2 ^ 32) 1 0, holds1 (3 + 2 ^ 43) 1 0, holds1 (4 + 3 * 2 ^ 32) 9 1,
      holds1 (5 + 2 ^ 32) 0 0, holds1 (5 + 2 * 2 ^ 32) 0 0, holds1 (5 + 3 * 2 ^ 32) 0 0],
    startsIn (withCmd queued c) c = true := by decide +kernel
theorem wit_QueueCommands_conditions : (holds1 0 0 0).type = 0 ∧ (holds1 5 0 0).type = 5
    ∧ (withCmd queued (holds1 (1 + 2 ^ 38) 0 0)).launchCheck 0 0 (holds1 (1 + 2 ^ 38) 0 0) = .ok
    ∧ ((withCmd queued (holds1 (1 + 2 ^ 38) 0 0)).placeCopies 0 0 0 (holds1 (1 + 2 ^ 38) 0 0)).2.copies.length = 1
    ∧ launchEngines (holds1 (1 + 2 ^ 38) 0 0) = [0]
    ∧ (({ withCmd queued (holds1 (1 + 2 ^ 38) 0 0) with resetting := [(3, 0)] }).placeCopies 0 0 0 (holds1 (1 + 2 ^ 38) 0 0)).2.copies.length = 0
    ∧ queued.launchCheck 0 0 (holds1 1 0 0) ≠ .ok ∧ (queued.progress 0 0).ownsKnot 0 0 3 = true ∧ (queued.progress 0 0).ownsKnot 0 0 4 = false
    ∧ (queued.progress 0 0).reg .KNOT_COUNT 0 3 = 0 ∧ ((queued.progress 0 0).keySet ((queued.progress 0 0).jobOf 0 0)).isSome = true
    ∧ queued.schedFull 0 = false := by decide +kernel
theorem wit_QueueCommands_full : (({ queued with sched := List.replicate 512 ⟨0, 0, 0, 3, 1, none⟩ }).schedFull 0) = true
    ∧ (({ queued with passes := List.replicate 16 ⟨0, 0, 1, 0, [], []⟩ }).passesOf 0 0).length = 16
    ∧ (queued.passesOf 0 0).length = 0 := by decide +kernel
theorem wit_QueueCommands_passes : ({ queued with passes := [(⟨0, 0, 0, 0, [], []⟩ : Pass)] }).passes.find? (fun (y : Pass) => y.part = 0 && y.queue = 0) = some ⟨0, 0, 0, 0, [], []⟩
    ∧ queued.passes.find? (fun (y : Pass) => y.part = 0 && y.queue = 0) = none ∧ ((inStep queued 1).progress 0 0).mayClose 0 0 = true
    ∧ (queued.progress 0 0).mayClose 0 0 = false := by decide +kernel
/-- A started LAUNCH that adds to knot 3, and one that does not, of which every copy has ended. -/
def ended (w : Nat) (st : Status) : Cmd := ⟨0, [BitVec.ofNat 64 (w + 1 + 2 ^ 38)], true, false, [⟨0, some (st, 0, 5)⟩]⟩
theorem wit_QueueCommands_ends : ∀ c ∈ [ended (2 ^ 44 + 3 * 2 ^ 45) .ok, ended (2 ^ 44 + 3 * 2 ^ 45) .aborted, ended 0 .ok],
    ((withCmd queued c).queue 0 0).cmds.find? (fun (c : Cmd) => c.started && c.type = 1 && c.copies.all (fun (y : Copy) => y.ended.isSome)) = some c := by
  decide +kernel
theorem wit_QueueRegisters_knots : ctx.seesKnot 0 0 5 = true ∧ ctx.seesKnot 0 1 5 = false ∧ ctx.reg .KNOT_COUNT 0 5 + 1 < 2 ^ 32
    ∧ 2 ^ 32 ≤ (ctx.setReg .KNOT_COUNT 0 5 (2 ^ 32 - 1)).reg .KNOT_COUNT 0 5 + 1 := by decide +kernel

/-! ### Witnesses: HBM and the board tier -/

/-- Nothing more of a block turned. -/
def intact : Damage := ⟨[], []⟩
/-- The channel of address 0 has a lane under repair. -/
def laneOff (s : State) : State := { s with laneBusy := [((trackOf 0 0).stack, (trackOf 0 0).ch, 5)] }
/-- The program of context 0 reads or writes 64 B at address 0, which page 0 lets; page 1 lets nobody. -/
theorem wit_HbmAccessAndRepair_access : let s := (objects.turn 0 intact)
    (s.hbmCheck (agentWho (.program ⟨0, 0⟩)) false 0 64).1 = .ok ∧ (s.hbmCheck (agentWho (.program ⟨0, 0⟩)) true 0 64).1 = .ok
    ∧ (s.hbmCheck (agentWho (.program ⟨0, 0⟩)) false (2 ^ 17) 64).1 ≠ .ok ∧ (s.hbmCheck (agentWho (.program ⟨0, 0⟩)) true (2 ^ 17) 64).1 ≠ .ok
    ∧ (s.hbmCheck (agentWho (.program ⟨0, 0⟩)) false 0 64).2.mustWait (.read (.program ⟨0, 0⟩) 0 64) = false
    ∧ (s.hbmCheck (agentWho (.program ⟨0, 0⟩)) true 0 64).2.mustWait (.write (.program ⟨0, 0⟩) 0 zeros true) = false
    ∧ ((laneOff s).hbmCheck (agentWho (.program ⟨0, 0⟩)) false 0 64).2.mustWait (.read (.program ⟨0, 0⟩) 0 64) = true
    ∧ ((laneOff s).hbmCheck (agentWho (.program ⟨0, 0⟩)) true 0 64).2.mustWait (.write (.program ⟨0, 0⟩) 0 zeros false) = true := by decide +kernel

/-- Stack 0 works, with its lanes repairable at two symbols, and a generator runs on channel 1. -/
def stacked : State :=
  (((((State.reset.setFld HBM_REPAIR_CFG.LANE_LIMIT 0 0 2).setFld HBM_STACK_STATUS.STATE 0 0 1).setFld HBM_SCRUB_CFG.ENABLE 0 0 1).setFld
    HBM_TG_STATUS.STATE 0 1 1).setFld HBM_REPAIR_CFG.CE_ALARM 0 0 4)
/-- Lane 5 of channel 0 was corrected twice in this millisecond. -/
def worn : State := { stacked with laneHits := [(0, 0, 5, 0), (0, 0, 5, 0)] }
/-- And no spare is free. -/
def spent : State := (worn.setFld HBM_CH_STATUS.LANE_A 0 0 3).setFld HBM_CH_STATUS.LANE_B 0 0 4
theorem wit_HbmAccessAndRepair_events_lanes : worn.fld HBM_REPAIR_CFG.LANE_LIMIT 0 0 ≠ 0 ∧ worn.fld HBM_REPAIR_CFG.LANE_LIMIT 0 0 ≤ worn.laneCount 0 0 5
    ∧ worn.laneBusyOn 0 0 = false ∧ worn.freeSpare 0 0 = some 72 ∧ spent.freeSpare 0 0 = none ∧ (0, 0, 5) ∉ spent.exhaustedLanes
    ∧ spent.fld HBM_REPAIR_CFG.LANE_LIMIT 0 0 ≤ spent.laneCount 0 0 5
    ∧ (0, 0, 5) ∈ ({ spent with exhaustedLanes := [(0, 0, 5)] } : State).exhaustedLanes
    ∧ (worn.setFld HBM_REPAIR_CFG.LANE_LIMIT 0 0 0).fld HBM_REPAIR_CFG.LANE_LIMIT 0 0 = 0
    ∧ stacked.laneCount 0 0 5 < stacked.fld HBM_REPAIR_CFG.LANE_LIMIT 0 0 ∧ ({ worn with laneBusy := [(0, 0, 9)] } : State).laneBusyOn 0 0 = true
    ∧ stacked.laneBusy.find? (fun x => x.1 = 0 && x.2.1 = 0) = none
    ∧ (({ stacked with laneBusy := [(0, 0, 5)] } : State).laneBusy.find? (fun x => x.1 = 0 && x.2.1 = 0)) = some (0, 0, 5)
    ∧ (worn.setFld HBM_CH_STATUS.LANE_A 0 0 3).freeSpare 0 0 = some 73 := by decide +kernel
theorem wit_HbmAccessAndRepair_events_rest :
    (({ stacked with repairing := [⟨0, 0, 0, 0, 0, 3⟩] } : State).repairing.find? (fun t => t.stack = 0 && !stacked.laneBusyOn t.stack t.ch
      && !stacked.tgRuns t.stack t.ch)) = some ⟨0, 0, 0, 0, 0, 3⟩ ∧ stacked.repairing = []
    ∧ stacked.fld HBM_STACK_STATUS.STATE 0 0 ≠ 0 ∧ (stacked.setFld HBM_STACK_STATUS.STATE 0 0 0).fld HBM_STACK_STATUS.STATE 0 0 = 0
    ∧ (stacked.setReg .HBM_CE 0 0 5).reg .HBM_CE 0 0 = 5 ∧ (stacked.setReg .HBM_CE 0 0 5).fld HBM_REPAIR_CFG.CE_ALARM 0 0 = 4
    ∧ (SMap.get 0 stacked.ceMark 0).toNat = 0 := by decide +kernel
/-- A packet of job 7 is held. -/
def heldPk : Held := ⟨0, 0, 0, 0, pk7 0 1 2 0 0 0 []⟩
theorem wit_HbmAccessAndRepair_sram : failing 0 = 0 ∧ failing 1 = 1 ∧ failing 3 = 2 ∧ ctx.slotOwner 0 = some (0, 0) ∧ ctx.slotOwner 9 = none
    ∧ ({ ctx with heldPackets := [heldPk] } : State).heldPackets[0]? = some heldPk ∧ ctx.heldPackets[0]? = none := by decide +kernel
/-- What holds the scrubber of a channel. -/
theorem wit_HbmAccessAndRepair_traffic_scrub :
    let idle := fun (s : State) (ch : Nat) => s.fld HBM_SCRUB_CFG.ENABLE 0 0 = 0 ∨ 2 ≤ s.fld PWR_STATE.CURRENT 0 0 ∨ s.tgRuns 0 ch = true
      ∨ s.laneBusyOn 0 ch = true ∨ s.repairing.any (fun t => t.stack = 0 && t.ch = ch) = true
    ¬ idle stacked 0 ∧ idle stacked 1 ∧ ((SMap.get 0 stacked.scrubPos 0).toNat + 1) % 2 ^ 24 ≠ 0
    ∧ ¬ idle { stacked with scrubPos := SMap.set 0 [] 0 (BitVec.ofNat 64 (2 ^ 24 - 1)) } 0
    ∧ ((SMap.get 0 ({ stacked with scrubPos := SMap.set 0 [] 0 (BitVec.ofNat 64 (2 ^ 24 - 1)) } : State).scrubPos 0).toNat + 1) % 2 ^ 24 = 0 := by
  decide +kernel
theorem wit_HbmAccessAndRepair_traffic_start : HBM_TG_CTRL.START.of 1 = 1 ∧ HBM_TG_CTRL.STOP.of 1 = 0 ∧ HBM_TG_CTRL.START.of 8 = 0 ∧ HBM_TG_CTRL.STOP.of 8 = 1
    ∧ (stacked.writeMasked .HBM_TG_CTRL 0 2 1).tgRuns 0 2 = false ∧ (stacked.writeMasked .HBM_TG_CTRL 0 2 1).tgCheck 0 2 = .ok
    ∧ (stacked.writeMasked .HBM_TG_CTRL 0 1 1).tgRuns 0 1 = true
    ∧ ((ctx.setFld HBM_TG_RANGE.FIRST_ROW 0 2 1).writeMasked .HBM_TG_CTRL 0 2 1).tgCheck 0 2 ≠ .ok
    ∧ ((ctx.setFld HBM_TG_RANGE.FIRST_ROW 0 2 1).writeMasked .HBM_TG_CTRL 0 2 1).tgRuns 0 2 = false := by decide +kernel
/-- One loop over row 0, of both pseudo-channels, with an operation. -/
def tgRun (op loops : Nat) : State := ((stacked.setFld HBM_TG_CTRL.OP 0 1 op).setFld HBM_TG_CTRL.LOOPS 0 1 loops).setFld HBM_TG_CTRL.PC_MASK 0 1 3 |>.setFld HBM_TG_RANGE.LAST_ROW 0 1 0
/-- One bit of it is read inverted. -/
def flip1 : Flip := ⟨0, 0, 0, false, 0, 3, 0⟩
theorem wit_HbmAccessAndRepair_traffic_run : (tgRun 0 1).tgRuns 0 1 = true ∧ (tgRun 0 1).tgDone 0 1 (tgRun 0 1).fresh.1 = some 1
    ∧ (0, 1) ∉ (tgRun 0 1).tgStopped ∧ (tgRun 0 1).mismatches 0 1 1 [] = [] ∧ (tgRun 2 1).mismatches 0 1 1 ([flip1].map Flip.place) ≠ []
    ∧ (tgRun 2 1).tgDone 0 1 (tgRun 2 1).fresh.1 = some 1 ∧ (tgRun 0 0).tgDone 0 1 (tgRun 0 0).fresh.1 = none ∧ stacked.tgRuns 0 0 = false
    ∧ (({ tgRun 0 1 with tgStopped := [(0, 1)] } : State).tgDone 0 1 (tgRun 0 1).fresh.1).isSome = true := by decide +kernel
theorem wit_CardsAndBoard_commands : State.reset.fld PART_CARD_CMD.STATE 0 0 ≠ 1 ∧ State.reset.fld PART_CARD_COUNT.PAGES 0 0 = 0
    ∧ (State.reset.setFld PART_CARD_COUNT.PAGES 0 0 3).fld PART_CARD_COUNT.PAGES 0 0 = 3
    ∧ (State.reset.setFld PART_CARD_CMD.STATE 0 0 1).fld PART_CARD_CMD.STATE 0 0 = 1 ∧ SMap.find State.reset.cardOps 0 = none
    ∧ SMap.find ({ State.reset with cardOps := [(0, (2, 0, 0, 0))] }).cardOps 0 = some (2, 0, 0, 0)
    ∧ SMap.find ({ State.reset with cardOps := [(0, (1, 4, 2, 0))], fills := [(0, 5, 1)] }).cardOps 0 = some (1, 4, 2, 0)
    ∧ ([(0, 5, 1)] : List (Nat × Nat × Nat)).any (fun x => x.1 = 0 && x.2.1 < 4 + 2 && 4 < x.2.1 + x.2.2) = true
    ∧ ([(0, 6, 1)] : List (Nat × Nat × Nat)).any (fun x => x.1 = 0 && x.2.1 < 4 + 2 && 4 < x.2.1 + x.2.2) = false := by decide +kernel
/-- Two ports of the board tier are up, alike. -/
def boardUp : State := (State.reset.setReg .BTIER_PORT_STATUS 0 0 (2 + 2 ^ 5)).setReg .BTIER_PORT_STATUS 1 0 (2 + 2 ^ 5)
theorem wit_CardsAndBoard_board_ports : State.reset.fld BTIER_PORT_CTRL.ENABLE 0 0 ≠ 0 ∧ bit State.reset.heldPorts 16 = false
    ∧ (State.reset.setFld BTIER_PORT_CTRL.ENABLE 0 0 0).fld BTIER_PORT_CTRL.ENABLE 0 0 = 0
    ∧ bit ((State.reset.setFld OTP_GEN_STATUS.IN_FORCE 0 0 1).setReg .OTP_GEN_DATA 0 1 (2 ^ 16)).heldPorts 16 = true
    ∧ State.reset.fld BTIER_PORT_STATUS.STATE 0 0 ≠ 2
    ∧ boardUp.fld BTIER_PORT_STATUS.STATE 0 0 = 2 ∧ State.reset.fld BTIER_PORT_CTRL.BIFUR 0 0 = 0
    ∧ (State.reset.setFld BTIER_PORT_CTRL.BIFUR 0 0 1).fld BTIER_PORT_CTRL.BIFUR 0 0 = 1
    ∧ 0 ∈ ({ boardUp with mapPorts := [0, 1] } : State).mapPorts ∧ 0 ∉ boardUp.mapPorts := by decide +kernel
theorem wit_CardsAndBoard_board_map : boardUp.upPorts = [0, 1] ∧ (boardUp.upPorts.all (fun n => boardUp.fld BTIER_PORT_STATUS.EXPS n 0 = 1)) = true
    ∧ State.reset.upPorts.length ∉ [1, 2, 4]
    ∧ ((boardUp.setFld BTIER_PORT_STATUS.EXPS 1 0 2).upPorts.all (fun n => (boardUp.setFld BTIER_PORT_STATUS.EXPS 1 0 2).fld BTIER_PORT_STATUS.EXPS n 0
      = 1)) = false ∧ (State.reset.setReg .BTIER_CARD 7 0 1).reg .BTIER_CARD 7 0 ≠ 0 := by decide +kernel
theorem wit_CardsAndBoard_board_empty : ∀ i < 4096, State.reset.reg .BTIER_CARD i 0 = 0 := by intro i _; rfl
theorem wit_CardsAndBoard_board_timeout : opIs { ctx with asyncs := [asyncOp (.copy (2 ^ 62) 0 32 0) none] } = some (.copy (2 ^ 62) 0 32 0, none)
    ∧ locOf 0 (2 ^ 62) = .board 0 ∧ opIs { ctx with asyncs := [asyncOp (.copy 0 64 32 0) none] } = some (.copy 0 64 32 0, none)
    ∧ (match locOf 0 0 with | .board _ => false | _ => true) = true := by decide +kernel

/-- The ring lies in HBM, in page 0 of job 7. -/
def ringed : State :=
  { (queued.setFld PART_BEAM_SPLIT.ADDR_MIB 0 0 64).setFld Q_CFG_CTRL.SPACE 0 0 1 with cards := [(0, 513)] }
theorem wit_QueueRegisters_fetching_hbm : ringed.fetchCount 0 0 = 1 ∧ queued.fetchCount 0 0 = 1 ∧ keyed.fetchCount 0 0 = 0 ∧ keyed.queueLive 0 0 = false
    ∧ (ringed.hbmRead (.ctx 6 0 0) 0 64).1 = .ok ∧ (({ ringed with poison := [(0, true)] } : State).hbmRead (.ctx 6 0 0) 0 64).1 = .busError
    ∧ (({ ringed with cards := [] } : State).hbmRead (.ctx 6 0 0) 0 64).1 = .protection := by decide +kernel
/-- NOP; NOP with a reserved bit. -/
def nop0 : Cmd := holds1 0 0 0
def nopBad : Cmd := holds1 (2 ^ 32) 0 0
/-- Another queue of the context, of a higher priority, has a NOP too. -/
def outranked : State :=
  ((((withCmd queued nop0).setReg .Q_CFG_CTRL 0 1 0x40000041).setFld Q_CFG_CTRL.PRIO 0 1 1).setFld Q_STATUS.STATE 0 1 1).setQueue 0 1 { cmds := [nop0] }
theorem wit_QueueCommands_others : (withCmd queued nop0).nextCmd 0 0 = some nop0 ∧ queued.nextCmd 0 0 = none
    ∧ ({ withCmd queued nop0 with thermtrip := true } : State).thermtrip = true
    ∧ ((withCmd queued nop0).setFld HANG_CTX_STATUS.STATE 0 0 1).fld HANG_CTX_STATUS.STATE 0 (queued.fld Q_CFG_CTRL.CTX 0 0) = 1
    ∧ outranked.nextCmd 0 0 = some nop0 ∧ outranked.canStart 0 0 = true ∧ outranked.queueDue 0 0 = false
    ∧ (withCmd queued nopBad).nextCmd 0 0 = some nopBad ∧ cmdLevelOk nopBad = false ∧ (withCmd queued nopBad).queueDue 0 0 = true := by decide +kernel

/-! ### Witnesses: the selvage and snapshots -/

/-- A valid descriptor: twin 9, role 1, and a feed tag. -/
def tab9 : Tabnex := ⟨9, 1, 0x20, [5]⟩
/-- The selvage link is up, and the device has its descriptor. -/
def linked : State := { keyed with selvLink := 3, tabnex := some tab9 }
/-- It is paired, under a pair key. -/
def pairUp : State := { linked.setFld SELV_PAIR_CTRL.STATE 0 0 2 with pairKey := some [] }
/-- The state after the pairing request has sent its message. -/
def pairing (s : State) : State := (s.setFld SELV_PAIR_CTRL.OVERRIDE 0 0 0).sendPair
theorem wit_PairingAndHeartbeats : (pairing ctx).linkUp 16 = false ∧ (pairing linked).linkUp 16 = true ∧ linked.linkUp 16 = true
    ∧ ctx.linkUp 16 = false
    ∧ (pairing linked).pairCheck ⟨9, false, some (false, [6])⟩ = .ok ∧ (pairing linked).pairCheck ⟨8, false, some (false, [6])⟩ ≠ .ok
    ∧ (pairing linked).tabnex = some tab9 ∧ pairUp.paired = true ∧ ctx.paired = false ∧ bit pairUp.twinFlags 0 = false
    ∧ ({ pairUp with twinFlags := 1 } : State).paired = true ∧ bit ({ pairUp with twinFlags := 1 } : State).twinFlags 0 = true := by decide +kernel
/-- A selvage packet of a type and job, with LEN, word 5 and a payload. -/
def skPk (type job len arg : Nat) (payload : List Byte) : Packet :=
  pkt (type + 16 + job * 2 ^ 16 + 9 * 2 ^ 32) 0 (len * 2 ^ 32) 0 1 arg payload
/-- A HEARTBEAT: one that is right, one with a reserved bit, one too long; and one whose tag fails. -/
def heartPk (w2 len : Nat) : Packet := asType 0 (pkt (16 + 9 * 2 ^ 32) 0 (len * 2 ^ 32 + w2) 0 1 0 (List.replicate (32 * len) 0))
theorem wit_PairingAndHeartbeats_beat : (heartPk 0 1).tagOk = true ∧ skLevelOk (heartPk 0 1) = true ∧ skFormOk (heartPk 0 1) = true
    ∧ skLevelOk (heartPk (2 ^ 12) 1) = false ∧ skLevelOk (heartPk 0 2) = true ∧ skFormOk (heartPk 0 2) = false ∧ pairUp.pairKey.isSome = true
    ∧ keyed.pairKey = none
    ∧ ({ heartPk 0 1 with tagOk := false } : Packet).tagOk = false := by decide +kernel
/-- The arrival of a selvage packet, as a decision. -/
def selvageIn (s : State) (k : Packet) : Bool :=
  (s.tagCheck (2 ^ 20) k).1 && skLevelOk k && ((s.tagCheck (2 ^ 20) k).2.bump .SELV_RX_BYTES 0 0 k.payload.length).member k && skFormOk k
/-- The state after it. -/
def afterSelvage (s : State) (k : Packet) : State := (s.tagCheck (2 ^ 20) k).2.bump .SELV_RX_BYTES 0 0 k.payload.length
theorem selvageIn_of {s : State} {k : Packet} (h : selvageIn s k = true) : s.SelvageIn k (afterSelvage s k) := by
  simp only [selvageIn, Bool.and_eq_true] at h
  obtain ⟨⟨⟨h1, h2⟩, h3⟩, h4⟩ := h
  exact ⟨_, Prod.ext h1 rfl, rfl, h2, h3, h4⟩
/-- A packet of each type: one unit, or a block of 4 KiB; a DECISION of COMMIT or of ABORT. -/
def typed (n arg : Nat) : Packet :=
  asType n (skPk n 7 (if n = 2 then 128 else if n = 1 ∨ n = 4 ∨ n = 5 then 1 else 0) arg
    ((List.replicate (if n = 2 then 4096 else if n = 1 ∨ n = 4 ∨ n = 5 then 32 else 0) 0).set 8 (if n = 5 then 2 else 0)))
/-- The context is mirrored, its mirror area in pages 0 to 15, which it shares, its deltas at 256 KiB with room for one. -/
def mirrors : State :=
  { ((((keyed.setFld PART_BEAM_SPLIT.ADDR_MIB 0 0 64).setFld SNAP_CTX_CFG.MIRROR 0 0 1).setReg .SNAP_DELTA_BASE 0 0 0x40000).setReg
      .SNAP_DELTA_SIZE 0 0 2) with cards := (List.range 16).map (fun n => (n, 513)) }
/-- Nobody mirrors for the sender. -/
def peerless : State := mirrors.setFld SNAP_CTX_CFG.PEER_CTX 0 0 5
theorem wit_SelvagePackets : ∀ n ∈ [1, 2, 3, 4, 5, 6, 7], selvageIn mirrors (typed n 0) = true ∧ selvageIn peerless (typed n 0) = true := by
  decide +kernel
theorem wit_SelvagePackets_peer : ∀ n ∈ [1, 2, 3, 4], (afterSelvage mirrors (typed n 0)).peerOf (typed n 0) = some (0, 0)
    ∧ (afterSelvage peerless (typed n 0)).peerOf (typed n 0) = none := by decide +kernel
/-- It has one place for a delta, or none; it is three quarters full after one, or not. -/
theorem wit_SelvagePackets_delta : mirrors.deltaFree 0 0 = some 0 ∧ (mirrors.setReg .SNAP_DELTA_SIZE 0 0 0).deltaFree 0 0 = none
    ∧ mirrors.deltaFull 0 0 = false ∧ skCommit (typed 3 0) = 0 ∧ pkArg (typed 3 0) = 0 ∧ pkArg (typed 3 9) = 9
    ∧ SMap.get (0, 0) mirrors.rxStream (cidx 0 0) = (0, 0) ∧ (mirrors.twinRec 7 0) = none
    ∧ (let y : TwinRec := ⟨9, 7, 0, dAbort, 0, 7, []⟩
      ({ mirrors with twinRecs := [y] } : State).twinRec 7 0 = some y ∧ y.decision = dAbort ∧ pkByte (typed 5 0) 8 = dAbort) := by decide +kernel
theorem wit_SelvagePackets_checks : (mirrors.tagCheck (2 ^ 20) { typed 1 0 with tagOk := false }).1 = false
    ∧ (mirrors.tagCheck (2 ^ 20) (typed 1 0)).1 = true ∧ skLevelOk { typed 1 0 with w6 := 1 } = false ∧ skLevelOk (typed 1 0) = true
    ∧ (afterSelvage keyed { typed 1 0 with w0 := BitVec.ofNat 64 (1 + 16 + 8 * 2 ^ 16) }).member { typed 1 0 with w0 := BitVec.ofNat 64 (1 + 16 + 8 * 2 ^ 16) } = false
    ∧ (afterSelvage mirrors { typed 1 0 with payload := [] }).member { typed 1 0 with payload := [] } = true
    ∧ skFormOk { typed 1 0 with payload := [] } = false := by
  decide +kernel
/-- A packet sent that an ACK can answer, of a type; and the ACK, with a status. -/
def outgoing (n : Nat) : State := { mirrors with selvSent := [typed n 0] }
def ackOf (st : Nat) : Packet := pkt (6 + 16 + 7 * 2 ^ 16 + 9 * 2 ^ 32) 0 (st * 2 ^ 48) 0 1 (pkSeq (typed 3 0)) []
theorem wit_SelvagePackets_acks : (∀ n ∈ [1, 3, 5], (outgoing n).selvSent.find? (fun x => pkSeq x = pkArg (ackOf 0) && pkJob x = pkJob (ackOf 0)) = some (typed n 0)
      ∧ pkType (typed n 0) = n)
    ∧ mirrors.selvSent.find? (fun x => pkSeq x = pkArg (ackOf 0) && pkJob x = pkJob (ackOf 0)) = none
    ∧ Status.ofCode (skStatus (ackOf 0)) = .ok ∧ Status.ofCode (skStatus (ackOf Status.illegal.code)) = .illegal
    ∧ Status.ofCode (skStatus (ackOf Status.protection.code)) = .protection := by decide +kernel
theorem wit_SelvagePackets_folds : mirrors.fld SNAP_CTX_CFG.MIRROR 0 0 = 1
    ∧ ((SMap.get 0 mirrors.lastFold (cidx 0 0)).toNat + mirrors.fld SELV_RISK.INTERVAL 0 0 ≤ (mirrors.setReg .SNAP_RX_POINT 0 0 5000).reg .SNAP_RX_POINT 0 0)
    ∧ ctx.fld SNAP_CTX_CFG.MIRROR 0 0 ≠ 1 ∧ ctx.mgmtStopped = false
    ∧ ({ ctx with mgmtStopped := true } : State).mgmtStopped = true := by decide +kernel
/-- The last commit may be undone. -/
def undoable : State := ctx.setFld SNAP_CTX_STATUS.ROLLBACK_OK 0 0 1
theorem wit_Snapshots_resolve : ctx.function bar0 = some (0, 0) ∧ ctx.present 0 0 = true ∧ ctx.present 0 1 = false
    ∧ (inStep ctx 4).stepState 0 0 = 4
    ∧ (inStep ctx 4).present 0 0 = true ∧ ctx.stepState 0 0 = 0 ∧ ctx.fld SNAP_CTX_STATUS.ROLLBACK_OK 0 0 ≠ 1
    ∧ undoable.fld SNAP_CTX_STATUS.ROLLBACK_OK 0 0 = 1 ∧ undoable.role 0 0 ≠ 1 ∧ undoable.fld BAT_SNAP_HOLD.ACTIVE 0 0 = 0
    ∧ undoable.stepState 0 0 = 0 := by
  decide +kernel
theorem wit_Snapshots_promote : paged.present 0 0 = true ∧ paged.fld SNAP_CTX_STATUS.BUSY 0 0 ≠ 1
    ∧ paged.reg .SNAP_RST_COUNT 0 0 ≤ paged.reg .SNAP_RX_POINT 0 0
    ∧ paged.rxShared 0 0 = true ∧ (paged.keySet (paged.jobOf 0 0)).isSome = true ∧ (noKeys paged).keySet ((noKeys paged).jobOf 0 0) = none
    ∧ (noKeys paged).reg .SNAP_RST_COUNT 0 0 ≤ (noKeys paged).reg .SNAP_RX_POINT 0 0
    ∧ paged.reg .SNAP_RX_POINT 0 0 < (paged.setReg .SNAP_RST_COUNT 0 0 3).reg .SNAP_RST_COUNT 0 0
    ∧ (paged.setFld SNAP_CTX_STATUS.BUSY 0 0 1).fld SNAP_CTX_STATUS.BUSY 0 0 = 1 := by decide +kernel
/-- The record lies in pages that the job holds, or in page 0 that nobody does. -/
theorem wit_Snapshots_restore : mirrors.stepState 0 0 = 0 ∧ mirrors.queuesOf 0 0 = [] ∧ (mirrors.hbmRead (.job 4 7) 0 16384).1 = .ok
    ∧ (({ mirrors with cards := [] } : State).hbmRead (.job 4 7) 0 16384).1 ≠ .ok ∧ mirrors.jobOf 0 0 = 7
    ∧ 0 ∈ (queued.setFld PART_CTX_QUEUES.COUNT 0 0 1).queuesOf 0 0
    ∧ (queued.setFld PART_CTX_QUEUES.COUNT 0 0 1).fld Q_CFG_CTRL.ENABLE 0 0 = 1 := by decide +kernel
/-- PROMOTE, and an export of one page of the host's memory, are under way. -/
def promoting : SnapJob := ⟨0, 0, true, .ok, [], false, 0⟩
def exporting : SnapJob := ⟨0, 0, false, .ok, [(4096, [1, 2])], true, 2⟩
/-- An import to address 0, and a command that has met a refusal. -/
def importing : SnapJob := ⟨0, 0, false, .ok, [(0, [1, 2])], false, 2 ^ 64⟩
def refused : SnapJob := ⟨0, 0, false, .illegal, [], true, 0⟩
theorem wit_Snapshots_ends : ({ ctx with snapJobs := [promoting] } : State).snapJobs.find? (fun j => j.promote && j.part = 0 && j.ctx = 0) = some promoting
    ∧ ctx.snapJobs.find? (fun j => j.promote && j.part = 0 && j.ctx = 0) = none
    ∧ ((({ ({ ctx with snapJobs := [promoting] } : State) with snapJobs := [] } : State).setFld SNAP_CTX_STATUS.BUSY 0 0 0).promoted 0 0 0).1 = [] := by
  decide +kernel
theorem wit_Snapshots_containers_ends : (∀ j ∈ [exporting, importing, refused],
      ({ ctx with snapJobs := [j] } : State).snapJobs.find? (fun j => !j.promote && j.part = 0 && j.ctx = 0) = some j)
    ∧ exporting.size ≠ 2 ^ 64 ∧ exporting.host = true ∧ (ctx.expWrite 0 0 4096 true [1, 2]).1 = .ok
    ∧ (ctx.expWrite 0 0 (3 * 2 ^ 60) false [1, 2]).1 ≠ .ok := by
  decide +kernel
/-- A snapshot is held, without entries. -/
def held0 : State := keyed.setFld BAT_SNAP_HOLD.ACTIVE 0 0 1
theorem wit_Snapshots_containers : ctx.fld SNAP_EXP_CMD.BUSY 0 0 ≠ 1 ∧ (ctx.setFld SNAP_EXP_CMD.BUSY 0 0 1).fld SNAP_EXP_CMD.BUSY 0 0 = 1
    ∧ (ctx.setFld SNAP_EXP_CMD.SPACE 0 0 0).fld BAT_SNAP_HOLD.ACTIVE 0 0 = 0
    ∧ (held0.setFld SNAP_EXP_CMD.SPACE 0 0 0).fld BAT_SNAP_HOLD.ACTIVE 0 0 ≠ 0
    ∧ (held0.setFld SNAP_EXP_CMD.SPACE 0 0 0).reg .SNAP_EXP_DEST 0 0 % 4096 = 0
    ∧ (held0.setFld SNAP_EXP_CMD.SPACE 0 0 0).reg .SNAP_EXP_TARGET 0 0 % 65536 = 0
    ∧ ((ctx.setReg .SNAP_EXP_DEST 0 0 4097).setFld SNAP_EXP_CMD.SPACE 0 0 0).reg .SNAP_EXP_DEST 0 0 % 4096 ≠ 0
    ∧ ctx.keySet (ctx.jobOf 0 0) = none ∧ held0.keySet (held0.jobOf 0 0) = some keySet ∧ (held0.openContainer 0 0 keySet).1 ≠ .ok := by decide +kernel
/-- Its container is made. -/
theorem wit_Snapshots_containers_made : (held0.container 0 0 keySet).1 = .ok := by decide +kernel
theorem wit_SelvagePackets_stores : ∀ n ∈ [1, 4], let t := afterSelvage mirrors (typed n 0)
    (t.hbmWrite (.job 4 7) 0 (t.stored (typed n 0)).1).1 = .ok
    ∧ (({ t with cards := [] } : State).hbmWrite (.job 4 7) 0 (({ t with cards := [] } : State).stored (typed n 0)).1).1 ≠ .ok := by decide +kernel

/-! ### Witnesses: custody -/

theorem wit_SpdmRequests : (true && true && true && false) = false ∧ 1 ≤ (6 : BitVec 8).toNat ∧ (6 : BitVec 8).toNat ≤ 6 ∧ 6 < (7 : BitVec 8).toNat
    ∧ (0xFE : BitVec 8).toNat < 0xFF ∧ funcCode .operator = 8 ∧ funcCode (.partition 7) < 8 := by decide +kernel
/-- In the field, without debug. -/
def field : State := State.reset.setFld SEC_LIFECYCLE.STATE 0 0 2
/-- And partition 0 is in a state. -/
def fieldAt (n : Nat) : State := field.setFld PART_ASSIGN.STATE 0 0 n
theorem wit_SessionsAndCustody_exchange : ∀ n ∈ [0, 1, 2, 3], (fieldAt n).fld SEC_LIFECYCLE.STATE 0 0 = 2 ∧ (fieldAt n).fld SEC_DEBUG.STATE 0 0 = 0
    ∧ (fieldAt n).fld PART_ASSIGN.STATE 0 0 = n := by decide +kernel
/-- A pin that is the key's hash, and one that is not. -/
theorem wit_SessionsAndCustody_pins (k : List Byte) : ({ fieldAt 2 with pins := [(0, Config.sha384 k)] }).pinOf 0 = Config.sha384 k
    ∧ ({ fieldAt 2 with pins := [(0, 0 :: Config.sha384 k)] }).pinOf 0 ≠ Config.sha384 k := by
  refine ⟨by simp [State.pinOf, SMap.get], ?_⟩
  simp [State.pinOf, SMap.get]
/-- A session of a function's tenant. -/
def sess (f : Nat) (fin : Bool) : Session := ⟨f, 4, [], fin, 0, []⟩
/-- The session of partition 0 stands; the device is in the field, job 7 has its keys. -/
def talking : State := { field with sessions := [sess 0 true], keys := [keySet] }
theorem wit_SessionsAndCustody_sessions : talking.session (.partition 0) (4 : W32).toNat = some (sess 0 true)
    ∧ ({ field with sessions := [sess 9 true] } : State).session .mctp (4 : W32).toNat = some (sess 9 true)
    ∧ field.session .mctp (4 : W32).toNat = none ∧ (sess 0 false).finished = false ∧ (sess 0 true).finished = true := by decide +kernel
/-- The body of JOB_KEYS_SET of a job, of its right length; and the same keys again. -/
def setBody (job n : Nat) : List Byte := leBytes 2 job ++ List.replicate n 0
/-- The device holds 511 key sets. -/
def manyKeys : State := { field with keys := (List.range 511).map (fun n => { keySet with job := 1000 + n }) }
theorem wit_SessionsAndCustody_keys : (setBody 7 192).length = 194 ∧ (setBody 7 10).length ≠ 194 ∧ bodyJob (setBody 7 192) = 7
    ∧ talking.keySet (bodyJob (setBody 7 192)) = some keySet ∧ keySet.pin = (sess 0 true).pin ∧ keySet.keys = (setBody 7 192).drop 2
    ∧ keySet.keys ≠ (leBytes 2 7 ++ List.replicate 192 1).drop 2 ∧ (leBytes 2 7 ++ List.replicate 192 (1 : Byte)).length = 194
    ∧ talking.keySet (bodyJob (setBody 8 192)) = none ∧ talking.keys.length < 511 ∧ 511 ≤ manyKeys.keys.length ∧ manyKeys.keySet 8 = none
    ∧ talking.fld SEC_LIFECYCLE.STATE 0 0 ≠ 3 ∧ (talking.setFld SEC_LIFECYCLE.STATE 0 0 3).fld SEC_LIFECYCLE.STATE 0 0 = 3 := by decide +kernel
theorem wit_SessionsAndCustody_rotate : (setBody 7 72).length = 74 ∧ keySet.next = none ∧ keySet.retired.length < 2 ∧ (setBody 7 0).length = 2
    ∧ bodyJob (setBody 7 0) = 7 ∧ bodyJob (setBody 7 72) = 7 ∧ ({ keySet with pin := [1] } : KeySet).pin ≠ (sess 0 true).pin
    ∧ ({ talking with keys := [{ keySet with pin := [1] }] } : State).keySet 7 = some { keySet with pin := [1] }
    ∧ ({ keySet with next := some (5, [], []) } : KeySet).next.isSome = true ∧ (setBody 7 0) ≠ [0] ∧ (setBody 7 0) ≠ [1] := by decide +kernel
theorem wit_LifecycleAndPartitions_advance : SEC_LIFECYCLE.ADVANCE.of 0x100 = State.reset.fld SEC_LIFECYCLE.STATE 0 0 + 1
    ∧ SEC_LIFECYCLE.ADVANCE.of 0x200 ≠ State.reset.fld SEC_LIFECYCLE.STATE 0 0 + 1
    ∧ SEC_LIFECYCLE.ADVANCE.of 0x300 = field.fld SEC_LIFECYCLE.STATE 0 0 + 1 ∧ ({ field with zeroedAll := true }).zeroedAll = true
    ∧ SEC_LIFECYCLE.ADVANCE.of 0x200 = (State.reset.setFld SEC_LIFECYCLE.STATE 0 0 1).fld SEC_LIFECYCLE.STATE 0 0 + 1
    ∧ (State.reset.setFld SEC_LIFECYCLE.STATE 0 0 1).fld SEC_DEBUG.STATE 0 0 = 0 := by decide +kernel
theorem wit_LifecycleAndPartitions_assign : (fieldAt 0).fld PART_ASSIGN.STATE 0 0 = 0 ∧ PART_ASSIGN.OWNER.of (setBits 5 20 1 0) ≠ 0
    ∧ PART_ASSIGN.OWNER.of (setBits 0 20 1 0) = 0 ∧ (fieldAt 2).fld PART_ASSIGN.STATE 0 0 = 2 ∧ (∀ c < 64, (fieldAt 2).admitted 0 c = false)
    ∧ ctx.admitted 0 0 = true ∧ (fieldAt 3).fld PART_ASSIGN.STATE 0 0 = 3 := by decide +kernel
theorem wit_LifecycleAndPartitions_zero : bit 1 0 = true ∧ (∀ c ∈ allCtx, field.admitted c.1 c.2 = false)
    ∧ (∃ c ∈ allCtx, ctx.admitted c.1 c.2 = true) := by decide +kernel
theorem wit_LifecycleAndPartitions_end :
    (let t := (((fieldAt 3).zeroPart 0).setFld PART_ASSIGN.STATE 0 0 0).setFld PART_ASSIGN.OWNER 0 0 0
     t.fld SEC_ZERO_ALL.BUSY 0 0 ≠ 1)
    ∧ (let t := ((((fieldAt 3).setFld SEC_ZERO_ALL.BUSY 0 0 1).zeroPart 0).setFld PART_ASSIGN.STATE 0 0 0).setFld PART_ASSIGN.OWNER 0 0 0
       t.fld SEC_ZERO_ALL.BUSY 0 0 = 1 ∧ ∀ q < 8, t.fld PART_ASSIGN.STATE q 0 ≠ 3) := by decide +kernel
/-- Context 0 of a PINNED partition asks for admission, with the job's keys set by its tenant. -/
def asking : State :=
  { ((keyed.setFld PART_ASSIGN.STATE 0 0 2).setFld PART_CTX_ADMIT.STATE 0 0 0).setFld PART_CTX_ADMIT.ROLE 0 0 0 with pins := [] }
/-- Its grants are in order. -/
def granted : State := (asking.setFld PART_CTX_KNOTS.COUNT 0 0 4).setFld PART_BEAM_SPLIT.ADDR_MIB 0 0 8
theorem wit_Admission : asking.present 0 0 = false ∧ asking.fld PART_CTX_ADMIT.ROLE 0 0 = 0 ∧ asking.indexFor (asking.jobOf 0 0) = some 1
    ∧ (asking.setFld PART_CTX_ADMIT.ROLE 0 0 (PART_CTX_ADMIT.ROLE.of 3)).admitCheck 0 0 ≠ .ok ∧ ctx.admitted 0 0 = true
    ∧ asking.admitted 0 0 = false ∧ (asking.setFld PART_CTX_ADMIT.STATE 0 0 2).fld PART_CTX_ADMIT.STATE 0 0 = 2
    ∧ (ctx.setFld SEC_JOB.STATE 1 0 3).fld SEC_JOB.STATE 1 0 = 3 := by decide +kernel
theorem wit_Admission_ok : (granted.setFld PART_CTX_ADMIT.ROLE 0 0 (PART_CTX_ADMIT.ROLE.of 0)).admitCheck 0 0 = .ok
    ∧ granted.present 0 0 = false ∧ (granted.setFld PART_CTX_ADMIT.ROLE 0 0 (PART_CTX_ADMIT.ROLE.of 0)).indexFor 7 = some 1 := by decide +kernel
theorem wit_Admission_ends : ctx.fld SEC_JOB.STATE 1 0 ≠ 3 ∧ asking.fld PART_CTX_ADMIT.STATE 0 0 ≠ 2 := by decide +kernel
theorem wit_DebugUnlock : bit 1 0 = true ∧ bit 0 0 = false ∧ (State.reset.setFld SEC_DEBUG.STATE 0 0 2).fld SEC_DEBUG.STATE 0 0 = 2
    ∧ (fieldAt 1).fld PART_ASSIGN.STATE 0 0 ≠ 0
    ∧ (sess 0 true).func < 8 ∧ State.reset.fld SEC_DEBUG.STATE 0 0 ≠ 2 ∧ (∀ p < 8, State.reset.fld PART_ASSIGN.STATE p 0 = 0)
    ∧ (∀ x ∈ State.reset.sessions, 8 ≤ x.func) ∧ State.reset.paired = false ∧ pairUp.paired = true
    ∧ ((State.reset.setFld SEC_DEBUG.STATE 0 0 1).setReg .SEC_DEBUG_TOKEN 32 0 7).fld SEC_DEBUG.STATE 0 0 = 1 := by decide +kernel

/-! ### Witnesses: hangs, resets, alarms and logs -/

/-- Context 0 runs a program on engine 0, under its watchdog. -/
def hanging : State := (unitBusy 0 .ok none).setFld HANG_CTX_CFG.ENABLE 0 0 1
/-- It is a suspect of engine 0 that is being replayed. -/
def replayed : State := { hanging.setFld HANG_CTX_STATUS.STATE 0 0 2 with suspects := [(0, 0)] }
theorem wit_WatchdogsAndResetEnds_watchdogs : hanging.admitted 0 0 = true ∧ hanging.fld HANG_CTX_CFG.ENABLE 0 0 = 1 ∧ hanging.hasWork 0 0 = true
    ∧ hanging.onlyPicks 0 0 = false ∧ replayed.onlyPicks 0 0 = false ∧ hanging.suspects = [] ∧ replayed.admitted 0 0 = true
    ∧ replayed.fld HANG_CTX_CFG.ENABLE 0 0 = 1 ∧ replayed.hasWork 0 0 = true
    ∧ replayed.suspects.find? (fun y => y.1 / 48 = 0 && replayed.replaying y.1 = some 0) = some (0, 0)
    ∧ (hanging.setFld HANG_CFG.MAX_LEVEL 0 0 1).maxLevel < 2 ∧ 3 ≤ hanging.maxLevel ∧ (∃ o ∈ hanging.unitOps, o.prog / 8 = 0)
    ∧ hanging.replaying 0 = none ∧ replayed.replaying 0 = some 0 := by decide +kernel
theorem wit_WatchdogsAndResetEnds_progress : (withCmd queued (holds1 0 0 0)).treadleWork 0 = true ∧ 3 ≤ (withCmd queued (holds1 0 0 0)).maxLevel
    ∧ ctx.treadleWork 0 = false ∧ ctx.battenWork 0 = false ∧ ctx.unitOps = [] ∧ ctx.admitted 0 1 = false ∧ ctx.replaying 0 = none := by decide +kernel
theorem wit_WatchdogsAndResetEnds_resets : (2, 0) ∈ ({ ctx with resetting := [(2, 0)] }).resetting ∧ ctx.resetting = []
    ∧ (3, 0) ∈ ({ ctx with resetting := [(3, 0)] }).resetting
    ∧ ({ ctx with resetting := [(2, 0)] }).maxLevel = 3 ∧ (({ ctx with resetting := [(2, 0)] }).setFld HANG_CFG.MAX_LEVEL 0 0 2).maxLevel < 3
    ∧ 4 ≤ (({ ctx with resetting := [(3, 0)] }).setFld HANG_CFG.MAX_LEVEL 0 0 4).maxLevel := by decide +kernel
theorem wit_ResetRequests : ctx.admitted (RST_REQ.PART.of 0) (RST_REQ.CTX.of 0) = true
    ∧ State.reset.admitted (RST_REQ.PART.of 0) (RST_REQ.CTX.of 0) = false
    ∧ RST_REQ.ENGINE.of 0 < 48 ∧ 48 ≤ RST_REQ.ENGINE.of (2 ^ 32 - 1) ∧ linked.tabnex = some tab9 ∧ State.reset.tabnex = none := by decide +kernel
theorem wit_ChipResetKeeps : (0 : Nat) < 2 ^ 20 ∧ RegName.DEV_PROFILE ∉ alwaysOn ∧ RegName.DEV_PROFILE ∉ fused := by decide +kernel
theorem wit_AlarmCounts : ctx.reg .ALM_COUNT 5 0 = 0 ∧ (ctx.setReg .ALM_COUNT 5 0 (2 ^ 64 - 1)).reg .ALM_COUNT 5 0 ≠ 0
    ∧ (63 : Nat) < 64 := by decide +kernel
theorem wit_AlarmsAndLogs_clear : (0x28 : Nat) ≠ 0x1F ∧ (0x28 : Nat) < 0x29 ∧ State.reset.alarmStands 0x28 = false
    ∧ (State.reset.setFld SELV_PAIR_CTRL.STATE 0 0 4).alarmStands 0x17 = true ∧ (0x29 : Nat) < 64 := by decide +kernel
/-- A record of the operator's log. -/
def rec8 : LogRec := ⟨8, 0, 5, 0, 0, 1, []⟩
theorem wit_AlarmsAndLogs_logs : ({ ctx with staged := [rec8] }).staged.find? (fun (r : LogRec) => r.ring = 8) = some rec8
    ∧ ctx.reg .LOG_OP_CFG 0 0 % 2 = 0 ∧ ctx.reg .SCHED_LOG_CFG 0 0 % 2 = 0 ∧ bits (11 * 2 ^ 8) 8 5 = 11 ∧ bits (24 * 2 ^ 8) 8 5 = 24
    ∧ ({ ctx with coalesce := [rec8] }).coalesce[0]? = some rec8 ∧ (ctx.setFld LOG_INCIDENT.ACTIVE 0 0 1).incident = true
    ∧ (∀ r < 9, 8 * (ctx.setFld LOG_INCIDENT.ACTIVE 0 0 1).stagedOf r < quota r)
    ∧ 8 * ctx.msRecords < max 1 (ctx.fld LOG_INCIDENT.RATE 0 0) := by decide +kernel

/-! ### Witnesses: power, supplies and boot -/

/-- Nothing votes: no host vote, no link, no pair, no context. -/
def quiet : State := State.reset.setReg .PWR_VOTE_HOST 0 0 0
/-- A write of PWR_TARGET, traced. -/
def targeted (s : State) (n : Nat) : State := (s.traceVote .PWR_TARGET 0 n).writeMasked .PWR_TARGET 0 0 n
theorem wit_PowerStates_target : (5 : W32).toNat % 8 = 5 ∧ (3 : W32).toNat % 8 ≤ 4 ∧ (targeted State.reset 0).fld PWR_STATE.CURRENT 0 0 = 0
    ∧ (targeted (State.reset.setFld PWR_STATE.CURRENT 0 0 2) 1).fld PWR_STATE.CURRENT 0 0 = 2
    ∧ (targeted quiet 1).firstHolder 1 = none ∧ (targeted quiet 1).fld PWR_STATE.CURRENT 0 0 < 1
    ∧ ((targeted State.reset 1).firstHolder 1).isSome = true ∧ (targeted State.reset 1).fld PWR_STATE.CURRENT 0 0 < 1 := by decide +kernel
/-- The entry to state 1 is under way; to state 4, of which the votes allow state 1. -/
def entering : State := quiet.setFld PWR_TARGET.STATE 0 0 1
def entering4 : State := (entering.setFld PWR_TARGET.STATE 0 0 4).setReg .PWR_VOTE_HOST 0 0 0xE
theorem wit_PowerStates_entry : entering.thermtrip = false ∧ entering.mgmtStopped = false ∧ entering.resetting = []
    ∧ entering.fld PWR_STATE.CURRENT 0 0 = 0
    ∧ entering.deepest (entering.fld PWR_TARGET.STATE 0 0) = 1 ∧ ¬ (1 ≤ 0 ∧ 0 ≤ 1) ∧ (1 ≤ 1 ∧ 1 ≤ 1)
    ∧ (entering.powerTo 1).fld PWR_TARGET.STATE 0 0 = 1 ∧ entering4.deepest 4 = 1 ∧ (entering4.powerTo 1).fld PWR_TARGET.STATE 0 0 ≠ 1
    ∧ quiet.deepest (quiet.fld PWR_TARGET.STATE 0 0) = 0 := by decide +kernel
/-- The device is in state 1, and its target Run, or state 1 still. -/
def light : State := quiet.setFld PWR_STATE.CURRENT 0 0 1
theorem wit_PowerStates_exit : light.fld PWR_STATE.CURRENT 0 0 ≠ 4 ∧ light.thermtrip = false ∧ light.mgmtStopped = false
    ∧ (let t := light.wakeTo (light.deepest (light.fld PWR_TARGET.STATE 0 0)); t.fld PWR_STATE.CURRENT 0 0 = t.fld PWR_TARGET.STATE 0 0)
    ∧ (let s := (light.setFld PWR_TARGET.STATE 0 0 4).setReg .PWR_VOTE_HOST 0 0 0xE
      let t := s.wakeTo (s.deepest (s.fld PWR_TARGET.STATE 0 0))
      t.fld PWR_STATE.CURRENT 0 0 ≠ t.fld PWR_TARGET.STATE 0 0)
    ∧ (quiet.setFld PWR_STATE.CURRENT 0 0 4).fld PWR_STATE.CURRENT 0 0 = 4 := by decide +kernel
/-- An excursion of rail 0 is open. -/
def dipping : State := { State.reset.setFld PWR_RAIL_I.EXCURSION 0 0 1 with dips := [(0, 5)] }
theorem wit_SupplyExcursions : State.reset.supervised 0 = true ∧ State.reset.fld PWR_RAIL_I.EXCURSION 0 0 ≠ 1 ∧ SMap.find dipping.dips 0 = some 5
    ∧ SMap.find State.reset.dips 0 = none ∧ dipping.fld PWR_RAIL_I.EXCURSION 0 0 = 1 ∧ State.reset.supervised 1 = false
    ∧ ({ State.reset with hbmEn := true } : State).supervised 1 = true ∧ ({ State.reset with hbmEn := true } : State).supervised 5 = true
    ∧ ({ State.reset with resetCrossed := true } : State).resetCrossed = true ∧ State.reset.resetCrossed = false
    ∧ ({ State.reset with exiting := true } : State).exiting = true ∧ State.reset.exiting = false := by decide +kernel
theorem wit_ControlLands : State.reset.thermtrip = false ∧ ({ State.reset with thermtrip := true } : State).thermtrip = true
    ∧ ({ State.reset with hbmEn := true } : State).hbmEn = true ∧ State.reset.hbmEn = false ∧ (3 : Nat) < 10 ∧ 10 ≤ (20 : Nat) := by
  decide +kernel
/-- What a boot meets that gets as far as `n`. -/
def meets (flash fuses : Bool) (n : Fin 8) : BootEnv := ⟨flash, true, true, true, true, fuses, true, ⟨[], []⟩, [], n⟩
/-- The settings of the first attempt of a boot. -/
def first : State := (State.reset.setFld BOOT_STATUS.ATTEMPTS 0 0 1).readOtp
theorem wit_BootOutcomes_start : State.reset.thermtrip = false ∧ State.reset.vaon = true ∧ State.reset.fld BOOT_STATUS.STAGE 0 0 < 7
    ∧ 3 ≤ (State.reset.setFld BOOT_STATUS.ATTEMPTS 0 0 3).fld BOOT_STATUS.ATTEMPTS 0 0 ∧ State.reset.booting = false
    ∧ State.reset.fld BOOT_STATUS.ATTEMPTS 0 0 < 3 ∧ first.booting = false ∧ (meets false false 0).fuses = false ∧ (meets true true 7).fuses = true
    ∧ first.inForce = 0 ∧ (∀ g ∈ [1, 2, 3, 4], first.genMark g = 0) ∧ first.refclk = 0 ∧ (meets true true 7).reached.val ≠ 0
    ∧ (meets true true 0).reached.val = 0 ∧ (meets false true 7).flash = false ∧ (meets true true 7).flash = true
    ∧ (match first.chooseImage with | .error e => e = 1 | .ok _ => false) = true
    ∧ ({ State.reset with thermtrip := true } : State).thermtrip = true := by
  decide +kernel
/-- A device at a stage of its boot. -/
def atStage (n : Nat) : State := State.reset.setFld BOOT_STATUS.STAGE 0 0 n
theorem wit_BootOutcomes_steps : (∀ n ∈ [0, 1, 2, 3, 4, 5, 6], (atStage n).fld BOOT_STATUS.STAGE 0 0 = n ∧ n < (meets true true 7).reached.val)
    ∧ (atStage 7).fld BOOT_STATUS.STAGE 0 0 = 7 ∧ (meets true true 7).regulators = true ∧ (meets true true 7).creel = true
    ∧ (meets true true 7).loom = true ∧ (meets true true 7).firmware = true := by decide +kernel
theorem wit_BootOutcomes_time : (atStage 3).booting = true ∧ (atStage 3).maxBefore ≠ 5 ∧ setBits 0 4 1 1 % 4 ≠ 3 ∧ setBits 3 4 1 1 % 4 = 3
    ∧ tabby.fld BOOT_STATUS.TABBY 0 0 = 1 ∧ (State.reset.setFld BOOT_CTRL.PREF 0 0 16).fld BOOT_STATUS.TABBY 0 0 ≠ 1
    ∧ ({ atStage 3 with maxBefore := 5 } : State).maxBefore = 5 ∧ linked.tabnex.isSome = true := by decide +kernel
theorem wit_FlashAndOtp_flash : tabby.flashOp = none ∧ tabby.fld BOOT_FLASH_ADDR.ADDR 0 0 % 65536 = 0 ∧ tabby.fld BOOT_STATUS.TABBY 0 0 ≠ 0
    ∧ State.reset.fld BOOT_STATUS.TABBY 0 0 = 0 ∧ State.reset.fld BOOT_FLASH_ADDR.SEL 0 0 = State.reset.fld BOOT_STATUS.IMAGE 0 0
    ∧ (tabby.setFld BOOT_FLASH_ADDR.ADDR 0 0 1).fld BOOT_FLASH_ADDR.ADDR 0 0 % 256 ≠ 0
    ∧ ({ tabby with flashOp := some ⟨1, 0, 0, []⟩ }).flashOp = some ⟨1, 0, 0, []⟩
    ∧ ({ tabby with flashOp := some ⟨2, 0, 256, [7]⟩ }).flashOp = some ⟨2, 0, 256, [7]⟩ := by decide +kernel
theorem wit_FlashAndOtp_otp : field.otpOp = none ∧ field.fld SEC_LIFECYCLE.STATE 0 0 ≠ 3 ∧ field.fld SEC_LIFECYCLE.STATE 0 0 ≠ 0
    ∧ [1, 2, 3, 4].find? (fun g => field.genMark g = 0) = some 1 ∧ field.otpStaged.getD 0x3F 0 = 0
    ∧ State.reset.fld SEC_LIFECYCLE.STATE 0 0 = 0 ∧ (State.reset.setFld SEC_LIFECYCLE.STATE 0 0 3).fld SEC_LIFECYCLE.STATE 0 0 = 3
    ∧ ({ field with otpOp := some (1, [1]) }).otpOp = some (1, [1]) := by decide +kernel
/-- One and a half of FP32, the least A24 above 0, and the least FP64 below 0. -/
theorem wit_FormatsRoundTrip : 0x3FC00000 < 2 ^ (Fmt.fp32.eb + Fmt.fp32.fb + 1)
    ∧ (∃ d, Fmt.fp32.decode 0x3FC00000 = .fin false d) ∧ (∃ d, Fmt.a24.decode 1 = .fin false d) ∧ (∃ d, Fmt.fp64.decode (2 ^ 63 + 1) = .fin true d)
    ∧ (∃ d, Fmt.bf16.decode 0x8000 = .fin true d) := ⟨by decide, ⟨_, rfl⟩, ⟨_, rfl⟩, ⟨_, rfl⟩, ⟨_, rfl⟩⟩

end Sys2Proof.Tests
end

section
/-! SUPPORT. The register store: what a register and each of its bits read as after a write, and that nothing else changes (R8, R11, R13). -/

namespace Sys2Proof.Machine
open Sys2Proof

/-! ### The registers and their keys -/

theorem RegName.ctorIdx_injective {r r' : RegName} (h : r.ctorIdx = r'.ctorIdx) : r = r' := by
  rw [← RegName.ofNat_ctorIdx r, h, RegName.ofNat_ctorIdx]

/-- A register is of 32 or of 64 bits (R11). -/
theorem RegName.info_width (r : RegName) : r.info.width = 32 ∨ r.info.width = 64 := by
  cases r <;> decide

theorem RegName.info_width_le (r : RegName) : r.info.width ≤ 64 := by
  have := r.info_width
  omega

/-- Different elements of the register map lie at different keys of the store. -/
theorem regKey_ne {r r' : RegName} {i j i' j' : Nat} (hi : i < 2 ^ 20) (hj : j < 2 ^ 20) (hi' : i' < 2 ^ 20) (hj' : j' < 2 ^ 20)
    (h : (r', i', j') ≠ (r, i, j)) : regKey r' i' j' ≠ regKey r i j := by
  intro hk
  obtain ⟨hr, rfl, rfl⟩ := regKey_inj hi' hj' hi hj hk
  exact h (by rw [RegName.ctorIdx_injective hr])

/-! ### Reading after a write -/

/-- A write of one key leaves every other one, whatever an unlisted key reads as there. -/
theorem SMap.get_set_of_ne {α : Type} [DecidableEq α] (d d' : α) (m : SMap α) {k j : Nat} (v : α) (h : j ≠ k) :
    SMap.get d' (SMap.set d m k v) j = SMap.get d' m j := by
  unfold SMap.set
  split
  · rw [SMap.get_erase, if_neg h]
  · rw [SMap.get_insert _ _ _ _ _ (fun c hc => (SMap.mem_erase.mp hc).2), if_neg h, SMap.get_erase, if_neg h]

@[simp] theorem reg_setReg_same (s : State) (r : RegName) (i j v : Nat) : (s.setReg r i j v).reg r i j = v % 2 ^ r.info.width := by
  have hlt : v % 2 ^ r.info.width < 2 ^ 64 :=
    Nat.lt_of_lt_of_le (Nat.mod_lt _ (Nat.two_pow_pos _)) (Nat.pow_le_pow_right (by decide) r.info_width_le)
  simp only [State.reg, State.setReg, SMap.get_set, if_true, BitVec.toNat_ofNat, Nat.mod_eq_of_lt hlt]

theorem reg_setReg_of_ne (s : State) {r r' : RegName} {i j i' j' : Nat} (v : Nat) (hi : i < 2 ^ 20) (hj : j < 2 ^ 20) (hi' : i' < 2 ^ 20)
    (hj' : j' < 2 ^ 20) (h : (r', i', j') ≠ (r, i, j)) : (s.setReg r i j v).reg r' i' j' = s.reg r' i' j' := by
  rw [State.reg, State.setReg, SMap.get_set_of_ne _ _ _ _ (regKey_ne hi hj hi' hj' h), State.reg]

/-- A register write changes the register store and nothing else. -/
theorem setReg_regs_only (s : State) (r : RegName) (i j v : Nat) : s.setReg r i j v = { s with regs := (s.setReg r i j v).regs } := rfl

/-- At reset a register holds the reset value of its field table. -/
theorem reg_reset (r : RegName) (i j : Nat) : State.reset.reg r i j = r.info.reset % 2 ^ 64 := by
  have hget : SMap.get r.resetWord State.reset.regs (regKey r i j) = r.resetWord := rfl
  rw [State.reg, hget, RegName.resetWord, BitVec.toNat_ofNat]

/-! ### The bits of a write -/

theorem bit_eq_testBit (x k : Nat) : bit x k = x.testBit k := by
  rw [bit, Nat.testBit_eq_decide_div_mod_eq]

theorem bit_mod_two_pow {k w : Nat} (x : Nat) (h : k < w) : bit (x % 2 ^ w) k = bit x k := by
  simp [bit_eq_testBit, Nat.testBit_mod_two_pow, h]

/-- Bit by bit, what a write of a register makes of its old contents (R8, R13). -/
theorem bit_written (r : RegName) (old v : Nat) {k : Nat} (hk : k < 64) :
    bit (r.written old v) k =
      if bit r.info.w1c k && bit v k then false else if bit r.info.rw k then bit v k else bit old k := by
  simp only [bit_eq_testBit, RegName.written, BitVec.testBit_toNat, BitVec.getLsbD_and, BitVec.getLsbD_or, BitVec.getLsbD_not,
    BitVec.getLsbD_ofNat, hk, decide_true, Bool.true_and]
  cases r.info.w1c.testBit k <;> cases r.info.rw.testBit k <;> cases v.testBit k <;> simp

theorem bit_reg_writeMasked (s : State) (r : RegName) (i j v : Nat) {k : Nat} (hk : k < r.info.width) :
    bit ((s.writeMasked r i j v).reg r i j) k =
      if bit r.info.w1c k && bit v k then false else if bit r.info.rw k then bit v k else bit (s.reg r i j) k := by
  rw [State.writeMasked, reg_setReg_same, bit_mod_two_pow _ hk, bit_written r _ v (Nat.lt_of_lt_of_le hk r.info_width_le)]

/-! ### The obligations -/

/-- Settles O6: a write of a register is a write of one key of the store, and different elements have different keys. -/
theorem registerWriteRead : Obligations.RegisterWriteRead := by
  unfold Obligations.RegisterWriteRead
  intro s r i j v hi hj hs
  refine ⟨reg_setReg_same s r i j v, ?_, ?_⟩
  · exact fun r' i' j' hi' hj' h => reg_setReg_of_ne s v hi hj hi' hj' h
  · exact ⟨_, setReg_regs_only s r i j v, setReg_rising hs r i j v⟩

/-- Settles O7: the masks of `RegName.written` act bit by bit, and what is written goes to one element of the store. -/
theorem reservedBitsDiscarded : Obligations.ReservedBitsDiscarded := by
  unfold Obligations.ReservedBitsDiscarded
  intro s r i j v hi hj _
  refine ⟨fun k hk => bit_reg_writeMasked s r i j v hk, ?_, ?_⟩
  · exact fun r' i' j' hi' hj' h => reg_setReg_of_ne s _ hi hj hi' hj' h
  · exact ⟨_, setReg_regs_only s r i j _⟩

theorem reset_memWf : State.reset.MemWf := by
  simp [State.MemWf, State.reset, SMap.Wf, SMap.Rising]

/-- Settles O3: the register store of the reset state lists nothing, so that every register reads as its reset value. -/
theorem resetState : Obligations.ResetState := by
  unfold Obligations.ResetState
  refine ⟨rfl, reg_reset, ?_, ?_, reset_memWf⟩
  · rw [reg_reset]; decide
  · rw [State.fld, reg_reset]; decide

end Sys2Proof.Machine
end

section
/-! SUPPORT. What an access through a BAR reaches, and what a write and a read of a register's halves do there (R12, R14, R17, R371). -/

namespace Sys2Proof.Machine
open Sys2Proof

/-! ### What a tenant access reaches -/

/-- In tabby mode no tenant function exists (R430). -/
theorem viaTenant_tabby {s : State} (bar : Bar) (f : Nat → Nat → State) (h : s.fld BOOT_STATUS.TABBY 0 0 = 1) : s.viaTenant bar f = s :=
  if_pos h

theorem viaTenant_operator (s : State) (f : Nat → Nat → State) : s.viaTenant .operator f = s := by
  simp [State.viaTenant]

/-- The condition under which an access goes on is the one of R371's refusal, turned round. -/
theorem ideRefuses_eq_not (s : State) (p : Nat) (ide : Bool) :
    s.ideRefuses p ide = !(ide || s.fld PART_ASSIGN.STATE p 0 ≠ 2 || s.ideWaived.contains p) := by
  simp [State.ideRefuses]

/-- An access outside the stream that a partition requires counts in SEC_IDE_REFUSED and raises alarm class 0x1D (R371). -/
theorem viaTenant_tenant_refused {s : State} {p : Fin 8} {ide : Bool} (f : Nat → Nat → State) (ht : s.fld BOOT_STATUS.TABBY 0 0 ≠ 1)
    (h : s.ideRefuses p.val ide = true) : s.viaTenant (.tenant p ide) f = (s.bump .SEC_IDE_REFUSED 0 0 1).alarm 0x1D := by
  rw [ideRefuses_eq_not, Bool.not_eq_true'] at h
  simp only [State.viaTenant, if_neg ht, h, Bool.false_eq_true, if_false]

theorem viaTenant_virtual_refused {s : State} {p : Fin 8} {ide : Bool} (v : Fin 16) (f : Nat → Nat → State)
    (ht : s.fld BOOT_STATUS.TABBY 0 0 ≠ 1) (h : s.ideRefuses p.val ide = true) :
    s.viaTenant (.virtual p v ide) f = (s.bump .SEC_IDE_REFUSED 0 0 1).alarm 0x1D := by
  rw [ideRefuses_eq_not, Bool.not_eq_true'] at h
  simp only [State.viaTenant, if_neg ht, h, Bool.false_eq_true, if_false]

/-! ### The place that an access reaches -/

theorem placeOf_operator (s : State) (off : Nat) :
    s.placeOf .operator off = if s.operatorSees off then (operatorAt off).map (fun x => (8, x)) else none := rfl

/-- Through a tenant BAR an access reaches what its function sees of its partition's registers (R16, R17). -/
theorem placeOf_tenant {s : State} {bar : Bar} (hbar : bar ≠ .operator) (off : Nat) :
    s.placeOf bar off = (s.function bar).bind (fun y => (tenantAt y.1 off).bind
      (fun x => if s.tenantSees y.1 y.2 x.reg x.i x.j then some (y.1, x) else none)) := by
  cases bar with
  | operator => exact absurd rfl hbar
  | tenant _ _ | virtual _ _ _ =>
    simp only [State.placeOf]
    split
    · next hf => rw [hf, Option.bind_none]
    · next p n hf =>
      rw [hf, Option.bind_some]
      cases tenantAt p off <;> rfl

theorem atPlace_operator (s : State) (off : Nat) (d : State) (f : Nat → RegPlace → State) :
    s.atPlace .operator off d f = (s.placeOf .operator off).elim d (fun y => f y.1 y.2) := by
  simp only [State.atPlace, placeOf_operator]
  cases s.operatorSees off <;> cases operatorAt off <;> rfl

theorem atPlace_tenant {s : State} {bar : Bar} (hbar : bar ≠ .operator) (off : Nat) (d : State) (f : Nat → RegPlace → State) :
    s.atPlace bar off d f = s.viaTenant bar (fun p n => (tenantAt p off).elim d
      (fun x => if s.tenantSees p n x.reg x.i x.j then f p x else d)) := by
  have hseen : (fun p n => (tenantAt p off).elim d (fun x => if s.tenantSees p n x.reg x.i x.j then f p x else d))
      = fun p n => match tenantAt p off with
        | some x => if s.tenantSees p n x.reg x.i x.j then f p x else d
        | none => d := by
    funext p n
    cases tenantAt p off <;> rfl
  rw [hseen]
  cases bar with
  | operator => exact absurd rfl hbar
  | tenant _ _ | virtual _ _ _ => rfl

/-- Through a BAR that acts for a function, an access acts on the place it reaches. -/
theorem atPlace_function {s : State} {bar : Bar} {p n : Nat} (hbar : bar ≠ .operator) (h : s.function bar = some (p, n)) (off : Nat)
    (d : State) (f : Nat → RegPlace → State) : s.atPlace bar off d f = (s.placeOf bar off).elim d (fun y => f y.1 y.2) := by
  rw [atPlace_tenant hbar, viaTenant_some h, placeOf_tenant hbar, h, Option.bind_some]
  cases tenantAt p off with
  | none => rfl
  | some x => cases hsees : s.tenantSees p n x.reg x.i x.j <;> simp [hsees]

/-- An access that reaches a place acts on it. -/
theorem atPlace_of_placeOf {s : State} {bar : Bar} {off p : Nat} {x : RegPlace} (h : s.placeOf bar off = some (p, x)) (d : State)
    (f : Nat → RegPlace → State) : s.atPlace bar off d f = f p x := by
  by_cases hbar : bar = .operator
  · subst hbar
    rw [atPlace_operator, h, Option.elim_some]
  · cases hf : s.function bar with
    | none => simp [placeOf_tenant hbar, hf] at h
    | some y => rw [atPlace_function hbar hf, h, Option.elim_some]

/-- An access that no rule refuses and that reaches no place changes nothing (R14, R430). -/
theorem atPlace_eq_self_of_placeOf {s : State} {bar : Bar} {off : Nat}
    (hreach : bar = .operator ∨ (s.function bar).isSome = true ∨ s.fld BOOT_STATUS.TABBY 0 0 = 1) (h : s.placeOf bar off = none)
    (f : Nat → RegPlace → State) : s.atPlace bar off s f = s := by
  by_cases hbar : bar = .operator
  · subst hbar
    rw [atPlace_operator, h, Option.elim_none]
  · rcases hreach with hop | hfun | ht
    · exact absurd hop hbar
    · obtain ⟨y, hf⟩ := Option.isSome_iff_exists.mp hfun
      rw [atPlace_function hbar hf, h, Option.elim_none]
    · rw [atPlace_tenant hbar, viaTenant_tabby bar _ ht]

/-! ### The commands -/

theorem exec_registerWrite_narrow (bar : Bar) (off : BitVec 23) (v : W64) (s : State) :
    exec (.registerWrite bar off false v) s = .next (s.write32 bar off.toNat (v.toNat % 2 ^ 32)) := rfl

theorem exec_registerWrite_wide (bar : Bar) (off : BitVec 23) (v : W64) (s : State) :
    exec (.registerWrite bar off true v) s = .next (s.write64 bar off.toNat v.toNat) := rfl

theorem exec_splitWriteLow (bar : Bar) (off : BitVec 23) (v : W32) (s : State) :
    exec (.splitWriteLow bar off v) s = .next (s.write32 bar off.toNat v.toNat) := rfl

theorem exec_splitWriteHigh (bar : Bar) (off : BitVec 23) (v : W32) (s : State) :
    exec (.splitWriteHigh bar off v) s = .next (s.write32 bar (off.toNat + 4) v.toNat) := rfl

/-- A read that puts nothing out answers zero. -/
theorem exec_splitReadLow {bar : Bar} {off : BitVec 23} {s t : State} (hal : off.toNat % 4 = 0)
    (ht : s.atPlace bar off.toNat s (fun _ x => s.readHalf x) = t) :
    exec (.splitReadLow bar off) s = .next (if t.outs.length = s.outs.length then t.emit (.read 0) else t) := by
  subst ht
  have harm : exec (.splitReadLow bar off) s = execSplitReadLow bar off s := rfl
  rw [harm, execSplitReadLow, if_neg (Decidable.not_not.mpr hal)]

/-! ### Writes -/

theorem write32_of_placeOf {s : State} {bar : Bar} {off p : Nat} {x : RegPlace} (hal : off % 4 = 0) (h : s.placeOf bar off = some (p, x))
    (v : Nat) : s.write32 bar off v = s.writeHalf p x v := by
  rw [State.write32, if_neg (Decidable.not_not.mpr hal), atPlace_of_placeOf h]

theorem write32_eq_self_of_atPlace {s : State} {bar : Bar} {off : Nat}
    (h : ∀ f, s.atPlace bar off s f = s) (v : Nat) : s.write32 bar off v = s := by
  rw [State.write32, h, ite_self]

theorem write64_of_placeOf {s : State} {bar : Bar} {off p : Nat} {x : RegPlace} (hal : off % 8 = 0) (hw : wideAt bar off = true)
    (h : s.placeOf bar off = some (p, x)) (v : Nat) : s.write64 bar off v = s.writeReg p x.reg x.i x.j v := by
  rw [State.write64, if_neg (Decidable.not_not.mpr hal), if_pos hw, atPlace_of_placeOf h]

/-- A 64-bit write both of whose halves reach nothing does nothing. -/
theorem write64_eq_self_of_atPlace {s : State} {bar : Bar} {off : Nat} (hlo : ∀ f, s.atPlace bar off s f = s)
    (hhi : ∀ f, s.atPlace bar (off + 4) s f = s) (v : Nat) : s.write64 bar off v = s := by
  rw [State.write64, hlo, write32_eq_self_of_atPlace hlo, write32_eq_self_of_atPlace hhi, ite_self, ite_self]

theorem writeHalf_narrow {x : RegPlace} (hw : x.reg.info.width = 32) (s : State) (p v : Nat) :
    s.writeHalf p x v = s.writeReg p x.reg x.i x.j v := if_pos hw

/-- The low half of a 64-bit register is held, and changes nothing else (R12). -/
theorem writeHalf_low {x : RegPlace} (hw : x.reg.info.width = 64) (hb : x.byte = 0) (s : State) (p : Nat) (v : W32) :
    s.writeHalf p x v.toNat = { s with heldLow := SMap.put s.heldLow (regKey x.reg x.i x.j) v } := by
  simp [State.writeHalf, hw, hb]

/-- The high half of a 64-bit register applies both halves (R12). -/
theorem writeHalf_high {x : RegPlace} (hw : x.reg.info.width = 64) (hb : x.byte = 4) (s : State) (p : Nat) (v : W32) :
    s.writeHalf p x v.toNat = { s with heldLow := SMap.erase s.heldLow (regKey x.reg x.i x.j) }.writeReg p x.reg x.i x.j
      (v.toNat * 2 ^ 32 + (SMap.find s.heldLow (regKey x.reg x.i x.j)).elim (s.reg x.reg x.i x.j % 2 ^ 32) BitVec.toNat) := by
  simp only [State.writeHalf, hw, hb, Nat.mod_eq_of_lt v.isLt]
  cases SMap.find s.heldLow (regKey x.reg x.i x.j) <;> rfl

/-- Outside the table switches a write that has no command in it stores the register's defined fields (R8). -/
theorem writeReg_plain {s : State} {p : Nat} {r : RegName} {i j v : Nat} (hr : r ≠ .TBL_SWITCH_CTRL)
    (h : (if p = 8 then s.writeOperator r i j v else s.writeTenant p r i j v) = none) :
    s.writeReg p r i j v = s.writeMasked r i j v := by
  rw [State.writeReg, if_neg hr, h, Option.getD_none]

/-! ### Reads -/

/-- A read of the low half of a 64-bit register answers it and latches the high half (R12). -/
theorem readHalf_low {x : RegPlace} (hw : x.reg.info.width = 64) (hb : x.byte = 0) (s : State) :
    s.readHalf x =
      { s with latchedHigh := SMap.put s.latchedHigh (regKey x.reg x.i x.j) (BitVec.ofNat 32 (s.readReg x.reg x.i x.j / 2 ^ 32)) }.emit
        (.read (s.readReg x.reg x.i x.j % 2 ^ 32)) := by
  simp only [State.readHalf, hw, hb]
  rfl

/-! ### The obligations -/

/-- Settles O8: an access that reaches no place leaves the state, so that a read puts nothing out and answers zero. -/
theorem undefinedOffsets : Obligations.UndefinedOffsets := by
  unfold Obligations.UndefinedOffsets
  intro s bar off hreach hal hnone
  have hlo : ∀ f, s.atPlace bar off.toNat s f = s := atPlace_eq_self_of_placeOf hreach hnone
  refine ⟨fun v => ?_, fun v _ hnone' => ?_, fun v => ?_, ?_⟩
  · rw [exec_registerWrite_narrow, write32_eq_self_of_atPlace hlo]
  · rw [exec_registerWrite_wide, write64_eq_self_of_atPlace hlo (atPlace_eq_self_of_placeOf hreach hnone')]
  · rw [exec_splitWriteLow, write32_eq_self_of_atPlace hlo]
  · rw [exec_splitReadLow hal (hlo _), if_pos rfl]

/-- The operator's write at an offset of no register does nothing (R14). -/
theorem write32_operatorAt_none {off : Nat} (h : operatorAt off = none) (s : State) (v : Nat) : s.write32 .operator off v = s := by
  refine write32_eq_self_of_atPlace (atPlace_eq_self_of_placeOf (.inl rfl) ?_) v
  rw [placeOf_operator, h, Option.map_none, ite_self]

/-- A read of a low half puts one answer out, so that no zero is answered in its place. -/
theorem exec_splitReadLow_low {s : State} {bar : Bar} {off : BitVec 23} {p : Nat} {x : RegPlace} (hal : off.toNat % 4 = 0)
    (h : s.placeOf bar off.toNat = some (p, x)) (hw : x.reg.info.width = 64) (hb : x.byte = 0) :
    exec (.splitReadLow bar off) s = .next (s.readHalf x) := by
  have hout : (s.readHalf x).outs.length ≠ s.outs.length := by
    rw [readHalf_low hw hb]
    simp [State.emit]
  rw [exec_splitReadLow hal (atPlace_of_placeOf h s _), if_neg hout]

/-- Settles O9, clause by clause: writes at a place, plain writes, the halves, and what a tenant access reaches. -/
theorem registerAccess : Obligations.RegisterAccess := by
  unfold Obligations.RegisterAccess
  refine ⟨⟨?narrow, ?wide, ?nowhere, ?plainOperator, ?plainTenant⟩, ⟨?low, ?high, ?read⟩, ?tenant⟩
  case narrow =>
    intro s bar off v p x hal h hw
    rw [exec_registerWrite_narrow, write32_of_placeOf hal h, writeHalf_narrow hw]
  case wide =>
    intro s bar off v p x hal h _ hwide
    rw [exec_registerWrite_wide, write64_of_placeOf hal hwide h]
  case nowhere =>
    intro s off v h
    rw [exec_registerWrite_narrow, write32_operatorAt_none h]
  case plainOperator =>
    intro s r i j v hr h
    exact writeReg_plain hr (by rw [if_pos rfl, h])
  case plainTenant =>
    intro s p r i j v hp hr h
    exact writeReg_plain hr (by rw [if_neg (Nat.ne_of_lt hp), h])
  case low =>
    intro s bar off v p x hal h hw hb
    rw [exec_splitWriteLow, write32_of_placeOf hal h, writeHalf_low hw hb]
  case high =>
    intro s bar off v p x hal h hw hb
    have hal' : (off.toNat + 4) % 4 = 0 := by omega
    rw [exec_splitWriteHigh, write32_of_placeOf hal' h, writeHalf_high hw hb]
    exact ⟨fun w hheld => by rw [hheld, Option.elim_some], fun hheld => by rw [hheld, Option.elim_none]⟩
  case read =>
    intro s bar off p x hal h hw hb
    rw [exec_splitReadLow_low hal h hw hb, readHalf_low hw hb]
  case tenant =>
    intro s bar f
    refine ⟨fun p n h => viaTenant_some h, viaTenant_tabby bar f, ?_, fun p ide ht h => ?_⟩
    · rintro rfl
      exact viaTenant_operator s f
    · exact ⟨viaTenant_tenant_refused f ht h, fun v => viaTenant_virtual_refused v f ht h⟩

end Sys2Proof.Machine
end

section
/-! SUPPORT. The converter's fault record, reference norms, the end of a widening copy, requests for a profile, roles and clock limits, and
the forcing by heat (R32, R36 to R40, R97, R118, R119, R123, R130, R348, R421). -/

namespace Sys2Proof.Machine
open Sys2Proof

/-! ### The fault record and the reference norms -/

theorem exec_cnvFaultClear {s : State} {bar : Bar} {p : Nat} (v : W32) (h : s.function bar = some (p, 0)) :
    exec (.cnvFaultClear bar v) s = .next (if bit v.toNat 31 then s.setReg .CNV_LAST_FAULT p 0 0 else s) :=
  congrArg Host.Outcome.next (viaPhysical_some h)

theorem exec_tenReferenceWrite {s : State} {bar : Bar} {p : Nat} (layer : Fin 4096) (grad : Bool) (v : W32)
    (h : s.function bar = some (p, 0)) :
    exec (.tenReferenceWrite bar layer grad v) s = .next (s.writeReference p layer.val grad v.toNat) :=
  congrArg Host.Outcome.next (viaPhysical_some h)

theorem writeReference_seen {s : State} {p layer : Nat} (grad : Bool) (v : Nat) (h : s.layerSeen p layer = true) :
    s.writeReference p layer grad v = s.setReg (if grad then .TEN_LAYER_GREF else .TEN_LAYER_FREF) p layer
      (if (Fmt.fp32.decode v).nonFinite || (Fmt.fp32.decode v).sign then 0 else v) :=
  if_pos h

/-- A layer of no context of the partition is not there (R119). -/
theorem writeReference_unseen {s : State} {p layer : Nat} (grad : Bool) (v : Nat) (h : s.layerSeen p layer = false) :
    s.writeReference p layer grad v = s :=
  if_neg (Bool.eq_false_iff.mp h)

/-! ### The end of a widening copy -/

/-- A layer is marked wide, counted and announced (R123). -/
def State.markWide (s : State) (w : WideArea) : State :=
  (((s.setFld TEN_LAYER_STATE.WIDE w.part w.layer 1).setFld TEN_LAYER_STATE.WIDE_PENDING w.part w.layer 0).bump .TEN_FWD_WIDEN w.part 0 1).alarm 0x22

theorem widened_of_unionPending {s : State} {w : WideArea} (h : (s.markWide w).unionPending w.part w.ctx w.layer = true) :
    s.widened w = (s.markWide w).followWide w.part w.ctx (w.layer :: ((s.markWide w).stepOf w.part w.ctx).committedWide) :=
  if_pos h

/-- A widening decided since the last commit waits for its own (R116, R117). -/
theorem widened_of_decidedSince {s : State} {w : WideArea} (h : (s.markWide w).unionPending w.part w.ctx w.layer = false) :
    s.widened w = s.markWide w :=
  if_neg (Bool.eq_false_iff.mp h)

/-- What a widening comes to once its copy has been packed with a status: the layer is wide, stays pending, or vetoes the step (R54, R123, R304). -/
def State.packedWide (s : State) (w : WideArea) : Status → State
  | .ok => s.widened w
  | .illegal => s
  | _ => s.vetoStep w.part w.ctx 4

theorem packedWide_failed {s : State} {w : WideArea} {st : Status} (hok : st ≠ .ok) (hill : st ≠ .illegal) :
    s.packedWide w st = s.vetoStep w.part w.ctx 4 := by
  cases st with
  | ok => exact absurd rfl hok
  | illegal => exact absurd rfl hill
  | _ => rfl

section
variable {s : State} {p : Fin 8} {layer : Fin 4096} {w : WideArea}
  (hw : s.wideAreas.find? (fun w => w.part = p.val && w.layer = layer.val && !w.gone) = some w)
include hw

theorem exec_widenCopyComplete_notPending (hp : s.fld TEN_LAYER_STATE.WIDE_PENDING p.val layer.val = 0) :
    exec (.widenCopyComplete p layer) s = .next s := by
  change execWidenCopyComplete p layer s = _
  simp only [execWidenCopyComplete, hw, if_pos hp]

theorem exec_widenCopyComplete_sensitive (hp : s.fld TEN_LAYER_STATE.WIDE_PENDING p.val layer.val = 1)
    (hs : s.fld TEN_LAYER_CFG.SENSITIVE p.val layer.val = 1) :
    exec (.widenCopyComplete p layer) s = .next
      ((s.setFld TEN_LAYER_STATE.WIDE_PENDING p.val layer.val 0).releaseWide w.part w.ctx w.layer false) := by
  have hp' : s.fld TEN_LAYER_STATE.WIDE_PENDING p.val layer.val ≠ 0 := by omega
  change execWidenCopyComplete p layer s = _
  simp only [execWidenCopyComplete, hw, if_neg hp', if_pos hs]

theorem exec_widenCopyComplete_packs (hp : s.fld TEN_LAYER_STATE.WIDE_PENDING p.val layer.val = 1)
    (hs : s.fld TEN_LAYER_CFG.SENSITIVE p.val layer.val = 0) :
    exec (.widenCopyComplete p layer) s = .next ((s.packWide w).2.packedWide w (s.packWide w).1) := by
  have hp' : s.fld TEN_LAYER_STATE.WIDE_PENDING p.val layer.val ≠ 0 := by omega
  have hs' : s.fld TEN_LAYER_CFG.SENSITIVE p.val layer.val ≠ 1 := by omega
  change execWidenCopyComplete p layer s = _
  simp only [execWidenCopyComplete, hw, if_neg hp', if_neg hs']
  obtain ⟨st, t⟩ := s.packWide w
  cases st <;> rfl

end

/-! ### Requests for a profile -/

theorem writeProfile_reserved (s : State) {v : Nat} (h : 3 < v % 8) :
    s.writeProfile v = (s.traceVote .DEV_PROFILE 0 v).profileResult 1 :=
  if_pos h

theorem writeProfile_roleMissing {s : State} {v : Nat} (hm : v % 8 = 2) (hb : (s.traceVote .DEV_PROFILE 0 v).bothRoles = false) :
    s.writeProfile v = (s.traceVote .DEV_PROFILE 0 v).profileResult 3 :=
  (if_neg (by omega)).trans (if_pos (by simp [hm, hb]))

theorem writeProfile_taken {s : State} {v : Nat} (hm : v % 8 ≤ 3)
    (hb : v % 8 ≠ 2 ∨ (s.traceVote .DEV_PROFILE 0 v).bothRoles = true) :
    s.writeProfile v = ((s.traceVote .DEV_PROFILE 0 v).setFld DEV_PROFILE.MODE 0 0 (v % 8)).requestChange :=
  (if_neg (by omega)).trans (if_neg (by rcases hb with h | h <;> simp [h]))

/-- Settles O11: the four commands one by one, each by the lemmas that say what it does. -/
theorem tensionCommands : Obligations.TensionCommands := by
  unfold Obligations.TensionCommands
  refine ⟨?faultClear, ?reference, ?widening, ?profile⟩
  case faultClear =>
    intro s bar p v h
    rw [exec_cnvFaultClear v h]
    exact ⟨fun hv => by rw [if_pos hv], fun hv => by rw [if_neg (Bool.eq_false_iff.mp hv)]⟩
  case reference =>
    intro s bar p layer grad v h
    rw [exec_tenReferenceWrite layer grad v h]
    exact ⟨fun hl => by rw [writeReference_seen grad _ hl], fun hl => by rw [writeReference_unseen grad _ hl]⟩
  case widening =>
    intro s p layer w hw
    refine ⟨fun hp hs => ?_, exec_widenCopyComplete_sensitive hw, exec_widenCopyComplete_notPending hw⟩
    rw [exec_widenCopyComplete_packs hw hp hs]
    refine ⟨fun hok hu => ?_, fun hok hu => ?_, fun hill => ?_, fun hok hill => ?_⟩
    · rw [hok]
      exact congrArg _ (widened_of_decidedSince hu)
    · rw [hok]
      exact congrArg _ (widened_of_unionPending hu)
    · rw [hill, State.packedWide]
    · rw [packedWide_failed hok hill]
  case profile =>
    intro s v
    exact ⟨fun h => congrArg _ (writeProfile_reserved s h), fun hm hb => congrArg _ (writeProfile_roleMissing hm hb),
      fun hm hb => congrArg _ (writeProfile_taken hm hb)⟩

/-! ### Roles and clock limits -/

theorem writeRole_stored {s : State} {p v : Nat} (h : (s.traceVote .PART_ROLE p v).fld DEV_PROFILE_STATUS.CURRENT 0 0 ≠ 2) :
    s.writeRole p v = (s.traceVote .PART_ROLE p v).setFld PART_ROLE.ROLE p 0 v :=
  if_pos h

theorem writeRole_requested {s : State} {p v : Nat} (h : (s.traceVote .PART_ROLE p v).fld DEV_PROFILE_STATUS.CURRENT 0 0 = 2)
    (hb : ((s.traceVote .PART_ROLE p v).setFld PART_ROLE.ROLE p 0 v).bothRoles = true) :
    s.writeRole p v = (((s.traceVote .PART_ROLE p v).setFld PART_ROLE.ROLE p 0 v).setFld DEV_PROFILE.MODE 0 0 2).requestChange :=
  (if_neg (not_not_intro h)).trans (if_pos hb)

theorem writeRole_refused {s : State} {p v : Nat} (h : (s.traceVote .PART_ROLE p v).fld DEV_PROFILE_STATUS.CURRENT 0 0 = 2)
    (hb : ((s.traceVote .PART_ROLE p v).setFld PART_ROLE.ROLE p 0 v).bothRoles = false) :
    s.writeRole p v = (s.traceVote .PART_ROLE p v).profileResult 3 :=
  (if_neg (not_not_intro h)).trans (if_neg (Bool.eq_false_iff.mp hb))

theorem writeLimit_taken (s : State) (p : Nat) {v : Nat} (hlo : 1200 ≤ v % 4096) (hhi : v % 4096 ≤ 2200) (hstep : v % 4096 % 100 = 0) :
    s.writeLimit p v = (s.traceVote .PART_CLOCK_LIMIT p v).setFld PART_CLOCK_LIMIT.LIMIT_MHZ p 0 (v % 4096) :=
  if_pos (by simp only [hlo, hhi, hstep, decide_true, Bool.and_true])

theorem writeLimit_ignored (s : State) (p : Nat) {v : Nat} (h : v % 4096 < 1200 ∨ 2200 < v % 4096 ∨ v % 4096 % 100 ≠ 0) :
    s.writeLimit p v = s.traceVote .PART_CLOCK_LIMIT p v :=
  if_neg (by simp only [Bool.and_eq_true, decide_eq_true_eq]; omega)

/-! ### Heat -/

theorem exec_thermalForce (s : State) : exec .thermalForce s = .next
    (if bit (s.fld DEV_PROFILE_STATUS.FORCE_CAUSE 0 0) 1 then { s with coolSince := none }.forceClock 2
      else ({ s with coolSince := none }.forceClock 2).alarm 0x02) := rfl

theorem exec_junctionTemperature (t : BitVec 8) (s : State) : exec (.junctionTemperature t) s = .next
    ({ s.now.2 with junction := t.toNat,
                    coolSince := if t.toNat ≤ 95 then some (s.coolSince.getD s.now.1) else none } : State).riskFollow := rfl

/-- Settles O12: roles, limits and the end of a clock change by the cases of their writes; heat by the two questions that the commands ask. -/
theorem rolesClocksAndHeat : Obligations.RolesClocksAndHeat := by
  unfold Obligations.RolesClocksAndHeat
  refine ⟨⟨?role, ?limit, fun _ _ => rfl⟩, ?newCause, ?oldCause, ?hot, ?cool⟩
  case role =>
    intro s p v
    exact ⟨fun h => congrArg _ (writeRole_stored h), fun h hb => congrArg _ (writeRole_requested h hb),
      fun h hb => congrArg _ (writeRole_refused h hb)⟩
  case limit =>
    intro s p v
    exact ⟨fun hlo hhi hstep => congrArg _ (writeLimit_taken s p hlo hhi hstep), fun h => congrArg _ (writeLimit_ignored s p h)⟩
  case newCause =>
    intro s h
    rw [exec_thermalForce, if_neg (Bool.eq_false_iff.mp h)]
  case oldCause =>
    intro s h
    rw [exec_thermalForce, if_pos h]
  case hot =>
    intro s t h
    rw [exec_junctionTemperature, if_neg (Nat.not_le.mpr h)]
  case cool =>
    intro s t h
    rw [exec_junctionTemperature, if_pos h]

end Sys2Proof.Machine
end

section
/-! SUPPORT. The watchdogs (R385 to R388, R390), the ends of engine and partition resets (R389, R391), and the replay of suspects (R395,
R396). -/

namespace Sys2Proof.Machine
open Sys2Proof

/-! ### The watchdog of a context -/

/-- The condition under which a context's watchdog expires (R385). -/
def State.Hung (s : State) (p c : Nat) : Prop :=
  s.admitted p c = true ∧ s.fld HANG_CTX_CFG.ENABLE p c = 1 ∧ s.hasWork p c = true ∧ s.onlyPicks p c = false

/-- The engine of partition p that replays context c, with its suspect. -/
def State.replayOf (s : State) (p c : Nat) : Option (Nat × Nat) :=
  s.suspects.find? (fun y => y.1 / 48 = p && s.replaying y.1 = some c)

theorem not_hung_iff (s : State) (p c : Nat) :
    (!(s.admitted p c && s.fld HANG_CTX_CFG.ENABLE p c = 1 && s.hasWork p c && !s.onlyPicks p c)) = true ↔ ¬ s.Hung p c := by
  simp only [State.Hung, Bool.not_eq_true', ← Bool.not_eq_true, Bool.and_eq_true, decide_eq_true_eq, and_assoc]

theorem exec_contextWatchdog_idle {s : State} {c : CtxId} (h : ¬ s.Hung c.part.val c.ctx.val) : exec (.contextWatchdog c) s = .next s :=
  congrArg Host.Outcome.next (if_pos ((not_hung_iff ..).mpr h))

theorem exec_contextWatchdog_stops {s : State} {c : CtxId} (h : s.Hung c.part.val c.ctx.val)
    (hr : s.replayOf c.part.val c.ctx.val = none) :
    exec (.contextWatchdog c) s = .next (s.stopCtx c.part.val c.ctx.val).settle := by
  unfold State.replayOf at hr
  change execContextWatchdog c s = _
  simp only [execContextWatchdog, if_neg (mt (not_hung_iff ..).mp (not_not_intro h)), hr, Option.map_none]

/-- A context that hangs while an engine replays it is quarantined (R396). -/
theorem exec_contextWatchdog_quarantines {s : State} {c : CtxId} {n : Nat × Nat} (h : s.Hung c.part.val c.ctx.val)
    (hr : s.replayOf c.part.val c.ctx.val = some n) :
    exec (.contextWatchdog c) s = .next ((s.stopCtx c.part.val c.ctx.val).quarantine n.1 c.ctx.val).settle := by
  unfold State.replayOf at hr
  change execContextWatchdog c s = _
  simp only [execContextWatchdog, if_neg (mt (not_hung_iff ..).mp (not_not_intro h)), hr, Option.map_some]

/-! ### The drain -/

/-- The engines where an instruction of context number k still runs though its program has ended (R386). -/
def State.stillRunning (s : State) (k : Nat) : List Nat :=
  ((s.draining.filter (fun x => x.1 = k)).map (·.2)).filter (fun n =>
    s.unitOps.any (fun o => o.prog / 8 = n && (s.prog o.prog).isNone))

/-- A context's drain is over. -/
def State.endDrain (s : State) (k : Nat) : State := { s with draining := s.draining.filter (fun x => x.1 ≠ k) }

theorem exec_drainExpiry (c : CtxId) (s : State) : exec (.drainExpiry c) s = .next
    ((if s.maxLevel < 2 then s else (s.stillRunning (cidx c.part.val c.ctx.val)).foldl
      (fun s n => s.engineReset (n / 48) (n % 48) 0) s).endDrain (cidx c.part.val c.ctx.val)) := rfl

/-! ### The watchdogs of units, partitions and the management controller -/

section
variable {s : State} {e : EngineId}

theorem exec_unitWatchdog_idle (h : s.maxLevel < 2 ∨ ∀ o ∈ s.unitOps, o.prog / 8 ≠ e.part.val * 48 + e.engine.val) :
    exec (.unitWatchdog e) s = .next s :=
  congrArg Host.Outcome.next (if_pos (by simpa using h))

theorem exec_unitWatchdog_resets (hm : 2 ≤ s.maxLevel) (ho : ∃ o ∈ s.unitOps, o.prog / 8 = e.part.val * 48 + e.engine.val)
    (hr : s.replaying (e.part.val * 48 + e.engine.val) = none) :
    exec (.unitWatchdog e) s = .next (s.engineReset e.part.val e.engine.val 0) := by
  change execUnitWatchdog e s = _
  simp only [execUnitWatchdog, hr]
  exact congrArg _ (if_neg (by simpa [Nat.not_lt.mpr hm] using ho))

theorem exec_unitWatchdog_quarantines {c : Nat} (hm : 2 ≤ s.maxLevel)
    (ho : ∃ o ∈ s.unitOps, o.prog / 8 = e.part.val * 48 + e.engine.val)
    (hr : s.replaying (e.part.val * 48 + e.engine.val) = some c) :
    exec (.unitWatchdog e) s = .next
      (((s.stopCtx e.part.val c).quarantine (e.part.val * 48 + e.engine.val) c).engineReset e.part.val e.engine.val 0) := by
  change execUnitWatchdog e s = _
  simp only [execUnitWatchdog, hr]
  exact congrArg _ (if_neg (by simpa [Nat.not_lt.mpr hm] using ho))

end

theorem exec_progressWatchdog_resets {s : State} {p : Fin 8} (hm : 3 ≤ s.maxLevel)
    (hw : s.treadleWork p.val = true ∨ s.battenWork p.val = true) :
    exec (.progressWatchdog p) s = .next (s.partReset p.val 0) :=
  congrArg Host.Outcome.next (if_pos (by simpa [hm] using hw))

theorem exec_progressWatchdog_idle {s : State} {p : Fin 8}
    (h : s.maxLevel < 3 ∨ (s.treadleWork p.val = false ∧ s.battenWork p.val = false)) :
    exec (.progressWatchdog p) s = .next s := by
  refine congrArg Host.Outcome.next (if_neg ?_)
  rcases h with hm | ⟨ht, hb⟩
  · simp [Nat.not_le.mpr hm]
  · simp [ht, hb]

/-! ### The ends of an engine's reset -/

section
variable {s : State} {e : EngineId}

theorem exec_engineResetEnds_of_notResetting (h : (2, e.part.val * 48 + e.engine.val) ∉ s.resetting) :
    exec (.engineResetComplete e) s = .next s ∧ exec (.engineResetTimeout e) s = .next s :=
  ⟨congrArg Host.Outcome.next (if_neg (by simpa using h)), congrArg Host.Outcome.next (if_pos (by simpa using h))⟩

variable (h : (2, e.part.val * 48 + e.engine.val) ∈ s.resetting)
include h

theorem exec_engineResetComplete : exec (.engineResetComplete e) s = .next
    (({ s with resetting := s.resetting.erase (2, e.part.val * 48 + e.engine.val) } : State).resetBusy.nextReplay
      (e.part.val * 48 + e.engine.val)) :=
  congrArg Host.Outcome.next (if_pos (by simpa using h))

theorem exec_engineResetTimeout_escalates (hm : 3 ≤ s.maxLevel) :
    exec (.engineResetTimeout e) s = .next (s.partReset e.part.val 0) :=
  congrArg Host.Outcome.next ((if_neg (by simpa using h)).trans (if_pos hm))

theorem exec_engineResetTimeout_holds (hm : s.maxLevel < 3) : exec (.engineResetTimeout e) s = .next
    (({ s with resetting := s.resetting.erase (2, e.part.val * 48 + e.engine.val) } : State).resetBusy.setReg .HANG_PART_HELD
      e.part.val 0 (setBits (s.reg .HANG_PART_HELD e.part.val 0) e.engine.val 1 1)) :=
  congrArg Host.Outcome.next ((if_neg (by simpa using h)).trans (if_neg (Nat.not_le.mpr hm)))

end

/-! ### The ends of a partition's reset -/

section
variable {s : State} {p : Fin 8}

theorem exec_partitionResetEnds_of_notResetting (r : Training) (h : (3, p.val) ∉ s.resetting) :
    exec (.partitionResetComplete p r) s = .next s ∧ exec (.partitionResetTimeout p) s = .next s :=
  ⟨congrArg Host.Outcome.next (if_pos (by simpa using h)), congrArg Host.Outcome.next (if_pos (by simpa using h))⟩

variable (h : (3, p.val) ∈ s.resetting)
include h

theorem exec_partitionResetComplete (r : Training) : exec (.partitionResetComplete p r) s = .next
    (((List.range 64).foldl (fun s c => if s.fld PART_CTX_ADMIT.STATE p.val c = 2 then s.freeCtx p.val c else s)
      ({ s with resetting := s.resetting.erase (3, p.val) } : State).resetBusy).trainPart r p.val) :=
  congrArg Host.Outcome.next (if_neg (by simpa using h))

theorem exec_partitionResetTimeout_escalates (hm : 4 ≤ s.maxLevel) :
    exec (.partitionResetTimeout p) s = .next (s.chipReset 2) :=
  congrArg Host.Outcome.next ((if_neg (by simpa using h)).trans (if_pos hm))

theorem exec_partitionResetTimeout_holds (hm : s.maxLevel < 4) : exec (.partitionResetTimeout p) s = .next
    ((({ s with resetting := s.resetting.erase (3, p.val),
                heldParts := p.val :: s.heldParts.filter (fun x => x ≠ p.val) } : State).resetBusy.setFld
      HBM_STACK_STATUS.STATE (2 * p.val) 0 2).setFld HBM_STACK_STATUS.STATE (2 * p.val + 1) 0 2) :=
  congrArg Host.Outcome.next ((if_neg (by simpa using h)).trans (if_neg (Nat.not_le.mpr hm)))

end

/-! ### The replay of suspects -/

theorem exec_replayClear_idle {s : State} {e : EngineId} (h : s.replaying (e.part.val * 48 + e.engine.val) = none) :
    exec (.replayClear e) s = .next s := by
  change execReplayClear e s = _
  simp only [execReplayClear, h]

theorem exec_replayClear_clears {s : State} {e : EngineId} {c : Nat} (h : s.replaying (e.part.val * 48 + e.engine.val) = some c) :
    exec (.replayClear e) s = .next
      ((s.clearSuspect (e.part.val * 48 + e.engine.val) c).nextReplay (e.part.val * 48 + e.engine.val)) := by
  change execReplayClear e s = _
  simp only [execReplayClear, h]

/-- Settles O50: each watchdog and each end of a reset by the cases of its condition. -/
theorem watchdogsAndResetEnds : Obligations.WatchdogsAndResetEnds := by
  unfold Obligations.WatchdogsAndResetEnds
  refine ⟨⟨?context, ?drain, ?unit, ?progress, fun _ => rfl⟩, ?engine, ?partition, ?replay⟩
  case context =>
    intro s c
    exact ⟨exec_contextWatchdog_idle, exec_contextWatchdog_stops, fun h _ hr => exec_contextWatchdog_quarantines h hr⟩
  case drain =>
    intro s c
    rw [exec_drainExpiry]
    exact ⟨fun hm => by rw [if_pos hm]; rfl, fun hm => by rw [if_neg (Nat.not_lt.mpr hm)]; rfl⟩
  case unit =>
    intro s e
    exact ⟨exec_unitWatchdog_idle,
      fun hm ho => ⟨exec_unitWatchdog_resets hm ho, fun _ hr => exec_unitWatchdog_quarantines hm ho hr⟩⟩
  case progress =>
    intro s p
    exact ⟨exec_progressWatchdog_resets, exec_progressWatchdog_idle⟩
  case engine =>
    intro s e
    exact ⟨exec_engineResetEnds_of_notResetting,
      fun h => ⟨exec_engineResetComplete h, exec_engineResetTimeout_escalates h, exec_engineResetTimeout_holds h⟩⟩
  case partition =>
    intro s p r
    exact ⟨exec_partitionResetEnds_of_notResetting r,
      fun h => ⟨exec_partitionResetComplete h r, exec_partitionResetTimeout_escalates h, exec_partitionResetTimeout_holds h⟩⟩
  case replay =>
    intro s e
    exact ⟨exec_replayClear_idle, fun _ => exec_replayClear_clears⟩

end Sys2Proof.Machine
end

section
/-! SUPPORT. The power ladder: what a write of the target and a vote do, and how a state is entered and left (R410 to R417). -/

namespace Sys2Proof.Machine
open Sys2Proof

/-! ### A write of the target -/

/-- The target is written, and the write is traced. -/
def State.takeTarget (s : State) (v : Nat) : State := (s.traceVote .PWR_TARGET 0 v).writeMasked .PWR_TARGET 0 0 v

/-- An entry to state n is refused: each kind with a vote against it counts, and the first holder is the last event (R413). -/
def State.refuseEntry (s : State) (n : Nat) (x : Nat × Nat × Nat × Nat) : State :=
  (((List.range 5).foldl (fun t k => if (List.range n).any (fun d => s.kindVotes k d) then t.bump .PWR_REFUSED_K k 0 1 else t) s).setFld
    PWR_TARGET.RESULT 0 0 2).lastEvent x.1 0 x.2.1 x.2.2.1 x.2.2.2

theorem writeMasked_target (s : State) (v : Nat) :
    (s.traceVote .PWR_TARGET 0 v).writeMasked .PWR_TARGET 0 0 v = s.takeTarget v := rfl

/-- A reserved state leaves STATE (R417). -/
theorem writeTarget_reserved (s : State) {v : Nat} (h : 4 < v % 8) :
    s.writeTarget v = (s.traceVote .PWR_TARGET 0 v).writeMasked .PWR_TARGET 0 0
      (setBits v 0 3 ((s.traceVote .PWR_TARGET 0 v).fld PWR_TARGET.STATE 0 0)) := by
  simp only [State.writeTarget, if_pos h]

/-- What a write of a state that is not reserved comes to (R413). -/
theorem writeTarget_defined (s : State) {v : Nat} (h : v % 8 ≤ 4) :
    s.writeTarget v =
      if v % 8 ≤ (s.takeTarget v).fld PWR_STATE.CURRENT 0 0 then
        if v % 8 = (s.takeTarget v).fld PWR_STATE.CURRENT 0 0 then (s.takeTarget v).setFld PWR_TARGET.RESULT 0 0 0 else s.takeTarget v
      else ((s.takeTarget v).firstHolder (v % 8)).elim ((s.takeTarget v).setFld PWR_TARGET.RESULT 0 0 1)
        ((s.takeTarget v).refuseEntry (v % 8)) := by
  simp only [State.writeTarget, if_neg (Nat.not_lt.mpr h), writeMasked_target]
  rcases (s.takeTarget v).firstHolder (v % 8) with _ | ⟨k, p, c, d⟩ <;> rfl

/-! ### Entry -/

/-- Whether the entry that is under way goes on: there is a deeper state to reach, and nothing keeps the device where it is. -/
def State.Enters (s : State) : Prop :=
  s.fld PWR_STATE.CURRENT 0 0 < s.deepest (s.fld PWR_TARGET.STATE 0 0) ∧ s.thermtrip = false ∧ s.mgmtStopped = false ∧ s.resetting = []

/-- Whether a wake seen at an abort point undoes the entry: the point lies after the present state and no deeper than the entry goes (R415). -/
def State.WakesAt (s : State) (point : Nat) : Prop :=
  (if s.fld PWR_STATE.CURRENT 0 0 = 0 then 1 else s.fld PWR_STATE.CURRENT 0 0 + 2) ≤ point ∧ point ≤ s.deepest (s.fld PWR_TARGET.STATE 0 0)

/-- The device has entered state n; on the way to D3 or D4 HBM goes off (R409, R410). -/
def State.entered (s : State) (n : Nat) : State := (if 3 ≤ n ∧ s.fld PWR_STATE.CURRENT 0 0 < 3 then s.hbmOff else s).powerTo n

/-- An entry is recorded as undone by a client of a kind, at an abort point (R415): from the fourth on HBM has been off. -/
def State.abortEntry (s : State) (point kind dom p c : Nat) : State :=
  (((if 4 ≤ point then s.hbmOff else s).setFld PWR_TARGET.RESULT 0 0 3).bump .PWR_ABORTED_K kind 0 1).lastEvent kind 1
    (if kind = 0 then p else 0) (if kind = 0 then c else 0) dom

theorem not_enters_iff (s : State) :
    (s.deepest (s.fld PWR_TARGET.STATE 0 0) ≤ s.fld PWR_STATE.CURRENT 0 0 || s.thermtrip || s.mgmtStopped || s.resetting ≠ []) = true
      ↔ ¬ s.Enters := by
  simp only [State.Enters, Bool.or_eq_true, decide_eq_true_eq, Classical.not_and_iff_not_or_not, Nat.not_lt, Bool.not_eq_false, or_assoc, ne_eq]

theorem wakesAt_iff (s : State) (point : Nat) :
    ((if s.fld PWR_STATE.CURRENT 0 0 = 0 then 1 else s.fld PWR_STATE.CURRENT 0 0 + 2) ≤ point
      && point ≤ s.deepest (s.fld PWR_TARGET.STATE 0 0)) = true ↔ s.WakesAt point := by
  simp only [State.WakesAt, Bool.and_eq_true, decide_eq_true_eq]

theorem entered_eq (s : State) (n : Nat) :
    s.entered n = (if 3 ≤ n && s.fld PWR_STATE.CURRENT 0 0 < 3 then s.hbmOff else s).powerTo n := by
  simp only [State.entered, Bool.and_eq_true, decide_eq_true_eq]

section
variable {s : State} {point : Fin 5} (kind : Fin 6) (dom : Fin 4) (c : CtxId)

theorem exec_powerEntry_stays (h : ¬ s.Enters) : exec (.powerEntry point kind dom c) s = .next s :=
  congrArg Host.Outcome.next (if_pos ((not_enters_iff s).mpr h))

theorem exec_powerEntry_undone (h : s.Enters) (hw : s.WakesAt point.val) : exec (.powerEntry point kind dom c) s = .next
    (((s.abortEntry point.val kind.val dom.val c.part.val c.ctx.val).powerTo
      (max (s.fld PWR_STATE.CURRENT 0 0) (point.val - 1))).wakeTo (min (point.val - 1) dom.val)) :=
  congrArg Host.Outcome.next ((if_neg (mt (not_enters_iff s).mp (not_not_intro h))).trans (if_pos ((wakesAt_iff s _).mpr hw)))

theorem exec_powerEntry_reaches (h : s.Enters) (hw : ¬ s.WakesAt point.val) : exec (.powerEntry point kind dom c) s = .next
    (let n := s.deepest (s.fld PWR_TARGET.STATE 0 0)
     if n = (s.entered n).fld PWR_TARGET.STATE 0 0 then (s.entered n).setFld PWR_TARGET.RESULT 0 0 0 else s.entered n) := by
  refine congrArg Host.Outcome.next ((if_neg (mt (not_enters_iff s).mp (not_not_intro h))).trans
    ((if_neg (mt (wakesAt_iff s _).mp hw)).trans ?_))
  simp only [entered_eq]

end

/-! ### Exit -/

theorem exec_powerExit_stays {s : State} (h : s.fld PWR_STATE.CURRENT 0 0 = 4 ∨ s.thermtrip = true ∨ s.mgmtStopped = true) :
    exec .powerExit s = .next s :=
  congrArg Host.Outcome.next (if_pos (by simpa [or_assoc] using h))

theorem exec_powerExit_wakes {s : State} (h : ¬ (s.fld PWR_STATE.CURRENT 0 0 = 4 ∨ s.thermtrip = true ∨ s.mgmtStopped = true)) :
    exec .powerExit s = .next
      (let t := s.wakeTo (s.deepest (s.fld PWR_TARGET.STATE 0 0))
       if t.fld PWR_STATE.CURRENT 0 0 = t.fld PWR_TARGET.STATE 0 0 then t.setFld PWR_TARGET.RESULT 0 0 0 else t) :=
  congrArg Host.Outcome.next (if_neg (by simpa [or_assoc] using h))

theorem leaveD4_leaves {s : State} (hc : s.fld PWR_STATE.CURRENT 0 0 = 4) (ht : s.thermtrip = false) :
    s.leaveD4 = ((s.setReg .PWR_VOTE_HOST 0 0 0xF).setFld PWR_TARGET.STATE 0 0 0).wakeTo 0 :=
  if_pos (by simp [hc, ht])

theorem leaveD4_stays {s : State} (h : s.fld PWR_STATE.CURRENT 0 0 ≠ 4 ∨ s.thermtrip = true) : s.leaveD4 = s :=
  if_neg (by rcases h with h | h <;> simp [h])

/-- WAKE and I3C do the same: they leave D4 (R416). -/
theorem exec_wake (s : State) {x : Instr} (hx : x ∈ [Instr.wakeLand, .i3cWake]) : exec x s = .next s.leaveD4 := by
  simp only [List.mem_cons, List.not_mem_nil, or_false] at hx
  rcases hx with rfl | rfl <;> rfl

/-- Settles O55: a write of the target by its level, the votes by their write, entry and exit by the conditions that let them go on. -/
theorem powerStates : Obligations.PowerStates := by
  unfold Obligations.PowerStates
  refine ⟨?target, fun _ _ => rfl, ?entry, ?exit, ?wake⟩
  case target =>
    intro s v
    refine ⟨fun h => congrArg _ (writeTarget_reserved s h), fun h hn => ?_, fun h hn => ?_, fun h hn hf => ?_, fun h hn k p c d hf => ?_⟩
    all_goals refine congrArg Host.Outcome.next ((writeTarget_defined s h).trans ?_)
    · exact (if_pos (Nat.le_of_eq hn)).trans (if_pos hn)
    · exact (if_pos (Nat.le_of_lt hn)).trans (if_neg (Nat.ne_of_lt hn))
    · exact (if_neg (Nat.not_le.mpr hn)).trans (congrArg (Option.elim · _ _) hf)
    · exact (if_neg (Nat.not_le.mpr hn)).trans (congrArg (Option.elim · _ _) hf)
  case entry =>
    intro s point kind dom c
    exact ⟨exec_powerEntry_stays kind dom c,
      fun h hw hn => (exec_powerEntry_reaches kind dom c h hw).trans (congrArg _ (if_pos hn)),
      fun h hw hn => (exec_powerEntry_reaches kind dom c h hw).trans (congrArg _ (if_neg hn)), exec_powerEntry_undone kind dom c⟩
  case exit =>
    intro s
    exact ⟨exec_powerExit_stays, fun h ht => (exec_powerExit_wakes h).trans (congrArg _ (if_pos ht)),
      fun h ht => (exec_powerExit_wakes h).trans (congrArg _ (if_neg ht))⟩
  case wake =>
    intro s x hx
    rw [exec_wake s hx]
    exact ⟨fun hc ht => by rw [leaveD4_leaves hc ht], fun h => by rw [leaveD4_stays h]⟩

end Sys2Proof.Machine
end

section
/-! SUPPORT. Codes of the floating-point formats and the dyadic numbers they decode to: the fields of a code, and that a value that is exact in a
format is rounded to its own code with no flag (R63, R64, R70). -/

namespace Sys2Proof.Machine
open Sys2Proof

/-! ### The fields of a code -/

/-- A number is what lies below a bit place, what the field above it holds, and the rest. -/
theorem bits_zero_add_bits (c lo len : Nat) : bits c lo len * 2 ^ lo + bits c 0 lo + c / 2 ^ (lo + len) * 2 ^ (lo + len) = c := by
  have hlow := Nat.div_add_mod c (2 ^ lo)
  have hhigh := Nat.div_add_mod (c / 2 ^ lo) (2 ^ len)
  rw [← hhigh, Nat.div_div_eq_div_mul, ← Nat.pow_add, Nat.mul_add, ← Nat.mul_assoc, ← Nat.pow_add] at hlow
  rw [bits, bits, Nat.pow_zero, Nat.div_one, Nat.mul_comm _ (2 ^ lo), Nat.mul_comm _ (2 ^ (lo + len))]
  omega

/-- The bits of a sign. -/
def Fmt.signCode (f : Fmt) (neg : Bool) : Nat := if neg then f.signBit else 0

/-- A code is its sign, its exponent field and its fraction field. -/
theorem Fmt.code_fields (f : Fmt) {c : Nat} (hc : c < 2 ^ (f.eb + f.fb + 1)) :
    f.signCode (bit c (f.eb + f.fb)) + (bits c f.fb f.eb * 2 ^ f.fb + bits c 0 f.fb) = c := by
  have hsign : c / 2 ^ (f.eb + f.fb) < 2 := Nat.div_lt_of_lt_mul (by rwa [Nat.pow_succ] at hc)
  have hfields := bits_zero_add_bits c f.fb f.eb
  rw [Nat.add_comm f.fb f.eb] at hfields
  have hval : f.signCode (bit c (f.eb + f.fb)) = c / 2 ^ (f.eb + f.fb) * 2 ^ (f.eb + f.fb) := by
    rcases Nat.lt_succ_iff_lt_or_eq.mp hsign with h0 | h1
    · simp [Fmt.signCode, bit, Nat.lt_one_iff.mp h0]
    · simp [Fmt.signCode, Fmt.signBit, bit, h1]
  omega

/-! ### The value of a finite code -/

/-- The significand of the fields of a finite code. -/
def Fmt.significand (f : Fmt) (e m : Nat) : Nat := if e = 0 then m else 2 ^ f.fb + m

/-- The exponent of the unit that a finite code with exponent field e counts. -/
def Fmt.unitExp (f : Fmt) (e : Nat) : Int := (max 1 e : Nat) - f.bias - f.fb

/-- The number that the fields of a finite code stand for. -/
def Fmt.fieldsVal (f : Fmt) (neg : Bool) (e m : Nat) : Dy :=
  ⟨if neg then -(f.significand e m : Int) else f.significand e m, f.unitExp e⟩

/-- A finite code decodes to the number of its fields. -/
theorem Fmt.decode_eq_fin {f : Fmt} {c : Nat} {neg : Bool} {d : Dy} (h : f.decode c = .fin neg d) :
    bits c f.fb f.eb < 2 ^ f.eb - 1 ∧ neg = bit c (f.eb + f.fb) ∧ d = f.fieldsVal neg (bits c f.fb f.eb) (bits c 0 f.fb) := by
  have hlt : bits c f.fb f.eb < 2 ^ f.eb := Nat.mod_lt _ (Nat.two_pow_pos _)
  simp only [Fmt.decode] at h
  split at h
  · split at h <;> cases h
  · next hfin =>
    obtain ⟨rfl, rfl⟩ := FVal.fin.inj h
    refine ⟨by omega, rfl, ?_⟩
    rcases Nat.eq_zero_or_pos (bits c f.fb f.eb) with h0 | hpos
    · simp [Fmt.fieldsVal, Fmt.significand, Fmt.unitExp, h0]
    · simp [Fmt.fieldsVal, Fmt.significand, Fmt.unitExp, Nat.ne_of_gt hpos, Nat.max_eq_right hpos]

@[simp] theorem Fmt.natAbs_fieldsVal (f : Fmt) (neg : Bool) (e m : Nat) : (f.fieldsVal neg e m).m.natAbs = f.significand e m := by
  cases neg <;> simp [Fmt.fieldsVal]

/-- The sign of a number that is not zero is that of its fields. -/
theorem Fmt.decide_fieldsVal_neg {f : Fmt} {e m : Nat} (hs : f.significand e m ≠ 0) (neg : Bool) :
    decide ((f.fieldsVal neg e m).m < 0) = neg := by
  have hpos := Nat.pos_of_ne_zero hs
  cases neg <;> simp [Fmt.fieldsVal, hpos]

/-- Only a zero code has the significand 0. -/
theorem Fmt.significand_eq_zero {f : Fmt} {e m : Nat} : f.significand e m = 0 ↔ e = 0 ∧ m = 0 := by
  have := Nat.two_pow_pos f.fb
  unfold Fmt.significand
  split <;> omega

/-- The unit in the last place of a finite code's value is the unit that the code counts: a normal significand has its top bit at the
fraction's end, a subnormal one lies below it and takes the least normal number's unit. -/
theorem Fmt.ulp_significand (f : Fmt) {e m : Nat} (hm : m < 2 ^ f.fb) (hs : f.significand e m ≠ 0) :
    f.ulp (Nat.log2 (f.significand e m) + f.unitExp e) = f.unitExp e := by
  rcases Nat.eq_zero_or_pos e with rfl | hpos
  · have hlog : Nat.log2 m < f.fb := (Nat.log2_lt (by simpa [Fmt.significand] using hs)).mpr hm
    simp only [Fmt.significand, Fmt.ulp, Fmt.unitExp, Fmt.emin, if_true]
    omega
  · have hlog : Nat.log2 (2 ^ f.fb + m) = f.fb :=
      (Nat.log2_eq_iff (by have := Nat.two_pow_pos f.fb; omega)).mpr ⟨Nat.le_add_right _ _, by rw [Nat.pow_succ]; omega⟩
    simp only [Fmt.significand, if_neg (Nat.ne_of_gt hpos), hlog, Fmt.ulp, Fmt.unitExp, Fmt.emin]
    omega

/-- The code of a significand over its unit is made of the fields it came from. -/
theorem Fmt.magCode_significand (f : Fmt) (e m : Nat) : f.magCode (f.significand e m) (f.unitExp e) = e * 2 ^ f.fb + m := by
  have hexp : f.unitExp e + f.fb + f.bias - 1 = (e - 1 : Nat) := by
    unfold Fmt.unitExp
    omega
  have hcast : ((e - 1 : Nat) : Int) * 2 ^ f.fb = ((e - 1) * 2 ^ f.fb : Nat) := by norm_cast
  rw [Fmt.magCode, hexp, hcast, Int.toNat_natCast]
  rcases Nat.eq_zero_or_pos e with rfl | hpos
  · simp [Fmt.significand]
  · rw [Fmt.significand, if_neg (Nat.ne_of_gt hpos), ← Nat.add_assoc, ← Nat.succ_mul, Nat.succ_eq_add_one, Nat.sub_add_cancel hpos]

/-- A finite code lies below that of infinity. -/
theorem Fmt.fields_lt_infCode (f : Fmt) {e m : Nat} (he : e < 2 ^ f.eb - 1) (hm : m < 2 ^ f.fb) : e * 2 ^ f.fb + m < f.infCode :=
  calc e * 2 ^ f.fb + m < (e + 1) * 2 ^ f.fb := by rw [Nat.succ_mul]; omega
    _ ≤ f.infCode := Nat.mul_le_mul_right _ he

/-! ### Rounding what is exact -/

theorem Dy.floorAt_self (d : Dy) : d.floorAt d.e = d.m := by simp [Dy.floorAt]

theorem Dy.eq_self (d : Dy) : d.eq d = true := by simp [Dy.eq, Dy.le, Dy.lt]

/-- Over its own exponent a dyadic is exactly its significand. -/
theorem Mag.ofDy_floor_self (d : Dy) : (Mag.ofDy d).floor d.e = (d.m.natAbs, true) := by
  have hfloor : d.abs.floorAt d.e = d.m.natAbs := d.abs.floorAt_self
  have heq : Dy.eq ⟨(d.m.natAbs : Int), d.e⟩ d.abs = true := d.abs.eq_self
  simp only [Mag.ofDy, hfloor, heq, Int.toNat_natCast]

/-- A magnitude that is a whole number of its units, and does not overflow, is rounded to itself in every direction, with no flag. -/
theorem Fmt.roundMag_exact {f : Fmt} {x : Mag} {n : Nat} (hexact : x.floor (f.ulp x.top) = (n, true))
    (hfin : f.magCode n (f.ulp x.top) < f.infCode) (tiny : Bool) (rm : RM) (neg : Bool) :
    f.roundMag tiny rm neg x = (f.signCode neg + f.magCode n (f.ulp x.top), {}) := by
  simp only [Fmt.roundMag, hexact, Bool.not_true, Bool.false_and, Bool.and_false, Bool.false_eq_true, if_false,
    if_neg (Nat.not_le.mpr hfin), Fmt.signCode]

/-- The number of a finite code's fields is rounded to the code made of them. -/
theorem Fmt.roundDy_fieldsVal (f : Fmt) {e m : Nat} (he : e < 2 ^ f.eb - 1) (hm : m < 2 ^ f.fb) (tiny : Bool) (rm : RM) (neg : Bool) :
    f.roundDy tiny rm neg (f.fieldsVal neg e m) = (f.signCode neg + (e * 2 ^ f.fb + m), {}) := by
  by_cases hzero : f.significand e m = 0
  · obtain ⟨rfl, rfl⟩ := Fmt.significand_eq_zero.mp hzero
    simp [Fmt.roundDy, Fmt.fieldsVal, hzero, Fmt.signCode]
  · have hne : (f.fieldsVal neg e m).m ≠ 0 := by rwa [← Int.natAbs_ne_zero, f.natAbs_fieldsVal]
    have hulp : f.ulp (Mag.ofDy (f.fieldsVal neg e m)).top = f.unitExp e := by
      simp only [Mag.ofDy, Dy.log2, f.natAbs_fieldsVal]
      exact f.ulp_significand hm hzero
    have hcode := f.magCode_significand e m
    have hexact : (Mag.ofDy (f.fieldsVal neg e m)).floor (f.unitExp e) = (f.significand e m, true) := by
      rw [← f.natAbs_fieldsVal neg e m]
      exact Mag.ofDy_floor_self (f.fieldsVal neg e m)
    have hround := Fmt.roundMag_exact (f := f) (by rwa [hulp]) (by rw [hulp, hcode]; exact f.fields_lt_infCode he hm) tiny rm neg
    rw [Fmt.roundDy, if_neg hne, Fmt.decide_fieldsVal_neg hzero, hround, hulp, hcode]

/-- Settles O60: a finite code is made of its fields, and that is what the number of its fields rounds to, in every format of this
shape. -/
theorem formatsRoundTrip : Obligations.FormatsRoundTrip := by
  unfold Obligations.FormatsRoundTrip
  intro f _ tiny rm c neg d hc hd
  obtain ⟨he, rfl, rfl⟩ := Fmt.decode_eq_fin hd
  have hm : bits c 0 f.fb < 2 ^ f.fb := Nat.mod_lt _ (Nat.two_pow_pos _)
  rw [f.roundDy_fieldsVal he hm, f.code_fields hc]

end Sys2Proof.Machine
end

section
/-! SUPPORT. The quantiser of the K formats (R90): comparisons of exact numbers over a common exponent, and the code as the number of midpoints
that a magnitude has passed. -/

namespace Sys2Proof.Machine
open Sys2Proof

/-! ### Comparing exact numbers -/

/-- A significand over a lower exponent. -/
theorem Dy.at_lower (a : Dy) {l e : Int} (hl : l ≤ e) (he : e ≤ a.e) : a.at l = a.at e * 2 ^ (e - l).toNat := by
  have hexp : (a.e - l).toNat = (a.e - e).toNat + (e - l).toNat := by omega
  rw [Dy.at, Dy.at, hexp, Int.pow_add, Int.mul_assoc]

/-- Two numbers compare as their significands do over any exponent that both have bits of. -/
theorem Dy.lt_iff_at {a b : Dy} {l : Int} (ha : l ≤ a.e) (hb : l ≤ b.e) : a.lt b = true ↔ a.at l < b.at l := by
  have hl : l ≤ min a.e b.e := Int.le_min.mpr ⟨ha, hb⟩
  rw [a.at_lower hl (Int.min_le_left _ _), b.at_lower hl (Int.min_le_right _ _), Dy.lt, decide_eq_true_iff]
  exact (Int.mul_lt_mul_right (Int.pow_pos (by decide))).symm

/-- Not less is at least. -/
theorem Dy.le_iff_at {a b : Dy} {l : Int} (ha : l ≤ a.e) (hb : l ≤ b.e) : a.le b = true ↔ a.at l ≤ b.at l := by
  rw [Dy.le, Bool.not_eq_true', Bool.eq_false_iff, ne_eq, Dy.lt_iff_at hb ha, Int.not_lt]

theorem Dy.eq_iff_at {a b : Dy} {l : Int} (ha : l ≤ a.e) (hb : l ≤ b.e) : a.eq b = true ↔ a.at l = b.at l := by
  rw [Dy.eq, Bool.and_eq_true, Dy.le_iff_at ha hb, Dy.le_iff_at hb ha]
  omega

/-! ### The midpoints of R90's table -/

/-- An exponent that a magnitude and the quarters of a scale both have bits of. -/
def quarterExp (x s : Dy) : Int := min x.e (s.e - 2)

theorem quarterExp_le (x s : Dy) : quarterExp x s ≤ x.e := Int.min_le_left _ _

theorem quarterExp_le_scale (x s : Dy) : quarterExp x s ≤ s.e - 2 := Int.min_le_right _ _

/-- The exponent of a number of quarters of a scale. -/
theorem quarters_exp (x s : Dy) (n : Int) : quarterExp x s ≤ ((⟨n, -2⟩ : Dy).mul s).e := by
  have hs := quarterExp_le_scale x s
  simp only [Dy.mul]
  omega

/-- A quarter of a scale, over that exponent. -/
def quarterAt (x s : Dy) : Int := s.m * 2 ^ (s.e - 2 - quarterExp x s).toNat

/-- The number n / 4 times a scale, over that exponent. -/
theorem quarters_at (x s : Dy) (n : Int) : ((⟨n, -2⟩ : Dy).mul s).at (quarterExp x s) = n * quarterAt x s := by
  have hexp : (-2 + s.e - quarterExp x s).toNat = (s.e - 2 - quarterExp x s).toNat := by omega
  simp only [Dy.at, Dy.mul, quarterAt, Int.mul_assoc, hexp]

section
variable (x s : Dy) (n : Int)

theorem lt_quarters_iff : x.lt ((⟨n, -2⟩ : Dy).mul s) = true ↔ x.at (quarterExp x s) < n * quarterAt x s := by
  rw [← quarters_at]
  exact Dy.lt_iff_at (quarterExp_le x s) (quarters_exp x s n)

theorem le_quarters_iff : x.le ((⟨n, -2⟩ : Dy).mul s) = true ↔ x.at (quarterExp x s) ≤ n * quarterAt x s := by
  rw [← quarters_at]
  exact Dy.le_iff_at (quarterExp_le x s) (quarters_exp x s n)

theorem quarters_lt_iff : ((⟨n, -2⟩ : Dy).mul s).lt x = true ↔ n * quarterAt x s < x.at (quarterExp x s) := by
  rw [← quarters_at]
  exact Dy.lt_iff_at (quarters_exp x s n) (quarterExp_le x s)

theorem quarters_eq_iff : ((⟨n, -2⟩ : Dy).mul s).eq x = true ↔ n * quarterAt x s = x.at (quarterExp x s) := by
  rw [← quarters_at]
  exact Dy.eq_iff_at (quarters_exp x s n) (quarterExp_le x s)

end

/-! ### The code and the saturation -/

/-- Whether a magnitude has passed midpoint i of a K format's table: it lies beyond it, or on it where the even code is the one above. -/
def passesMid (f : Nat) (x s : Dy) (i : Nat) : Bool :=
  ((⟨kQ f i + kQ f (i + 1), -2⟩ : Dy).mul s).lt x || (((⟨kQ f i + kQ f (i + 1), -2⟩ : Dy).mul s).eq x && i % 2 = 1)

theorem passesMid_iff (f : Nat) (x s : Dy) (i : Nat) : passesMid f x s i = true ↔
    (kQ f i + kQ f (i + 1)) * quarterAt x s < x.at (quarterExp x s)
      ∨ ((kQ f i + kQ f (i + 1)) * quarterAt x s = x.at (quarterExp x s) ∧ i % 2 = 1) := by
  simp only [passesMid, Bool.or_eq_true, Bool.and_eq_true, decide_eq_true_iff, quarters_lt_iff, quarters_eq_iff]

/-- A quarter of a positive scale is positive. -/
theorem quarterAt_pos (x : Dy) {s : Dy} (h : 0 < s.m) : 0 < quarterAt x s :=
  Int.mul_pos h (Int.pow_pos (by decide))

/-- The midpoints of each table rise. -/
theorem midpoints_rise (f : Nat) :
    ∀ j < (if f = 0 then 7 else 3), ∀ i < j, kQ f i + kQ f (i + 1) < kQ f j + kQ f (j + 1) := by
  unfold kQ
  split <;> decide

/-- A magnitude that has passed a midpoint has passed every one below it. -/
theorem passesMid_of_lt {f i j : Nat} {x s : Dy} (hs : 0 < s.m) (hj : j < if f = 0 then 7 else 3) (hij : i < j)
    (h : passesMid f x s j = true) : passesMid f x s i = true := by
  have hmid : ((kQ f i + kQ f (i + 1) : Nat) : Int) * quarterAt x s < (kQ f j + kQ f (j + 1) : Nat) * quarterAt x s :=
    Int.mul_lt_mul_of_pos_right (Int.ofNat_lt.mpr (midpoints_rise f j hj i hij)) (quarterAt_pos x hs)
  push_cast at hmid
  rw [passesMid_iff] at h ⊢
  omega

/-- Of the numbers below n, those below c are the numbers below c. -/
theorem filter_lt_range {c n : Nat} (h : c ≤ n) : (List.range n).filter (fun i => decide (i < c)) = List.range c := by
  induction n with
  | zero => rw [Nat.le_zero.mp h]; rfl
  | succ n ih =>
    rw [List.range_succ, List.filter_append]
    rcases Nat.lt_or_eq_of_le h with hlt | rfl
    · have hlast : [n].filter (fun i => decide (i < c)) = [] :=
        List.filter_eq_nil_iff.mpr fun i hi => by rw [List.mem_singleton.mp hi, decide_eq_true_iff]; omega
      rw [ih (Nat.le_of_lt_succ hlt), hlast, List.append_nil]
    · rw [← List.filter_append, ← List.range_succ]
      exact List.filter_eq_self.mpr fun i hi => decide_eq_true (List.mem_range.mp hi)

/-- A magnitude is quantised to the code between the last midpoint that it has passed and the first that it has not. -/
theorem quantK_code_eq {f c : Nat} {x s : Dy} (hs : 0 < s.m) (hc : c ≤ if f = 0 then 7 else 3)
    (hbelow : c = 0 ∨ passesMid f x s (c - 1) = true) (habove : c = (if f = 0 then 7 else 3) ∨ ¬ passesMid f x s c = true) :
    (quantK f x s).1 = c := by
  have hiff : ∀ i < if f = 0 then 7 else 3, passesMid f x s i = true ↔ i < c := by
    intro i hi
    constructor
    · intro hp
      refine Nat.lt_of_not_le fun hci => ?_
      rcases Nat.lt_or_eq_of_le hci with hlt | rfl
      · exact habove.elim (by omega) (· (passesMid_of_lt hs hi hlt hp))
      · exact habove.elim (by omega) (· hp)
    · intro hic
      rcases Nat.lt_or_eq_of_le (Nat.le_sub_one_of_lt hic) with hlt | rfl
      · exact passesMid_of_lt hs (by omega) hlt (hbelow.resolve_left (by omega))
      · exact hbelow.resolve_left (by omega)
  have hpassed : (List.range (if f = 0 then 7 else 3)).filter (passesMid f x s) = List.range c := by
    rw [List.filter_congr (q := fun i => decide (i < c))
      (fun i hi => by rw [Bool.eq_iff_iff, hiff i (List.mem_range.mp hi), decide_eq_true_iff])]
    exact filter_lt_range hc
  exact (congrArg List.length hpassed).trans List.length_range

/-- The largest value of a K format is 24 quarters of the scale in K4, 6 in K3. -/
theorem kTop_at (f : Nat) (x s : Dy) :
    ((kTop f).mul s).at (quarterExp x s) = (if f = 0 then 24 else 6) * quarterAt x s := by
  have hmin : quarterExp x s ≤ s.e - 2 := quarterExp_le_scale x s
  have he : s.e - 2 ≤ ((kTop f).mul s).e := by unfold kTop; split <;> simp only [Dy.mul] <;> omega
  have hquarters : ((kTop f).mul s).at (s.e - 2) = (if f = 0 then 24 else 6) * s.m := by
    unfold kTop
    split
    · have hexp : (0 + s.e - (s.e - 2)).toNat = 2 := by omega
      simp only [Dy.at, Dy.mul, hexp]
      omega
    · have hexp : (-1 + s.e - (s.e - 2)).toNat = 1 := by omega
      simp only [Dy.at, Dy.mul, hexp]
      omega
  rw [Dy.at_lower _ hmin he, hquarters, quarterAt, Int.mul_assoc]

theorem quantK_saturates_iff (f : Nat) (x s : Dy) :
    (quantK f x s).2 = true ↔ (if f = 0 then 24 else 6) * quarterAt x s < x.at (quarterExp x s) := by
  rw [← kTop_at]
  refine Dy.lt_iff_at ?_ (quarterExp_le x s)
  have hs := quarterExp_le_scale x s
  unfold kTop
  split <;> simp only [Dy.mul] <;> omega

/-! ### The table -/

/-- A zero passes no midpoint. -/
theorem quantK_zero (f : Nat) {x s : Dy} (hs : 0 < s.m) (hx : x.m = 0) : (quantK f x s).1 = 0 := by
  have hfirst : (kQ f 0 : Int) + kQ f (0 + 1) = 1 := by unfold kQ; split <;> rfl
  have hq := quarterAt_pos x hs
  refine quantK_code_eq hs (Nat.zero_le _) (.inl rfl) (.inr ?_)
  rw [passesMid_iff, hfirst, Dy.at, hx, Int.zero_mul]
  omega

/-- Settles O14: each line of R90's table says which midpoint the magnitude has passed last and which it has not. -/
theorem quantiseK : Obligations.QuantiseK := by
  unfold Obligations.QuantiseK
  intro x s _ hs
  have hq := quarterAt_pos x hs
  simp only [le_quarters_iff, lt_quarters_iff, quarters_lt_iff]
  refine ⟨?codeK4, quantK_saturates_iff 0 x s, ?codeK3, quantK_saturates_iff 1 x s, fun hx => ⟨quantK_zero 0 hs hx, quantK_zero 1 hs hx⟩⟩
  case codeK4 | codeK3 =>
    repeat' split
    all_goals refine quantK_code_eq hs (by decide) ?_ ?_ <;> simp [passesMid_iff, kQ] <;> omega

end Sys2Proof.Machine
end

section
/-! SUPPORT. The instructions that the units of an engine take (R236, R243): the converter's (R257), FMUL and the backward arrays' (R256), and how
the oldest instruction of a unit completes (R75, R76). -/

namespace Sys2Proof.Machine
open Sys2Proof

/-! ### Issue -/

/-- A ready instruction that must wait does not issue: nothing changes. -/
theorem issue_hold {s : State} {x : Issue} {r : Row} {g : Prog} (h : s.Ready x r.opcode r.fields g) (hs : r.sub x.op.toNat = true)
    (hf : r.effect (issOf x g r.opcode) (s.fetched x g) = .hold) : s.issue x r = s := by
  obtain ⟨hstands, hlvl, hnamed⟩ := h
  rw [issue_stands hstands, if_pos (by simp [hlvl, hs]), if_neg (by simp [hnamed]), hf]

/-- What a command comes to whose ready instruction issues under a row that takes every sub-code of its OPCODE. -/
theorem issued_of_effect {c : Instr} {s : State} {x : Issue} {g : Prog} {n : Nat} {fs : List (Nat × Nat)} {f : Iss → State → Issued}
    (hc : exec c s = .next (s.issue x ⟨n, fun _ => true, fs, f⟩)) (h : s.Ready x n fs g) :
    (f (issOf x g n) (s.fetched x g) = .hold → exec c s = .next s)
    ∧ ∀ g2 t, f (issOf x g n) (s.fetched x g) = .go g2 t → exec c s = .next (t.landed (issOf x g n) g2) :=
  ⟨fun hf => hc.trans (congrArg _ (issue_hold h rfl hf)), fun _ _ hf => hc.trans (congrArg _ (issue_go h rfl hf))⟩

/-! ### The converter -/

section
variable {op : CnvOp} {i : Iss} {s : State}

theorem cnvIssue_full (h : s.unitFull i.key 2 = true) : cnvIssue op i s = .hold := if_pos h

variable (hroom : ¬ s.unitFull i.key 2 = true)
include hroom

theorem cnvIssue_fails (h : s.cnvCheck i op ≠ .ok) : cnvIssue op i s = .go i.g (s.giveUnit i 2 (s.cnvCheck i op) 0 [] [] []) :=
  (if_neg hroom).trans (if_pos h)

variable (hok : s.cnvCheck i op = .ok)
include hok

theorem cnvIssue_waits (h : s.hazard i.key (s.cnvReads i op) (s.cnvWrites i op) = true) : cnvIssue op i s = .hold :=
  (if_neg hroom).trans ((if_neg (not_not_intro hok)).trans (if_pos h))

variable (hfree : s.hazard i.key (s.cnvReads i op) (s.cnvWrites i op) = false) (hprobe : i.probe = false)
include hfree hprobe

theorem cnvIssue_faulty {t : Tile} {r : Nat} (h : s.cnvFaulty i = some (t, r)) :
    cnvIssue op i s = .go i.g (s.giveUnit i 2 .illegal 0 [] []
      [.count .CNV_ILLEGAL i.part 0 1, .fault i.part (faultWord i.engine r (groupFault t (Desc.of i.cnvArgs.src).fmt r))]) := by
  simp [cnvIssue, hroom, hok, hfree, hprobe, h]

theorem cnvIssue_planeBad (hf : s.cnvFaulty i = none) (h : s.planeBad i op = true) :
    cnvIssue op i s = .go i.g (s.giveUnit i 2 .illegal 0 [] [] []) := by
  simp [cnvIssue, hroom, hok, hfree, hprobe, hf, h]

theorem cnvIssue_taken (hf : s.cnvFaulty i = none) (h : s.planeBad i op = false) :
    cnvIssue op i s = .go i.g (s.giveConverter i (s.cnvReads i op) (s.cnvWrites i op) (s.cnvBypass i op) (s.cnvWork i op)) := by
  simp [cnvIssue, hroom, hok, hfree, hprobe, hf, h]

end

/-- The converter's commands issue under rows that differ in OPCODE and operation alone (R257). -/
theorem exec_converter {x : Issue} {c : Instr × Nat × CnvOp}
    (hc : c ∈ [(Instr.packAct x, 0x50, CnvOp.packAct), (.packWgtInit x, 0x51, .packWgtInit), (.packWgt x, 0x52, .packWgt),
      (.unpack x, 0x53, .unpack), (.rotate x, 0x54, .rotate), (.round x, 0x55, .round)]) (s : State) :
    exec c.1 s = .next (s.issue x ⟨c.2.1, fun _ => true, cnvFields, cnvIssue c.2.2⟩) := by
  simp only [List.mem_cons, List.not_mem_nil, or_false] at hc
  rcases hc with rfl | rfl | rfl | rfl | rfl | rfl <;> rfl

/-- Settles O36: what the converter answers to an instruction, case by case, for all of its operations together. -/
theorem converterInstructions : Obligations.ConverterInstructions := by
  unfold Obligations.ConverterInstructions
  intro s x g u c hc hready i op full busy
  obtain ⟨hold, go⟩ := issued_of_effect (exec_converter hc s) hready
  refine ⟨fun hfull => hold (cnvIssue_full hfull), fun hroom hfails => go _ _ (cnvIssue_fails hroom hfails),
    fun hroom hok hbusy => hold (cnvIssue_waits hroom hok hbusy), fun hroom hok hfree => ⟨?faulty, ?planeBad, ?taken⟩⟩
  case faulty => exact fun t r hf => go _ _ (cnvIssue_faulty hroom hok hfree rfl hf)
  case planeBad => exact fun hf hbad => go _ _ (cnvIssue_planeBad hroom hok hfree rfl hf hbad)
  case taken => exact fun hf hgood => go _ _ (cnvIssue_taken hroom hok hfree rfl hf hgood)

/-! ### The forward array -/

section
variable {i : Iss} {s : State}

theorem fmulIssue_full (h : s.unitFull i.key 0 = true) : fmulIssue i s = .hold := if_pos h

variable (hroom : ¬ s.unitFull i.key 0 = true)
include hroom

theorem fmulIssue_fails (h : s.fmulCheck i ≠ .ok) : fmulIssue i s = .go i.g (s.giveUnit i 0 (s.fmulCheck i) 0 [] [] []) :=
  (if_neg hroom).trans (if_pos h)

variable (hok : s.fmulCheck i = .ok)
include hok

theorem fmulIssue_waits (h : s.hazard i.key (s.fmulReads i) i.fmulWrites = true) : fmulIssue i s = .hold :=
  (if_neg hroom).trans ((if_neg (not_not_intro hok)).trans (if_pos h))

variable (hfree : s.hazard i.key (s.fmulReads i) i.fmulWrites = false) (hprobe : i.probe = false)
  {st : Status} {wts : List (Nat × Nat × Tile)} {t : State} (hw : s.fmulWeights i = (st, wts, t))
include hfree hprobe hw

/-- The weights of a wide FMUL are not read. -/
theorem fmulIssue_unread (h : st ≠ .ok) : fmulIssue i s = .go i.g (t.giveUnit i 0 st 0 [] [] []) := by
  simp [fmulIssue, hroom, hok, hfree, hprobe, hw, h]

theorem fmulIssue_faulty (hst : st = .ok) (h : t.fmulFaulty i (s.fmulWide i) wts = true) :
    fmulIssue i s = .go i.g (t.giveUnit i 0 .illegal 0 [] [] []) := by
  simp [fmulIssue, hroom, hok, hfree, hprobe, hw, hst, h]

theorem fmulIssue_taken (hst : st = .ok) (h : t.fmulFaulty i (s.fmulWide i) wts = false) :
    fmulIssue i s = .go i.g
      ((t.writeOut i i.fmulArgs.d ((t.fmulOuts i (s.fmulWide i) wts).map (fun o => (o.1, o.2.1, o.2.2.1)))).giveUnit i 0 .ok 0
        (s.fmulReads i) i.fmulWrites (s.fmulPosts i (t.fmulOuts i (s.fmulWide i) wts))) := by
  simp [fmulIssue, hroom, hok, hfree, hprobe, hw, hst, h]

end

/-! ### The backward arrays -/

section
variable {op : BwdOp} {i : Iss} {s : State}

theorem bwdIssue_full (h : s.unitFull i.key 1 = true) : bwdIssue op i s = .hold := if_pos h

variable (hroom : ¬ s.unitFull i.key 1 = true)
include hroom

theorem bwdIssue_fails (h : s.bwdCheck i op ≠ .ok) : bwdIssue op i s = .go i.g (s.giveUnit i 1 (s.bwdCheck i op) 0 [] [] []) :=
  (if_neg hroom).trans (if_pos h)

variable (hok : s.bwdCheck i op = .ok)
include hok

theorem bwdIssue_skipped (h : s.bwdSkips i op = true) :
    bwdIssue op i s = .go i.g (s.giveUnit i 1 .ok 0 [] [] [.count .TEN_BWD_WGRAD_SKIPPED i.part 0 1]) := by
  simp [bwdIssue, hroom, hok, h]

variable (hruns : s.bwdSkips i op = false)
include hruns

theorem bwdIssue_outside (h : s.inWindow i (s.bwdReads i op ++ i.bwdWrites) = false) :
    bwdIssue op i s = .go i.g (s.giveUnit i 1 .protection 0 [] [] []) := by
  simp [bwdIssue, hroom, hok, hruns, h]

variable (hin : s.inWindow i (s.bwdReads i op ++ i.bwdWrites) = true)
include hin

theorem bwdIssue_waits (h : s.hazard i.key (s.bwdReads i op) i.bwdWrites = true) : bwdIssue op i s = .hold := by
  simp [bwdIssue, hroom, hok, hruns, hin, h]

variable (hfree : s.hazard i.key (s.bwdReads i op) i.bwdWrites = false) (hprobe : i.probe = false)
  {st : Status} {stat : List (Nat × Nat × Tile)} {t : State} (hw : s.bwdTiles i op = (st, stat, t))
include hfree hprobe hw

/-- The weights of a wide DGRAD are not read. -/
theorem bwdIssue_unread (h : st ≠ .ok) : bwdIssue op i s = .go i.g (t.giveUnit i 1 st 0 [] [] []) := by
  simp [bwdIssue, hroom, hok, hruns, hin, hfree, hprobe, hw, h]

theorem bwdIssue_faulty (hst : st = .ok) (h : bwdFaulty (s.bwdFmt i op) stat = true) :
    bwdIssue op i s = .go i.g (t.giveUnit i 1 .illegal 0 [] [] [.count .TEN_BWD_RT_ILLEGAL i.part 0 1]) := by
  simp [bwdIssue, hroom, hok, hruns, hin, hfree, hprobe, hw, hst, h]

theorem bwdIssue_taken (hst : st = .ok) (h : bwdFaulty (s.bwdFmt i op) stat = false) :
    bwdIssue op i s = .go i.g
      ((t.writeOut i i.bwdArgs.d ((t.bwdOuts i op (s.bwdFmt i op) stat).map (fun o => (o.1, o.2.1, o.2.2.1)))).giveUnit i 1 .ok 0
        (s.bwdReads i op) i.bwdWrites
        (s.bwdPosts i op (mxRange (s.bwdFmt i op) stat) (t.bwdOuts i op (s.bwdFmt i op) stat))) := by
  simp [bwdIssue, hroom, hok, hruns, hin, hfree, hprobe, hw, hst, h]

end

/-- The commands of the backward arrays issue under rows that differ in OPCODE and operation alone (R256). -/
theorem exec_backward {x : Issue} {c : Instr × Nat × BwdOp}
    (hc : c ∈ [(Instr.dgrad x, 0x40, BwdOp.dgrad), (.wgrad x, 0x41, .wgrad), (.matmulBf16 x, 0x42, .matmul)]) (s : State) :
    exec c.1 s = .next (s.issue x ⟨c.2.1, fun _ => true, bwdFields c.2.2, bwdIssue c.2.2⟩) := by
  simp only [List.mem_cons, List.not_mem_nil, or_false] at hc
  rcases hc with rfl | rfl | rfl <;> rfl

/-! ### Completion -/

section
variable {s : State} {e : EngineId} {un : EngUnit}

/-- A stopped device, and a unit with none outstanding, complete nothing. -/
theorem exec_unitInstructionComplete_idle (r : UnitEnd)
    (h : s.stopped = true ∨ s.oldest (e.part.val * 48 + e.engine.val) un = none) : exec (.unitInstructionComplete e un r) s = .next s := by
  change execUnitInstructionComplete e un r s = _
  rcases h with hstop | hnone
  · simp [execUnitInstructionComplete, hstop]
  · simp [execUnitInstructionComplete, hnone]

variable {o : UnitOp} (hrun : s.stopped = false) (ho : s.oldest (e.part.val * 48 + e.engine.val) un = some o)
include hrun ho

theorem exec_unitInstructionComplete_done : exec (.unitInstructionComplete e un .done) s = .next (s.unitDone o) := by
  change execUnitInstructionComplete e un .done s = _
  simp [execUnitInstructionComplete, hrun, ho]

theorem exec_unitInstructionComplete_tile : exec (.unitInstructionComplete e un .tile) s = .next (s.tileDone o) := by
  change execUnitInstructionComplete e un .tile s = _
  simp [execUnitInstructionComplete, hrun, ho]

theorem exec_unitInstructionComplete_error : exec (.unitInstructionComplete e un .error) s = .next (s.unitError o) := by
  change execUnitInstructionComplete e un .error s = _
  simp [execUnitInstructionComplete, hrun, ho]

end

/-- An instruction has left its unit, its work is done and its counts are posted. -/
def State.posted (s : State) (o : UnitOp) : State := o.posts.foldl State.post ((s.leaveUnit o).finishWork o)

/-- The flags of an instruction join those of its program. -/
def Prog.withFlags (g : Prog) (o : UnitOp) : Prog := { g with flags := g.flags ||| o.flags }

section
variable {s : State} {o : UnitOp}

theorem unitDone_ended (hg : (s.posted o).prog o.prog = none) (hok : o.trap.status = .ok) : s.unitDone o = (s.posted o).settle := by
  unfold State.posted at hg
  simp only [State.unitDone, hg, if_pos hok, State.posted]

theorem unitDone_ended_raises (hg : (s.posted o).prog o.prog = none) (hbad : o.trap.status ≠ .ok) :
    s.unitDone o = ((s.posted o).raise o.prog o.trap).settle := by
  unfold State.posted at hg
  simp only [State.unitDone, hg, if_neg hbad, State.posted]

variable {g : Prog} (hg : (s.posted o).prog o.prog = some g)
include hg

theorem unitDone_running (hok : o.trap.status = .ok) : s.unitDone o = ((s.posted o).setProg o.prog (g.withFlags o)).settle := by
  unfold State.posted at hg
  simp only [State.unitDone, hg, if_pos hok, State.posted, Prog.withFlags]

theorem unitDone_running_raises (hbad : o.trap.status ≠ .ok) :
    s.unitDone o = (((s.posted o).setProg o.prog (g.withFlags o)).raise o.prog o.trap).settle := by
  unfold State.posted at hg
  simp only [State.unitDone, hg, if_neg hbad, State.posted, Prog.withFlags]

end

section
variable {s : State} {o : UnitOp}

/-- A tile with others behind it completes alone (R75). -/
theorem tileDone_more {y : CnvWork} (hy : o.work = some y) (hleft : 1 < y.left) :
    s.tileDone o = { (s.cnvTile (o.prog / 384) (s.opWindow o) y).2 with
      unitOps := (s.cnvTile (o.prog / 384) (s.opWindow o) y).2.unitOps.replace o
        { o with work := some (s.cnvTile (o.prog / 384) (s.opWindow o) y).1 } } := by
  simp only [State.tileDone, hy, if_pos hleft]

/-- The last tile completes with its instruction. -/
theorem tileDone_last (h : ∀ y, o.work = some y → y.left ≤ 1) : s.tileDone o = s := by
  unfold State.tileDone
  split
  · next y hy => exact if_neg (Nat.not_lt.mpr (h y hy))
  · rfl

end

/-- Settles O37: FMUL and the backward instructions by what their units answer, completion by what ends. -/
theorem arrayInstructions : Obligations.ArrayInstructions := by
  unfold Obligations.ArrayInstructions
  refine ⟨?forward, ?backward, ?completion⟩
  case forward =>
    intro s x g hready u i full busy
    obtain ⟨hold, go⟩ := issued_of_effect (f := fmulIssue) (c := .fmul x) rfl hready
    refine ⟨fun hfull => hold (fmulIssue_full hfull), fun hroom hfails => go _ _ (fmulIssue_fails hroom hfails),
      fun hroom hok hbusy => hold (fmulIssue_waits hroom hok hbusy), fun hroom hok hfree st wts t hw => ⟨?unread, ?faulty, ?taken⟩⟩
    case unread => exact fun hst => go _ _ (fmulIssue_unread hroom hok hfree rfl hw hst)
    case faulty => exact fun hst hf => go _ _ (fmulIssue_faulty hroom hok hfree rfl hw hst hf)
    case taken => exact fun hst hf => go _ _ (fmulIssue_taken hroom hok hfree rfl hw hst hf)
  case backward =>
    intro s x g u c hc hready i op full busy gone
    obtain ⟨hold, go⟩ := issued_of_effect (exec_backward hc s) hready
    refine ⟨fun hfull => hold (bwdIssue_full hfull), fun hroom hfails => go _ _ (bwdIssue_fails hroom hfails),
      fun hroom hok hskip => go _ _ (bwdIssue_skipped hroom hok hskip), fun hroom hok hruns => ⟨?outside, ?waits, ?taken⟩⟩
    case outside => exact fun hout => go _ _ (bwdIssue_outside hroom hok hruns hout)
    case waits => exact fun hin hbusy => hold (bwdIssue_waits hroom hok hruns hin hbusy)
    case taken =>
      exact fun hin hfree st stat t hw => ⟨fun hst => go _ _ (bwdIssue_unread hroom hok hruns hin hfree rfl hw hst),
        fun hst hf => go _ _ (bwdIssue_faulty hroom hok hruns hin hfree rfl hw hst hf),
        fun hst hf => go _ _ (bwdIssue_taken hroom hok hruns hin hfree rfl hw hst hf)⟩
  case completion =>
    intro s e un first
    refine ⟨fun r h => exec_unitInstructionComplete_idle r h, fun o hrun ho => ?_⟩
    have hdone := exec_unitInstructionComplete_done hrun ho
    have htile := exec_unitInstructionComplete_tile hrun ho
    exact ⟨fun hg hok => hdone.trans (congrArg _ (unitDone_ended hg hok)),
      fun g hg hok => hdone.trans (congrArg _ (unitDone_running hg hok)),
      fun g hg hbad => hdone.trans (congrArg _ (unitDone_running_raises hg hbad)),
      fun hg hbad => hdone.trans (congrArg _ (unitDone_ended_raises hg hbad)),
      fun y hy hleft => htile.trans (congrArg _ (tileDone_more hy hleft)),
      fun h => htile.trans (congrArg _ (tileDone_last h)),
      exec_unitInstructionComplete_error hrun ho⟩

end Sys2Proof.Machine
end

section
/-! SUPPORT. The counter-clear commands (R100, R132, R162, R200, R234, R318), and the mark of the last rate check that a clear of HBM_CE moves
(R319). -/

namespace Sys2Proof.Machine
open Sys2Proof

/-! ### Counter clears -/

/-- A clear of selected counters changes the register store and nothing else. -/
theorem clearSelected_regs_only (s : State) (rs : List RegName) (i v : Nat) : ∃ m, s.clearSelected rs i v = { s with regs := m } := by
  unfold State.clearSelected
  induction rs.zipIdx generalizing s with
  | nil => exact ⟨s.regs, rfl⟩
  | cons c cs ih =>
    rw [List.foldl_cons]
    by_cases hb : bit v c.2
    · rw [if_pos hb]
      exact ih (s.setReg c.1 i 0 0)
    · rw [if_neg hb]
      exact ih s

/-- A clear of a stack's HBM_CE takes what the counter held from the mark of the last rate check, so that the rise of R319 stays. -/
theorem clearStack_ceMark (s : State) (st : Nat) {v : Nat} (hb : bit v 0 = true) :
    (s.clearStack st v).ceMark = SMap.set 0 s.ceMark st (SMap.get 0 s.ceMark st - BitVec.ofNat 64 (s.reg .HBM_CE st 0)) := by
  obtain ⟨m, hm⟩ := clearSelected_regs_only s stackCounters st (v % 256)
  simp only [State.clearStack, hm, if_pos hb]

/-- A clear of an HBM_CE that is not 0 changes more than registers. -/
theorem clearStack_not_cleared {s : State} {st v : Nat} (hb : bit v 0 = true) (hn : s.reg .HBM_CE st 0 ≠ 0) :
    ¬ Cleared s (s.clearStack st v) stackCounters st v := by
  rintro ⟨-, -, m, hm⟩
  have hmark : SMap.get 0 s.ceMark st - BitVec.ofNat 64 (s.reg .HBM_CE st 0) = SMap.get 0 s.ceMark st :=
    calc SMap.get 0 s.ceMark st - BitVec.ofNat 64 (s.reg .HBM_CE st 0)
      _ = SMap.get 0 (s.clearStack st v).ceMark st := by rw [clearStack_ceMark s st hb, SMap.get_set, if_pos rfl]
      _ = SMap.get 0 s.ceMark st := by rw [hm]
  have hlt : s.reg .HBM_CE st 0 < 2 ^ 64 := BitVec.isLt _
  have hnat := congrArg BitVec.toNat hmark
  have hmarkLt := (SMap.get 0 s.ceMark st).isLt
  rw [BitVec.toNat_sub, BitVec.toNat_ofNat, Nat.mod_eq_of_lt hlt] at hnat
  omega

/-- The device at reset, but for one corrected block in stack 0. -/
def oneCorrected : State := State.reset.setReg .HBM_CE 0 0 1

theorem oneCorrected_hbmCe : oneCorrected.reg .HBM_CE 0 0 = 1 := reg_setReg_same _ _ _ _ _

/-- Refutes O10: HBM_COUNTER_CLEAR with bit 0 moves the mark of the last rate check (R319), which is no register, wherever HBM_CE is not 0. -/
theorem not_counterClears : ¬ Obligations.CounterClears := by
  unfold Obligations.CounterClears
  intro h
  have hbar : oneCorrected.function (.tenant 0 true) = some (0, 0) := by decide +kernel
  obtain ⟨-, -, -, -, -, hstack⟩ := h oneCorrected (.tenant 0 true) 0 1 hbar
  obtain ⟨t, ht, hcleared⟩ := hstack 0
  cases ht
  exact clearStack_not_cleared (by decide) (by rw [Fin.val_zero, oneCorrected_hbmCe]; decide) hcleared

end Sys2Proof.Machine
end

section
/-! SUPPORT. Commit traffic that passes its checks (R179): an outcome for another STEP (R224), and the twin's records (R222, R223). -/

namespace Sys2Proof.Machine
open Sys2Proof

/-! ### Arrival -/

/-- A packet that passes the checks of its arrival is matched in the state that the arrival leaves. -/
theorem receive_of_arrives {s : State} {k : Packet} (h : s.Arrives k) (f : State → State) : s.receive k f = f (s.arrival k).2 := by
  obtain ⟨hin, hlevel, hmember, hform, hcheck⟩ := h
  have harrive : s.arrive k = (some (s.arrival k).2, (s.arrival k).2) := by
    simp [State.arrive, hin, hlevel, hmember, hform, hcheck]
  rw [State.receive, harrive]

/-! ### Outcomes -/

/-- A member ignores an outcome whose STEP is not its own. -/
theorem matchOutcome_otherStep {t : State} {k : Packet} (hp : t.present (bits (pkArg k) 11 3) (bits (pkArg k) 0 6) = true)
    (hj : t.jobOf (bits (pkArg k) 11 3) (bits (pkArg k) 0 6) = pkJob k) (hd : pkByte k 8 ≤ 2)
    (hs : t.reg .BAT_STEP_NUM (bits (pkArg k) 11 3) (bits (pkArg k) 0 6) ≠ pkStep k) : t.matchOutcome k = t := by
  simp [State.matchOutcome, hp, hj, Nat.not_lt.mpr hd, hs]

/-- Settles O22: what passes its checks reaches `matchOutcome`, which compares the STEP before it learns a decision. -/
theorem outcomeOfAnotherStep : Obligations.OutcomeOfAnotherStep := by
  unfold Obligations.OutcomeOfAnotherStep
  intro s pk op cmd hcmd harr k t c p hp hj hd hs
  have hexec : exec cmd s = .next (s.receive k (fun u => u.matchOutcome k)) := by
    rcases hcmd with ⟨rfl, rfl⟩ | ⟨rfl, rfl⟩ <;> rfl
  rw [hexec, receive_of_arrives harr, matchOutcome_otherStep hp hj hd hs]

/-! ### The twin's records -/

theorem AlarmOnly.twinRecs {s t : State} (h : AlarmOnly s t) : t.twinRecs = s.twinRecs := by
  obtain ⟨_, _, _, _, _, _, _, rfl⟩ := h
  rfl

theorem sendPacket_twinRecs (s : State) (k : Packet) (op fails : Nat) : (s.sendPacket k op fails).twinRecs = s.twinRecs := by
  unfold State.sendPacket
  dsimp only
  split
  · rfl
  · split
    · split <;> rfl
    · rw [(enqueue_alarmOnly ..).twinRecs]
      split <;> rfl

/-- A recorded decision is answered and stays. -/
theorem matchQuery_recorded {t : State} {k : Packet} (h : (t.twinRec (pkJob k) (pkStep k)).isSome = true) :
    (t.matchQuery k).twinRecs = t.twinRecs := by
  obtain ⟨r, hr⟩ := Option.isSome_iff_exists.mp h
  simp only [State.matchQuery, hr, sendPacket_twinRecs]

/-- A QUERY for a STEP without a record makes the record of an ABORT, cause 0x7. -/
theorem matchQuery_unrecorded {t : State} {k : Packet} (h : t.twinRec (pkJob k) (pkStep k) = none) :
    (t.matchQuery k).twinRecs = t.twinRecs ++ [⟨t.fld SELV_PAIR_CTRL.TWIN 0 0, pkJob k, pkStep k, dAbort, 0, 7, []⟩] := by
  simp only [State.matchQuery, h, sendPacket_twinRecs]

/-- Settles O26: the answer to a QUERY changes no record, and the record that it may make comes before. -/
theorem twinRecordFinal : Obligations.TwinRecordFinal := by
  unfold Obligations.TwinRecordFinal
  intro s pk k t harr
  exact ⟨t.matchQuery k, congrArg Host.Outcome.next (receive_of_arrives harr _), matchQuery_recorded, matchQuery_unrecorded⟩

end Sys2Proof.Machine
end

section
/-! SUPPORT. The registration of entries (R203 to R206, R343) and the update of a shard (R207, R230, R346). -/

namespace Sys2Proof.Machine
open Sys2Proof

/-! ### Registration -/

section
variable {s : State} {bar : Bar} {p : Nat} (v : W32) (hbar : s.function bar = some (p, 0))
include hbar

theorem exec_validate : exec (.validate bar v) s = .next (s.validate p (BAT_REG_CMD.ENTRY.of v.toNat)) :=
  congrArg Host.Outcome.next (viaPhysical_some hbar)

theorem exec_invalidate : exec (.invalidate bar v) s = .next (s.invalidate p (BAT_REG_CMD.ENTRY.of v.toNat)) :=
  congrArg Host.Outcome.next (viaPhysical_some hbar)

end

/-- What VALIDATE makes of a context's entry whose words it has taken and found without error: its ROT is recorded, ROLLBACK_OK and METHOD
follow its mode, and its slots take their first places (R205, R206, R343). -/
def State.registered (t : State) (p c e : Nat) : State :=
  let t := { t with rots := SMap.set 0 t.rots (cidx p c * 65536 + t.ent BAT_REG_ID.RED_ID p e)
                              (BitVec.ofNat 32 (t.ent BAT_REG_CTRL.ROT p e + 1)) }
  let t := if t.ent BAT_REG_CTRL.SLOTS p e = 0 then t.setFld SNAP_CTX_STATUS.ROLLBACK_OK p c 0 else t
  let t := if t.ent BAT_REG_CTRL.SLOTS p e = 0 && t.ent BAT_REG_CTRL.KIND p e = 0 then t.setFld SNAP_ENTRY.METHOD p e 3 else t
  (t.setFld BAT_REG_CTRL.VALID p e 1).setReg .BAT_REG_SLOTS p e (4 + (if t.ent BAT_REG_CTRL.SLOTS p e = 1 then 2 else 3) * 16)

section
variable {s : State} {p e : Nat}

theorem validate_unowned (h : s.entryOwner p e = none) : s.validate p e = s := by
  simp only [State.validate, h]

theorem invalidate_unowned (h : s.entryOwner p e = none) : s.invalidate p e = s := by
  simp only [State.invalidate, h]

variable {c : Nat} (ho : s.entryOwner p e = some c)
include ho

theorem validate_registers (h : (s.takeEntry p e).entryError p c e = none) : s.validate p e = (s.takeEntry p e).registered p c e := by
  simp only [State.validate, ho, h, State.registered]

theorem validate_error {b : Nat} (h : (s.takeEntry p e).entryError p c e = some b) : s.validate p e = s.regError p e b := by
  simp only [State.validate, ho, h]

theorem invalidate_idle (h : s.stepState p c = 0) : s.invalidate p e = s.setFld BAT_REG_CTRL.VALID p e 0 := by
  simp only [State.invalidate, ho, if_neg (not_not_intro h)]

theorem invalidate_open (h : s.stepState p c ≠ 0) : s.invalidate p e = s.regError p e 6 := by
  simp only [State.invalidate, ho, if_pos h]

end

/-! ### The update of a shard -/

/-- An entry is a shard of an OPEN step of its context, neither frozen nor updated in the step (R207). -/
def State.ShardDue (s : State) (p c e : Nat) : Prop :=
  s.stepState p c = 1 ∧ e ∈ s.moving p c ∧ s.ent BAT_REG_CTRL.KIND p e = 0 ∧ e ∉ (s.stepOf p c).updated

/-- The guard of an update, as `execShardUpdate` asks it. -/
theorem shardDue_iff (s : State) (p c e : Nat) :
    s.ShardDue p c e ↔ ¬ (!(s.stepState p c = 1 && (s.moving p c).contains e && s.ent BAT_REG_CTRL.KIND p e = 0)
      || (s.stepOf p c).updated.contains e) = true := by
  simp [State.ShardDue, and_assoc]

/-- The local gradients of a shard, from the bytes read (R207); none where a value is not finite. -/
def State.localGrads (s : State) (p e : Nat) (b : List Byte) : List (Option GradSrc) :=
  (List.range (s.elems p e)).map (localGrad (s.gradBytes p e) b.toArray)

/-- What SHARD_UPDATE makes of a shard that is due (R207, R230, R346). -/
def State.updateDue (s : State) (p c e : Nat) : State :=
  let (ready, held) := s.copiesReady p c e
  if !ready then s
  else if held then s.waitOnce p c e false
  else if !s.mirrorLets p c then s.waitOnce p c e true
  else if s.ent BAT_REG_CTRL.GRAD_SRC p e = 0 then
    match s.slotGrads p c e with
    | none => s
    | some (.ok, g, s) => s.updateShard p c e g
    | some (_, _, s) => s.vetoStep p c 3
  else match s.hbmRead (.ctx 1 p c) (s.ent BAT_REG_GRAD.ADDR p e) (s.elems p e * s.gradBytes p e) with
    | (.ok, b, t) => if (s.localGrads p e b).any Option.isNone then t.battenBad p c
                     else t.updateShard p c e ((s.localGrads p e b).filterMap (fun y => y)).toArray
    | (_, _, s) => s.vetoStep p c 4

section
variable {s : State} {p : Fin 8} {e : Fin 4096}

theorem exec_shardUpdate_unowned (h : s.entryOwner p.val e.val = none) : exec (.shardUpdate p e) s = .next s := by
  change execShardUpdate p e s = _
  simp only [execShardUpdate, h]

variable {c : Nat} (ho : s.entryOwner p.val e.val = some c)
include ho

theorem exec_shardUpdate_notDue (h : ¬ s.ShardDue p.val c e.val) : exec (.shardUpdate p e) s = .next s := by
  change execShardUpdate p e s = _
  rw [shardDue_iff, Decidable.not_not] at h
  simp only [execShardUpdate, ho, if_pos h]

theorem exec_shardUpdate_due (h : s.ShardDue p.val c e.val) : exec (.shardUpdate p e) s = .next (s.updateDue p.val c e.val) := by
  change execShardUpdate p e s = _
  simp only [execShardUpdate, ho]
  exact congrArg Host.Outcome.next (if_neg ((shardDue_iff ..).mp h))

end

section
variable {s : State} {p c e : Nat}

/-- The contexts of the copies have no step open. -/
theorem updateDue_unready (h : (s.copiesReady p c e).1 = false) : s.updateDue p c e = s := by
  simp [State.updateDue, h]

theorem updateDue_held (h : s.copiesReady p c e = (true, true)) : s.updateDue p c e = s.waitOnce p c e false := by
  simp [State.updateDue, h]

variable (hready : s.copiesReady p c e = (true, false))
include hready

theorem updateDue_mirrored (h : s.mirrorLets p c = false) : s.updateDue p c e = s.waitOnce p c e true := by
  simp [State.updateDue, hready, h]

variable (hmirror : s.mirrorLets p c = true)
include hmirror

section
variable (hsrc : s.ent BAT_REG_CTRL.GRAD_SRC p e = 0)
include hsrc

/-- A covering slot is not READY. -/
theorem updateDue_noGrads (h : s.slotGrads p c e = none) : s.updateDue p c e = s := by
  simp [State.updateDue, hready, hmirror, hsrc, h]

theorem updateDue_slots {g : Array GradSrc} {t : State} (h : s.slotGrads p c e = some (.ok, g, t)) :
    s.updateDue p c e = t.updateShard p c e g := by
  simp [State.updateDue, hready, hmirror, hsrc, h]

theorem updateDue_slotsFail {st : Status} {g : Array GradSrc} {t : State} (h : s.slotGrads p c e = some (st, g, t)) (hst : st ≠ .ok) :
    s.updateDue p c e = t.vetoStep p c 3 := by
  simp [State.updateDue, hready, hmirror, hsrc, h]

end

section
variable (hsrc : s.ent BAT_REG_CTRL.GRAD_SRC p e ≠ 0) {st : Status} {b : List Byte} {t : State}
  (hread : s.hbmRead (.ctx 1 p c) (s.ent BAT_REG_GRAD.ADDR p e) (s.elems p e * s.gradBytes p e) = (st, b, t))
include hsrc hread

theorem updateDue_local (hst : st = .ok) (h : ∀ x ∈ s.localGrads p e b, x ≠ none) :
    s.updateDue p c e = t.updateShard p c e ((s.localGrads p e b).filterMap (fun y => y)).toArray := by
  have hall : ¬ (s.localGrads p e b).any Option.isNone = true := by
    simpa using fun hn => h none hn rfl
  simp [State.updateDue, hready, hmirror, hsrc, hread, hst, hall]

theorem updateDue_nonFinite (hst : st = .ok) (h : none ∈ s.localGrads p e b) : s.updateDue p c e = t.battenBad p c := by
  have hany : (s.localGrads p e b).any Option.isNone = true := List.any_eq_true.mpr ⟨none, h, rfl⟩
  simp only [State.updateDue, hready, hmirror, hsrc, hread, hst, hany]
  simp

theorem updateDue_unread (hst : st ≠ .ok) : s.updateDue p c e = t.vetoStep p c 4 := by
  simp [State.updateDue, hready, hmirror, hsrc, hread]

end

end

/-- Settles O24: registration by the entry's owner and its first error, the update of a shard by what it must still wait for. -/
theorem battenEntries : Obligations.BattenEntries := by
  unfold Obligations.BattenEntries
  refine ⟨⟨?unowned, ?owned⟩, fun s p e => ⟨exec_shardUpdate_unowned, ?update⟩⟩
  case unowned =>
    intro s bar p v hbar ho
    exact ⟨by rw [exec_validate v hbar, validate_unowned ho], by rw [exec_invalidate v hbar, invalidate_unowned ho]⟩
  case owned =>
    intro s bar p c v hbar ho e t
    have hval := exec_validate v hbar
    have hinv := exec_invalidate v hbar
    exact ⟨fun h => hval.trans (congrArg _ (validate_registers ho h)), fun b h => hval.trans (congrArg _ (validate_error ho h)),
      fun h => hinv.trans (congrArg _ (invalidate_idle ho h)), fun h => hinv.trans (congrArg _ (invalidate_open ho h))⟩
  case update =>
    intro c ho due
    have run := fun hdue : due => exec_shardUpdate_due ho hdue
    refine ⟨exec_shardUpdate_notDue ho, fun hdue h => (run hdue).trans (congrArg _ (updateDue_unready h)),
      fun hdue h => (run hdue).trans (congrArg _ (updateDue_held h)),
      fun hdue hready h => (run hdue).trans (congrArg _ (updateDue_mirrored hready h)),
      fun hdue hready hmirror => ⟨fun hsrc => ?slots, ?hbm⟩⟩
    case slots =>
      exact ⟨fun h => (run hdue).trans (congrArg _ (updateDue_noGrads hready hmirror hsrc h)),
        fun g t h => (run hdue).trans (congrArg _ (updateDue_slots hready hmirror hsrc h)),
        fun st g t h hst => (run hdue).trans (congrArg _ (updateDue_slotsFail hready hmirror hsrc h hst))⟩
    case hbm =>
      intro hsrc st b t hread l
      exact ⟨fun hst h => (run hdue).trans (congrArg _ (updateDue_local hready hmirror hsrc hread hst h)),
        fun hst h => (run hdue).trans (congrArg _ (updateDue_nonFinite hready hmirror hsrc hread hst h)),
        fun hst => (run hdue).trans (congrArg _ (updateDue_unread hready hmirror hsrc hread hst))⟩

end Sys2Proof.Machine
end

section
/-! SUPPORT. OPEN, COMMIT and VETO (R220, R221, R226, R235), the signal (R221) and the deadlines of a commit (R223). -/

namespace Sys2Proof.Machine
open Sys2Proof

/-! ### The step commands -/

section
variable {s : State} {bar : Bar} {p : Nat} (hbar : s.function bar = some (p, 0))
include hbar

/-- A step command names a context of the partition; one that is not present is not commanded. -/
theorem stepWrite_absent {c : Nat} (h : s.present p c = false) (f : State → Nat → Nat → Status × State) : s.stepWrite bar c f = s := by
  rw [State.stepWrite, viaPhysical_some hbar, if_neg (by simp [h])]

theorem stepWrite_present {c : Nat} (h : s.present p c = true) (f : State → Nat → Nat → Status × State) :
    s.stepWrite bar c f = (f s p c).2 := by
  rw [State.stepWrite, viaPhysical_some hbar, if_pos h]

end

section
variable {s : State} {p c : Nat}

theorem openCmd_opens (ha : s.admitted p c = true) (hs : s.stepState p c = 0) (hr : s.role p c ≠ 1) :
    s.openCmd p c = (.ok, s.openStep p c) := if_pos (by simp [ha, hs, hr])

theorem openCmd_refused (h : s.admitted p c = false ∨ s.stepState p c ≠ 0 ∨ s.role p c = 1) :
    s.openCmd p c = (.illegal, s.setFld BAT_STEP_STATUS.RESULT p c 3) := if_neg (by rcases h with h | h | h <;> simp [h])

theorem commitCmd_records (h : s.stepState p c = 1) :
    s.commitCmd p c = (.ok, (s.setStep p c { s.stepOf p c with commitReq := true }).setFld BAT_STEP_STATUS.RESULT p c 0) := if_pos h

theorem commitCmd_refused (h : s.stepState p c ≠ 1) : s.commitCmd p c = (.illegal, s.setFld BAT_STEP_STATUS.RESULT p c 3) := if_neg h

/-! ### Vetoes -/

theorem vetoStep_open {cause : Nat} (h : s.stepState p c = 1) : s.vetoStep p c cause = (s.sendVeto p c cause).endStep p c .veto cause :=
  if_pos h

theorem vetoStep_signalled {cause : Nat} (h : s.stepState p c = 2) :
    s.vetoStep p c cause = if cause ∈ [1, 5] then s.sendVeto p c cause else s := by
  simp [State.vetoStep, h]

theorem vetoStep_elsewhere {cause : Nat} (h : s.stepState p c ∉ [1, 2]) : s.vetoStep p c cause = s := by
  have h1 : s.stepState p c ≠ 1 := fun e => h (by simp [e])
  have h2 : s.stepState p c ≠ 2 := fun e => h (by simp [e])
  simp [State.vetoStep, h1, h2]

end

theorem exec_commitVeto_vetoes {s : State} {p : Fin 8} {v : W32} (hv : bit v.toNat 0 = true) (hm : s.mgmtStopped = false) :
    exec (.commitVeto p v) s = .next (((s.ctxsOfPart p.val).filter (fun c => s.role p.val c ≠ 1)).foldl (fun s c => s.vetoStep p.val c 5) s) :=
  congrArg Host.Outcome.next (if_pos (by simp [hv, hm]))

theorem exec_commitVeto_stays {s : State} {p : Fin 8} {v : W32} (h : bit v.toNat 0 = false ∨ s.mgmtStopped = true) :
    exec (.commitVeto p v) s = .next s :=
  congrArg Host.Outcome.next (if_neg (by rcases h with h | h <;> simp [h]))

/-! ### Deadlines -/

/-- A member without an outcome asks the home's twin once its DEADLINE has passed, and once alone (R223). -/
theorem exec_commitDeadline (x : CtxId) (s : State) : exec (.commitDeadline x) s = .next
    (if s.stepState x.part.val x.ctx.val = 2 ∧ (s.stepOf x.part.val x.ctx.val).queryPick = none
        ∧ (s.stepOf x.part.val x.ctx.val).signalPick + s.deadline x.part.val x.ctx.val ≤ s.pick then
      (s.sendCommit x.part.val x.ctx.val 4 (s.fld BAT_COMMIT_HOME.HOME_TWIN x.part.val x.ctx.val)
        (s.reg .BAT_STEP_NUM x.part.val x.ctx.val) 0 []).setStep x.part.val x.ctx.val
        { s.stepOf x.part.val x.ctx.val with queryPick := some s.pick }
    else s) := by
  change execCommitDeadline x s = _
  simp [execCommitDeadline, and_assoc]

section
variable {s : State} {x : CtxId}

theorem exec_queryDeadline_unasked (h : (s.stepOf x.part.val x.ctx.val).queryPick = none) : exec (.queryDeadline x) s = .next s := by
  change execQueryDeadline x s = _
  simp only [execQueryDeadline, h]

theorem exec_queryDeadline_asked {q : Nat} (h : (s.stepOf x.part.val x.ctx.val).queryPick = some q) : exec (.queryDeadline x) s = .next
    (if s.stepState x.part.val x.ctx.val = 2 ∧ q + s.deadline x.part.val x.ctx.val ≤ s.pick then
      (s.setFld BAT_STEP_STATUS.STATE x.part.val x.ctx.val 4).settle else s) := by
  change execQueryDeadline x s = _
  simp [execQueryDeadline, h]

end

/-- Settles O25: each command by the state of its step, a veto by the state that it meets, a deadline by what is still awaited. -/
theorem stepsAndCommit : Obligations.StepsAndCommit := by
  unfold Obligations.StepsAndCommit
  refine ⟨?commands, ⟨?partition, ?vetoes⟩, ?commit⟩
  case commands =>
    intro s bar p c v hbar
    refine ⟨fun habsent => ?absent, fun hpresent => ?present⟩
    case absent =>
      have hstays := stepWrite_absent hbar habsent
      simp only [List.mem_cons, List.not_mem_nil, or_false]
      rintro i (rfl | rfl | rfl) <;> exact congrArg Host.Outcome.next (hstays _)
    case present =>
      have hruns := fun f => congrArg (Host.Outcome.next (φ := Fault) (ρ := Refusal)) (stepWrite_present hbar hpresent f)
      refine ⟨fun ha hs hr => (hruns _).trans ?_, fun h => (hruns _).trans ?_, fun h => (hruns _).trans ?_, fun h => (hruns _).trans ?_, hruns _⟩
      · rw [openCmd_opens ha hs hr]
      · rw [openCmd_refused h]
      · rw [commitCmd_records h]
      · rw [commitCmd_refused h]
  case partition => exact fun s p v => ⟨exec_commitVeto_vetoes, exec_commitVeto_stays⟩
  case vetoes =>
    exact fun s p c cause => ⟨vetoStep_open, fun h hc => (vetoStep_signalled h).trans (if_pos hc),
      fun h hc => (vetoStep_signalled h).trans (if_neg hc), vetoStep_elsewhere⟩
  case commit =>
    intro s x p c
    refine ⟨fun h => congrArg Host.Outcome.next (if_pos h), fun h => congrArg Host.Outcome.next (if_neg (Bool.eq_false_iff.mp h)), ?asks, ?waits,
      exec_queryDeadline_unasked, ?answerWaits, ?undecided⟩
    case asks => exact fun h2 hq hd => (exec_commitDeadline x s).trans (congrArg _ (if_pos ⟨h2, hq, hd⟩))
    case waits => exact fun h => (exec_commitDeadline x s).trans (congrArg _ (if_neg h))
    case answerWaits => exact fun q hq h => (exec_queryDeadline_asked hq).trans (congrArg _ (if_neg h))
    case undecided => exact fun q hq h2 hd => (exec_queryDeadline_asked hq).trans (congrArg _ (if_pos ⟨h2, hd⟩))

end Sys2Proof.Machine
end

section
/-! SUPPORT. The instructions on knots, on the step and on time (R262). -/

namespace Sys2Proof.Machine
open Sys2Proof

/-! ### Issue -/

/-- What a command comes to whose ready instruction issues under a row. -/
theorem exec_of_ready {c : Instr} {s : State} {x : Issue} {g : Prog} {r : Row} (hc : exec c s = .next (s.issue x r))
    (h : s.Ready x r.opcode r.fields g) (hs : r.sub x.op.toNat = true) :
    (∀ g2 t, r.effect (issOf x g r.opcode) (s.fetched x g) = .go g2 t → exec c s = .next (t.landed (issOf x g r.opcode) g2))
    ∧ (r.effect (issOf x g r.opcode) (s.fetched x g) = .hold → exec c s = .next s)
    ∧ ∀ st, r.effect (issOf x g r.opcode) (s.fetched x g) = .raise st →
        exec c s = .next ((s.fetched x g).trapped (issOf x g r.opcode) st) :=
  ⟨fun _ _ hf => hc.trans (congrArg _ (issue_go h hs hf)), fun hf => hc.trans (congrArg _ (issue_hold h hs hf)),
    fun _ hf => hc.trans (congrArg _ (issue_raise h hs hf))⟩

/-! ### Effects -/

section
variable {i : Iss} {s : State}

theorem ksigLocal_adds (h : s.ownsKnot i.part i.ctx (i.f 30 11) = true) :
    rowKsigLocal.effect i s = .go i.g (s.knotAdd i.part (i.f 30 11) (i.g.getS (i.f 47 5))) := if_pos h

theorem ksigLocal_foreign (h : s.ownsKnot i.part i.ctx (i.f 30 11) = false) : rowKsigLocal.effect i s = .raise .protection :=
  if_neg (by simp [h])

theorem ksigRemote_reserved (h : bits (i.g.getS (i.f 41 5)) 14 2 ≠ 0 ∨ bits (i.g.getS (i.f 41 5)) 32 32 ≠ 0) :
    rowKsigRemote.effect i s = .raise .illegal := if_pos (by simpa using h)

theorem ksigRemote_keyless (h14 : bits (i.g.getS (i.f 41 5)) 14 2 = 0) (h32 : bits (i.g.getS (i.f 41 5)) 32 32 = 0)
    (hk : s.keySet (s.jobOf i.part i.ctx) = none) : rowKsigRemote.effect i s = .raise .protection := by
  simp [rowKsigRemote, h14, h32, hk]

theorem ksigRemote_sends (h14 : bits (i.g.getS (i.f 41 5)) 14 2 = 0) (h32 : bits (i.g.getS (i.f 41 5)) 32 32 = 0)
    (hk : (s.keySet (s.jobOf i.part i.ctx)).isSome = true) : rowKsigRemote.effect i s = .go i.g
      (s.sendKnotAdd i.part i.ctx i.engine (.prog i.key (i.g.seq - 1) i.place 0x70) (i.g.getS (i.f 41 5)) (i.g.getS (i.f 47 5))) := by
  obtain ⟨k, hk⟩ := Option.isSome_iff_exists.mp hk
  simp [rowKsigRemote, h14, h32, hk]

theorem kwait_waits (h : s.ownsKnot i.part i.ctx (i.f 30 11) = true) :
    rowKwait.effect i s = .go { i.g with wait := .knot (i.f 30 11) (i.g.getS (i.f 47 5)) } s := if_pos h

theorem kwait_foreign (h : s.ownsKnot i.part i.ctx (i.f 30 11) = false) : rowKwait.effect i s = .raise .protection :=
  if_neg (by simp [h])

theorem kread_reads (h : s.ownsKnot i.part i.ctx (i.f 30 11) = true) :
    rowKread.effect i s = .go (i.g.setS (i.f 47 5) (s.reg .KNOT_COUNT i.part (i.f 30 11))) s := if_pos h

theorem kread_foreign (h : s.ownsKnot i.part i.ctx (i.f 30 11) = false) : rowKread.effect i s = .raise .protection :=
  if_neg (by simp [h])

theorem bstat_reads (h : i.f 46 1 = 0) :
    rowBstat.effect i s = .go (i.g.setS (i.f 47 5) (s.reg .BAT_STEP_STATUS i.part i.ctx)) s := if_neg (by simp [h])

theorem bstat_waits (h : i.f 46 1 = 1) : rowBstat.effect i s = .go { i.g with wait := .stepState (i.f 47 5) } s := if_pos h

theorem bcursorWrite_open (h : s.stepState i.part i.ctx = 1) :
    rowBcursorWrite.effect i s = .go i.g (s.setReg .BAT_CURSOR_PROV i.part i.ctx (i.g.getS (i.f 47 5))) :=
  congrArg (Issued.go i.g) (if_pos h)

theorem bcursorWrite_discarded (h : s.stepState i.part i.ctx ≠ 1) : rowBcursorWrite.effect i s = .go i.g s :=
  congrArg (Issued.go i.g) (if_neg h)

theorem tnow_pick (h : i.f 45 2 = 0) : rowTnow.effect i s = .go (i.g.setS (i.f 47 5) s.pick) s := by
  simp only [rowTnow, h]

theorem tnow_time (h : i.f 45 2 = 1) : rowTnow.effect i s = .go (i.g.setS (i.f 47 5) s.now.1) s.now.2 := by
  simp only [rowTnow, h]

theorem tnow_lock (h : i.f 45 2 = 2) :
    rowTnow.effect i s = .go (i.g.setS (i.f 47 5) (s.fld TIME_STATUS.FABRIC_LOCK 0 0)) s := by
  simp only [rowTnow, h]

theorem tnow_reserved (h : i.f 45 2 = 3) : rowTnow.effect i s = .raise .level := by
  simp only [rowTnow, h]

theorem tsched_foreign (h : s.ownsKnot i.part i.ctx (i.f 30 11) = false) : rowTsched.effect i s = .raise .protection :=
  if_pos (by simp [h])

theorem tsched_full (h : s.ownsKnot i.part i.ctx (i.f 30 11) = true) (hf : s.schedFull i.part = true) : rowTsched.effect i s = .hold :=
  (if_neg (by simp [h])).trans (if_pos hf)

theorem tsched_schedules (h : s.ownsKnot i.part i.ctx (i.f 30 11) = true) (hf : s.schedFull i.part = false) : rowTsched.effect i s = .go i.g
    { s with sched := s.sched ++ [⟨i.part, i.ctx, i.g.getS (i.f 47 5), i.f 30 11, i.g.getS (i.f 42 5), none⟩] } :=
  (if_neg (by simp [h])).trans (if_neg (by simp [hf]))

end

/-! ### The end of a remote addition -/

/-- A packet of an operation has not been delivered yet. -/
def State.undelivered (s : State) (op : Nat) : Bool := s.sent.any (fun x => x.op = op && s.loop.contains x.pk)

theorem exec_ksigRemoteComplete_ends {s : State} {op : Nat} {o : AsyncOp} (ho : s.async op = some o) (hw : o.work = .knotAdd)
    (hd : s.undelivered op = false) : exec (.ksigRemoteComplete op) s = .next
      (({ s with sent := s.sent.filter (fun x => x.op ≠ op) }).endAsync o .ok false) := by
  change execKsigRemoteComplete op s = _
  unfold State.undelivered at hd
  simp only [execKsigRemoteComplete, ho, hw, hd]
  simp

theorem exec_ksigRemoteComplete_stays {s : State} {op : Nat} (h : ∀ o, s.async op = some o → o.work ≠ .knotAdd ∨ s.undelivered op = true) :
    exec (.ksigRemoteComplete op) s = .next s := by
  change execKsigRemoteComplete op s = _
  unfold State.undelivered at h
  cases ho : s.async op with
  | none => simp only [execKsigRemoteComplete, ho]
  | some o =>
    rcases h o ho with hw | hd
    · simp [execKsigRemoteComplete, ho, hw]
    · simp only [execKsigRemoteComplete, ho, hd]
      simp

/-- Settles O34: each instruction is ready under its row, whose effect the lemmas above say case by case. -/
theorem knotStepAndTimeInstructions : Obligations.KnotStepAndTimeInstructions := by
  unfold Obligations.KnotStepAndTimeInstructions
  refine ⟨⟨?ksig, ?knots, fun s op => ⟨fun o => exec_ksigRemoteComplete_ends, exec_ksigRemoteComplete_stays⟩⟩, ?stepAndTime⟩
  case ksig =>
    intro s x g hready u i w
    refine ⟨fun hlocal => ?onDevice, fun hremote => ?remote⟩
    case onDevice =>
      obtain ⟨go, -, raise⟩ := exec_of_ready (c := .ksigLocal x) (r := rowKsigLocal) rfl hready (decide_eq_true hlocal)
      exact ⟨fun h => go _ _ (ksigLocal_adds h), fun h => raise _ (ksigLocal_foreign h)⟩
    case remote =>
      obtain ⟨go, -, raise⟩ := exec_of_ready (c := .ksigRemote x) (r := rowKsigRemote) rfl hready (decide_eq_true hremote)
      exact ⟨fun h => raise _ (ksigRemote_reserved h), fun h14 h32 hk => raise _ (ksigRemote_keyless h14 h32 hk),
        fun h14 h32 hk => go _ _ (ksigRemote_sends h14 h32 hk)⟩
  case knots =>
    intro s x g u i j
    refine ⟨fun hready => ?kwait, fun hready => ?kread⟩
    case kwait =>
      obtain ⟨go, -, raise⟩ := exec_of_ready (c := .kwait x) (r := rowKwait) rfl hready rfl
      exact ⟨fun h => go _ _ (kwait_waits h), fun h => raise _ (kwait_foreign h)⟩
    case kread =>
      obtain ⟨go, -, raise⟩ := exec_of_ready (c := .kread x) (r := rowKread) rfl hready rfl
      exact ⟨fun h => go _ _ (kread_reads h), fun h => raise _ (kread_foreign h)⟩
  case stepAndTime =>
    intro s x g u
    refine ⟨fun hready => ?bstep, fun hready => ?bcursor, fun hready => ?tnow, fun hready => ?bstat, fun hready => ?twaitp, fun hready => ?tsched⟩
    case bstep =>
      exact ⟨fun h => (exec_of_ready (c := .bstepOpen x) (r := rowBstepOpen) rfl hready (decide_eq_true h)).1 _ _ rfl,
        fun h => (exec_of_ready (c := .bstepCommit x) (r := rowBstepCommit) rfl hready (decide_eq_true h)).1 _ _ rfl,
        fun h => (exec_of_ready (c := .bstepVeto x) (r := rowBstepVeto) rfl hready (decide_eq_true h)).1 _ _ rfl⟩
    case bcursor =>
      have write := fun h => (exec_of_ready (c := .bcursorWrite x) (r := rowBcursorWrite) rfl hready (decide_eq_true h)).1
      exact ⟨fun h => (exec_of_ready (c := .bcursorReadCommitted x) (r := rowBcursorReadCommitted) rfl hready (decide_eq_true h)).1 _ _ rfl,
        fun h => (exec_of_ready (c := .bcursorReadProvisional x) (r := rowBcursorReadProvisional) rfl hready (decide_eq_true h)).1 _ _ rfl,
        fun h ho => write h _ _ (bcursorWrite_open ho), fun h ho => write h _ _ (bcursorWrite_discarded ho)⟩
    case tnow =>
      obtain ⟨go, -, raise⟩ := exec_of_ready (c := .tnow x) (r := rowTnow) rfl hready rfl
      exact ⟨fun h => go _ _ (tnow_pick h), fun h => go _ _ (tnow_time h), fun h => go _ _ (tnow_lock h), fun h => raise _ (tnow_reserved h)⟩
    case bstat =>
      obtain ⟨go, -, -⟩ := exec_of_ready (c := .bstat x) (r := rowBstat) rfl hready rfl
      exact ⟨fun h => go _ _ (bstat_reads h), fun h => go _ _ (bstat_waits h)⟩
    case twaitp => exact (exec_of_ready (c := .twaitp x) (r := rowTwaitp) rfl hready rfl).1 _ _ rfl
    case tsched =>
      obtain ⟨go, hold, raise⟩ := exec_of_ready (c := .tsched x) (r := rowTsched) rfl hready rfl
      exact ⟨fun h hf => go _ _ (tsched_schedules h hf), fun h hf => hold (tsched_full h hf), fun h => raise _ (tsched_foreign h)⟩

end Sys2Proof.Machine
end

section
/-! SUPPORT. The commands of the queues: what lets them start (R271, R275, R395, R414), and what each does when it starts (R271, R272, R280,
R285). -/

namespace Sys2Proof.Machine
open Sys2Proof

/-! ### Starting -/

section
variable {s : State} {x : QueueId} {is : Cmd → Bool} {f : State → Nat → Nat → Nat → Cmd → State}

/-- What a command comes to that starts. -/
theorem exec_of_starts {i : Instr} {cmd : Cmd} (hi : exec i s = .next (s.startCmd x is f)) (h : s.Starts x cmd) (his : is cmd = true) :
    exec i s = .next (f (s.served x) x.part.val x.q.val (s.queueCtx x) cmd) :=
  hi.trans (congrArg Host.Outcome.next (startCmd_go h his))

/-- An empty queue, and one whose next command is of another type. -/
theorem startCmd_other (h : ∀ cmd, s.nextCmd x.part.val x.q.val = some cmd → is cmd = false) : s.startCmd x is f = s := by
  cases hn : s.nextCmd x.part.val x.q.val with
  | none => simp only [State.startCmd, hn]
  | some cmd => simp [State.startCmd, hn, h cmd hn]

theorem startCmd_outsideRun (h : s.thermtrip = true ∨ s.fld PWR_STATE.CURRENT 0 0 ≠ 0) : s.startCmd x is f = s := by
  cases hn : s.nextCmd x.part.val x.q.val with
  | none => simp only [State.startCmd, hn]
  | some cmd => rcases h with h | h <;> simp [State.startCmd, hn, h]

variable {cmd : Cmd} (hn : s.nextCmd x.part.val x.q.val = some cmd) (his : is cmd = true) (ht : s.thermtrip = false)
  (hrun : s.fld PWR_STATE.CURRENT 0 0 = 0)
include hn his ht hrun

theorem startCmd_suspect (hc : s.fld HANG_CTX_STATUS.STATE x.part.val (s.queueCtx x) = 1) :
    s.startCmd x is f = s.blockCmd x.part.val x.q.val cmd := by
  unfold State.queueCtx at hc
  simp [State.startCmd, hn, his, ht, hrun, hc]

variable (hc : s.fld HANG_CTX_STATUS.STATE x.part.val (s.queueCtx x) ≠ 1)
include hc

theorem startCmd_notDue (hs : s.canStart x.part.val x.q.val = true) (hd : s.queueDue x.part.val x.q.val = false) :
    s.startCmd x is f = s := by
  unfold State.queueCtx at hc
  simp [State.startCmd, hn, his, ht, hrun, hc, hs, hd]

theorem startCmd_level (hd : s.canStart x.part.val x.q.val = true → s.queueDue x.part.val x.q.val = true) (hl : cmdLevelOk cmd = false) :
    s.startCmd x is f = ((s.served x).progress x.part.val (s.queueCtx x)).completeBare x.part.val x.q.val cmd .level := by
  unfold State.queueCtx at hc
  have hserve : (s.canStart x.part.val x.q.val && !s.queueDue x.part.val x.q.val) = false := by
    simpa using hd
  simp only [State.startCmd, hn, his, ht, hrun, hc, hserve, hl, State.served, State.queueCtx]
  simp

end

/-- What keeps the next command `o` of a queue from starting as one that `is` names, and what becomes of one that is not defined at level 1. -/
def State.StartRules (s : State) (x : QueueId) (o : Option Cmd) (i : Instr) (is : Cmd → Bool) : Prop :=
  let p := x.part.val
  let q := x.q.val
  let c := s.queueCtx x
  ((∀ cmd, o = some cmd → is cmd = false) → exec i s = .next s)
  ∧ ((s.thermtrip = true ∨ s.fld PWR_STATE.CURRENT 0 0 ≠ 0) → exec i s = .next s)
  ∧ (∀ cmd, o = some cmd → is cmd = true → s.thermtrip = false → s.fld PWR_STATE.CURRENT 0 0 = 0 →
    (s.fld HANG_CTX_STATUS.STATE p c = 1 → exec i s = .next (s.blockCmd p q cmd))
    ∧ (s.fld HANG_CTX_STATUS.STATE p c ≠ 1 →
      (s.canStart p q = true → s.queueDue p q = false → exec i s = .next s)
      ∧ ((s.canStart p q = true → s.queueDue p q = true) → cmdLevelOk cmd = false →
        exec i s = .next (((s.served x).progress p c).completeBare p q cmd .level))))

/-- Every command of a queue keeps these rules, since it starts by `State.startCmd`. -/
theorem startRules_of_startCmd {s : State} {x : QueueId} {o : Option Cmd} {i : Instr} {is : Cmd → Bool}
    {f : State → Nat → Nat → Nat → Cmd → State} (hi : exec i s = .next (s.startCmd x is f)) (ho : s.nextCmd x.part.val x.q.val = o) :
    s.StartRules x o i is := by
  subst ho
  rw [State.StartRules, hi]
  exact ⟨fun h => congrArg _ (startCmd_other h), fun h => congrArg _ (startCmd_outsideRun h),
    fun cmd hn his ht hrun => ⟨fun hc => congrArg _ (startCmd_suspect hn his ht hrun hc),
      fun hc => ⟨fun hs hd => congrArg _ (startCmd_notDue hn his ht hrun hc hs hd),
        fun hd hl => congrArg _ (startCmd_level hn his ht hrun hc hd hl)⟩⟩⟩

/-! ### What each command does -/

section
variable {s : State} {x : QueueId} {cmd : Cmd} (hs : s.Starts x cmd)
include hs

theorem exec_launch_refused (ht : cmd.type = 1) (h : (s.served x).launchCheck x.part.val (s.queueCtx x) cmd ≠ .ok) :
    exec (.launch x) s = .next (((s.served x).progress x.part.val (s.queueCtx x)).completeBare x.part.val x.q.val cmd
      ((s.served x).launchCheck x.part.val (s.queueCtx x) cmd)) :=
  (exec_of_starts (i := .launch x) rfl hs (by simp [ht])).trans (congrArg Host.Outcome.next (if_pos h))

/-- A LAUNCH that passes its checks has started when each of its engines has a copy (R272). -/
theorem exec_launch_places (ht : cmd.type = 1) (h : (s.served x).launchCheck x.part.val (s.queueCtx x) cmd = .ok)
    {t : State} {placed : Cmd} (hp : (s.served x).placeCopies x.part.val (s.queueCtx x) x.q.val cmd = (t, placed)) :
    exec (.launch x) s = .next (if placed.copies.length = (launchEngines placed).length then
      (t.progress x.part.val (s.queueCtx x)).setCmd x.part.val x.q.val { placed with started := true, blocked := false }
      else t.blockCmd x.part.val x.q.val placed) := by
  rw [exec_of_starts (i := .launch x) rfl hs (by simp [ht])]
  simp only [h, hp]
  simp

theorem exec_passClose_closes {y : Pass} (ht : cmd.type = 5) (hk : cmd.kind = 2)
    (hy : (s.served x).passes.find? (fun y => y.part = x.part.val && y.queue = x.q.val) = some y) :
    exec (.passClose x) s = .next (({ (s.served x).progress x.part.val (s.queueCtx x) with
      passes := (s.served x).passes.erase y } : State).completeBare x.part.val x.q.val cmd .ok) := by
  rw [exec_of_starts (i := .passClose x) rfl hs (by simp [ht, hk])]
  simp only [hy]

theorem exec_passClose_refused (ht : cmd.type = 5) (hk : cmd.kind = 2)
    (hy : (s.served x).passes.find? (fun y => y.part = x.part.val && y.queue = x.q.val) = none) :
    exec (.passClose x) s = .next
      (((s.served x).progress x.part.val (s.queueCtx x)).completeBare x.part.val x.q.val cmd .illegal) := by
  rw [exec_of_starts (i := .passClose x) rfl hs (by simp [ht, hk])]
  simp only [hy]

end

/-! ### The end of a LAUNCH -/

/-- The oldest started LAUNCH of a queue of which every copy has ended (R272). -/
def State.endedLaunch (s : State) (p q : Nat) : Option Cmd :=
  (s.queue p q).cmds.find? (fun c => c.started && c.type = 1 && c.copies.all (fun y => y.ended.isSome))

theorem exec_launchComplete_idle {s : State} {x : QueueId} (h : s.endedLaunch x.part.val x.q.val = none) :
    exec (.launchComplete x) s = .next s := by
  change execLaunchComplete x s = _
  unfold State.endedLaunch at h
  simp only [execLaunchComplete, h]

theorem exec_launchComplete_ends {s : State} {x : QueueId} {cmd : Cmd} (h : s.endedLaunch x.part.val x.q.val = some cmd)
    {st : Status} {flags e result : Nat}
    (hr : launchResult cmd (cmd.copies.filterMap (fun y => y.ended.map (fun z => (y.engine, z)))) = (st, flags, e, result)) :
    exec (.launchComplete x) s = .next (if (bit (cmd.word 0) 44 && st.good) = true then
      (s.complete x.part.val x.q.val cmd st flags e result).knotAdd x.part.val (bits (cmd.word 0) 45 11) 1
      else s.complete x.part.val x.q.val cmd st flags e result) := by
  change execLaunchComplete x s = _
  unfold State.endedLaunch at h
  simp only [execLaunchComplete, h, hr]

/-- Settles O39: what a command does when it starts, what keeps it from starting, and how a LAUNCH ends. -/
theorem queueCommands : Obligations.QueueCommands := by
  unfold Obligations.QueueCommands
  refine ⟨⟨?starts, ?rules⟩, ?completes⟩
  case starts =>
    intro s x cmd hs p q c v u on k
    refine ⟨?nop, ?launch, exec_launch_refused hs, ?kwait, ?kwaitForeign, ?ksig, ?ksigRemote, ?tsig, ?tsigForeign, ?passOpen, ?passClose,
      ?mstepClose⟩
    case nop => exact fun ht => exec_of_starts (i := .nopCommand x) rfl hs (by simpa using ht)
    case launch =>
      intro ht hok r
      have run := exec_launch_places hs ht hok (t := r.1) (placed := r.2) rfl
      exact ⟨fun h => run.trans (congrArg _ (if_pos h)), fun h => run.trans (congrArg _ (if_neg h))⟩
    case kwait =>
      intro ht ho
      have run := exec_of_starts (i := .kwaitCommand x) rfl hs (by simpa using ht)
      have mine : ¬ (!u.ownsKnot p c k) = true := Bool.not_not_eq.mpr ho
      exact ⟨fun h => run.trans (congrArg Host.Outcome.next ((if_neg mine).trans (if_pos h))),
        fun h => run.trans (congrArg Host.Outcome.next ((if_neg mine).trans (if_neg (Nat.not_le.mpr h))))⟩
    case kwaitForeign =>
      intro ht ho
      have run := exec_of_starts (i := .kwaitCommand x) rfl hs (by simpa using ht)
      exact run.trans (congrArg Host.Outcome.next (if_pos ((Bool.not_eq_true' _).mpr ho)))
    case ksig =>
      intro ht hb
      have run := exec_of_starts (i := .ksigCommand x) rfl hs (by simpa using ht)
      have here : ¬ bit (cmd.word 0) 43 = true := Bool.eq_false_iff.mp hb
      exact ⟨fun ho => run.trans (congrArg Host.Outcome.next ((if_neg here).trans (if_pos ho))),
        fun ho => run.trans (congrArg Host.Outcome.next ((if_neg here).trans (if_neg (Bool.eq_false_iff.mp ho))))⟩
    case ksigRemote =>
      intro ht hb
      have run := exec_of_starts (i := .ksigCommand x) rfl hs (by simpa using ht)
      have word : bits (cmd.word 2) 14 2 = 0 → bits (cmd.word 2) 32 32 = 0 →
          ¬ (bits (cmd.word 2) 14 2 ≠ 0 || bits (cmd.word 2) 32 32 ≠ 0) = true := fun h14 h32 => by simp [h14, h32]
      refine ⟨fun h14 h32 => ⟨fun hk => ?_, fun hk => ?_⟩, fun hw => ?_⟩
      · have keyed : ¬ (u.keySet (u.jobOf p c)).isNone = true := by simpa using Option.isSome_iff_ne_none.mp hk
        exact run.trans (congrArg Host.Outcome.next ((if_pos hb).trans ((if_neg (word h14 h32)).trans (if_neg keyed))))
      · exact run.trans (congrArg Host.Outcome.next ((if_pos hb).trans ((if_neg (word h14 h32)).trans (if_pos (Option.isNone_iff_eq_none.mpr hk)))))
      · exact run.trans (congrArg Host.Outcome.next ((if_pos hb).trans (if_pos (by simpa using hw))))
    case tsig =>
      intro ht ho
      have run := exec_of_starts (i := .tsig x) rfl hs (by simpa using ht)
      have mine : ¬ (!v.ownsKnot p c k) = true := Bool.not_not_eq.mpr ho
      exact ⟨fun h => run.trans (congrArg Host.Outcome.next ((if_neg mine).trans (if_neg (Bool.eq_false_iff.mp h)))),
        fun h => run.trans (congrArg Host.Outcome.next ((if_neg mine).trans (if_pos h)))⟩
    case tsigForeign =>
      intro ht ho
      have run := exec_of_starts (i := .tsig x) rfl hs (by simpa using ht)
      exact run.trans (congrArg Host.Outcome.next (if_pos ((Bool.not_eq_true' _).mpr ho)))
    case passOpen =>
      intro ht h2 h3
      have run := exec_of_starts (i := .passOpen x) rfl hs (by simp [ht, h2, h3])
      exact ⟨fun h => run.trans (congrArg Host.Outcome.next (if_neg (Nat.not_le.mpr h))),
        fun h => run.trans (congrArg Host.Outcome.next (if_pos h))⟩
    case passClose =>
      exact fun ht hk => ⟨fun y hy => exec_passClose_closes hs ht hk hy, fun hy => exec_passClose_refused hs ht hk hy⟩
    case mstepClose =>
      intro ht hk
      have run := exec_of_starts (i := .mstepClose x) rfl hs (by simp [ht, hk])
      exact ⟨fun h => run.trans (congrArg Host.Outcome.next (if_pos h)),
        fun h => run.trans (congrArg Host.Outcome.next (if_neg (Bool.eq_false_iff.mp h)))⟩
  case rules =>
    intro s x o ho p q c starts
    exact ⟨startRules_of_startCmd rfl ho, startRules_of_startCmd rfl ho, startRules_of_startCmd rfl ho, startRules_of_startCmd rfl ho,
      startRules_of_startCmd rfl ho, startRules_of_startCmd rfl ho, startRules_of_startCmd rfl ho, startRules_of_startCmd rfl ho⟩
  case completes =>
    intro s x o ho
    refine ⟨fun hnone => exec_launchComplete_idle (ho.trans hnone), ?_⟩
    intro cmd hsome r t
    have run := exec_launchComplete_ends (ho.trans hsome) (st := r.1) (flags := r.2.1) (e := r.2.2.1) (result := r.2.2.2) rfl
    exact ⟨fun h => run.trans (congrArg _ (if_pos h)), fun h => run.trans (congrArg _ (if_neg (by simp [h])))⟩

end Sys2Proof.Machine
end

section
/-! SUPPORT. Admission and its end (R374 to R376). -/

namespace Sys2Proof.Machine
open Sys2Proof

/-! ### The command of a write -/

/-- The lowest two bits of a word whose lowest field takes CMD. -/
theorem setBits_cmd_mod (v : Nat) {cmd : Nat} (h : cmd < 4) : setBits v 0 2 cmd % 4 = cmd := by
  simp only [setBits]
  omega

/-- CMD is no bit of ROLE. -/
theorem role_of_setBits_cmd (v cmd : Nat) : PART_CTX_ADMIT.ROLE.of (setBits v 0 2 cmd) = PART_CTX_ADMIT.ROLE.of v := by
  simp only [Field.of, bits, setBits]
  omega

/-- What a write to PART_CTX_ADMIT leaves before its command: a context that is not present takes ROLE (R374). -/
def State.withRole (s : State) (p c : Nat) (v : W32) : State :=
  if s.present p c then s else s.setFld PART_CTX_ADMIT.ROLE p c (PART_CTX_ADMIT.ROLE.of v.toNat)

theorem exec_admission (c : CtxId) (v : W32) (s : State) :
    exec (.admission c v) s = .next ((s.withRole c.part.val c.ctx.val v).tryAdmit c.part.val c.ctx.val) := by
  change execAdmission c v s = _
  simp only [execAdmission, State.writeAdmit, setBits_cmd_mod _ (by decide : 1 < 4), role_of_setBits_cmd, State.withRole]

theorem exec_leave (c : CtxId) (v : W32) (s : State) :
    exec (.leave c v) s = .next ((s.withRole c.part.val c.ctx.val v).leave c.part.val c.ctx.val) := by
  change execLeave c v s = _
  simp only [execLeave, State.writeAdmit, setBits_cmd_mod _ (by decide : 2 < 4), role_of_setBits_cmd, State.withRole]

/-! ### ADMIT -/

section
variable {t : State} {p c : Nat}

theorem tryAdmit_admits {i : Nat} (h : t.admitCheck p c = .ok) (hi : t.indexFor (t.jobOf p c) = some i) : t.tryAdmit p c = t.admitNow p c i := by
  simp only [State.tryAdmit, h, hi]

theorem tryAdmit_noIndex (h : t.admitCheck p c = .ok) (hi : t.indexFor (t.jobOf p c) = none) : t.tryAdmit p c = t.admitResult p c .illegal := by
  simp only [State.tryAdmit, h, hi]

theorem tryAdmit_refused (h : t.admitCheck p c ≠ .ok) : t.tryAdmit p c = t.admitResult p c (t.admitCheck p c) := by
  unfold State.tryAdmit
  split
  · next hok _ => exact absurd hok h
  · next hok _ => exact absurd hok h
  · rfl

end

/-! ### Teardown -/

theorem exec_jobTeardown_stays {s : State} {i : Fin 512} (h : i.val = 0 ∨ s.fld SEC_JOB.STATE i.val 0 ≠ 3) :
    exec (.jobTeardown i) s = .next s :=
  congrArg Host.Outcome.next (if_pos (by simpa using h))

theorem exec_jobTeardown_ends {s t : State} {i : Fin 512} (hi : i.val ≠ 0) (hs : s.fld SEC_JOB.STATE i.val 0 = 3)
    (ht : t = ((s.pagesNamed i.val).foldl State.zeroPage s).dropBoardCards i.val) :
    exec (.jobTeardown i) s = .next { t.setReg .SEC_JOB i.val 0 0 with
      homes := t.homes.filter (fun h => h.job ≠ t.fld SEC_JOB.JOB i.val 0),
      twinRecs := t.twinRecs.filter (fun r => r.job ≠ t.fld SEC_JOB.JOB i.val 0) } := by
  change execJobTeardown i s = _
  have hend : ¬ (i.val = 0 || s.fld SEC_JOB.STATE i.val 0 ≠ 3) = true := by simp [hi, hs]
  rw [execJobTeardown, if_neg hend, ht]

/-- Settles O48: ADMIT by its check and its index, LEAVE by the state of its context, teardown by the state of its index. -/
theorem admission : Obligations.Admission := by
  unfold Obligations.Admission
  refine ⟨?_, fun s i => ⟨exec_jobTeardown_stays, fun hi hs => exec_jobTeardown_ends hi hs rfl⟩⟩
  intro s c v p x t
  have hadmit : exec (.admission c v) s = .next (t.tryAdmit p x) := exec_admission c v s
  have hleave : exec (.leave c v) s = .next (t.leave p x) := exec_leave c v s
  refine ⟨fun i hok hi => ?_, fun hok hi => ?_, fun hbad => ?_, fun hin => ?_, fun hout => ?_, fun h2 => ?_, fun h2 => ?_⟩
  · rw [hadmit, tryAdmit_admits hok hi]
  · rw [hadmit, tryAdmit_noIndex hok hi]
  · rw [hadmit, tryAdmit_refused hbad]
  · rw [hleave, State.leave, if_pos hin]
  · rw [hleave, State.leave, if_neg (by simp [hout])]
  · exact congrArg Host.Outcome.next (if_pos h2)
  · exact congrArg Host.Outcome.next (if_neg h2)

end Sys2Proof.Machine
end

section
/-! SUPPORT. The registers of a program state (R237), and when an instruction issues at all (R236, R238, R244 to R246). -/

namespace Sys2Proof.Machine
open Sys2Proof

/-! ### Stores of elements that need not be there -/

theorem SMap.map_insert {α β : Type} (f : α → β) (k : Nat) (v : α) (m : SMap α) :
    (SMap.insert k v m).map (fun c => (c.1, f c.2)) = SMap.insert k (f v) (m.map (fun c => (c.1, f c.2))) := by
  induction m with
  | nil => rfl
  | cons c m ih =>
    by_cases h : k < c.1
    · simp [SMap.insert, h]
    · simp [SMap.insert, h, ih]

theorem SMap.find_erase_self {α : Type} (m : SMap α) (k : Nat) : SMap.find (SMap.erase m k) k = none := by
  have hmap : (SMap.erase m k).map (fun c => (c.1, some c.2)) = SMap.erase (m.map (fun c => (c.1, some c.2))) k := by
    simp only [SMap.erase, List.filter_map]
    rfl
  rw [SMap.find, hmap, SMap.get_erase, if_pos rfl]

theorem SMap.find_put_self {α : Type} (m : SMap α) (k : Nat) (v : α) : SMap.find (SMap.put m k v) k = some v := by
  have habsent : ∀ c ∈ (SMap.erase m k).map (fun c => (c.1, some c.2)), c.1 ≠ k := by
    intro c hc
    obtain ⟨e, he, rfl⟩ := List.mem_map.mp hc
    exact (SMap.mem_erase.mp he).2
  rw [SMap.find, SMap.put, SMap.map_insert some, SMap.get_insert _ _ _ _ _ habsent, if_pos rfl]

@[simp] theorem prog_setProg (s : State) (k : Nat) (g : Prog) : (s.setProg k g).prog k = some g := SMap.find_put_self ..

/-! ### Registers of a program state -/

section
variable (g : Prog) (d v j : Nat)

theorem getS_setS : (g.setS d v).getS j = if j = 0 then 0 else if j = d then v % 2 ^ 64 else g.getS j := by
  by_cases hj : j = 0
  · simp [Prog.getS, hj]
  · by_cases hd : d = 0
    · simp [Prog.setS, Prog.getS, hd, hj]
    · by_cases hjd : j = d <;> simp [Prog.setS, Prog.getS, SMap.get_set, hd, hj, hjd]

theorem getA_setA : (g.setA d v).getA j = if j = d then v % 2 ^ 64 else g.getA j := by
  by_cases hjd : j = d <;> simp [Prog.setA, Prog.getA, SMap.get_set, hjd]

theorem getP_setP : (g.setP d v).getP j = if j = 0 then 2 ^ 64 - 1 else if j = d then v % 2 ^ 64 else g.getP j := by
  by_cases hj : j = 0
  · simp [Prog.getP, hj]
  · by_cases hd : d = 0
    · simp [Prog.setP, Prog.getP, hd, hj]
    · by_cases hjd : j = d <;> simp [Prog.setP, Prog.getP, SMap.get_set, hd, hj, hjd]

theorem getT_setT (w : BitVec 128) : (g.setT d w).getT j = if j = d then w else g.getT j := SMap.get_set ..

/-- A write of S[d] changes nothing but the scalar registers. -/
theorem setS_eq : g.setS d v = { g with s := (g.setS d v).s } := by
  by_cases hd : d = 0 <;> simp [Prog.setS, hd]

/-- A write of P[d] changes nothing but the predicate registers. -/
theorem setP_eq : g.setP d v = { g with p := (g.setP d v).p } := by
  by_cases hd : d = 0 <;> simp [Prog.setP, hd]

end

theorem getS_setS_ne (g : Prog) (v : Nat) {d j : Nat} (h : j ≠ d) : (g.setS d v).getS j = g.getS j := by
  rw [getS_setS, if_neg h]
  split
  · next h0 => rw [h0, Prog.getS, if_pos rfl]
  · rfl

theorem getA_setA_ne (g : Prog) (v : Nat) {d j : Nat} (h : j ≠ d) : (g.setA d v).getA j = g.getA j := by
  rw [getA_setA, if_neg h]

theorem getP_setP_ne (g : Prog) (v : Nat) {d j : Nat} (h : j ≠ d) : (g.setP d v).getP j = g.getP j := by
  rw [getP_setP, if_neg h]
  split
  · next h0 => rw [h0, Prog.getP, if_pos rfl]
  · rfl

/-- Lanes written one by one: those below `n` of the register `d` hold what was written, every other its old value. -/
theorem get_foldl_lanes (f : Nat → W32) (d n : Nat) (m : SMap W32) (k : Nat) :
    SMap.get 0 ((List.range n).foldl (fun m j => SMap.set 0 m (64 * d + j) (f j)) m) k
      = if 64 * d ≤ k ∧ k < 64 * d + n then f (k - 64 * d) else SMap.get 0 m k := by
  induction n with
  | zero => simp [show ¬ (64 * d ≤ k ∧ k < 64 * d) by omega]
  | succ n ih =>
    rw [List.range_succ, List.foldl_append, List.foldl_cons, List.foldl_nil, SMap.get_set, ih]
    by_cases hk : k = 64 * d + n
    · simp [hk]
    · have hlane : (64 * d ≤ k ∧ k < 64 * d + n) ↔ (64 * d ≤ k ∧ k < 64 * d + (n + 1)) := by omega
      simp only [if_neg hk, hlane]

theorem getV_setV (g : Prog) (d : Nat) (f : Nat → Nat) (r : Nat) {j : Nat} (hj : j < 64) :
    (g.setV d f).getV r j = if r = d then f j % 2 ^ 32 else g.getV r j := by
  rw [Prog.getV, Prog.setV, get_foldl_lanes]
  by_cases hr : r = d
  · subst hr
    simp [hj]
  · rw [if_neg (by omega), if_neg hr, Prog.getV]

/-- Settles O30: what each class of register reads as after a write of one of them, and that the write leaves the other classes. -/
theorem programRegisters : Obligations.ProgramRegisters := by
  unfold Obligations.ProgramRegisters
  intro g d v
  exact ⟨getS_setS g d v, getA_setA g d v, getP_setP g d v, fun w j => getT_setT g d j w, ⟨_, setS_eq g d v⟩, ⟨_, rfl⟩,
    ⟨_, setP_eq g d v⟩, fun _ => ⟨_, rfl⟩, fun f r _ hj => getV_setV g d f r hj⟩

/-! ### Words that another row spells, or none -/

theorem bits_spelled_lvl (x : Issue) (n : Nat) : bits (spelled x n) 52 4 = x.lvl.toNat := by
  have hlvl := x.lvl.isLt
  have hop := x.op.isLt
  unfold bits spelled
  omega

theorem bits_spelled_opcode (x : Issue) {n : Nat} (h : n < 256) : bits (spelled x n) 56 8 = n := by
  have hlvl := x.lvl.isLt
  have hop := x.op.isLt
  unfold bits spelled
  omega

/-- No row has a level other than 1 (R244). -/
theorem rowOf_spelled_otherLevel {x : Issue} (h : x.lvl ≠ 1) (n : Nat) : rowOf (spelled x n) = none := by
  have hlvl : x.lvl.toNat ≠ 1 := fun e => h (BitVec.eq_of_toNat_eq e)
  rw [rowOf, bits_spelled_lvl, if_neg hlvl]

section
variable {s : State} {x : Issue} {r : Row} {g : Prog}

/-- A reserved word completes with LEVEL, and reports the OPCODE it has. -/
theorem issue_unspelled (h : s.Stands x g (spelled x r.opcode)) (hn : r.opcode < 256) (hl : x.lvl ≠ 1 ∨ r.sub x.op.toNat = false)
    (hr : rowOf (spelled x r.opcode) = none) : s.issue x r = (s.fetched x g).trapped (issOf x g r.opcode) .level := by
  rw [issue_reserved h hl hr, bits_spelled_opcode x hn]
  rfl

/-- A word that spells another instruction is no case of a command. -/
theorem issue_otherRow (h : s.Stands x g (spelled x r.opcode)) (hs : r.sub x.op.toNat = false)
    (hr : (rowOf (spelled x r.opcode)).isSome = true) : s.issue x r = s := by
  rw [issue_stands h, if_neg (by simp [hs]), if_pos hr]

/-- A fetch that fails gives its status to the instruction, whose OPCODE is then a free value (R238). -/
theorem issue_unfetched {st : Status} {w : W64} {u : State} (hp : s.prog (progKey x.part.val x.engine.val x.ps.val) = some g)
    (ht : g.trap = none) (hw : g.wait = .none) (hs : s.stopped = false) (hd : s.due x.part.val x.engine.val x.ps.val = true)
    (hf : s.fetch x.part.val x.engine.val g = (st, w, u)) (hst : st ≠ .ok) :
    s.issue x r = (u.fresh.2.turnTo x.part.val x.engine.val x.ps.val).trapped (issOf x g (u.fresh.1 % 256)) st := by
  have hissues : ¬ (g.trap.isSome || g.wait ≠ Wait.none || s.stopped || !s.due x.part.val x.engine.val x.ps.val) = true := by
    simp [ht, hw, hs, hd]
  unfold State.issue
  simp only [hp, if_neg hissues, hf]
  rfl

end

theorem opcode_lt_of_mem_allRows : ∀ r ∈ allRows, r.opcode < 256 := by decide

/-- Settles O27: every command of Onaile issues under its row, and the lemmas above say what a row does with a word it does not take. -/
theorem levelException : Obligations.LevelException := by
  unfold Obligations.LevelException
  intro s x g c hc
  have hexec : exec c.1 s = .next (s.issue x c.2) := by
    refine List.map_inj_left (f := fun c => exec c.1 s) (g := fun c => .next (s.issue x c.2)).mp ?_ c hc
    rfl
  have hopcode : c.2.opcode < 256 := opcode_lt_of_mem_allRows _ (List.mem_map_of_mem (f := Prod.snd) hc)
  rw [hexec]
  refine ⟨fun hstands => ⟨fun hl => ?level, fun hl hs hn => ?bitSet, fun _ hs hr => ?reserved, fun _ hs hr => ?otherRow⟩, fun hidle => ?idle,
    fun st w u hp ht hw hs hd hf hst => ?unfetched⟩
  case level => rw [issue_unspelled hstands hopcode (.inl hl) (rowOf_spelled_otherLevel hl _)]
  case bitSet => rw [issue_level hstands hl hs hn]
  case reserved => rw [issue_unspelled hstands hopcode (.inr hs) hr]
  case otherRow => rw [issue_otherRow hstands hs hr]
  case idle => rw [issue_idle hidle]
  case unfetched => rw [issue_unfetched hp ht hw hs hd hf hst]

end Sys2Proof.Machine
end

section
/-! SUPPORT. The control instructions (R250). -/

namespace Sys2Proof.Machine
open Sys2Proof

section
variable {i : Iss} {s : State}

theorem br_goes (h : i.g.getP (i.f 49 3) % 2 = i.f 48 1) : rowBr.effect i s = .go (i.branch i.g (i.f 0 32)) s :=
  congrArg (Issued.go · s) (if_pos h)

theorem br_goesOn (h : i.g.getP (i.f 49 3) % 2 ≠ i.f 48 1) : rowBr.effect i s = .go i.g s := congrArg (Issued.go · s) (if_neg h)

theorem jmpa_goes {g : Prog} (h : i.g.jump (i.g.getA (i.f 48 4)) = some g) : rowJmpa.effect i s = .go g s := by simp only [rowJmpa, h]

theorem jmpa_nowhere (h : i.g.jump (i.g.getA (i.f 48 4)) = none) : rowJmpa.effect i s = .raise .illegal := by simp only [rowJmpa, h]

theorem loop_goes (h : (i.g.getS (i.f 47 5) + 2 ^ 64 - 1) % 2 ^ 64 ≠ 0) : rowLoop.effect i s
    = .go (i.branch (i.g.setS (i.f 47 5) ((i.g.getS (i.f 47 5) + 2 ^ 64 - 1) % 2 ^ 64)) (i.f 0 32)) s :=
  congrArg (Issued.go · s) (if_pos h)

theorem loop_ends (h : (i.g.getS (i.f 47 5) + 2 ^ 64 - 1) % 2 ^ 64 = 0) : rowLoop.effect i s = .go (i.g.setS (i.f 47 5) 0) s :=
  congrArg (Issued.go · s) ((if_neg (not_not_intro h)).trans (congrArg (i.g.setS (i.f 47 5)) h))

end

/-- Settles O28: each instruction is ready under its row, whose effect the lemmas above say where it branches. -/
theorem controlInstructions : Obligations.ControlInstructions := by
  unfold Obligations.ControlInstructions
  intro s x g
  refine ⟨fun hready => ?nop, fun hready => ?yield, fun hready => ?br, fun hready => ?jmpa, fun hready => ?call, fun hready => ?loop,
    fun hready => ?waitu, fun hready => ?endProgram⟩
  case nop => exact (exec_of_ready (c := .nopInstr x) (r := rowNopInstr) rfl hready rfl).1 _ _ rfl
  case yield => exact (exec_of_ready (c := .yield x) (r := rowYield) rfl hready rfl).1 _ _ rfl
  case br =>
    obtain ⟨go, -, -⟩ := exec_of_ready (c := .br x) (r := rowBr) rfl hready rfl
    exact ⟨fun h => go _ _ (br_goes h), fun h => go _ _ (br_goesOn h)⟩
  case jmpa =>
    obtain ⟨go, -, raise⟩ := exec_of_ready (c := .jmpa x) (r := rowJmpa) rfl hready rfl
    exact ⟨fun _ h => go _ _ (jmpa_goes h), fun h => raise _ (jmpa_nowhere h)⟩
  case call => exact (exec_of_ready (c := .call x) (r := rowCall) rfl hready rfl).1 _ _ rfl
  case loop =>
    obtain ⟨go, -, -⟩ := exec_of_ready (c := .loop x) (r := rowLoop) rfl hready rfl
    exact ⟨fun h => go _ _ (loop_goes h), fun h => go _ _ (loop_ends h)⟩
  case waitu => exact (exec_of_ready (c := .waitu x) (r := rowWaitu) rfl hready rfl).1 _ _ rfl
  case endProgram => exact (exec_of_ready (c := .endProgram x) (r := rowEndProgram) rfl hready rfl).1 _ _ rfl

end Sys2Proof.Machine
end

section
/-! SUPPORT. The scalar instructions, and the loads and stores of the own bobbin (R240, R243, R248, R249, R251). -/

namespace Sys2Proof.Machine
open Sys2Proof

/-! ### Reserved sub-codes -/

theorem sop_isSome {f : Nat} (h : f < 0x0E) (a b : Nat) : (sop f a b).isSome = true :=
  match f, h with
  | 0, _ | 1, _ | 2, _ | 3, _ | 4, _ | 5, _ | 6, _ | 7, _ | 8, _ | 9, _ | 10, _ | 11, _ | 12, _ | 13, _ => rfl
  | n + 14, h => absurd h (Nat.not_lt.mpr (Nat.le_add_left 14 n))

theorem sop_reserved {f : Nat} (h : 0x0E ≤ f) (a b : Nat) : sop f a b = none := by
  obtain ⟨n, rfl⟩ := Nat.exists_eq_add_of_le' h
  rfl

theorem scond_reserved {c : Nat} (h : 6 ≤ c) (a b : Nat) : scond c a b = none := by
  obtain ⟨n, rfl⟩ := Nat.exists_eq_add_of_le' h
  rfl

theorem sysr_reserved {sel : Nat} (h : 0x0E ≤ sel) (i : Iss) (s : State) : s.sysr i sel = (none, s) := by
  obtain ⟨n, rfl⟩ := Nat.exists_eq_add_of_le' h
  rfl

/-! ### Effects on the registers -/

section
variable {i : Iss} {s : State}

theorem sop_writes {v : Nat} (h : sop (i.f 32 5) (i.g.getS (i.f 42 5)) (i.g.getS (i.f 37 5)) = some v) :
    rowSop.effect i s = .go (i.g.setS (i.f 47 5) v) s := by simp only [rowSop, h]

theorem sop_level (h : 0x0E ≤ i.f 32 5) : rowSop.effect i s = .raise .level := by simp only [rowSop, sop_reserved h]

theorem sopi_writes {v : Nat} (h : sop (i.f 32 5) (i.g.getS (i.f 42 5)) (unsigned 64 (signed 32 (i.f 0 32))) = some v) :
    rowSopi.effect i s = .go (i.g.setS (i.f 47 5) v) s := by simp only [rowSopi, h]

theorem sopi_level (h : 0x0E ≤ i.f 32 5) : rowSopi.effect i s = .raise .level := by simp only [rowSopi, sop_reserved h]

theorem sli_high (h : i.f 46 1 = 1) :
    rowSli.effect i s = .go (i.g.setS (i.f 47 5) (i.g.getS (i.f 47 5) % 2 ^ 32 + i.f 0 32 * 2 ^ 32)) s := by
  simp only [rowSli, regs1, if_pos h]

theorem sli_whole (h : i.f 46 1 = 0) : rowSli.effect i s = .go (i.g.setS (i.f 47 5) (unsigned 64 (signed 32 (i.f 0 32)))) s := by
  simp only [rowSli, regs1, if_neg (show ¬ i.f 46 1 = 1 by omega)]

theorem scmp_writes {b : Bool} (h : scond (i.f 32 3) (i.g.getS (i.f 42 5)) (i.g.getS (i.f 37 5)) = some b) :
    rowScmp.effect i s = .go (i.g.setP (i.f 47 3) (if b then 2 ^ 64 - 1 else 0)) s := by simp only [rowScmp, h]

theorem scmp_level (h : 6 ≤ i.f 32 3) : rowScmp.effect i s = .raise .level := by simp only [rowScmp, scond_reserved h]

theorem aop_scalar (h : i.f 41 1 = 1) :
    rowAop.effect i s = .go (i.g.setA (i.f 48 4) (addOff (i.g.getS (i.f 42 5)) (i.f 0 32))) s := by
  simp [rowAop, h]

theorem aop_address (h : i.f 41 1 = 0) (hx : i.f 42 5 < 16) :
    rowAop.effect i s = .go (i.g.setA (i.f 48 4) (addOff (i.g.getA (i.f 42 5)) (i.f 0 32))) s := by
  simp [rowAop, h, hx]

theorem aop_illegal (h : i.f 41 1 = 0) (hx : 16 ≤ i.f 42 5) : rowAop.effect i s = .raise .illegal := by
  simp [rowAop, h, hx]

theorem tadj_adjusts {t : Nat} {b : Int} (ht : (i.g.getT (i.f 47 5)).toNat = t) (hb : (bits t 0 23 : Int) + signed 32 (i.f 0 32) = b)
    (h0 : 0 ≤ b) (h1 : b ≤ 0x7FFFFF) (h256 : b % 256 = 0) :
    rowTadj.effect i s = .go (i.g.setT (i.f 47 5) (BitVec.ofNat 128 (setBits t 0 23 b.toNat))) s := by
  subst ht hb
  exact if_neg (by simp [h0, h1, h256])

theorem tadj_illegal {b : Int} (hb : (bits (i.g.getT (i.f 47 5)).toNat 0 23 : Int) + signed 32 (i.f 0 32) = b)
    (h : b < 0 ∨ 0x7FFFFF < b ∨ b % 256 ≠ 0) : rowTadj.effect i s = .raise .illegal := by
  subst hb
  exact if_pos (by simpa [or_assoc] using h)

theorem sysr_reads {w : Nat} {t : State} (hsel : i.f 32 8 ≠ 0x0C) (h : s.sysr i (i.f 32 8) = (some w, t)) :
    rowSysr.effect i s = .go (i.g.setS (i.f 47 5) w) t := by
  simp only [rowSysr, if_neg hsel, h]

theorem sysr_waits (h : i.f 32 8 = 0x0C) : rowSysr.effect i s = .go { i.g with wait := .flags (i.f 47 5) } s := if_pos h

theorem sysr_level (h : 0x0E ≤ i.f 32 8) : rowSysr.effect i s = .raise .level := by
  simp only [rowSysr, if_neg (show ¬ i.f 32 8 = 0x0C by omega), sysr_reserved h]

theorem sysw_fpcr (h : i.f 32 8 = 0x0B) (hv : i.g.getS (i.f 47 5) % 8 < 5) :
    rowSysw.effect i s = .go { i.g with fpcr := i.g.getS (i.f 47 5) % 8 } s := (if_pos h).trans (if_pos hv)

theorem sysw_fpcrReserved (h : i.f 32 8 = 0x0B) (hv : 5 ≤ i.g.getS (i.f 47 5) % 8) : rowSysw.effect i s = .raise .level :=
  (if_pos h).trans (if_neg (by omega))

theorem sysw_flags (h : i.f 32 8 = 0x0C) :
    rowSysw.effect i s = .go { i.g with flags := i.g.flags &&& (0x31F ^^^ (i.g.getS (i.f 47 5) &&& 0x31F)) } s :=
  (if_neg (by omega)).trans (if_pos h)

theorem sysw_level (hb : i.f 32 8 ≠ 0x0B) (hc : i.f 32 8 ≠ 0x0C) : rowSysw.effect i s = .raise .level :=
  (if_neg hb).trans (if_neg hc)

end

/-! ### The own bobbin -/

section
variable {i : Iss} {s : State} {a n align : Nat} {write : Bool} {f : Nat → Issued}

theorem own_illegal (h : ownOff a = none ∨ a % align ≠ 0) : i.own s a n align write f = .raise .illegal := by
  unfold Iss.own
  rcases h with h | h
  · simp only [h]
  · cases ownOff a <;> simp only [if_pos h]

variable {off : Nat} (hoff : ownOff a = some off) (hal : a % align = 0)
include hoff hal

theorem own_protection (hin : s.inWindow i [(off, n)] = false) : i.own s a n align write f = .raise .protection := by
  simp [Iss.own, hoff, hal, hin]

variable (hin : s.inWindow i [(off, n)] = true)
include hin

theorem own_waits (h : s.hazard i.key (if write then [] else [(off, n)]) (if write then [(off, n)] else []) = true) :
    i.own s a n align write f = .hold := by
  simp only [Iss.own, hoff, hal, hin, h]
  simp

theorem own_accesses (h : s.hazard i.key (if write then [] else [(off, n)]) (if write then [(off, n)] else []) = false) :
    i.own s a n align write f = f off := by
  simp only [Iss.own, hoff, hal, hin, h]
  simp

end

/-- The loads and stores of the own bobbin issue under rows that differ in OPCODE, size, direction and what they do with the bytes (R251). -/
theorem exec_ownAccess {x : Issue} {c : Instr × Nat × Nat × Bool}
    (hc : c ∈ [(Instr.sld x, 0x13, 8, false), (.sst x, 0x14, 8, true), (.tld x, 0x18, 16, false), (.tst x, 0x19, 16, true)]) (s : State) :
    ∃ f : Iss → State → Nat → Issued,
      exec c.1 s = .next (s.issue x ⟨c.2.1, fun _ => true, [(47, 5), (43, 4), (0, 32)],
        fun i u => i.own u i.addr c.2.2.1 c.2.2.1 c.2.2.2 (f i u)⟩)
      ∧ (c.1 = .sld x → ∀ i u off, f i u off = .go (i.g.setS (i.f 47 5) (leNat (u.bobRead i off 8))) u)
      ∧ (c.1 = .sst x → ∀ i u off, f i u off = .go i.g (u.bobWrite i off (leBytes 8 (i.g.getS (i.f 47 5)))))
      ∧ (c.1 = .tld x → ∀ i u off, f i u off = .go (i.g.setT (i.f 47 5) (BitVec.ofNat 128 (leNat (u.bobRead i off 16)))) u)
      ∧ (c.1 = .tst x → ∀ i u off, f i u off = .go i.g (u.bobWrite i off (leBytes 16 (i.g.getT (i.f 47 5)).toNat))) := by
  simp only [List.mem_cons, List.not_mem_nil, or_false] at hc
  rcases hc with rfl | rfl | rfl | rfl
  · exact ⟨_, rfl, fun _ _ _ _ => rfl, nofun, nofun, nofun⟩
  · exact ⟨_, rfl, nofun, fun _ _ _ _ => rfl, nofun, nofun⟩
  · exact ⟨_, rfl, nofun, nofun, fun _ _ _ _ => rfl, nofun⟩
  · exact ⟨_, rfl, nofun, nofun, nofun, fun _ _ _ _ => rfl⟩

/-- Settles O29: each instruction is ready under its row, whose effect the lemmas above say case by case. -/
theorem scalarInstructions : Obligations.ScalarInstructions := by
  unfold Obligations.ScalarInstructions
  refine ⟨?registers, ?own⟩
  case' registers =>
    intro s x g u
    refine ⟨fun hready => ?sop, fun hready => ?sopi, fun _ a b h => sop_isSome h a b, fun hready => ?sli, fun hready => ?scmp,
      fun hready => ?aop, fun hready => ?aget, fun hready => ?tadj, fun hready => ?sysr, fun hready => ?sysw⟩
  case sop =>
    obtain ⟨go, -, raise⟩ := exec_of_ready (c := .sop x) (r := rowSop) rfl hready rfl
    exact ⟨fun _ h => go _ _ (sop_writes h), fun h => raise _ (sop_level h)⟩
  case sopi =>
    obtain ⟨go, -, raise⟩ := exec_of_ready (c := .sopi x) (r := rowSopi) rfl hready rfl
    exact ⟨fun _ h => go _ _ (sopi_writes h), fun h => raise _ (sopi_level h)⟩
  case sli =>
    obtain ⟨go, -, -⟩ := exec_of_ready (c := .sli x) (r := rowSli) rfl hready rfl
    exact ⟨fun h => go _ _ (sli_high h), fun h => go _ _ (sli_whole h)⟩
  case scmp =>
    obtain ⟨go, -, raise⟩ := exec_of_ready (c := .scmp x) (r := rowScmp) rfl hready rfl
    exact ⟨fun _ h => go _ _ (scmp_writes h), fun h => raise _ (scmp_level h)⟩
  case aop =>
    obtain ⟨go, -, raise⟩ := exec_of_ready (c := .aop x) (r := rowAop) rfl hready rfl
    exact ⟨fun h => go _ _ (aop_scalar h), fun h hx => go _ _ (aop_address h hx), fun h hx => raise _ (aop_illegal h hx)⟩
  case aget => exact (exec_of_ready (c := .aget x) (r := rowAget) rfl hready rfl).1 _ _ rfl
  case tadj =>
    obtain ⟨go, -, raise⟩ := exec_of_ready (c := .tadj x) (r := rowTadj) rfl hready rfl
    exact ⟨fun h0 h1 h256 => go _ _ (tadj_adjusts rfl rfl h0 h1 h256), fun h => raise _ (tadj_illegal rfl h)⟩
  case sysr =>
    obtain ⟨go, -, raise⟩ := exec_of_ready (c := .sysr x) (r := rowSysr) rfl hready rfl
    exact ⟨fun _ _ hsel h => go _ _ (sysr_reads hsel h), fun h => go _ _ (sysr_waits h), fun h => raise _ (sysr_level h)⟩
  case sysw =>
    obtain ⟨go, -, raise⟩ := exec_of_ready (c := .sysw x) (r := rowSysw) rfl hready rfl
    exact ⟨fun h hv => go _ _ (sysw_fpcr h hv), fun h hv => raise _ (sysw_fpcrReserved h hv), fun h => go _ _ (sysw_flags h),
      fun hb hc => raise _ (sysw_level hb hc)⟩
  case own =>
    intro s x g u c hc hready i n
    obtain ⟨f, hexec, hsld, hsst, htld, htst⟩ := exec_ownAccess hc s
    obtain ⟨go, hold, raise⟩ := exec_of_ready hexec hready rfl
    refine ⟨fun h => raise _ (own_illegal h), fun off hoff hal => ⟨fun hin => raise _ (own_protection hoff hal hin),
      fun hin hbusy => hold (own_waits hoff hal hin hbusy), fun hin hfree => ?accesses⟩⟩
    have access : ∀ g2 t, f i u off = .go g2 t → exec c.1 s = .next (t.landed i g2) :=
      fun g2 t h => go g2 t ((own_accesses hoff hal hin hfree).trans h)
    exact ⟨fun h => access _ _ (hsld h i u off), fun h => access _ _ (hsst h i u off), fun h => access _ _ (htld h i u off),
      fun h => access _ _ (htst h i u off)⟩

/-! ### The frame of the instructions that write a register -/

/-- A program state that waits for nothing and has met no exception does not end. -/
theorem endCheck_of_running {s : State} {k : Nat} {g : Prog} (hp : s.prog k = some g) (ht : g.trap = none) (hw : g.wait = .none) :
    s.endCheck k = s := by
  simp only [State.endCheck, hp, ht, hw, ite_self]

/-- A program state that ends is free. -/
theorem prog_endCheck (s : State) (k : Nat) : (s.endCheck k).prog k = none ∨ s.endCheck k = s := by
  have ended : ∀ (g : Prog) (st : Status) (r : Nat), (({ s with progs := SMap.erase s.progs k } : State).copyEnded k g st r).prog k = none :=
    fun _ _ _ => SMap.find_erase_self s.progs k
  unfold State.endCheck
  split
  · exact .inr rfl
  · split
    · split
      · exact .inl (ended ..)
      · exact .inl (ended ..)
      · exact .inr rfl
    · exact .inr rfl

/-- An instruction whose program state runs on changes that program state and its context's progress alone. -/
theorem landed_of_running {u : State} {i : Iss} {g : Prog} (ht : g.trap = none) (hw : g.wait = .none) :
    u.landed i g = (u.setProg i.key g).bump .HANG_CTX_PROGRESS i.part g.ctx 1 := by
  have hprog : ((u.setProg i.key g).progress i.part g.ctx).prog i.key = some g := prog_setProg u i.key g
  have hwaits : ((u.setProg i.key g).progress i.part g.ctx).waitDone i.key g = false := by simp only [State.waitDone, hw]
  rw [State.landed, State.settleOne, hprog]
  simp only [hwaits, Bool.and_false]
  exact endCheck_of_running hprog ht hw

/-- An exception leaves its program state ended, or with the exception. -/
theorem trap_of_trapped {u : State} {i : Iss} {st : Status} {h : Prog} (hh : (u.trapped i st).prog i.key = some h) : h.trap ≠ none := by
  have hprog : ((u.setProg i.key i.g).progress i.part i.ctx).prog i.key = some i.g := prog_setProg u i.key i.g
  rw [State.trapped, State.raise, hprog] at hh
  dsimp only at hh
  rcases prog_endCheck (((u.setProg i.key i.g).progress i.part i.ctx).setProg i.key
    { i.g with trap := some (i.g.trap.getD (i.trap st)), wait := .none }) i.key with hended | hstays
  · rw [hended] at hh
    nomatch hh
  · rw [hstays, prog_setProg] at hh
    cases hh
    nofun

/-- An effect on the program state alone: the instruction raises, or goes on in the state it met with a program that satisfies `w`. -/
def Issued.WritesProg (r : Issued) (u : State) (w : Prog → Prop) : Prop :=
  (∃ st, r = .raise st) ∨ ∃ g, r = .go g u ∧ w g

section
variable {i : Iss} {s : State}

theorem sop_writesProg : (rowSop.effect i s).WritesProg s (fun g => ∃ v, g = i.g.setS (i.f 47 5) v) := by
  cases h : sop (i.f 32 5) (i.g.getS (i.f 42 5)) (i.g.getS (i.f 37 5)) with
  | none => exact .inl ⟨.level, by simp only [rowSop, h]⟩
  | some v => exact .inr ⟨_, sop_writes h, v, rfl⟩

theorem sopi_writesProg : (rowSopi.effect i s).WritesProg s (fun g => ∃ v, g = i.g.setS (i.f 47 5) v) := by
  cases h : sop (i.f 32 5) (i.g.getS (i.f 42 5)) (unsigned 64 (signed 32 (i.f 0 32))) with
  | none => exact .inl ⟨.level, by simp only [rowSopi, h]⟩
  | some v => exact .inr ⟨_, sopi_writes h, v, rfl⟩

theorem scmp_writesProg : (rowScmp.effect i s).WritesProg s (fun g => ∃ v, g = i.g.setP (i.f 47 3) v) := by
  cases h : scond (i.f 32 3) (i.g.getS (i.f 42 5)) (i.g.getS (i.f 37 5)) with
  | none => exact .inl ⟨.level, by simp only [rowScmp, h]⟩
  | some b => exact .inr ⟨_, scmp_writes h, _, rfl⟩

theorem aop_writesProg : (rowAop.effect i s).WritesProg s (fun g => ∃ v, g = i.g.setA (i.f 48 4) v) := by
  unfold rowAop
  dsimp only
  split
  · exact .inl ⟨_, rfl⟩
  · exact .inr ⟨_, rfl, _, rfl⟩

end

/-- Where an instruction that writes its program state alone leaves it there without an exception, nothing else has changed after the fetch but
its context's progress counter. -/
theorem frame_of_writesProg {c : Instr} {s t : State} {x : Issue} {g h : Prog} {r : Row} {w : Prog → Prop} (hc : exec c s = .next (s.issue x r))
    (hready : s.Ready x r.opcode r.fields g) (hs : r.sub x.op.toNat = true)
    (heff : (r.effect (issOf x g r.opcode) (s.fetched x g)).WritesProg (s.fetched x g) w)
    (hw : ∀ g2, w g2 → g2.trap = g.trap ∧ g2.wait = g.wait ∧ g2.ctx = g.ctx)
    (hstep : exec c s = .next t) (hprog : t.prog (progKey x.part.val x.engine.val x.ps.val) = some h) (htrap : h.trap = none) :
    t = ((s.fetched x g).setProg (progKey x.part.val x.engine.val x.ps.val) h).bump .HANG_CTX_PROGRESS x.part.val g.ctx 1 ∧ w h := by
  obtain ⟨go, -, raise⟩ := exec_of_ready hc hready hs
  rcases heff with ⟨st, hraise⟩ | ⟨g2, hgo, hg2⟩
  · cases hstep.symm.trans (raise st hraise)
    exact absurd htrap (trap_of_trapped hprog)
  · obtain ⟨htrap2, hwait2, hctx2⟩ := hw g2 hg2
    obtain ⟨⟨-, ht, hwait, -⟩, -⟩ := hready
    have hland := landed_of_running (u := s.fetched x g) (i := issOf x g r.opcode) (htrap2.trans ht) (hwait2.trans hwait)
    cases hstep.symm.trans ((go _ _ hgo).trans (congrArg _ hland))
    cases (prog_setProg _ _ g2).symm.trans hprog
    exact ⟨by rw [hctx2]; rfl, hg2⟩

/-- SOP, SOPI, SLI and AGET write the scalar register that one field names, and nothing else (R251). -/
theorem exec_writesScalar {x : Issue} {c : Instr × Nat × List (Nat × Nat)}
    (hc : c ∈ [(Instr.sop x, 0x10, [(47, 5), (42, 5), (37, 5), (32, 5)]), (.sopi x, 0x11, [(47, 5), (42, 5), (32, 5), (0, 32)]),
      (.sli x, 0x12, [(47, 5), (46, 1), (0, 32)]), (.aget x, 0x17, [(47, 5), (43, 4), (0, 32)])]) (s : State) :
    ∃ f : Iss → State → Issued, exec c.1 s = .next (s.issue x ⟨c.2.1, fun _ => true, c.2.2, f⟩)
      ∧ ∀ i u, (f i u).WritesProg u (fun g => ∃ v, g = i.g.setS (i.f 47 5) v) := by
  simp only [List.mem_cons, List.not_mem_nil, or_false] at hc
  rcases hc with rfl | rfl | rfl | rfl
  · exact ⟨rowSop.effect, rfl, fun _ _ => sop_writesProg⟩
  · exact ⟨rowSopi.effect, rfl, fun _ _ => sopi_writesProg⟩
  · exact ⟨rowSli.effect, rfl, fun _ _ => .inr ⟨_, rfl, _, rfl⟩⟩
  · exact ⟨rowAget.effect, rfl, fun _ _ => .inr ⟨_, rfl, _, rfl⟩⟩

/-- Settles O31: each instruction writes its program state alone, and a write of one register leaves the others. -/
theorem scalarFrame : Obligations.ScalarFrame := by
  unfold Obligations.ScalarFrame
  intro s t x g h k u d
  refine ⟨fun c hc hready hstep hprog htrap => ?scalar, fun hready hstep hprog htrap => ?address, fun hready hstep hprog htrap => ?predicate⟩
  case scalar =>
    obtain ⟨f, hexec, hwrites⟩ := exec_writesScalar hc s
    obtain ⟨ht, v, rfl⟩ := frame_of_writesProg hexec hready rfl (hwrites _ u)
      (by rintro _ ⟨v, rfl⟩; rw [setS_eq]; exact ⟨rfl, rfl, rfl⟩) hstep hprog htrap
    exact ⟨ht, setS_eq _ d v, fun j hj => getS_setS_ne _ v hj⟩
  case address =>
    obtain ⟨ht, v, rfl⟩ := frame_of_writesProg (r := rowAop) rfl hready rfl aop_writesProg
      (by rintro _ ⟨v, rfl⟩; exact ⟨rfl, rfl, rfl⟩) hstep hprog htrap
    exact ⟨ht, rfl, fun j hj => getA_setA_ne _ v hj⟩
  case predicate =>
    obtain ⟨ht, v, rfl⟩ := frame_of_writesProg (r := rowScmp) rfl hready rfl scmp_writesProg
      (by rintro _ ⟨v, rfl⟩; rw [setP_eq]; exact ⟨rfl, rfl, rfl⟩) hstep hprog htrap
    exact ⟨ht, setP_eq _ _ v, fun j hj => getP_setP_ne _ v hj⟩

end Sys2Proof.Machine
end

section
/-! SUPPORT. The shuttle's instructions and the end of its operations (R252 to R254, R332, R333). -/

namespace Sys2Proof.Machine
open Sys2Proof

/-! ### Issue -/

section
variable {i : Iss} {s : State} {st : Status} {f : Unit → Issued}

theorem shuttle_waits (h : 16 ≤ s.asyncHeld i.key 2) : s.shuttle i st f = .hold := if_pos h

theorem shuttle_refused (hroom : s.asyncHeld i.key 2 < 16) (h : st ≠ .ok) : s.shuttle i st f = .raise st :=
  (if_neg (Nat.not_le.mpr hroom)).trans (if_pos h)

theorem shuttle_passes (hroom : s.asyncHeld i.key 2 < 16) (h : st = .ok) : s.shuttle i st f = f () :=
  (if_neg (Nat.not_le.mpr hroom)).trans (if_neg (not_not_intro h))

end

section
variable {i : Iss} {s : State} {d a len : Nat} (hd : i.g.getA (i.f 48 4) = d) (ha : i.g.getA (i.f 44 4) = a) (hlen : i.g.getS (i.f 39 5) = len)

theorem copy_level (h : 4 ≤ i.f 36 3) : rowCopy.effect i s = .raise .level := if_pos h

variable (hhint : i.f 36 3 < 4)
include hd ha hlen hhint

/-- COPY with a defined HINT hands the shuttle its operation: in object mode the HINT has no effect, and the board tier is no place of it (R254). -/
theorem copy_shuttle : rowCopy.effect i s = s.shuttle i (s.shuttleCheck i [d, a] len (i.f 35 1 = 1) (i.f 24 11)) (fun _ =>
    .go i.g (s.startShuttle i 0x20 (i.f 35 1 = 1) (i.f 24 11) (.copy a d len (if s.objectMode i then 0 else i.f 36 3))
      (if s.objectMode i && (isBoard d || isBoard a) then some .illegal else none))) := by
  subst hd ha hlen
  exact if_neg (Nat.not_le.mpr hhint)

variable (hroom : s.asyncHeld i.key 2 < 16) (hok : s.shuttleCheck i [d, a] len (i.f 35 1 = 1) (i.f 24 11) = .ok)
include hroom hok

theorem copy_starts (h : s.objectMode i = false) :
    rowCopy.effect i s = .go i.g (s.startShuttle i 0x20 (i.f 35 1 = 1) (i.f 24 11) (.copy a d len (i.f 36 3)) none) := by
  rw [copy_shuttle hd ha hlen hhint, shuttle_passes hroom hok]
  simp [h]

theorem copy_startsInObjects (h : s.objectMode i = true) (hb : (isBoard d || isBoard a) = false) :
    rowCopy.effect i s = .go i.g (s.startShuttle i 0x20 (i.f 35 1 = 1) (i.f 24 11) (.copy a d len 0) none) := by
  rw [copy_shuttle hd ha hlen hhint, shuttle_passes hroom hok, h, hb]
  rfl

theorem copy_startsSettled (h : s.objectMode i = true) (hb : (isBoard d || isBoard a) = true) :
    rowCopy.effect i s = .go i.g (s.startShuttle i 0x20 (i.f 35 1 = 1) (i.f 24 11) (.copy a d len 0) (some .illegal)) := by
  rw [copy_shuttle hd ha hlen hhint, shuttle_passes hroom hok, h, hb]
  rfl

end

/-- FILL hands the shuttle its operation, whose status is settled where it is the board tier's in object mode (R254). -/
theorem fill_shuttle (i : Iss) (s : State) : rowFillInstr.effect i s
    = s.shuttle i (s.shuttleCheck i [i.g.getA (i.f 48 4)] (i.g.getS (i.f 39 5)) (i.f 35 1 = 1) (i.f 24 11)) (fun _ =>
      .go i.g (s.startShuttle i 0x22 (i.f 35 1 = 1) (i.f 24 11) (.fill (i.g.getA (i.f 48 4)) (i.g.getS (i.f 39 5)))
        (if s.objectMode i && isBoard (i.g.getA (i.f 48 4)) then some .illegal else none))) := rfl

theorem fill_starts {i : Iss} {s : State} {d len : Nat} (hd : i.g.getA (i.f 48 4) = d) (hlen : i.g.getS (i.f 39 5) = len)
    (hroom : s.asyncHeld i.key 2 < 16) (hok : s.shuttleCheck i [d] len (i.f 35 1 = 1) (i.f 24 11) = .ok) {settled : Bool}
    (h : (s.objectMode i && isBoard d) = settled) : rowFillInstr.effect i s
      = .go i.g (s.startShuttle i 0x22 (i.f 35 1 = 1) (i.f 24 11) (.fill d len) (if settled then some .illegal else none)) := by
  subst hd hlen h
  rw [fill_shuttle, shuttle_passes hroom hok]

/-! ### COPYOBJ -/

/-- An object of the context that is not copied to the board tier passes COPYOBJ's first checks. -/
theorem copyobj_named {i : Iss} {s : State} {o d : Nat} (hmode : s.objectMode i = true) (hplace : isBoard d = false)
    (hobj : bits o 48 16 < s.fld PART_CTX_OBJECTS.OBJECTS i.part i.ctx) :
    ¬ (!s.objectMode i || isBoard d || s.fld PART_CTX_OBJECTS.OBJECTS i.part i.ctx ≤ bits o 48 16) = true := by
  rw [hmode, hplace, decide_eq_false (Nat.not_le.mpr hobj)]
  nofun

/-- COPYOBJ hands the shuttle its operation. -/
theorem copyobj_shuttle (i : Iss) (s : State) : ∃ f, rowCopyobj.effect i s
    = s.shuttle i (s.shuttleCheck i [i.g.getA (i.f 48 4)] (i.g.getS (i.f 38 5)) (i.f 35 1 = 1) (i.f 24 11)) f := by
  simp only [rowCopyobj]
  exact ⟨_, rfl⟩

section
variable {i : Iss} {s : State} {o d len : Nat} (ho : i.g.getS (i.f 43 5) = o) (hd : i.g.getA (i.f 48 4) = d) (hlen : i.g.getS (i.f 38 5) = len)
  (hroom : s.asyncHeld i.key 2 < 16) (hok : s.shuttleCheck i [d] len (i.f 35 1 = 1) (i.f 24 11) = .ok)
include ho hd hlen hroom hok

/-- COPYOBJ outside object mode, to the board tier or of no object of the context (R254, R333). -/
theorem copyobj_refused (h : s.objectMode i = false ∨ isBoard d = true ∨ s.fld PART_CTX_OBJECTS.OBJECTS i.part i.ctx ≤ bits o 48 16) :
    rowCopyobj.effect i s = .go i.g (s.startShuttle i 0x21 (i.f 35 1 = 1) (i.f 24 11) (.fill d len) (some .illegal)) := by
  subst ho hd hlen
  simp only [rowCopyobj, shuttle_passes hroom hok]
  exact if_pos (by simpa [or_assoc] using h)

variable (hmode : s.objectMode i = true) (hplace : isBoard d = false) (hobj : bits o 48 16 < s.fld PART_CTX_OBJECTS.OBJECTS i.part i.ctx)
include hmode hplace hobj

theorem copyobj_illegal (h : bits o 0 48 % 32 ≠ 0) : rowCopyobj.effect i s = .raise .illegal := by
  subst ho hd hlen
  simp only [rowCopyobj, shuttle_passes hroom hok, if_neg (copyobj_named hmode hplace hobj), if_pos h]

variable (hal : bits o 0 48 % 32 = 0) {e : Status × List Byte × State}
  (he : s.hbmReadAs 1 (.ctx 0 i.part i.ctx) (s.reg .PART_CTX_TABLE i.part i.ctx + 32 * bits o 48 16) 32 = e)
include hal he

/-- The placement entry cannot be read: the operation ends with the status of the read. -/
theorem copyobj_unread (h : e.1 ≠ .ok) :
    rowCopyobj.effect i s = .go i.g (e.2.2.startShuttle i 0x21 (i.f 35 1 = 1) (i.f 24 11) (.fill d len) (some e.1)) := by
  subst ho hd hlen
  obtain ⟨st, b, t⟩ := e
  simp only [rowCopyobj, shuttle_passes hroom hok, if_neg (copyobj_named hmode hplace hobj), if_neg (not_not_intro hal), he]

/-- The entry names no place for the range. -/
theorem copyobj_nowhere (hst : e.1 = .ok)
    (h : objectPlace (fun k => leNat ((e.2.1.drop (8 * k)).take 8)) (bits o 0 48) len (i.f 37 1 = 1) = none) :
    rowCopyobj.effect i s = .go i.g (e.2.2.startShuttle i 0x21 (i.f 35 1 = 1) (i.f 24 11) (.fill d len) (some .illegal)) := by
  subst ho hd hlen
  obtain ⟨st, b, t⟩ := e
  subst hst
  simp only [rowCopyobj, shuttle_passes hroom hok, if_neg (copyobj_named hmode hplace hobj), if_neg (not_not_intro hal), he, h]

theorem copyobj_starts {a hint : Nat} (hst : e.1 = .ok)
    (h : objectPlace (fun k => leNat ((e.2.1.drop (8 * k)).take 8)) (bits o 0 48) len (i.f 37 1 = 1) = some (a, hint)) :
    rowCopyobj.effect i s = .go i.g (e.2.2.startShuttle i 0x21 (i.f 35 1 = 1) (i.f 24 11)
      (if i.f 37 1 = 1 then .copy d a len hint else .copy a d len hint) none) := by
  subst ho hd hlen
  obtain ⟨st, b, t⟩ := e
  subst hst
  simp only [rowCopyobj, shuttle_passes hroom hok, if_neg (copyobj_named hmode hplace hobj), if_neg (not_not_intro hal), he, h]

end

/-! ### The end of an operation -/

theorem exec_shuttleComplete_ends {s : State} {op : Nat} {err : Bool} {o : AsyncOp} (ho : s.async op = some o)
    (hw : (∃ a d n h, o.work = .copy a d n h) ∨ ∃ d n, o.work = .fill d n) :
    exec (.shuttleComplete op err) s = .next ((s.moveBytes o err).2.endAsync o (s.moveBytes o err).1 true) := by
  change execShuttleComplete op err s = _
  rcases hw with ⟨a, d, n, h, hw⟩ | ⟨d, n, hw⟩
  · simp only [execShuttleComplete, ho, hw]
  · simp only [execShuttleComplete, ho, hw]

/-- An operation of another class, or none, is no case of the completion. -/
theorem exec_shuttleComplete_stays {s : State} {op : Nat} {err : Bool}
    (h : ∀ o, s.async op = some o → (∀ a d n h, o.work ≠ .copy a d n h) ∧ ∀ d n, o.work ≠ .fill d n) :
    exec (.shuttleComplete op err) s = .next s := by
  change execShuttleComplete op err s = _
  rw [execShuttleComplete]
  split
  · next o ho =>
    obtain ⟨hcopy, hfill⟩ := h o ho
    split
    · next hw => exact absurd hw (hcopy _ _ _ _)
    · next hw => exact absurd hw (hfill _ _)
    · rfl
  · rfl

/-- Settles O32: each instruction is ready under its row, which hands the shuttle what the lemmas above say. -/
theorem shuttleInstructions : Obligations.ShuttleInstructions := by
  unfold Obligations.ShuttleInstructions
  intro s x g u start
  refine ⟨fun hready => ?copy, fun hready => ?fill, fun hready => ?copyobj, fun hready => ?waits,
    fun op err => ⟨fun o => exec_shuttleComplete_ends, exec_shuttleComplete_stays⟩⟩
  case copy =>
    intro i d a len check
    obtain ⟨go, hold, raise⟩ := exec_of_ready (c := .copy x) (r := rowCopy) rfl hready rfl
    refine ⟨fun h => raise _ (copy_level h), fun hhint h => hold ((copy_shuttle rfl rfl rfl hhint).trans (shuttle_waits h)),
      fun hhint hroom h => raise _ ((copy_shuttle rfl rfl rfl hhint).trans (shuttle_refused hroom h)), fun hhint hroom hok => ⟨?_, ?_, ?_⟩⟩
    · exact fun hmode => go _ _ (copy_starts rfl rfl rfl hhint hroom hok hmode)
    · exact fun hmode hplace => go _ _ (copy_startsInObjects rfl rfl rfl hhint hroom hok hmode hplace)
    · exact fun hmode hplace => go _ _ (copy_startsSettled rfl rfl rfl hhint hroom hok hmode hplace)
  case fill =>
    intro i d len check
    obtain ⟨go, hold, raise⟩ := exec_of_ready (c := .fillInstr x) (r := rowFillInstr) rfl hready rfl
    exact ⟨fun h => hold ((fill_shuttle ..).trans (shuttle_waits h)),
      fun hroom h => raise _ ((fill_shuttle ..).trans (shuttle_refused hroom h)),
      fun hroom hok => ⟨fun h => go _ _ (fill_starts rfl rfl hroom hok h), fun h => go _ _ (fill_starts rfl rfl hroom hok h)⟩⟩
  case copyobj =>
    intro i d o len check bad entry place
    obtain ⟨go, hold, raise⟩ := exec_of_ready (c := .copyobj x) (r := rowCopyobj) rfl hready rfl
    obtain ⟨f, hshuttle⟩ := copyobj_shuttle i u
    have names : ¬ bad → u.objectMode i = true ∧ isBoard d = false ∧ bits o 48 16 < u.fld PART_CTX_OBJECTS.OBJECTS i.part i.ctx :=
      fun h => by simpa only [bad, not_or, Bool.not_eq_false, Bool.not_eq_true, Nat.not_le] using h
    refine ⟨fun h => hold (hshuttle.trans (shuttle_waits h)), fun hroom h => raise _ (hshuttle.trans (shuttle_refused hroom h)),
      fun hroom hok => ⟨fun hbad => go _ _ (copyobj_refused rfl rfl rfl hroom hok hbad), fun hgood hal => ?_, fun hgood hal => ?_⟩⟩
    · obtain ⟨hmode, hplace, hobj⟩ := names hgood
      exact raise _ (copyobj_illegal rfl rfl rfl hroom hok hmode hplace hobj hal)
    · obtain ⟨hmode, hplace, hobj⟩ := names hgood
      exact ⟨fun h => go _ _ (copyobj_unread rfl rfl rfl hroom hok hmode hplace hobj hal rfl h),
        fun hst h => go _ _ (copyobj_nowhere rfl rfl rfl hroom hok hmode hplace hobj hal rfl hst h),
        fun _ _ hst h => go _ _ (copyobj_starts rfl rfl rfl hroom hok hmode hplace hobj hal rfl hst h)⟩
  case waits => exact (exec_of_ready (c := .waits x) (r := rowWaits) rfl hready rfl).1 _ _ rfl

end Sys2Proof.Machine
end

section
/-! SUPPORT. The vector instructions (R258, R260, R261). -/

namespace Sys2Proof.Machine
open Sys2Proof

section
variable {i : Iss} {s : State}

theorem vecIssue_full {f : Issued} (h : s.unitFull i.key 3 = true) : vecIssue i s f = .hold := if_pos h

theorem vecIssue_room {f : Issued} (h : ¬ s.unitFull i.key 3 = true) : vecIssue i s f = f := if_neg h

/-! ### VOP, VFMA and the conversions -/

theorem vop_level (h : 0x13 ≤ i.f 22 5) : rowVop.effect i s = .raise .level := if_pos h

theorem vop_full (hf : i.f 22 5 < 0x13) (h : s.unitFull i.key 3 = true) : rowVop.effect i s = .hold :=
  (if_neg (Nat.not_le.mpr hf)).trans (vecIssue_full h)

theorem vop_computes (hf : i.f 22 5 < 0x13) (hroom : ¬ s.unitFull i.key 3 = true) (h : vopTyped (i.f 22 5) (i.f 27 2) = true) :
    rowVop.effect i s = vecDone i s (i.g.setElems (i.f 47 5) (i.f 27 2) (i.g.getP (i.f 29 3)) (i.f 21 1 = 1)
      (fun e => vOp (i.f 27 2) i.rm (i.f 22 5) (i.el (i.f 27 2) (i.f 42 5) e) (i.el (i.f 27 2) (i.f 37 5) e))) [] [] :=
  (if_neg (Nat.not_le.mpr hf)).trans ((vecIssue_room hroom).trans (if_neg (by simp [h])))

theorem vop_untyped (hf : i.f 22 5 < 0x13) (hroom : ¬ s.unitFull i.key 3 = true) (h : vopTyped (i.f 22 5) (i.f 27 2) = false) :
    rowVop.effect i s = vecFail i s .illegal :=
  (if_neg (Nat.not_le.mpr hf)).trans ((vecIssue_room hroom).trans (if_pos (by simp [h])))

theorem vcvt_level (h : 0x0A ≤ i.f 22 5) : rowVcvt.effect i s = .raise .level := if_pos h

theorem vcvt_full (hf : i.f 22 5 < 0x0A) (h : s.unitFull i.key 3 = true) : rowVcvt.effect i s = .hold :=
  (if_neg (Nat.not_le.mpr hf)).trans (vecIssue_full h)

theorem vcvt_converts (hf : i.f 22 5 < 0x0A) (hroom : ¬ s.unitFull i.key 3 = true) : rowVcvt.effect i s
    = vecDone i s (i.g.setElems (i.f 47 5) (cvtType (i.f 22 5)) (i.g.getP (i.f 29 3)) (i.f 21 1 = 1)
      (cvtElem i.rm (i.f 22 5) (i.g.getV (i.f 42 5)) (i.g.getV (i.f 37 5)))) [] [] :=
  (if_neg (Nat.not_le.mpr hf)).trans (vecIssue_room hroom)

/-! ### VRED -/

/-- SUM, MIN and MAX are the functions of VRED. -/
theorem vred_defined {f : Nat} (h : f ∈ [0, 5, 6]) : ¬ (f ≠ 0 && f ≠ 5 && f ≠ 6) = true := by
  simp only [List.mem_cons, List.not_mem_nil, or_false] at h
  rcases h with rfl | rfl | rfl <;> decide

theorem vred_level (h : i.f 22 5 ∉ [0, 5, 6]) : rowVred.effect i s = .raise .level := if_pos (by simpa [and_assoc] using h)

theorem vred_full (hf : i.f 22 5 ∈ [0, 5, 6]) (h : s.unitFull i.key 3 = true) : rowVred.effect i s = .hold :=
  (if_neg (vred_defined hf)).trans (vecIssue_full h)

theorem vred_reduces (hf : i.f 22 5 ∈ [0, 5, 6]) (hroom : ¬ s.unitFull i.key 3 = true) {r : Nat × FFlags}
    (hr : (if i.f 22 5 = 0 then vSum (i.f 27 2) i.rm (vOn (i.f 27 2) (i.g.getP (i.f 29 3))) (i.el (i.f 27 2) (i.f 42 5))
      else vExtreme (i.f 27 2) i.rm (i.f 22 5 = 6) s.fresh.1 (vOn (i.f 27 2) (i.g.getP (i.f 29 3))) (i.el (i.f 27 2) (i.f 42 5))) = r) :
    rowVred.effect i s
      = vecDone i s.fresh.2 (i.g.setV (i.f 47 5) (vLane (i.f 27 2) (fun e => if e = 0 then r.1 else 0)), r.2) [] [] := by
  subst hr
  exact (if_neg (vred_defined hf)).trans (vecIssue_room hroom)

theorem vred_sums (hf : i.f 22 5 = 0) (hroom : ¬ s.unitFull i.key 3 = true) {r : Nat × FFlags}
    (hr : vSum (i.f 27 2) i.rm (vOn (i.f 27 2) (i.g.getP (i.f 29 3))) (i.el (i.f 27 2) (i.f 42 5)) = r) : rowVred.effect i s
      = vecDone i s.fresh.2 (i.g.setV (i.f 47 5) (vLane (i.f 27 2) (fun e => if e = 0 then r.1 else 0)), r.2) [] [] :=
  vred_reduces (by simp [hf]) hroom ((if_pos hf).trans hr)

/-- MIN where FUNC is 5, MAX where it is 6. -/
theorem vred_extreme {isMax : Bool} (hf : i.f 22 5 = if isMax then 6 else 5) (hroom : ¬ s.unitFull i.key 3 = true) {r : Nat × FFlags}
    (hr : vExtreme (i.f 27 2) i.rm isMax s.fresh.1 (vOn (i.f 27 2) (i.g.getP (i.f 29 3))) (i.el (i.f 27 2) (i.f 42 5)) = r) : rowVred.effect i s
      = vecDone i s.fresh.2 (i.g.setV (i.f 47 5) (vLane (i.f 27 2) (fun e => if e = 0 then r.1 else 0)), r.2) [] [] := by
  have hmax : decide (i.f 22 5 = 6) = isMax := by cases isMax <;> simp [hf]
  have hmin : i.f 22 5 ≠ 0 := by cases isMax <;> simp [hf]
  exact vred_reduces (by cases isMax <;> simp [hf]) hroom ((if_neg hmin).trans (by rw [hmax, hr]))

/-! ### VCMP -/

theorem vcmp_level (h : 7 ≤ i.f 22 5) : rowVcmp.effect i s = .raise .level := if_pos h

theorem vcmp_full (hf : i.f 22 5 < 7) (h : s.unitFull i.key 3 = true) : rowVcmp.effect i s = .hold :=
  (if_neg (Nat.not_le.mpr hf)).trans (vecIssue_full h)

theorem vcmp_absent (hf : i.f 22 5 < 7) (hroom : ¬ s.unitFull i.key 3 = true)
    (h : i.f 27 2 = tBF16 ∨ (i.f 27 2 = tINT32 ∧ i.f 22 5 = 6)) : rowVcmp.effect i s = vecFail i s .illegal :=
  (if_neg (Nat.not_le.mpr hf)).trans ((vecIssue_room hroom).trans (if_pos (by simpa using h)))

theorem vcmp_compares (hf : i.f 22 5 < 7) (hroom : ¬ s.unitFull i.key 3 = true)
    (h : ¬ (i.f 27 2 = tBF16 ∨ (i.f 27 2 = tINT32 ∧ i.f 22 5 = 6))) {r : List (Bool × FFlags)}
    (hr : (List.range (vCount (i.f 27 2))).map (fun e => if vOn (i.f 27 2) (i.g.getP (i.f 29 3)) e then
      vCmp (i.f 27 2) (i.f 22 5) (i.el (i.f 27 2) (i.f 42 5) e) (i.el (i.f 27 2) (i.f 37 5) e) else (false, {})) = r) :
    rowVcmp.effect i s = vecDone i s (i.g.setP (i.f 47 3)
      ((List.range 64).foldl (fun v j => if (r.getD (vAt (i.f 27 2) j) (false, {})).1 then v + 2 ^ j else v) 0),
      r.foldl (fun a y => a.or y.2) {}) [] [] := by
  subst hr
  exact (if_neg (Nat.not_le.mpr hf)).trans ((vecIssue_room hroom).trans (if_neg (by simpa using h)))

/-! ### VRAND -/

theorem vrand_draws (hroom : ¬ s.unitFull i.key 3 = true) {id job : Nat} (hid : i.g.getS (i.f 42 5) % 2 ^ 32 = id)
    (hjob : s.jobOf i.part i.ctx = job) (h : 2 ^ 31 ≤ id) (hk : (s.keySet job).isSome = true) : rowVrand.effect i s
      = vecDone i s (i.g.setV (i.f 47 5)
        (fun j => draw (s.seed job) id (i.g.getS (i.f 32 5)) (i.g.getS (i.f 37 5) + j) % 2 ^ 32), {}) [] [] := by
  subst hid hjob
  have hdraws : ¬ (i.g.getS (i.f 42 5) % 2 ^ 32 < 2 ^ 31 || (s.keySet (s.jobOf i.part i.ctx)).isNone) = true := by
    simpa [Option.isSome_iff_ne_none.mp hk] using h
  exact (vecIssue_room hroom).trans (if_neg hdraws)

theorem vrand_protection (hroom : ¬ s.unitFull i.key 3 = true)
    (h : i.g.getS (i.f 42 5) % 2 ^ 32 < 2 ^ 31 ∨ s.keySet (s.jobOf i.part i.ctx) = none) : rowVrand.effect i s = vecFail i s .protection :=
  (vecIssue_room hroom).trans (if_pos (by simpa using h))

end

/-! ### Loads and stores -/

/-- VLD and VST issue under rows that differ in OPCODE, direction and what they do with the bytes (R258). -/
theorem exec_vectorAccess {x : Issue} {c : Instr × Nat × Bool} (hc : c ∈ [(Instr.vld x, 0x62, false), (.vst x, 0x63, true)]) (s : State) :
    ∃ f : Iss → State → Nat → Issued,
      exec c.1 s = .next (s.issue x ⟨c.2.1, fun _ => true, [(47, 5), (43, 4), (40, 3), (0, 32)],
        fun i u => vecIssue i u (i.own u i.addr 256 64 c.2.2 (f i u))⟩)
      ∧ (c.1 = .vld x → ∀ i u off, f i u off = vecDone i u (i.g.setElems (i.f 47 5) tFP32 (i.g.getP (i.f 40 3)) false
        (fun l => (leNat ((List.range 4).map (fun k => (u.bobRead i off 256).toArray.getD (4 * l + k) 0)), {}))) [(off, 256)] [])
      ∧ (c.1 = .vst x → ∀ i u off, f i u off = vecDone i ((List.range 64).foldl (fun s l =>
        if bit (i.g.getP (i.f 40 3)) l then s.bobWrite i (off + 4 * l) (leBytes 4 (i.g.getV (i.f 47 5) l)) else s) u) (i.g, {}) []
        [(off, 256)]) := by
  simp only [List.mem_cons, List.not_mem_nil, or_false] at hc
  rcases hc with rfl | rfl
  · exact ⟨_, rfl, fun _ _ _ _ => rfl, nofun⟩
  · exact ⟨_, rfl, nofun, fun _ _ _ _ => rfl⟩

/-- Settles O33: each instruction is ready under its row, whose effect the lemmas above say case by case. -/
theorem vectorInstructions : Obligations.VectorInstructions := by
  unfold Obligations.VectorInstructions
  intro s x g u full fin fail
  refine ⟨fun hready => ?vop, fun hready => ?vfma, fun c hc hready => ?access, fun hready => ?vred, fun hready => ?vcvt, fun hready => ?vcmp,
    fun hready => ?vsel, fun hready => ?vbcast, fun hready => ?vrand⟩
  case vop =>
    obtain ⟨go, hold, raise⟩ := exec_of_ready (c := .vop x) (r := rowVop) rfl hready rfl
    exact ⟨fun h => raise _ (vop_level h), fun hf h => hold (vop_full hf h), fun hf hroom h => go _ _ (vop_computes hf hroom h),
      fun hf hroom h => go _ _ (vop_untyped hf hroom h)⟩
  case vfma =>
    obtain ⟨go, hold, -⟩ := exec_of_ready (c := .vfma x) (r := rowVfma) rfl hready rfl
    exact ⟨fun h => hold (vecIssue_full h), fun hroom => go _ _ (vecIssue_room hroom)⟩
  case access =>
    intro i
    obtain ⟨f, hexec, hvld, hvst⟩ := exec_vectorAccess hc s
    obtain ⟨go, hold, raise⟩ := exec_of_ready hexec hready rfl
    refine ⟨fun h => hold (vecIssue_full h), fun hroom h => raise _ ((vecIssue_room hroom).trans (own_illegal h)), fun hroom off hoff hal =>
      ⟨fun hin => raise _ ((vecIssue_room hroom).trans (own_protection hoff hal hin)),
        fun hin hbusy => hold ((vecIssue_room hroom).trans (own_waits hoff hal hin hbusy)), fun hin hfree h => ?_, fun hin hfree h => ?_⟩⟩
    · exact go _ _ ((vecIssue_room hroom).trans ((own_accesses hoff hal hin hfree).trans (hvld h i u off)))
    · exact go _ _ ((vecIssue_room hroom).trans ((own_accesses hoff hal hin hfree).trans (hvst h i u off)))
  case vred =>
    intro i t on el done
    obtain ⟨go, hold, raise⟩ := exec_of_ready (c := .vred x) (r := rowVred) rfl hready rfl
    refine ⟨fun h => raise _ (vred_level h), fun hf h => hold (vred_full hf h), fun hf hroom => ?sum, fun hf hroom => ?least, fun hf hroom => ?most⟩
    case sum => exact go _ _ (vred_sums hf hroom rfl)
    case least => exact go _ _ (vred_extreme (isMax := false) hf hroom rfl)
    case most => exact go _ _ (vred_extreme (isMax := true) hf hroom rfl)
  case vcvt =>
    obtain ⟨go, hold, raise⟩ := exec_of_ready (c := .vcvt x) (r := rowVcvt) rfl hready rfl
    exact ⟨fun h => raise _ (vcvt_level h), fun hf h => hold (vcvt_full hf h), fun hf hroom => go _ _ (vcvt_converts hf hroom)⟩
  case vcmp =>
    obtain ⟨go, hold, raise⟩ := exec_of_ready (c := .vcmp x) (r := rowVcmp) rfl hready rfl
    exact ⟨fun h => raise _ (vcmp_level h), fun hf h => hold (vcmp_full hf h), fun hf hroom h => go _ _ (vcmp_absent hf hroom h),
      fun hf hroom h => go _ _ (vcmp_compares hf hroom h rfl)⟩
  case vsel =>
    obtain ⟨go, hold, -⟩ := exec_of_ready (c := .vsel x) (r := rowVsel) rfl hready rfl
    exact ⟨fun h => hold (vecIssue_full h), fun hroom => go _ _ (vecIssue_room hroom)⟩
  case vbcast =>
    obtain ⟨go, hold, -⟩ := exec_of_ready (c := .vbcast x) (r := rowVbcast) rfl hready rfl
    exact ⟨fun h => hold (vecIssue_full h), fun hroom => go _ _ (vecIssue_room hroom)⟩
  case vrand =>
    obtain ⟨go, hold, -⟩ := exec_of_ready (c := .vrand x) (r := rowVrand) rfl hready rfl
    exact ⟨fun h => hold (vecIssue_full h), fun hroom h hk => go _ _ (vrand_draws hroom rfl rfl h hk),
      fun hroom h => go _ _ (vrand_protection hroom h)⟩

end Sys2Proof.Machine
end

section
/-! SUPPORT. The registers of the queues (R266 to R269), the fetch of their commands (R268), and the registers of the knots (R277). -/

namespace Sys2Proof.Machine
open Sys2Proof

/-! ### What a function's access acts on -/

section
variable {s : State} {bar : Bar} {p f : Nat} (hf : s.function bar = some (p, f))
include hf

theorem exec_doorbell (q : Fin 8192) (v : W32) : exec (.doorbell bar q v) s =
    .next (if s.seesQueue p f q.val then s.writeTail p q.val v.toNat else s) :=
  congrArg Host.Outcome.next (viaTenant_some hf)

theorem exec_cplAck (q : Fin 8192) (v : W32) : exec (.cplAck bar q v) s =
    .next (if s.seesQueue p f q.val then s.writeAck p q.val v.toNat else s) :=
  congrArg Host.Outcome.next (viaTenant_some hf)

theorem exec_queueEnable (q : Fin 8192) (v : W32) : exec (.queueEnable bar q v) s =
    .next (if s.seesQueue p f q.val then s.writeQueueCtrl p q.val (setBits v.toNat 0 1 1) else s) :=
  congrArg Host.Outcome.next (viaTenant_some hf)

theorem exec_queueDisable (q : Fin 8192) (v : W32) : exec (.queueDisable bar q v) s =
    .next (if s.seesQueue p f q.val then s.writeQueueCtrl p q.val (setBits v.toNat 0 1 0) else s) :=
  congrArg Host.Outcome.next (viaTenant_some hf)

theorem exec_hostLevelWrite (w : Fin 17) (v : W32) : exec (.hostLevelWrite bar w v) s =
    .next (if f = 0 || f = w.val then s.writeHostLevel p w.val v.toNat else s) :=
  congrArg Host.Outcome.next (viaTenant_some hf)

theorem exec_knotWrite (k : Fin 2048) (v : W32) : exec (.knotWrite bar k v) s =
    .next (if s.seesKnot p f k.val then s.knotTo p k.val v.toNat else s) :=
  congrArg Host.Outcome.next (viaTenant_some hf)

theorem exec_knotAdd (k : Fin 2048) (v : W32) : exec (.knotAdd bar k v) s =
    .next (if s.seesKnot p f k.val then s.knotAdd p k.val v.toNat else s) :=
  congrArg Host.Outcome.next (viaTenant_some hf)

end

/-! ### The tail and the acknowledgement -/

section
variable {s : State} {p q v : Nat}

/-- A tail that stays within the ring wakes a live queue. -/
theorem writeTail_within (hlive : (s.setReg .Q_TAIL p q v).queueLive p q = true)
    (h : (v + 2 ^ 32 - (s.setReg .Q_TAIL p q v).reg .Q_CPL_ACK p q) % 2 ^ 32 ≤ 2 ^ (s.setReg .Q_TAIL p q v).fld Q_CFG_CTRL.SIZE_LOG2 p q) :
    s.writeTail p q v = (s.setReg .Q_TAIL p q v).refreshQ p q := by
  rw [State.writeTail, if_pos hlive, if_neg (Nat.not_lt.mpr h)]

theorem writeTail_beyond (hlive : (s.setReg .Q_TAIL p q v).queueLive p q = true)
    (h : 2 ^ (s.setReg .Q_TAIL p q v).fld Q_CFG_CTRL.SIZE_LOG2 p q < (v + 2 ^ 32 - (s.setReg .Q_TAIL p q v).reg .Q_CPL_ACK p q) % 2 ^ 32) :
    s.writeTail p q v = (s.setReg .Q_TAIL p q v).queueError p q 1 := by
  rw [State.writeTail, if_pos hlive, if_pos h]

theorem writeTail_notLive (h : (s.setReg .Q_TAIL p q v).queueLive p q = false) : s.writeTail p q v = s.setReg .Q_TAIL p q v :=
  if_neg (by simp [h])

theorem writeAck_notLive (h : (s.setReg .Q_CPL_ACK p q v).queueLive p q = false) : s.writeAck p q v = s.setReg .Q_CPL_ACK p q v :=
  if_neg (by simp [h])

/-- Records that are written may be acknowledged, in a live queue or not. -/
theorem writeAck_within (h : (v % 2 ^ 32 + 2 ^ 32 - s.reg .Q_CPL_ACK p q) % 2 ^ 32
      ≤ (((s.setReg .Q_CPL_ACK p q v).queue p q).records + 2 ^ 32 - s.reg .Q_CPL_ACK p q) % 2 ^ 32) :
    s.writeAck p q v = s.setReg .Q_CPL_ACK p q v :=
  if_neg (fun hc => Nat.not_lt.mpr h (of_decide_eq_true (Bool.and_eq_true_iff.mp hc).2))

theorem writeAck_beyond (hlive : (s.setReg .Q_CPL_ACK p q v).queueLive p q = true)
    (h : (((s.setReg .Q_CPL_ACK p q v).queue p q).records + 2 ^ 32 - s.reg .Q_CPL_ACK p q) % 2 ^ 32
      < (v % 2 ^ 32 + 2 ^ 32 - s.reg .Q_CPL_ACK p q) % 2 ^ 32) :
    s.writeAck p q v = (s.setReg .Q_CPL_ACK p q v).queueError p q 2 :=
  if_pos (Bool.and_eq_true_iff.mpr ⟨hlive, decide_eq_true h⟩)

/-! ### ENABLE -/

/-- What a write of Q_CFG_CTRL leaves before its ENABLE acts: the fields other than ENABLE are taken while the queue is DISABLED, VF where it names
a function (R266). -/
def State.takeQueueCtrl (s : State) (p q w : Nat) : State :=
  if s.fld Q_STATUS.STATE p q = 0 then
    s.writeMasked .Q_CFG_CTRL p q
      (setBits (if 16 < Q_CFG_CTRL.VF.of w then setBits w 9 5 (bits (s.reg .Q_CFG_CTRL p q) 9 5) else w) 0 1
        (b2n (bit (s.reg .Q_CFG_CTRL p q) 0)))
  else s

/-- Bit 0 of a word whose lowest field, of one bit, takes a value. -/
theorem bit_setBits_lowest (x v : Nat) : bit (setBits x 0 1 v) 0 = bit v 0 := by
  have h : setBits x 0 1 v / 2 ^ 0 % 2 = v / 2 ^ 0 % 2 := by
    simp only [setBits]
    omega
  rw [bit, bit, h]

theorem writeQueueCtrl_eq (w : Nat) : s.writeQueueCtrl p q w =
    if bit w 0 = true then
      if bit (s.reg .Q_CFG_CTRL p q) 0 = true then s.takeQueueCtrl p q w else (s.takeQueueCtrl p q w).enableQueue p q
    else (s.takeQueueCtrl p q w).disableQueue p q := rfl

/-- ENABLE set from 0 begins the queue anew; from 1 it changes nothing more. -/
theorem writeQueueCtrl_enables (h : bit (s.reg .Q_CFG_CTRL p q) 0 = false) :
    s.writeQueueCtrl p q (setBits v 0 1 1) = (s.takeQueueCtrl p q (setBits v 0 1 1)).enableQueue p q := by
  rw [writeQueueCtrl_eq, bit_setBits_lowest, if_pos (by decide), if_neg (by simp [h])]

theorem writeQueueCtrl_enabled (h : bit (s.reg .Q_CFG_CTRL p q) 0 = true) :
    s.writeQueueCtrl p q (setBits v 0 1 1) = s.takeQueueCtrl p q (setBits v 0 1 1) := by
  rw [writeQueueCtrl_eq, bit_setBits_lowest, if_pos (by decide), if_pos h]

theorem writeQueueCtrl_disables :
    s.writeQueueCtrl p q (setBits v 0 1 0) = (s.takeQueueCtrl p q (setBits v 0 1 0)).disableQueue p q := by
  rw [writeQueueCtrl_eq, bit_setBits_lowest, if_neg (by decide)]

end

/-! ### The fetch -/

/-- The entries that a queue's tail offers beyond those fetched. -/
def State.ringOffer (s : State) (p q : Nat) : Nat := (s.reg .Q_TAIL p q + 2 ^ 32 - s.reg .Q_FETCHED p q) % 2 ^ 32

/-- The address of the next entry of a queue's ring. -/
def State.nextEntryAt (s : State) (p q : Nat) : Nat :=
  s.reg .Q_CFG_RING p q + 64 * (s.reg .Q_FETCHED p q % 2 ^ s.fld Q_CFG_CTRL.SIZE_LOG2 p q)

/-- The read of a queue's next entries: from host memory, or from HBM under the queue's context. -/
def State.ringRead (s : State) (p q : Nat) : Status × List Byte × State :=
  if s.fld Q_CFG_CTRL.SPACE p q = 0 then (.ok, readBytes s.host (s.nextEntryAt p q) (64 * s.fetchCount p q), s)
  else s.hbmRead (.ctx 6 p (s.fld Q_CFG_CTRL.CTX p q)) (s.nextEntryAt p q) (64 * s.fetchCount p q)

/-- What the end of a ring read of `n` entries comes to (R268). -/
def State.ringReadEnds (t : State) (p q n : Nat) (st : Status) (b : List Byte) : State :=
  match st with
  | .ok => t.joinRing p q n b
  | .busError => t.queueError p q 4
  | _ => t.queueError p q 3

theorem ringReadEnds_refused {t : State} {p q n : Nat} {st : Status} {b : List Byte} (hok : st ≠ .ok) (hbus : st ≠ .busError) :
    t.ringReadEnds p q n st b = t.queueError p q 3 := by
  cases st
  case ok => exact absurd rfl hok
  case busError => exact absurd rfl hbus
  all_goals rfl

section
variable {s : State} {p q : Nat}

theorem fetchCount_of_live (hlive : s.queueLive p q = true) (h : s.ringOffer p q ≤ 2 ^ s.fld Q_CFG_CTRL.SIZE_LOG2 p q) :
    s.fetchCount p q = min 8 (min (s.ringOffer p q)
      (min (2 ^ s.fld Q_CFG_CTRL.SIZE_LOG2 p q - (s.reg .Q_FETCHED p q + 2 ^ 32 - s.reg .Q_CPL_ACK p q) % 2 ^ 32)
        (2 ^ s.fld Q_CFG_CTRL.SIZE_LOG2 p q - s.reg .Q_FETCHED p q % 2 ^ s.fld Q_CFG_CTRL.SIZE_LOG2 p q))) :=
  if_neg (by simpa [hlive, State.ringOffer] using h)

theorem fetchCount_eq_zero (h : s.queueLive p q = false ∨ 2 ^ s.fld Q_CFG_CTRL.SIZE_LOG2 p q < s.ringOffer p q) : s.fetchCount p q = 0 :=
  if_pos (by simpa [State.ringOffer] using h)

end

section
variable {s : State} {x : QueueId}

/-- A fetch, by its count, by an error that it meets, and by the end of its read. -/
theorem exec_commandFetch (err : Bool) : exec (.commandFetch x err) s = .next
    (if s.fetchCount x.part.val x.q.val = 0 then s
    else if err then s.queueError x.part.val x.q.val 4
    else (s.ringRead x.part.val x.q.val).2.2.ringReadEnds x.part.val x.q.val (s.fetchCount x.part.val x.q.val)
      (s.ringRead x.part.val x.q.val).1 (s.ringRead x.part.val x.q.val).2.1) := rfl

theorem exec_commandFetch_stays (h : s.fetchCount x.part.val x.q.val = 0) (err : Bool) : exec (.commandFetch x err) s = .next s := by
  rw [exec_commandFetch, if_pos h]

variable (hn : s.fetchCount x.part.val x.q.val ≠ 0)
include hn

theorem exec_commandFetch_err : exec (.commandFetch x true) s = .next (s.queueError x.part.val x.q.val 4) := by
  rw [exec_commandFetch, if_neg hn, if_pos rfl]

theorem exec_commandFetch_reads {st : Status} {b : List Byte} {t : State} (h : s.ringRead x.part.val x.q.val = (st, b, t)) :
    exec (.commandFetch x false) s = .next (t.ringReadEnds x.part.val x.q.val (s.fetchCount x.part.val x.q.val) st b) := by
  rw [exec_commandFetch, if_neg hn, if_neg Bool.false_ne_true, h]

end

/-! ### Knots -/

section
variable {s : State} {p k v : Nat} (hv : v < 2 ^ 32)
include hv

theorem knotAdd_fits (h : s.reg .KNOT_COUNT p k + v < 2 ^ 32) : s.knotAdd p k v = s.knotTo p k (s.reg .KNOT_COUNT p k + v) := by
  have hmin : min (s.reg .KNOT_COUNT p k + v) (2 ^ 32 - 1) = s.reg .KNOT_COUNT p k + v := by omega
  simp only [State.knotAdd, Nat.mod_eq_of_lt hv, if_neg (Nat.not_le.mpr h), hmin]

/-- A sum beyond 32 bits stays at the largest count, with SAT (R277). -/
theorem knotAdd_saturates (h : 2 ^ 32 ≤ s.reg .KNOT_COUNT p k + v) :
    s.knotAdd p k v = (s.setFld KNOT_CFG.SAT p k 1).knotTo p k (2 ^ 32 - 1) := by
  have hmin : min (s.reg .KNOT_COUNT p k + v) (2 ^ 32 - 1) = 2 ^ 32 - 1 := by omega
  simp only [State.knotAdd, Nat.mod_eq_of_lt hv, if_pos h, hmin]

end

/-! ### The obligation -/

/-- Settles O38: the writes by what the function sees, the fetch by its count and the end of its read, the knots by their sum. -/
theorem queueRegisters : Obligations.QueueRegisters := by
  unfold Obligations.QueueRegisters
  refine ⟨fun s bar p f q v hf => ⟨fun hsees => ?seen, fun hsees => ?unseen, fun w => ?level⟩, fun s x => ?fetch,
    fun s bar p f k v hf => ⟨fun hsees => ?knot, fun hsees => ?otherKnot⟩⟩
  case seen =>
    intro t a old took
    rw [exec_doorbell hf, exec_cplAck hf, exec_queueEnable hf, exec_queueDisable hf, if_pos hsees, if_pos hsees, if_pos hsees, if_pos hsees]
    exact ⟨fun hlive h => congrArg _ (writeTail_within hlive h), fun hlive h => congrArg _ (writeTail_beyond hlive h),
      fun h => congrArg _ (writeTail_notLive h), fun h => congrArg _ (writeAck_notLive h), fun h => congrArg _ (writeAck_within h),
      fun hlive h => congrArg _ (writeAck_beyond hlive h), fun h => congrArg _ (writeQueueCtrl_enables h),
      fun h => congrArg _ (writeQueueCtrl_enabled h), congrArg _ writeQueueCtrl_disables⟩
  case unseen =>
    simp only [List.forall_mem_cons, List.not_mem_nil, false_imp_iff, implies_true, exec_doorbell hf, exec_cplAck hf,
      exec_queueEnable hf, exec_queueDisable hf, hsees, Bool.false_eq_true, if_false, and_self]
  case level =>
    rw [exec_hostLevelWrite hf]
    exact ⟨fun h => congrArg _ (if_pos (by simpa using h)), fun h0 hw => congrArg _ (if_neg (by simp [h0, hw]))⟩
  case fetch =>
    intro p q size i avail n a joined r
    refine ⟨fetchCount_of_live, fetchCount_eq_zero, exec_commandFetch_stays, fun hn =>
      ⟨fun hhost => ?_, fun hhbm hok => ?_, fun hhbm hbus => ?_, fun hhbm hok hbus => ?_, exec_commandFetch_err hn⟩⟩
    · exact exec_commandFetch_reads hn (if_pos hhost)
    all_goals
      rw [exec_commandFetch_reads hn (if_neg hhbm)]
    · exact congrArg (fun st => Host.Outcome.next (r.2.2.ringReadEnds p q n st r.2.1)) hok
    · exact congrArg (fun st => Host.Outcome.next (r.2.2.ringReadEnds p q n st r.2.1)) hbus
    · exact congrArg Host.Outcome.next (ringReadEnds_refused hok hbus)
  case knot =>
    rw [exec_knotWrite hf, exec_knotAdd hf, if_pos hsees, if_pos hsees]
    exact ⟨rfl, fun h => congrArg _ (knotAdd_fits v.isLt h), fun h => congrArg _ (knotAdd_saturates v.isLt h)⟩
  case otherKnot =>
    simp only [exec_knotWrite hf, exec_knotAdd hf, hsees, Bool.false_eq_true, if_false, and_self]

end Sys2Proof.Machine
end

section
/-! SUPPORT. The lands of the package (R441, R447), the reset of a function (R269) and the always-on supply (R418, R445). -/

namespace Sys2Proof.Machine
open Sys2Proof

variable {s : State}

/-! ### THERMTRIP_N and RESET_N -/

theorem exec_thermalTrip_trips (h : s.thermtrip = false) : exec .thermalTrip s = .next
    ((({ ((s.alarm 0x02).uncount).resetChip with thermtrip := true } : State).setFld RST_CAUSE.LAST 0 0 5).emit (.pin 1 false)) :=
  congrArg Host.Outcome.next (if_neg (by simp [h]))

theorem exec_thermalTrip_stands (h : s.thermtrip = true) : exec .thermalTrip s = .next s :=
  congrArg Host.Outcome.next (if_pos h)

/-- A pulse of RESET_N below 10 µs is none (R447). -/
theorem exec_resetN_short {us : Nat} (h : us < 10) : exec (.resetN us) s = .next s :=
  congrArg Host.Outcome.next (if_pos h)

/-- A pulse that is long enough resets the chip, and releases THERMTRIP_N where a trip stands. -/
theorem exec_resetN_long {us : Nat} (h : 10 ≤ us) : exec (.resetN us) s = .next
    (if s.thermtrip then
      ({ s.uncount.chipReset (if s.resetCrossed then 3 else 0) with thermtrip := false } : State).emit (.pin 1 true)
    else s.uncount.chipReset (if s.resetCrossed then 3 else 0)) :=
  congrArg Host.Outcome.next (if_neg (Nat.not_lt.mpr h))

/-! ### The always-on supply -/

/-- What a power-on reset leaves before HBM_EN falls: OTP, the fuses and what stands around the device. -/
def State.unpowered (s : State) : State := { (s.wipe fused).drivePerst s with vaon := false }

theorem exec_powerOnReset : exec .powerOnReset s = .next (if s.hbmEn then s.unpowered.emit (.pin 0 false) else s.unpowered) := rfl

/-! ### The obligation -/

/-- Settles O57: the trip and RESET_N by THERMTRIP_N and the length of the pulse, a power-on reset by HBM_EN. PERST_N, a function's reset and
the supply's return have one case each, so that their clauses are what the model does. -/
theorem controlLands : Obligations.ControlLands := by
  unfold Obligations.ControlLands
  refine ⟨fun s => ⟨exec_thermalTrip_trips, exec_thermalTrip_stands⟩, fun s us => ⟨exec_resetN_short, fun hlong => ?resetN⟩,
    fun s => ⟨rfl, rfl, rfl⟩, fun s p vf => rfl, fun s => ?power⟩
  case resetN =>
    intro t
    rw [exec_resetN_long hlong]
    exact ⟨fun h => congrArg _ (if_neg (by simp [h])), fun h => congrArg _ (if_pos h)⟩
  case power =>
    intro t
    rw [exec_powerOnReset]
    exact ⟨fun h => congrArg _ (if_pos h), fun h => congrArg _ (if_neg (by simp [h]))⟩

end Sys2Proof.Machine
end

section
/-! SUPPORT. The commands of the pattern cards (R316, R317), and the ports, the interleave map and the cards of the board tier (R324 to R330). -/

namespace Sys2Proof.Machine
open Sys2Proof

/-! ### The commands of the pattern cards -/

/-- A card command begins on the pages that the registers name (R316). -/
def State.beginCards (s : State) (p cmd : Nat) : State :=
  { s.setFld PART_CARD_CMD.STATE p 0 1 with
    cardOps := SMap.put s.cardOps p
      (cmd, s.fld PART_CARD_FIRST.PAGE p 0, s.fld PART_CARD_COUNT.PAGES p 0, s.fld PART_CARD_VALUE.CARD p 0) }

/-- Whether the pages that a CARD_FILL names exist (R317). -/
def State.CardPagesExist (s : State) (p : Nat) : Prop :=
  s.fld PART_CARD_COUNT.PAGES p 0 ≠ 0 ∧ s.fld PART_CARD_FIRST.PAGE p 0 + s.fld PART_CARD_COUNT.PAGES p 0 ≤ 2 ^ 21

/-- What a write of a command, 1 or 2, comes to. -/
theorem writeCardCmd_cmd (s : State) (p v : Nat) {cmd : Nat} (h : cmd = 1 ∨ cmd = 2) :
    s.writeCardCmd p (setBits v 0 2 cmd) =
      if s.fld PART_CARD_CMD.STATE p 0 = 1 then s.setFld PART_CARD_CMD.RESULT p 0 Status.illegal.code
      else if (cmd = 1 && (s.fld PART_CARD_COUNT.PAGES p 0 = 0
          || 2 ^ 21 < s.fld PART_CARD_FIRST.PAGE p 0 + s.fld PART_CARD_COUNT.PAGES p 0)) = true
        then s.setFld PART_CARD_CMD.RESULT p 0 Status.illegal.code
      else s.beginCards p cmd := by
  have hcmd : setBits v 0 2 cmd % 4 = cmd := setBits_cmd_mod v (by omega)
  have hnone : ¬ (cmd = 0 || cmd = 3) = true := by rcases h with rfl | rfl <;> decide
  simp only [State.writeCardCmd, hcmd, if_neg hnone, State.beginCards]

section
variable {s : State} {p : Fin 8} (v : W32)

theorem exec_copyActive_begins (h : s.fld PART_CARD_CMD.STATE p.val 0 ≠ 1) : exec (.copyActive p v) s = .next (s.beginCards p.val 2) :=
  congrArg Host.Outcome.next ((writeCardCmd_cmd s p.val v.toNat (.inr rfl)).trans ((if_neg h).trans (if_neg (by simp))))

theorem exec_cardFill_begins (h : s.fld PART_CARD_CMD.STATE p.val 0 ≠ 1) (hp : s.CardPagesExist p.val) :
    exec (.cardFill p v) s = .next (s.beginCards p.val 1) :=
  congrArg Host.Outcome.next ((writeCardCmd_cmd s p.val v.toNat (.inl rfl)).trans
    ((if_neg h).trans (if_neg (by simpa [State.CardPagesExist] using hp))))

theorem exec_cardFill_noPages (h : s.fld PART_CARD_CMD.STATE p.val 0 ≠ 1) (hp : ¬ s.CardPagesExist p.val) :
    exec (.cardFill p v) s = .next (s.setFld PART_CARD_CMD.RESULT p.val 0 Status.illegal.code) :=
  congrArg Host.Outcome.next ((writeCardCmd_cmd s p.val v.toNat (.inl rfl)).trans
    ((if_neg h).trans (if_pos (by simpa [State.CardPagesExist, Classical.or_iff_not_imp_left] using hp))))

/-- A command while one runs is refused, whichever it is. -/
theorem exec_cardCommand_busy (h : s.fld PART_CARD_CMD.STATE p.val 0 = 1) {c : Instr} (hc : c ∈ [Instr.cardFill p v, .copyActive p v]) :
    exec c s = .next (s.setFld PART_CARD_CMD.RESULT p.val 0 Status.illegal.code) := by
  simp only [List.mem_cons, List.not_mem_nil, or_false] at hc
  rcases hc with rfl | rfl
  · exact congrArg Host.Outcome.next ((writeCardCmd_cmd s p.val v.toNat (.inl rfl)).trans (if_pos h))
  · exact congrArg Host.Outcome.next ((writeCardCmd_cmd s p.val v.toNat (.inr rfl)).trans (if_pos h))

end

/-- A card command that has ended: it runs no more, with RESULT OK. -/
def State.cardsDone (s : State) (p : Nat) : State :=
  (({ s with cardOps := SMap.erase s.cardOps p } : State).setFld PART_CARD_CMD.STATE p 0 0).setFld PART_CARD_CMD.RESULT p 0 0

/-- Whether a fill of the partition since the last copy overlaps `n` pages from `first`. -/
def State.fillOverlaps (t : State) (p first n : Nat) : Bool := t.fills.any (fun x => x.1 = p && x.2.1 < first + n && first < x.2.1 + x.2.2)

/-- The shadow cards hold the value that a fill gives, and FILLED counts it. -/
def State.filledCards (s : State) (p first n card : Nat) : State :=
  ((s.cardsDone p).fillCards (1 - s.cardBank p) p first n (fun _ => card)).bumpFld TBL_SWITCH_STATUS.FILLED (8 + p) 0 1

/-- The shadow cards hold the active ones, and no fill stands. -/
def State.copiedCards (s : State) (p : Nat) : State :=
  (({ s.cardsDone p with
      cards := (s.cardsDone p).copyCards (1 - s.cardBank p) p,
      fills := (s.cardsDone p).fills.filter (fun x => x.1 ≠ p) } : State).setFld
    TBL_SWITCH_STATUS.FILLED (8 + p) 0 0).setFld TBL_SWITCH_STATUS.BAD (8 + p) 0 0

section
variable {s : State} {p : Fin 8}

theorem exec_cardCommandComplete_none (h : SMap.find s.cardOps p.val = none) : exec (.cardCommandComplete p) s = .next s := by
  change execCardCommandComplete p s = _
  simp only [execCardCommandComplete, h]

variable {cmd first n card : Nat} (h : SMap.find s.cardOps p.val = some (cmd, first, n, card))
include h

/-- A fill ends; BAD says that it overlaps one before it (R317). -/
theorem exec_cardCommandComplete_fill (hc : cmd = 1) {covered : Bool} (hcov : (s.cardsDone p.val).fillOverlaps p.val first n = covered) :
    exec (.cardCommandComplete p) s = .next
      (let u := s.filledCards p.val first n card
       let t := if covered then u.setFld TBL_SWITCH_STATUS.BAD (8 + p.val) 0 1 else u
       { t with fills := t.fills ++ [(p.val, first, n)] }) := by
  change execCardCommandComplete p s = _
  simp only [execCardCommandComplete, h, if_pos hc, ← hcov]
  rfl

theorem exec_cardCommandComplete_copy (hc : cmd ≠ 1) : exec (.cardCommandComplete p) s = .next (s.copiedCards p.val) := by
  change execCardCommandComplete p s = _
  simp only [execCardCommandComplete, h, if_neg hc]
  rfl

end

/-! ### The ports of the board tier -/

/-- A port that was up has retrained, which is counted with its alarm (R330, R400). -/
def State.retrained (s : State) (n : Nat) : State :=
  if s.fld BTIER_PORT_STATUS.STATE n 0 = 2 then (s.bump .BTIER_PORT_RETRAINS n 0 1).alarm 0x0F else s

/-- Whether a port trains with two expanders: it is bifurcated, and its second expander answers (R324). -/
def State.twoExpanders (s : State) (n : Nat) (cap1 : Option (BitVec 16)) : Bool := s.fld BTIER_PORT_CTRL.BIFUR n 0 = 1 && cap1.isSome

theorem twoExpanders_iff (s : State) (n : Nat) (cap1 : Option (BitVec 16)) :
    s.twoExpanders n cap1 = true ↔ s.fld BTIER_PORT_CTRL.BIFUR n 0 = 1 ∧ cap1.isSome = true := by
  simp only [State.twoExpanders, Bool.and_eq_true, decide_eq_true_eq]

section
variable {s : State} {n : Fin 4}

theorem exec_btierPortTraining_idle (h : s.fld BTIER_PORT_CTRL.ENABLE n.val 0 = 0 ∨ bit s.heldPorts (16 + n.val) = true) (r : CxlEnd) :
    exec (.btierPortTraining n r) s = .next s :=
  congrArg Host.Outcome.next (if_pos (by simpa using h))

variable (he : s.fld BTIER_PORT_CTRL.ENABLE n.val 0 ≠ 0) (hh : bit s.heldPorts (16 + n.val) = false)
include he hh

theorem exec_btierPortTraining_refused : exec (.btierPortTraining n .refused) s = .next
    (((s.retrained n.val).setReg .BTIER_PORT_STATUS n.val 0 3).alarm 0x0D) :=
  congrArg Host.Outcome.next (if_neg (by simp [he, hh]))

/-- Training that fails takes its port down, which is a failure where the port is of the map (R326). -/
theorem exec_btierPortTraining_failed : exec (.btierPortTraining n .failed) s = .next
    (if (s.retrained n.val).mapPorts.contains n.val = true then ((s.retrained n.val).setReg .BTIER_PORT_STATUS n.val 0 4).alarm 0x10
     else (s.retrained n.val).setReg .BTIER_PORT_STATUS n.val 0 4) :=
  congrArg Host.Outcome.next (if_neg (by simp [he, hh]))

variable (rate : Fin 3) (cap0 : BitVec 16)

/-- Training that succeeds takes its port up, with one expander or with two (R324). -/
theorem exec_btierPortTraining_up (cap1 : Option (BitVec 16)) {two : Bool} (h : (s.retrained n.val).twoExpanders n.val cap1 = two) :
    exec (.btierPortTraining n (.up rate cap0 cap1)) s = .next
      (((s.retrained n.val).setReg .BTIER_PORT_STATUS n.val 0 (2 + rate.val * 2 ^ 3 + (if two then 2 else 1) * 2 ^ 5)).setReg
        .BTIER_PORT_CAP n.val 0 (cap0.toNat + (if two then (cap1.getD 0).toNat else 0) * 2 ^ 16)) :=
  h ▸ congrArg Host.Outcome.next (if_neg (by simp [he, hh]))

end

/-- The failure of a port, with the alarm where it is of the map (R326). -/
theorem exec_btierPortFail (s : State) (n : Fin 4) : exec (.btierPortFail n) s = .next
    (if s.mapPorts.contains n.val = true then (s.setFld BTIER_PORT_STATUS.STATE n.val 0 4).alarm 0x10
     else s.setFld BTIER_PORT_STATUS.STATE n.val 0 4) := rfl

/-! ### The interleave map -/

/-- The lowest bit of a word whose lowest field, of one bit, takes a value. -/
theorem setBits_lowest_mod (x v : Nat) : setBits x 0 1 v % 2 = v % 2 := by
  simp only [setBits]
  omega

/-- Whether the ports that are up make a map: one, two or four of them, with as many expanders each (R325). -/
def State.Mappable (s : State) : Prop :=
  s.upPorts.length ∈ [1, 2, 4] ∧ (s.upPorts.all (fun n => s.fld BTIER_PORT_STATUS.EXPS n 0
    = s.fld BTIER_PORT_STATUS.EXPS (s.upPorts.getD 0 0) 0)) = true

/-- The map over the ports that are up: its size is that of the smallest expander for each (R325). -/
def State.mapped (s : State) : State :=
  let e := s.fld BTIER_PORT_STATUS.EXPS (s.upPorts.getD 0 0) 0
  { (s.setReg .BTIER_MAP 0 0 (1 + s.upPorts.length * 2 ^ 8 + e * 2 ^ 12)).setReg .BTIER_MAP_SIZE 0 0
      (s.upPorts.length * e * (s.upPorts.flatMap s.expCaps).foldl min 2048) with mapPorts := s.upPorts }

theorem mappable_iff (s : State) :
    ((s.upPorts.length = 1 || s.upPorts.length = 2 || s.upPorts.length = 4)
      && s.upPorts.all (fun n => s.fld BTIER_PORT_STATUS.EXPS n 0 = s.fld BTIER_PORT_STATUS.EXPS (s.upPorts.getD 0 0) 0)) = true
      ↔ s.Mappable := by
  simp only [State.Mappable, Bool.and_eq_true, Bool.or_eq_true, decide_eq_true_eq, List.mem_cons, List.not_mem_nil, or_false, or_assoc]

section
variable {s : State} (v : W32)

theorem exec_mapBuild_builds (h : s.Mappable) : exec (.mapBuild v) s = .next s.mapped :=
  congrArg Host.Outcome.next ((if_pos (setBits_lowest_mod v.toNat 1)).trans (if_pos ((mappable_iff s).mpr h)))

theorem exec_mapBuild_refused (h : ¬ s.Mappable) : exec (.mapBuild v) s = .next (s.setFld BTIER_MAP.RESULT 0 0 Status.illegal.code) :=
  congrArg Host.Outcome.next ((if_pos (setBits_lowest_mod v.toNat 1)).trans (if_neg (mt (mappable_iff s).mp h)))

theorem writeMap_disable : s.writeMap (setBits v.toNat 0 1 0) =
    if (List.range 4096).any (fun i => s.reg .BTIER_CARD i 0 ≠ 0) = true then s.setFld BTIER_MAP.RESULT 0 0 Status.illegal.code
    else { (s.setReg .BTIER_MAP 0 0 0).setReg .BTIER_MAP_SIZE 0 0 0 with mapPorts := [] } :=
  if_neg (by simp [setBits_lowest_mod])

theorem exec_mapDisable_disables (h : ∀ i < 4096, s.reg .BTIER_CARD i 0 = 0) :
    exec (.mapDisable v) s = .next { (s.setReg .BTIER_MAP 0 0 0).setReg .BTIER_MAP_SIZE 0 0 0 with mapPorts := [] } :=
  congrArg Host.Outcome.next ((writeMap_disable v).trans (if_neg (by simpa using h)))

theorem exec_mapDisable_refused {i : Nat} (hi : i < 4096) (h : s.reg .BTIER_CARD i 0 ≠ 0) :
    exec (.mapDisable v) s = .next (s.setFld BTIER_MAP.RESULT 0 0 Status.illegal.code) :=
  congrArg Host.Outcome.next ((writeMap_disable v).trans (if_pos (by simpa using ⟨i, hi, h⟩)))

end

/-! ### The cards and the reads of the board tier -/

/-- A change of a board card between two jobs is refused and counted; any other is taken (R327). -/
theorem writeBoardCard_eq (s : State) (f : Field) (i v : Nat) : s.writeBoardCard f i v =
    if bits (s.fld f i 0) 0 9 ≠ 0 ∧ bits v 0 9 ≠ 0 ∧ bits (s.fld f i 0) 0 9 ≠ bits v 0 9 then s.bump .BTIER_CARD_REFUSED 0 0 1
    else s.setFld f i 0 v := by
  simp only [State.writeBoardCard, Bool.and_eq_true, decide_eq_true_eq, and_assoc]

section
variable {s : State} {op : Nat} {n : Fin 4}

theorem exec_btierReadTimeout_ends {o : AsyncOp} {src dst len hint a : Nat} (ho : s.async op = some o) (hw : o.work = .copy src dst len hint)
    (hl : locOf o.engine src = .board a) :
    exec (.btierReadTimeout op n) s = .next ((s.moveBytes o true (some n.val)).2.endAsync o (s.moveBytes o true (some n.val)).1 true) := by
  change execBtierReadTimeout op n s = _
  simp only [execBtierReadTimeout, ho, hw, hl]

/-- An operation that copies nothing from the board tier does not end. -/
theorem exec_btierReadTimeout_stays
    (h : ∀ (o : AsyncOp) (src dst len hint a : Nat), s.async op = some o → o.work = .copy src dst len hint → locOf o.engine src ≠ .board a) :
    exec (.btierReadTimeout op n) s = .next s := by
  change execBtierReadTimeout op n s = _
  unfold execBtierReadTimeout
  split
  · next o ho =>
    split
    · next src dst len hint hw =>
      split
      · next a hl => exact absurd hl (h o src dst len hint a ho hw)
      · rfl
    · rfl
  · rfl

end

/-! ### The obligation -/

/-- Settles O41: a card command by its start and its end, a port by how its training ends, the map by the ports that are up and the cards that
stand, and a read by the operation that it belongs to. -/
theorem cardsAndBoard : Obligations.CardsAndBoard := by
  unfold Obligations.CardsAndBoard
  refine ⟨⟨?start, ?finish⟩, ?ports, ?map, ?cards, ?fail, ?reads⟩
  case start =>
    intro s p v first n begun
    refine ⟨fun h => ⟨exec_copyActive_begins v h, fun hn hp => exec_cardFill_begins v h ⟨hn, hp⟩, fun hp => ?_⟩,
      fun h c hc => exec_cardCommand_busy v h hc⟩
    exact exec_cardFill_noPages v h fun ⟨hn, hle⟩ => hp.elim hn (Nat.not_lt.mpr hle)
  case finish =>
    intro s p
    exact ⟨exec_cardCommandComplete_none, fun cmd first n card h => ⟨fun hc hcov => exec_cardCommandComplete_fill h hc hcov,
      fun hc hcov => exec_cardCommandComplete_fill h hc hcov, exec_cardCommandComplete_copy h⟩⟩
  case ports =>
    intro s n t two
    refine ⟨exec_btierPortTraining_idle, fun he hh => ⟨exec_btierPortTraining_refused he hh, fun hm => ?_, fun hm => ?_, fun rate cap0 cap1 =>
      ⟨fun hone => ?_, ?_⟩⟩⟩
    · exact (exec_btierPortTraining_failed he hh).trans (congrArg _ (if_neg (mt List.contains_iff_mem.mp hm)))
    · exact (exec_btierPortTraining_failed he hh).trans (congrArg _ (if_pos (List.contains_iff_mem.mpr hm)))
    · exact (exec_btierPortTraining_up he hh rate cap0 cap1 (Bool.eq_false_iff.mpr (mt (twoExpanders_iff _ _ _).mp hone))).trans
        (by simp only [Bool.false_eq_true, if_false, Nat.one_mul, Nat.zero_mul, Nat.add_zero]; rfl)
    · rintro c rfl htwo
      exact (exec_btierPortTraining_up he hh rate cap0 (some c) ((twoExpanders_iff _ _ _).mpr htwo)).trans
        (by simp only [if_true, Option.getD_some]; rfl)
  case map =>
    intro s v ps e alike
    exact ⟨fun hn ha => exec_mapBuild_builds v ⟨hn, ha⟩, fun h => exec_mapBuild_refused v fun ⟨hn, ha⟩ => h.elim (· hn) (· ha),
      exec_mapDisable_disables v, fun i hi => exec_mapDisable_refused v hi⟩
  case cards =>
    intro s i v card
    change Host.Outcome.next ((s.writeBoardCard BTIER_CARD.EVEN i.val _).writeBoardCard BTIER_CARD.ODD i.val _) = _
    rw [writeBoardCard_eq s, writeBoardCard_eq]
  case fail =>
    intro s n
    rw [exec_btierPortFail]
    exact ⟨fun hm => congrArg _ (if_pos (List.contains_iff_mem.mpr hm)), fun hm => congrArg _ (if_neg (mt List.contains_iff_mem.mp hm))⟩
  case reads =>
    intro s op n
    exact ⟨fun o src dst len hint a ho hw hl => exec_btierReadTimeout_ends ho hw hl, exec_btierReadTimeout_stays⟩

end Sys2Proof.Machine
end

section
/-! SUPPORT. Boot and its steps (R425 to R431), RETRY (R432), and the SMBus bytes of tabby mode (R430). -/

namespace Sys2Proof.Machine
open Sys2Proof

/-! ### The start of a boot -/

/-- Whether a boot has nothing to do: the device is held by a thermal trip, has no always-on supply, or is up. -/
def State.BootIdle (s : State) : Prop := s.thermtrip = true ∨ s.vaon = false ∨ 7 ≤ s.fld BOOT_STATUS.STAGE 0 0

/-- Whether three attempts have failed (R429). -/
def State.BootWorn (s : State) : Prop := 3 ≤ s.fld BOOT_STATUS.ATTEMPTS 0 0 ∧ s.booting = false

/-- Tabby mode (R430). -/
def State.toTabby (s : State) : State :=
  ({ (((s.readOtp).setFld BOOT_STATUS.TABBY 0 0 1).bootStage 8) with resetting := s.resetting.filter (fun x => x.1 ≠ 4) } : State).resetBusy

/-- A boot is under way: a new one is counted, and the generation in force is read (R429, R434). -/
def State.bootBegun (s : State) : State :=
  (if s.booting then s else s.setFld BOOT_STATUS.ATTEMPTS 0 0 (s.fld BOOT_STATUS.ATTEMPTS 0 0 + 1)).readOtp

/-- Whether generations have been programmed and none is valid (R434). -/
def State.SettingsLost (s : State) : Prop := s.inForce = 0 ∧ ∃ g ∈ [1, 2, 3, 4], s.genMark g ≠ 0

/-- What step 1 of a boot without its image comes to: it waits for the reference (R424), or takes an image where one verifies (R426). -/
def State.bootImage (s : State) (env : BootEnv) : State :=
  if s.refclk ≠ 0 || env.reached.val = 0 then s.bootStage 1
  else if !env.flash then s.bootFail 2
  else match s.chooseImage with
    | .ok x => (s.takeImage x).bootSteps env env.reached.val 7
    | .error e => s.bootFail e

theorem bootIdle_iff (s : State) : (s.thermtrip || !s.vaon || 7 ≤ s.fld BOOT_STATUS.STAGE 0 0) = true ↔ s.BootIdle := by
  simp only [State.BootIdle, Bool.or_eq_true, Bool.not_eq_true', decide_eq_true_eq, or_assoc]

theorem bootWorn_iff (s : State) : (3 ≤ s.fld BOOT_STATUS.ATTEMPTS 0 0 && !s.booting) = true ↔ s.BootWorn := by
  simp only [State.BootWorn, Bool.and_eq_true, Bool.not_eq_true', decide_eq_true_eq]

theorem settingsLost_iff (s : State) : (s.inForce = 0 && [1, 2, 3, 4].any (fun g => s.genMark g ≠ 0)) = true ↔ s.SettingsLost := by
  simp only [State.SettingsLost, Bool.and_eq_true, decide_eq_true_eq, List.any_eq_true]

section
variable {s : State} {env : BootEnv}

theorem exec_bootStart_idle (h : s.BootIdle) : exec (.bootStart env) s = .next s :=
  congrArg Host.Outcome.next (if_pos ((bootIdle_iff s).mpr h))

theorem exec_bootStart_tabby (h : ¬ s.BootIdle) (hw : s.BootWorn) : exec (.bootStart env) s = .next s.toTabby :=
  congrArg Host.Outcome.next ((if_neg (mt (bootIdle_iff s).mp h)).trans (if_pos ((bootWorn_iff s).mpr hw)))

/-- What a boot that has attempts left comes to. -/
theorem exec_bootStart_begun (h : ¬ s.BootIdle) (hw : ¬ s.BootWorn) : exec (.bootStart env) s = .next
    (if (s.bootBegun.booting && s.bootBegun.hasImage) = true then s.bootBegun.bootSteps env env.reached.val 7
     else if (!env.fuses) = true then s.bootBegun.bootFail 0x0C
     else if (s.bootBegun.inForce = 0 && [1, 2, 3, 4].any (fun g => s.bootBegun.genMark g ≠ 0)) = true then s.bootBegun.bootFail 3
     else s.bootBegun.bootImage env) := by
  change execBootStart env s = _
  rw [execBootStart, if_neg (mt (bootIdle_iff s).mp h), if_neg (mt (bootWorn_iff s).mp hw)]
  rcases hx : s.bootBegun.chooseImage with e | x
  all_goals
    rw [State.bootBegun] at hx
    simp only [State.bootImage, State.bootBegun, hx]
    rfl

variable (h : ¬ s.BootIdle) (hw : ¬ s.BootWorn)
include h hw

theorem exec_bootStart_goesOn (ho : s.bootBegun.booting = true ∧ s.bootBegun.hasImage = true) :
    exec (.bootStart env) s = .next (s.bootBegun.bootSteps env env.reached.val 7) :=
  (exec_bootStart_begun h hw).trans (congrArg _ (if_pos (Bool.and_eq_true_iff.mpr ho)))

variable (ho : ¬ (s.bootBegun.booting = true ∧ s.bootBegun.hasImage = true))
include ho

theorem exec_bootStart_fuses (hf : env.fuses = false) : exec (.bootStart env) s = .next (s.bootBegun.bootFail 0x0C) :=
  (exec_bootStart_begun h hw).trans (congrArg _ ((if_neg (mt Bool.and_eq_true_iff.mp ho)).trans (if_pos (by simp [hf]))))

theorem exec_bootStart_lost (hf : env.fuses = true) (hl : s.bootBegun.SettingsLost) :
    exec (.bootStart env) s = .next (s.bootBegun.bootFail 3) :=
  (exec_bootStart_begun h hw).trans (congrArg _ ((if_neg (mt Bool.and_eq_true_iff.mp ho)).trans
    ((if_neg (by simp [hf])).trans (if_pos ((settingsLost_iff _).mpr hl)))))

theorem exec_bootStart_image (hf : env.fuses = true) (hl : ¬ s.bootBegun.SettingsLost) :
    exec (.bootStart env) s = .next (s.bootBegun.bootImage env) :=
  (exec_bootStart_begun h hw).trans (congrArg _ ((if_neg (mt Bool.and_eq_true_iff.mp ho)).trans
    ((if_neg (by simp [hf])).trans (if_neg (mt (settingsLost_iff _).mp hl)))))

end

section
variable {t : State} {env : BootEnv}

theorem bootImage_waits (h : t.refclk ≠ 0 ∨ env.reached.val = 0) : t.bootImage env = t.bootStage 1 :=
  if_pos (by simpa using h)

variable (hr : t.refclk = 0) (he : env.reached.val ≠ 0)
include hr he

theorem bootImage_noFlash (hf : env.flash = false) : t.bootImage env = t.bootFail 2 :=
  (if_neg (by simp [hr, he])).trans (if_pos (by simp [hf]))

theorem bootImage_takes (hf : env.flash = true) {x : Nat} (hx : t.chooseImage = .ok x) :
    t.bootImage env = (t.takeImage x).bootSteps env env.reached.val 7 := by
  rw [State.bootImage, if_neg (by simp [hr, he]), if_neg (by simp [hf]), hx]

theorem bootImage_none (hf : env.flash = true) {e : Nat} (hx : t.chooseImage = .error e) : t.bootImage env = t.bootFail e := by
  rw [State.bootImage, if_neg (by simp [hr, he]), if_neg (by simp [hf]), hx]

end

/-! ### The end of its time -/

/-- A boot that runs out of time: the cause is recorded, and a power cycle is asked for where level 5 is the largest (R393, R429). -/
def State.bootLate (s : State) (ack : Bool) : State :=
  if s.maxBefore = 5 then (s.setReg .BOOT_FAIL_CAUSE 0 0 0x0B).powerCycle ack else s.setReg .BOOT_FAIL_CAUSE 0 0 0x0B

theorem exec_bootTimeout_idle {s : State} (h : s.booting = false) (ack : Bool) : exec (.bootTimeout ack) s = .next s :=
  congrArg Host.Outcome.next (if_pos (by simp [h]))

theorem exec_bootTimeout_late {s : State} (h : s.booting = true) (ack : Bool) : exec (.bootTimeout ack) s = .next
    (if (s.maxBefore = 5 && s.tabnex.isSome && ack) = true then s.bootLate ack else (s.bootLate ack).bootFail 0x0B) :=
  congrArg Host.Outcome.next (if_neg (by simp [h]))

theorem powerCycles_iff (s : State) (ack : Bool) : (s.maxBefore = 5 && s.tabnex.isSome && ack) = true
    ↔ s.maxBefore = 5 ∧ s.tabnex.isSome = true ∧ ack = true := by
  simp only [Bool.and_eq_true, decide_eq_true_eq, and_assoc]

/-! ### The steps of a boot -/

section
variable {s : State} {env : BootEnv} {r : Nat} (n : Nat)

theorem bootSteps_reached (h : r ≤ s.fld BOOT_STATUS.STAGE 0 0) : s.bootSteps env r (n + 1) = s := if_pos h

variable (h : s.fld BOOT_STATUS.STAGE 0 0 < r)
include h

theorem bootSteps_settings (hk : s.fld BOOT_STATUS.STAGE 0 0 = 1) : s.bootSteps env r (n + 1) = s.applySettings.bootSteps env r n := by
  rw [hk] at h
  simp only [State.bootSteps, hk, if_neg (Nat.not_le.mpr h)]

theorem bootSteps_missing (hk : s.fld BOOT_STATUS.STAGE 0 0 = 2) {cause : Nat} (hc : bootCause env = some cause) :
    s.bootSteps env r (n + 1) = s.bootFail cause := by
  rw [hk] at h
  simp only [State.bootSteps, hk, if_neg (Nat.not_le.mpr h), hc]

theorem bootSteps_found (hk : s.fld BOOT_STATUS.STAGE 0 0 = 2) (hc : bootCause env = none) :
    s.bootSteps env r (n + 1) = (s.bootStage 3).bootSteps env r n := by
  rw [hk] at h
  simp only [State.bootSteps, hk, if_neg (Nat.not_le.mpr h), hc]

/-- The stacks train, and a boot without one in service fails (R431). -/
theorem bootSteps_stacks (hk : s.fld BOOT_STATUS.STAGE 0 0 = 3) : s.bootSteps env r (n + 1) =
    if (List.range 16).all (fun st => (s.bootHbm env).fld HBM_STACK_STATUS.STATE st 0 = 2) = true then (s.bootHbm env).bootFail 9
    else (s.bootHbm env).bootSteps env r n := by
  rw [hk] at h
  simp only [State.bootSteps, hk, if_neg (Nat.not_le.mpr h)]

theorem bootSteps_ports (hk : s.fld BOOT_STATUS.STAGE 0 0 = 4) : s.bootSteps env r (n + 1) = s.bootPorts.bootSteps env r n := by
  rw [hk] at h
  simp only [State.bootSteps, hk, if_neg (Nat.not_le.mpr h)]

theorem bootSteps_functions (hk : s.fld BOOT_STATUS.STAGE 0 0 = 5) : s.bootSteps env r (n + 1) = (s.bootStage 6).bootSteps env r n := by
  rw [hk] at h
  simp only [State.bootSteps, hk, if_neg (Nat.not_le.mpr h)]

theorem bootSteps_last (hk : s.fld BOOT_STATUS.STAGE 0 0 = 0 ∨ 6 ≤ s.fld BOOT_STATUS.STAGE 0 0) :
    s.bootSteps env r (n + 1) = s.bootDone := by
  rw [State.bootSteps, if_neg (Nat.not_le.mpr h)]
  split
  case h_6 => rfl
  all_goals omega

end

/-! ### RETRY and the SMBus -/

/-- What RETRY finds: the image preferred is taken with it, unless it is reserved (R432). -/
def State.withPref (s : State) (w : Nat) : State := if w % 4 = 3 then s else s.setFld BOOT_CTRL.PREF 0 0 w

theorem bit_setBits_four (x : Nat) : bit (setBits x 4 1 1) 4 = true := by
  have h : setBits x 4 1 1 / 2 ^ 4 % 2 = 1 := by
    simp only [setBits]
    omega
  exact decide_eq_true h

theorem exec_retry (v : W32) (s : State) : exec (.retry v) s = .next
    (let t := s.withPref (setBits v.toNat 4 1 1)
     if t.fld BOOT_STATUS.TABBY 0 0 = 1 then (t.setFld BOOT_STATUS.ATTEMPTS 0 0 0).chipReset 1
     else t.setFld BOOT_CTRL.RESULT 0 0 Status.illegal.code) :=
  congrArg Host.Outcome.next (if_neg (by simp [bit_setBits_four]))

theorem exec_smbusReadByte_notTabby {s : State} (h : s.fld BOOT_STATUS.TABBY 0 0 = 0) (c : BitVec 8) : exec (.smbusReadByte c) s = .next s :=
  congrArg Host.Outcome.next (if_pos h)

/-- In tabby mode three commands are answered (R430). -/
theorem exec_smbusReadByte_tabby {s : State} (h : s.fld BOOT_STATUS.TABBY 0 0 ≠ 0) (c : BitVec 8) : exec (.smbusReadByte c) s = .next
    (if c = 0x20 then s.emit (.smbus (s.reg .BOOT_STATUS 0 0 % 256))
     else if c = 0x21 then s.emit (.smbus (s.fld BOOT_FAIL_CAUSE.CAUSE 0 0))
     else if c = 0x22 then s.emit (.smbus (s.fld BOOT_STATUS.ATTEMPTS 0 0))
     else s) :=
  congrArg Host.Outcome.next (if_neg h)

/-! ### The obligation -/

/-- Settles O58: a boot by what it finds on its way to its image, its time by the power cycle, its steps by the stage at which it stands, and
RETRY and the SMBus by tabby mode. -/
theorem bootOutcomes : Obligations.BootOutcomes := by
  unfold Obligations.BootOutcomes
  refine ⟨⟨?start, ?time⟩, ?steps, ?retry, ?smbus⟩
  case start =>
    intro s env n out worn t on lost
    refine ⟨exec_bootStart_idle, exec_bootStart_tabby, exec_bootStart_goesOn, fun h hw ho =>
      ⟨exec_bootStart_fuses h hw ho, exec_bootStart_lost h hw ho, fun hf hl => ?_⟩⟩
    rw [exec_bootStart_image h hw ho hf hl]
    exact ⟨fun hr => congrArg _ (bootImage_waits hr), fun hr he hb => congrArg _ (bootImage_noFlash hr he hb), fun hr he hb =>
      ⟨fun x hx => congrArg _ (bootImage_takes hr he hb hx), fun e hx => congrArg _ (bootImage_none hr he hb hx)⟩⟩
  case time =>
    intro s ack t u
    refine ⟨fun h => exec_bootTimeout_idle h ack, fun h => ?_⟩
    rw [exec_bootTimeout_late h]
    exact ⟨fun hc => congrArg _ (if_pos ((powerCycles_iff s ack).mpr hc)), fun hc => congrArg _ (if_neg (mt (powerCycles_iff s ack).mp hc))⟩
  case steps =>
    intro s env r n k trained
    refine ⟨bootSteps_reached n, bootSteps_settings n, fun h hk => ?regulators, fun h hk => ?training, bootSteps_ports n, bootSteps_functions n,
      bootSteps_last n⟩
    case regulators =>
      refine ⟨fun hreg => ?_, fun hreg hcreel => ?_, fun hreg hcreel hloom => ?_, fun hreg hcreel hloom hfirm => ?_,
        fun hreg hcreel hloom hfirm => ?_⟩
      · exact bootSteps_missing n h hk (by simp [bootCause, hreg])
      · exact bootSteps_missing n h hk (by simp [bootCause, hreg, hcreel])
      · exact bootSteps_missing n h hk (by simp [bootCause, hreg, hcreel, hloom])
      · exact bootSteps_missing n h hk (by simp [bootCause, hreg, hcreel, hloom, hfirm])
      · exact bootSteps_found n h hk (by simp [bootCause, hreg, hcreel, hloom, hfirm])
    case training =>
      rw [bootSteps_stacks n h hk]
      exact ⟨fun hall => if_pos (by simpa using hall), fun st hst hne => if_neg (by simpa using ⟨st, hst, hne⟩)⟩
  case retry =>
    intro s v w t
    rw [exec_retry]
    exact ⟨fun h => congrArg _ (if_pos h), fun h => congrArg _ (if_neg h)⟩
  case smbus =>
    intro s
    refine ⟨fun h => ?_, exec_smbusReadByte_notTabby⟩
    simp only [exec_smbusReadByte_tabby h]
    exact ⟨rfl, rfl, rfl, fun c h0 h1 h2 => by rw [if_neg h0, if_neg h1, if_neg h2]⟩

end Sys2Proof.Machine
end

section
/-! SUPPORT. The risk value and the fold interval that follows from it (R348, R349, R360). -/

namespace Sys2Proof.Machine
open Sys2Proof

/-! ### The risk value -/

theorem riskOf_saturates (e t : Nat) : riskOf e t = if 255 ≤ e + 4 * (t - 85) then 255 else e + 4 * (t - 85) := Nat.min_def

/-! ### The fold interval -/

section
variable {s : State} {r : Nat}

/-- The interval of a low risk: BASE, a 0 acting as 1 (R360). -/
def State.baseInterval (s : State) : Nat := max 1 (s.fld SELV_FLUSH_CFG.BASE 0 0)

theorem baseInterval_pos (s : State) : 1 ≤ s.baseInterval := Nat.le_max_left _ _

theorem interval_base (h : r < s.fld SELV_RISK_CFG.T_QUARTER 0 0) : s.interval r = s.baseInterval := if_pos h

theorem interval_quarter (hq : s.fld SELV_RISK_CFG.T_QUARTER 0 0 ≤ r) (h : r < s.fld SELV_RISK_CFG.T_ONE 0 0) :
    s.interval r = max 1 (s.baseInterval / 4) :=
  (if_neg (Nat.not_lt.mpr hq)).trans (if_pos h)

theorem interval_one (hq : s.fld SELV_RISK_CFG.T_QUARTER 0 0 ≤ r) (h : s.fld SELV_RISK_CFG.T_ONE 0 0 ≤ r) : s.interval r = 1 :=
  (if_neg (Nat.not_lt.mpr hq)).trans (if_neg (Nat.not_lt.mpr h))

/-- Past the first threshold the interval is that of a quarter of BASE at the most. -/
theorem interval_le_quarter (hq : s.fld SELV_RISK_CFG.T_QUARTER 0 0 ≤ r) : s.interval r ≤ max 1 (s.baseInterval / 4) := by
  rcases Nat.lt_or_ge r (s.fld SELV_RISK_CFG.T_ONE 0 0) with h | h
  · exact Nat.le_of_eq (interval_quarter hq h)
  · exact Nat.le_trans (Nat.le_of_eq (interval_one hq h)) (Nat.le_max_left _ _)

end

theorem interval_pos (s : State) (r : Nat) : 1 ≤ s.interval r := by
  rcases Nat.lt_or_ge r (s.fld SELV_RISK_CFG.T_QUARTER 0 0) with hq | hq
  · rw [interval_base hq]
    exact baseInterval_pos s
  · rcases Nat.lt_or_ge r (s.fld SELV_RISK_CFG.T_ONE 0 0) with h | h
    · rw [interval_quarter hq h]
      exact Nat.le_max_left _ _
    · exact Nat.le_of_eq (interval_one hq h).symm

theorem interval_le_base (s : State) (r : Nat) : s.interval r ≤ s.baseInterval := by
  rcases Nat.lt_or_ge r (s.fld SELV_RISK_CFG.T_QUARTER 0 0) with hq | hq
  · exact Nat.le_of_eq (interval_base hq)
  · exact Nat.le_trans (interval_le_quarter hq) (Nat.max_le.mpr ⟨baseInterval_pos s, Nat.div_le_self _ _⟩)

/-- The interval never grows as the risk rises, whatever the order of the thresholds. -/
theorem interval_le_of_le (s : State) {r r' : Nat} (hr : r ≤ r') : s.interval r' ≤ s.interval r := by
  rcases Nat.lt_or_ge r (s.fld SELV_RISK_CFG.T_QUARTER 0 0) with hq | hq
  · rw [interval_base hq]
    exact interval_le_base s r'
  · rcases Nat.lt_or_ge r (s.fld SELV_RISK_CFG.T_ONE 0 0) with h | h
    · rw [interval_quarter hq h]
      exact interval_le_quarter (Nat.le_trans hq hr)
    · rw [interval_one (Nat.le_trans hq hr) (Nat.le_trans h hr)]
      exact interval_pos s r

/-! ### The obligation -/

/-- Settles O13: the risk value saturates, and its interval falls through three values, of which the last is 1. -/
theorem riskValue : Obligations.RiskValue := by
  unfold Obligations.RiskValue
  exact ⟨riskOf_saturates, interval_pos, fun s r => interval_one, fun s _ _ _ hr => interval_le_of_le s hr⟩

end Sys2Proof.Machine
end

section
/-! SUPPORT. Pairing, heartbeats and the loss of the twin (R336, R340 to R342, R348, R364). -/

namespace Sys2Proof.Machine
open Sys2Proof

/-! ### Pairing -/

/-- What a pairing request makes before it looks for an answer: OVERRIDE is taken, and the device's message is sent. -/
def State.pairAsked (s : State) (v : Nat) : State := (s.setFld SELV_PAIR_CTRL.OVERRIDE 0 0 (bits v 1 1)).sendPair

theorem bits_one_setBits_lowest (x v : Nat) : bits (setBits x 0 1 v) 1 1 = bits x 1 1 := by
  simp only [bits, setBits]
  omega

/-- What the twin's message comes to: the pair is made, or refused with the condition that fails (R336). -/
def State.pairMet (s : State) (m : PairMsg) : State :=
  match s.pairCheck m, s.tabnex, m.desc with
  | .ok, some d, some (_, feeds) => s.pairUp m d feeds
  | e, _, _ => s.pairTo 3 e

theorem pairMet_refused {s : State} {m : PairMsg} (h : s.pairCheck m ≠ .ok) : s.pairMet m = s.pairTo 3 (s.pairCheck m) := by
  unfold State.pairMet
  split
  · next hok _ _ => exact absurd hok h
  · rfl

theorem pairMet_admitted {s : State} {m : PairMsg} {d : Tabnex} {role : Bool} {feeds : List W64} (h : s.pairCheck m = .ok)
    (hd : s.tabnex = some d) (hm : m.desc = some (role, feeds)) : s.pairMet m = s.pairUp m d feeds := by
  simp only [State.pairMet, h, hd, hm]

/-- A pairing request goes on from the message that it has sent; until it is answered the device negotiates. -/
theorem exec_pairAdmit (v : W32) (msg : Option PairMsg) (s : State) : exec (.pairAdmit v msg) s = .next
    (if !(s.pairAsked v.toNat).linkUp 16 then (s.pairAsked v.toNat).setFld SELV_PAIR_CTRL.STATE 0 0 1
     else msg.elim ((s.pairAsked v.toNat).setFld SELV_PAIR_CTRL.STATE 0 0 1) (s.pairAsked v.toNat).pairMet) := by
  have hasks : ¬ (!bit (setBits v.toNat 0 1 1) 0) = true := by rw [bit_setBits_lowest]; decide
  change Host.Outcome.next (s.writePair (setBits v.toNat 0 1 1) msg) = _
  rw [State.writePair, if_neg hasks, bits_one_setBits_lowest]
  cases msg <;> rfl

section
variable {s : State} {v : W32}

theorem exec_pairAdmit_linkDown (h : (s.pairAsked v.toNat).linkUp 16 = false) (msg : Option PairMsg) :
    exec (.pairAdmit v msg) s = .next ((s.pairAsked v.toNat).setFld SELV_PAIR_CTRL.STATE 0 0 1) :=
  (exec_pairAdmit v msg s).trans (congrArg _ (if_pos (by simp [h])))

variable (h : (s.pairAsked v.toNat).linkUp 16 = true)
include h

theorem exec_pairAdmit_unanswered : exec (.pairAdmit v none) s = .next ((s.pairAsked v.toNat).setFld SELV_PAIR_CTRL.STATE 0 0 1) :=
  (exec_pairAdmit v none s).trans (congrArg _ (if_neg (by simp [h])))

theorem exec_pairAdmit_answered (m : PairMsg) : exec (.pairAdmit v (some m)) s = .next ((s.pairAsked v.toNat).pairMet m) :=
  (exec_pairAdmit v (some m) s).trans (congrArg _ (if_neg (by simp [h])))

end

/-! ### Heartbeats -/

theorem exec_heartbeatSend_leaves {s : State} (h : s.linkUp 16 = true) : exec .heartbeatSend s = .next s.heartbeat :=
  congrArg Host.Outcome.next (if_pos h)

theorem exec_heartbeatSend_linkDown {s : State} (h : s.linkUp 16 = false) : exec .heartbeatSend s = .next s :=
  congrArg Host.Outcome.next (if_neg (by simp [h]))

section
variable {s : State} {pk : Packet}

/-- A HEARTBEAT that the pair key does not verify is dropped (R340, R364). -/
theorem exec_heartbeat_dropped (h : (asType 0 pk).tagOk = false ∨ s.pairKey = none) : exec (.heartbeat pk) s = .next s :=
  congrArg Host.Outcome.next (if_pos (by simpa using h))

variable (htag : (asType 0 pk).tagOk = true) (hkey : s.pairKey.isSome = true)
include htag hkey

/-- One that verifies is checked for its level and its form. -/
theorem exec_heartbeat_verified : exec (.heartbeat pk) s = .next
    (if !skLevelOk (asType 0 pk) then s.ack (asType 0 pk) .level
     else if !skFormOk (asType 0 pk) then s.ack (asType 0 pk) .illegal
     else { s.bump .SELV_RX_BYTES 0 0 32 with twinFlags := pkByte (asType 0 pk) 8 }) :=
  congrArg Host.Outcome.next (if_neg (by simpa [htag, Option.isSome_iff_ne_none] using hkey))

theorem exec_heartbeat_level (h : skLevelOk (asType 0 pk) = false) :
    exec (.heartbeat pk) s = .next (s.ack (asType 0 pk) .level) :=
  (exec_heartbeat_verified htag hkey).trans (congrArg _ (if_pos (by simp [h])))

variable (hlevel : skLevelOk (asType 0 pk) = true)
include hlevel

theorem exec_heartbeat_illegal (h : skFormOk (asType 0 pk) = false) :
    exec (.heartbeat pk) s = .next (s.ack (asType 0 pk) .illegal) :=
  (exec_heartbeat_verified htag hkey).trans (congrArg _ ((if_neg (by simp [hlevel])).trans (if_pos (by simp [h]))))

theorem exec_heartbeat_taken (h : skFormOk (asType 0 pk) = true) :
    exec (.heartbeat pk) s = .next { s.bump .SELV_RX_BYTES 0 0 32 with twinFlags := pkByte (asType 0 pk) 8 } :=
  (exec_heartbeat_verified htag hkey).trans (congrArg _ ((if_neg (by simp [hlevel])).trans (if_neg (by simp [h]))))

end

/-- Giving a packet its type leaves its payload. -/
theorem pkByte_asType (t : Nat) (k : Packet) (i : Nat) : pkByte (asType t k) i = pkByte k i := by
  unfold asType
  split <;> rfl

/-! ### The twin -/

section
variable {s : State}

theorem exec_twinLoss_lost (h : s.paired = true) : exec .twinLoss s = .next s.twinLost := congrArg Host.Outcome.next (if_pos h)

theorem exec_twinLoss_unpaired (h : s.paired = false) : exec .twinLoss s = .next s := congrArg Host.Outcome.next (if_neg (by simp [h]))

theorem exec_twinElevated_alarm (h : s.paired = true) (he : bit s.twinFlags 0 = true) : exec .twinElevated s = .next (s.alarm 0x18) :=
  congrArg Host.Outcome.next (if_pos (by simp [h, he]))

theorem exec_twinElevated_idle (h : s.paired = false ∨ bit s.twinFlags 0 = false) : exec .twinElevated s = .next s :=
  congrArg Host.Outcome.next (if_neg (by rcases h with h | h <;> simp [h]))

end

/-! ### The obligation -/

/-- Settles O42: a pairing request by the link and the twin's message, a HEARTBEAT by the checks it passes, and the twin's loss and its alarm by
whether there is a pair. -/
theorem pairingAndHeartbeats : Obligations.PairingAndHeartbeats := by
  unfold Obligations.PairingAndHeartbeats
  refine ⟨?pairing, fun s => ⟨exec_heartbeatSend_leaves, exec_heartbeatSend_linkDown⟩, ?heartbeat, fun s =>
    ⟨exec_twinLoss_lost, exec_twinLoss_unpaired, exec_twinElevated_alarm, exec_twinElevated_idle⟩⟩
  case pairing =>
    intro s v msg t
    refine ⟨fun h => exec_pairAdmit_linkDown h msg, exec_pairAdmit_unanswered, ?_, ?_⟩
    · rintro m rfl h hm
      exact (exec_pairAdmit_answered h m).trans (congrArg _ (pairMet_refused hm))
    · rintro m d a feeds rfl h hm hd hf
      exact (exec_pairAdmit_answered h m).trans (congrArg _ (pairMet_admitted hm hd hf))
  case heartbeat =>
    intro s pk k
    refine ⟨exec_heartbeat_dropped, fun htag hkey =>
      ⟨exec_heartbeat_level htag hkey, exec_heartbeat_illegal htag hkey, fun hlevel hform => ?_⟩⟩
    rw [exec_heartbeat_taken htag hkey hlevel hform, pkByte_asType]

end Sys2Proof.Machine
end

section
/-! SUPPORT. Supply excursions and the records they leave, the reset level, and HBM_PG (R350, R418 to R423, R446). -/

namespace Sys2Proof.Machine
open Sys2Proof

/-! ### Excursions -/

/-- An excursion's sample, its flag and its count (R419). -/
def State.excursionSeen (s : State) (r mv : Nat) : State :=
  ((s.setFld PWR_RAIL_I.MV r 0 mv).setFld PWR_RAIL_I.EXCURSION r 0 1).bumpFld PWR_RAIL_COUNT.COUNT r 0 1

/-- What an excursion that begins at time `t` does: it is recorded, limits the clock, raises its alarm class, and FLUSH leaves (R350, R420). -/
def State.excursionBegun (s : State) (r mv t : Nat) : State :=
  (((({ s.excursionSeen r mv with
      dips := SMap.put (s.excursionSeen r mv).dips r (BitVec.ofNat 64 (t - 800)), calmSince := none } : State).forceClock 1).alarm
    (if r = 0 then 0x00 else 0x01)).dipFlushNow t)

theorem exec_excursionStart_begins {s : State} {rail : Fin 16} (mv : BitVec 16) (hsup : s.supervised rail.val = true)
    (hexc : s.fld PWR_RAIL_I.EXCURSION rail.val 0 ≠ 1) :
    exec (.excursionStart rail mv) s = .next (s.now.2.excursionBegun rail.val mv.toNat s.now.1) :=
  congrArg Host.Outcome.next (if_neg (by simp [hsup, hexc]))

theorem exec_excursionStart_ignored {s : State} {rail : Fin 16} (mv : BitVec 16)
    (h : s.supervised rail.val = false ∨ s.fld PWR_RAIL_I.EXCURSION rail.val 0 = 1) : exec (.excursionStart rail mv) s = .next s :=
  congrArg Host.Outcome.next (if_pos (by simpa using h))

/-- The record of a dip that began at `t0`, lasted `us` and fell to `lo` (R423). -/
def State.dipRecorded (s : State) (r lo mv us t0 : Nat) : State :=
  ((((s.setFld PWR_RAIL_I.MV r 0 mv).setFld PWR_RAIL_I.EXCURSION r 0 0).setReg .PWR_DIP_LAST 0 0
    (r + 2 ^ 4 + lo * 2 ^ 16)).setReg .PWR_DIP_DURATION 0 0 us).setReg .PWR_DIP_TIME 0 0 t0

/-- The end of the excursion of a rail, at time `t`: the calm begins where no other rail is in one. -/
def State.excursionEnded (s : State) (r t : Nat) : State :=
  { s with dips := SMap.erase s.dips r, calmSince := if SMap.erase s.dips r = [] then some t else s.calmSince }

section
variable {s : State} {rail : Fin 16} (lo mv : BitVec 16) (us : W32)

theorem exec_excursionEnd_ignored (h : SMap.find s.dips rail.val = none) : exec (.excursionEnd rail lo mv us) s = .next s := by
  change execExcursionEnd rail lo mv us s = _
  simp only [execExcursionEnd, h]

theorem exec_excursionEnd_ends {t0 : W64} (h : SMap.find s.dips rail.val = some t0) : exec (.excursionEnd rail lo mv us) s =
    .next ((s.now.2.dipRecorded rail.val lo.toNat mv.toNat us.toNat t0.toNat).excursionEnded rail.val s.now.1) := by
  change execExcursionEnd rail lo mv us s = _
  simp only [execExcursionEnd, h]
  rfl

end

theorem exec_dipClear (v : W32) (s : State) : exec (.dipClear v) s = .next
    (((s.setReg .PWR_DIP_LAST 0 0 0).setReg .PWR_DIP_DURATION 0 0 0).setReg .PWR_DIP_TIME 0 0 0) :=
  congrArg Host.Outcome.next (if_pos (bit_setBits_four v.toNat))

/-! ### The reset level -/

/-- A rail's crossing of the reset level, as it is recorded (R422). -/
def State.resetLevelCrossed (s : State) (r mv : Nat) : State := ({ s with resetCrossed := true } : State).setFld PWR_RAIL_I.MV r 0 mv

section
variable {s : State} {rail : Fin 16} (mv : BitVec 16)

theorem exec_resetLevelCrossing_ignored (h : s.supervised rail.val = false) : exec (.resetLevelCrossing rail mv) s = .next s :=
  congrArg Host.Outcome.next (if_pos (by simp [h]))

variable (h : s.supervised rail.val = true)
include h

/-- What the crossing of a supervised rail comes to, by the rail. -/
theorem exec_resetLevelCrossing_crosses : exec (.resetLevelCrossing rail mv) s = .next
    (let t := s.resetLevelCrossed rail.val mv.toNat
     let u := if (5 ≤ rail.val && rail.val ≤ 8) = true then t.dropLoom (rail.val - 5) else t
     if (1 ≤ rail.val && rail.val ≤ 3) = true then u.supplyReset else u) :=
  congrArg Host.Outcome.next (if_neg (by simp [h]))

theorem exec_resetLevelCrossing_hbm (hlo : 1 ≤ rail.val) (hhi : rail.val ≤ 3) :
    exec (.resetLevelCrossing rail mv) s = .next (s.resetLevelCrossed rail.val mv.toNat).supplyReset := by
  have hloom : ¬ 5 ≤ rail.val := by omega
  simp [exec_resetLevelCrossing_crosses mv h, hlo, hhi, hloom]

theorem exec_resetLevelCrossing_loom (hlo : 5 ≤ rail.val) (hhi : rail.val ≤ 8) :
    exec (.resetLevelCrossing rail mv) s = .next ((s.resetLevelCrossed rail.val mv.toNat).dropLoom (rail.val - 5)) := by
  have hhbm : ¬ rail.val ≤ 3 := by omega
  simp [exec_resetLevelCrossing_crosses mv h, hlo, hhi, hhbm]

theorem exec_resetLevelCrossing_other (hr : rail.val = 0 ∨ rail.val = 4 ∨ 9 ≤ rail.val) :
    exec (.resetLevelCrossing rail mv) s = .next (s.resetLevelCrossed rail.val mv.toNat) := by
  have hloom : ¬ (5 ≤ rail.val ∧ rail.val ≤ 8) := by omega
  have hhbm : ¬ (1 ≤ rail.val ∧ rail.val ≤ 3) := by omega
  simp [exec_resetLevelCrossing_crosses mv h, hloom, hhbm]

end

theorem exec_supplyChipReset (s : State) : exec .supplyChipReset s = .next (if s.resetCrossed then s.supplyReset else s) := rfl

/-! ### HBM_PG -/

theorem exec_hbmPg_trains {s : State} (h : s.exiting = true) (level : Bool) (t : Training) : exec (.hbmPg level t) s =
    .next ((List.range 8).foldl (fun s p => s.trainPart t p) { s with hbmPg := level, exiting := false }) :=
  congrArg Host.Outcome.next (if_pos h)

theorem exec_hbmPg_level {s : State} (h : s.exiting = false) (level : Bool) (t : Training) :
    exec (.hbmPg level t) s = .next { s with hbmPg := level } :=
  congrArg Host.Outcome.next (if_neg (by simp [h]))

/-! ### The obligation -/

/-- Settles O56: an excursion's start by its rail, its end by the dip that stands, a crossing by the kind of rail, and the supply's reset and
HBM_PG by what waits for them. -/
theorem supplyExcursions : Obligations.SupplyExcursions := by
  unfold Obligations.SupplyExcursions
  refine ⟨fun s rail mv => ⟨exec_excursionStart_begins mv, exec_excursionStart_ignored mv⟩,
    fun s rail lo mv us => ⟨exec_excursionEnd_ignored lo mv us, fun t0 => exec_excursionEnd_ends lo mv us⟩, fun s v => exec_dipClear v s,
    fun s rail mv => ⟨exec_resetLevelCrossing_ignored mv, fun h => ⟨exec_resetLevelCrossing_hbm mv h, exec_resetLevelCrossing_loom mv h,
      exec_resetLevelCrossing_other mv h⟩⟩, fun s => ?supply, fun s level t => ⟨fun h => exec_hbmPg_trains h level t,
        fun h => exec_hbmPg_level h level t⟩⟩
  case supply =>
    rw [exec_supplyChipReset]
    exact ⟨fun h => congrArg _ (if_pos h), fun h => congrArg _ (if_neg (by simp [h]))⟩

end Sys2Proof.Machine
end

section
/-! SUPPORT. The commands of a context's recovery: RESOLVE, ROLLBACK, PROMOTE and RESTORE (R355 to R358, R361). -/

namespace Sys2Proof.Machine
open Sys2Proof

/-! ### An answer that is OK or a failure -/

/-- What becomes of a read's answer: `f` takes the bytes of one that is OK, `g` the status of one that fails. -/
def onOk {α : Type} (x : Status × List Byte × State) (f : List Byte → State → α) (g : Status → State → α) : α :=
  match x with
  | (.ok, b, s) => f b s
  | (e, _, s) => g e s

section
variable {α : Type} {x : Status × List Byte × State} (f : List Byte → State → α) (g : Status → State → α)

theorem onOk_ok (h : x.1 = .ok) : onOk x f g = f x.2.1 x.2.2 := by
  obtain ⟨st, b, s⟩ := x
  cases h
  rfl

theorem onOk_failed (h : x.1 ≠ .ok) : onOk x f g = g x.1 x.2.2 := by
  obtain ⟨st, b, s⟩ := x
  cases st with
  | ok => exact absurd rfl h
  | _ => rfl

end

/-! ### The commands of a context -/

section
variable {s : State} {bar : Bar} {p : Nat} {c : Fin 64} (v : W32) (h : s.function bar = some (p, 0))
include h

/-- A context that is not present takes no command (R361). -/
theorem exec_snapCmd_absent (hc : s.present p c.val = false) {i : Instr}
    (hi : i ∈ [Instr.resolveCommit bar c v, .resolveAbort bar c v, .rollback bar c v, .promote bar c v, .restore bar c v]) :
    exec i s = .next s := by
  have habsent (n : Nat) : s.viaPhysical bar (fun p => s.snapCmd p c.val n) = s := (viaPhysical_some h).trans (if_pos (by simp [hc]))
  simp only [List.mem_cons, List.not_mem_nil, or_false] at hi
  rcases hi with rfl | rfl | rfl | rfl | rfl
  all_goals exact congrArg Host.Outcome.next (habsent _)

variable (hc : s.present p c.val = true)
include hc

theorem exec_resolveCommit : exec (.resolveCommit bar c v) s = .next (s.resolveCommit p c.val) :=
  congrArg Host.Outcome.next ((viaPhysical_some h).trans (if_neg (by simp [hc])))

theorem exec_resolveAbort : exec (.resolveAbort bar c v) s = .next (s.resolveAbort p c.val) :=
  congrArg Host.Outcome.next ((viaPhysical_some h).trans (if_neg (by simp [hc])))

theorem exec_rollback : exec (.rollback bar c v) s = .next (s.rollback p c.val) :=
  congrArg Host.Outcome.next ((viaPhysical_some h).trans (if_neg (by simp [hc])))

theorem exec_promote : exec (.promote bar c v) s = .next (s.promote p c.val) :=
  congrArg Host.Outcome.next ((viaPhysical_some h).trans (if_neg (by simp [hc])))

theorem exec_restore : exec (.restore bar c v) s = .next (s.restore p c.val) :=
  congrArg Host.Outcome.next ((viaPhysical_some h).trans (if_neg (by simp [hc])))

end

/-! ### RESOLVE and ROLLBACK -/

section
variable {s : State} {p c : Nat}

/-- What RESOLVE_COMMIT makes of an UNDECIDED member: it flips at the next pick boundary (R356). -/
def State.flipNext (s : State) (p c : Nat) : State :=
  ((((s.bump .BAT_FLIP_LATE p 0 1).setStep p c { s.stepOf p c with flip := some (s.pick + 1) }).setStepStatus p c 3 0 0).snapResult p c .ok).settle

theorem resolveCommit_undecided (h : s.stepState p c = 4) : s.resolveCommit p c = s.flipNext p c := if_pos h

theorem resolveCommit_refused (h : s.stepState p c ≠ 4) : s.resolveCommit p c = s.snapResult p c .illegal := if_neg h

theorem resolveAbort_undecided (h : s.stepState p c = 4) : s.resolveAbort p c = (s.endStep p c .aborted 8).snapResult p c .ok := if_pos h

theorem resolveAbort_refused (h : s.stepState p c ≠ 4) : s.resolveAbort p c = s.snapResult p c .illegal := if_neg h

theorem rollbackOk_iff (s : State) (p c : Nat) : s.rollbackOk p c = true
    ↔ s.fld SNAP_CTX_STATUS.ROLLBACK_OK p c = 1 ∧ s.stepState p c = 0 ∧ s.role p c ≠ 1 ∧ s.fld BAT_SNAP_HOLD.ACTIVE p c = 0 := by
  simp only [State.rollbackOk, Bool.and_eq_true, decide_eq_true_eq, and_assoc]

theorem rollback_refused (h : ¬ s.rollbackOk p c = true) : s.rollback p c = s.snapResult p c .illegal := if_pos (by simp [h])

/-- The three-slot entries that move with a context's commits. -/
def State.movingThree (s : State) (p c : Nat) : List Nat := (s.moving p c).filter (fun e => s.ent BAT_REG_CTRL.SLOTS p e = 1)

/-- A ROLLBACK's slots: those of the moving entries rotate back, the old back copies are spoiled. -/
def State.slotsBack (s : State) (p c : Nat) : State :=
  (s.movingThree p c).foldl (fun s e => s.rotateBack p e) ((s.spoilSlots p (s.movingThree p c)).spoilPlanes p c)

/-- A ROLLBACK's counts: the phase of the planes and the number of commits go back by one. -/
def State.countsBack (s : State) (p c : Nat) : State :=
  let s := s.setFld RED_PLANE_CFG.PHASE p c ((s.phase p c + 2) % 3)
  s.setReg .BAT_COMMIT_COUNT p c (s.reg .BAT_COMMIT_COUNT p c + 2 ^ 64 - 1)

/-- A ROLLBACK's cursors: both are the previous commit's. -/
def State.cursorsBack (s : State) (p c : Nat) : State :=
  (s.setReg .BAT_CURSOR_COMMITTED p c (s.reg .SNAP_PREV_CURSOR p c)).setReg .BAT_CURSOR_PROV p c (s.reg .SNAP_PREV_CURSOR p c)

theorem rollback_accepted (h : s.rollbackOk p c = true) : s.rollback p c =
    ((((s.slotsBack p c).countsBack p c).cursorsBack p c).setFld SNAP_CTX_STATUS.ROLLBACK_OK p c 0).snapResult p c .ok :=
  if_neg (by simp [h])

/-! ### PROMOTE -/

theorem promote_busy (h : s.fld SNAP_CTX_STATUS.BUSY p c = 1) : s.promote p c = s := if_pos h

/-- A promotion to its RESTORE count begins. -/
def State.promotionBegun (s : State) (p c : Nat) : State :=
  ({ s with snapJobs := s.snapJobs ++ [(⟨p, c, true, .ok, [], false, s.reg .SNAP_RST_COUNT p c⟩ : SnapJob)] } : State).setFld
    SNAP_CTX_STATUS.BUSY p c 1

section
variable (hbusy : s.fld SNAP_CTX_STATUS.BUSY p c ≠ 1)
include hbusy

theorem promote_early (h : s.reg .SNAP_RX_POINT p c < s.reg .SNAP_RST_COUNT p c) : s.promote p c = s.snapResult p c .illegal :=
  (if_neg hbusy).trans (if_pos h)

variable (hpoint : s.reg .SNAP_RST_COUNT p c ≤ s.reg .SNAP_RX_POINT p c)
include hpoint

theorem promote_begins (hshared : s.rxShared p c = true) (hkeys : (s.keySet (s.jobOf p c)).isSome = true) :
    s.promote p c = s.promotionBegun p c :=
  (if_neg hbusy).trans ((if_neg (Nat.not_lt.mpr hpoint)).trans
    (if_neg (by simpa [hshared, Option.isSome_iff_ne_none] using hkeys)))

theorem promote_unshared (h : s.rxShared p c = false ∨ s.keySet (s.jobOf p c) = none) : s.promote p c = s.snapResult p c .protection :=
  (if_neg hbusy).trans ((if_neg (Nat.not_lt.mpr hpoint)).trans (if_pos (by simpa using h)))

end

end

/-- The promotion of a context that is under way. -/
def State.promotion (s : State) (c : CtxId) : Option SnapJob :=
  s.snapJobs.find? (fun j => j.promote && j.part = c.part.val && j.ctx = c.ctx.val)

/-- A promotion writes one plaintext after another, up to a tag or a write that fails (R358). -/
def State.writePromoted (s : State) (p c : Nat) (ws : List (Nat × Option (List Byte))) : Status × State :=
  ws.foldl (fun (y : Status × State) w =>
    if y.1 ≠ .ok then y
    else match w.2 with
      | none => (.checksum, y.2)
      | some b => y.2.hbmWrite (.job 4 (y.2.jobOf p c)) w.1 b) (.ok, s)

/-- A promotion runs no more. -/
def State.promotionDone (s : State) (p c : Nat) (j : SnapJob) : State :=
  ({ s with snapJobs := s.snapJobs.erase j } : State).setFld SNAP_CTX_STATUS.BUSY p c 0

/-- A promotion's end: what it decrypts is written, and RESULT says how far. -/
def State.promotionEnds (s : State) (p c : Nat) (j : SnapJob) : State :=
  let x := (s.promotionDone p c j).promoted p c j.size
  let r := x.2.writePromoted p c x.1
  r.2.snapResult p c r.1

section
variable {s : State} {c : CtxId}

theorem exec_promoteComplete_none (h : s.promotion c = none) : exec (.promoteComplete c) s = .next s := by
  change execPromoteComplete c s = _
  rw [State.promotion] at h
  simp only [execPromoteComplete, h]

theorem exec_promoteComplete_ends {j : SnapJob} (h : s.promotion c = some j) :
    exec (.promoteComplete c) s = .next (s.promotionEnds c.part.val c.ctx.val j) := by
  change execPromoteComplete c s = _
  rw [State.promotion] at h
  simp only [execPromoteComplete, h]
  rfl

end

/-! ### RESTORE -/

/-- A part of a context record as a number. -/
def recordWord (b : List Byte) (o n : Nat) : Nat := leNat ((b.drop o).take n)

/-- The counts and cursors of a context record (R355). -/
def State.countsFrom (s : State) (p c : Nat) (b : List Byte) : State :=
  (((s.setReg .BAT_COMMIT_COUNT p c (recordWord b 0 8)).setReg .BAT_CURSOR_COMMITTED p c (recordWord b 8 8)).setReg
    .BAT_CURSOR_PROV p c (recordWord b 8 8)).setReg .BAT_STEP_NUM p c (recordWord b 24 4)

/-- Its queues. -/
def State.queuesFrom (s : State) (p c : Nat) (b : List Byte) : State :=
  (((s.queuesOf p c).take 128).zipIdx).foldl (fun s q => s.restoreQueue p q.1 ((b.drop (0x120 + 32 * q.2)).take 32)) s

/-- Its knots. -/
def State.knotsFrom (s : State) (p c : Nat) (b : List Byte) : State :=
  (((s.knotRun p c).take 2048).zipIdx).foldl (fun s k => s.knotTo p k.1 (recordWord b (0x1120 + 4 * k.2) 4)) s

/-- Its stream table, which a leading context takes. -/
def State.streamsFrom (s : State) (p c : Nat) (b : List Byte) : State :=
  if s.fld SNAP_CTX_CFG.LEAD p c = 1 then
    (List.range 16).foldl (fun s i => s.restoreStream p c i (recordWord b 8 8) ((b.drop (0x20 + 16 * i)).take 16)) s
  else s

/-- Whether a context can take a record: its step is closed and none of its queues runs (R355). -/
def State.Restorable (s : State) (p c : Nat) : Prop :=
  s.stepState p c = 0 ∧ ∀ q ∈ s.queuesOf p c, s.fld Q_CFG_CTRL.ENABLE p q ≠ 1

theorem not_restorable_iff (s : State) (p c : Nat) :
    (s.stepState p c ≠ 0 || (s.queuesOf p c).any (fun q => s.fld Q_CFG_CTRL.ENABLE p q = 1)) = true ↔ ¬ s.Restorable p c := by
  simp [State.Restorable, Classical.or_iff_not_imp_left]

section
variable {s : State} {p c : Nat}

theorem restore_refused (h : ¬ s.Restorable p c) : s.restore p c = s.snapResult p c .illegal := if_pos ((not_restorable_iff s p c).mpr h)

/-- A restorable context reads its record. -/
theorem restore_reads (h : s.Restorable p c) : s.restore p c =
    onOk (s.hbmRead (.job 4 (s.jobOf p c)) (s.reg .SNAP_RST_ADDR p c) 16384)
      (fun b t => ((((t.countsFrom p c b).queuesFrom p c b).knotsFrom p c b).streamsFrom p c b).snapResult p c .ok)
      (fun e t => t.snapResult p c e) := by
  rw [State.restore, if_neg (fun hn => (not_restorable_iff s p c).mp hn h)]
  generalize s.hbmRead (.job 4 (s.jobOf p c)) (s.reg .SNAP_RST_ADDR p c) 16384 = x
  obtain ⟨st, b, t⟩ := x
  cases st <;> rfl

end

end Sys2Proof.Machine
end

section
/-! SUPPORT. EXPORT and IMPORT of snapshots (R382), and the statement about the commands of recovery. -/

namespace Sys2Proof.Machine
open Sys2Proof

/-! ### The command of a write -/

theorem bits_two_setBits_cmd (x v : Nat) : bits (setBits x 0 2 v) 2 1 = bits x 2 1 := by
  simp only [bits, setBits]
  omega

/-- What a write to SNAP_EXP_CMD leaves before its command: SPACE. -/
def State.withSpace (s : State) (p c : Nat) (v : W32) : State := s.setFld SNAP_EXP_CMD.SPACE p c (bits v.toNat 2 1)

section
variable {s : State} {bar : Bar} {p : Nat} {c : Fin 64} (v : W32) (h : s.function bar = some (p, 0))
include h

/-- A command while one runs, or of a context that is not present, is not taken. -/
theorem viaPhysical_writeExp_ignored (hc : s.fld SNAP_EXP_CMD.BUSY p c.val = 1 ∨ s.present p c.val = false) (w : Nat) :
    s.viaPhysical bar (fun p => s.writeExp p c.val w) = s :=
  (viaPhysical_some h).trans (if_pos (by simpa using hc))

theorem exec_exportSnap_ignored (hc : s.fld SNAP_EXP_CMD.BUSY p c.val = 1 ∨ s.present p c.val = false) :
    exec (.exportSnap bar c v) s = .next s :=
  congrArg Host.Outcome.next (viaPhysical_writeExp_ignored h hc _)

theorem exec_importSnap_ignored (hc : s.fld SNAP_EXP_CMD.BUSY p c.val = 1 ∨ s.present p c.val = false) :
    exec (.importSnap bar c v) s = .next s :=
  congrArg Host.Outcome.next (viaPhysical_writeExp_ignored h hc _)

variable (hbusy : s.fld SNAP_EXP_CMD.BUSY p c.val ≠ 1) (hc : s.present p c.val = true)
include hbusy hc

/-- Any other takes SPACE and goes on to its command. -/
theorem viaPhysical_writeExp_taken {cmd : Nat} (hcmd : cmd = 1 ∨ cmd = 2) :
    s.viaPhysical bar (fun p => s.writeExp p c.val (setBits v.toNat 0 2 cmd)) =
      if cmd = 1 then (s.withSpace p c.val v).exportSnap p c.val else (s.withSpace p c.val v).importSnap p c.val := by
  rw [viaPhysical_some h, State.writeExp, if_neg (by simp [hbusy, hc]), bits_two_setBits_cmd, setBits_cmd_mod _ (by omega)]
  rcases hcmd with rfl | rfl <;> rfl

theorem exec_exportSnap : exec (.exportSnap bar c v) s = .next ((s.withSpace p c.val v).exportSnap p c.val) :=
  congrArg Host.Outcome.next (viaPhysical_writeExp_taken v h hbusy hc (.inl rfl))

theorem exec_importSnap : exec (.importSnap bar c v) s = .next ((s.withSpace p c.val v).importSnap p c.val) :=
  congrArg Host.Outcome.next (viaPhysical_writeExp_taken v h hbusy hc (.inr rfl))

end

/-! ### EXPORT -/

/-- Whether an EXPORT has a held snapshot and an aligned destination (R382). -/
def State.Exportable (s : State) (p c : Nat) : Prop := s.fld BAT_SNAP_HOLD.ACTIVE p c ≠ 0 ∧ s.reg .SNAP_EXP_DEST p c % 4096 = 0

theorem not_exportable_iff (s : State) (p c : Nat) :
    (s.fld BAT_SNAP_HOLD.ACTIVE p c = 0 || s.reg .SNAP_EXP_DEST p c % 4096 ≠ 0) = true ↔ ¬ s.Exportable p c := by
  simp [State.Exportable, Classical.or_iff_not_imp_left]

/-- An EXPORT or IMPORT that will end with a failure. -/
def failedSnap (p c : Nat) (st : Status) : SnapJob := ⟨p, c, false, st, [], true, 0⟩

section
variable {s : State} {p c : Nat}

theorem exportSnap_illegal (h : ¬ s.Exportable p c) : s.exportSnap p c = s.expResult p c .illegal :=
  if_pos ((not_exportable_iff s p c).mpr h)

variable (h : s.Exportable p c)
include h

theorem exportSnap_keyless (hk : s.keySet (s.jobOf p c) = none) : s.exportSnap p c = s.expResult p c .protection := by
  rw [State.exportSnap, if_neg (fun hn => (not_exportable_iff s p c).mp hn h), hk]

variable {k : KeySet} (hk : s.keySet (s.jobOf p c) = some k)
include hk

/-- An EXPORT makes its container, and fails where it does not fit. -/
theorem exportSnap_makes : s.exportSnap p c = onOk (s.container p c k)
    (fun b t => if t.reg .SNAP_EXP_LIMIT p c < b.length then t.startSnap (failedSnap p c .illegal)
      else t.startSnap ⟨p, c, false, .ok, [(s.reg .SNAP_EXP_DEST p c, b)], t.expHost p c, b.length⟩)
    (fun e t => t.startSnap (failedSnap p c e)) := by
  rw [State.exportSnap, if_neg (fun hn => (not_exportable_iff s p c).mp hn h), hk]
  dsimp only
  generalize s.container p c k = x
  obtain ⟨st, b, t⟩ := x
  cases st <;> rfl

theorem exportSnap_begins (hx : (s.container p c k).1 = .ok)
    (hfits : (s.container p c k).2.1.length ≤ (s.container p c k).2.2.reg .SNAP_EXP_LIMIT p c) :
    s.exportSnap p c = (s.container p c k).2.2.startSnap ⟨p, c, false, .ok, [(s.reg .SNAP_EXP_DEST p c, (s.container p c k).2.1)],
      (s.container p c k).2.2.expHost p c, (s.container p c k).2.1.length⟩ := by
  rw [exportSnap_makes h hk, onOk_ok _ _ hx, if_neg (Nat.not_lt.mpr hfits)]

theorem exportSnap_tooLong (hx : (s.container p c k).1 = .ok)
    (hlong : (s.container p c k).2.2.reg .SNAP_EXP_LIMIT p c < (s.container p c k).2.1.length) :
    s.exportSnap p c = (s.container p c k).2.2.startSnap (failedSnap p c .illegal) := by
  rw [exportSnap_makes h hk, onOk_ok _ _ hx, if_pos hlong]

theorem exportSnap_unread (hx : (s.container p c k).1 ≠ .ok) :
    s.exportSnap p c = (s.container p c k).2.2.startSnap (failedSnap p c (s.container p c k).1) := by
  rw [exportSnap_makes h hk, onOk_failed _ _ hx]

end

/-! ### IMPORT -/

/-- Whether an IMPORT's addresses are aligned (R382). -/
def State.Importable (s : State) (p c : Nat) : Prop := s.reg .SNAP_EXP_DEST p c % 4096 = 0 ∧ s.reg .SNAP_EXP_TARGET p c % 65536 = 0

theorem not_importable_iff (s : State) (p c : Nat) :
    (s.reg .SNAP_EXP_DEST p c % 4096 ≠ 0 || s.reg .SNAP_EXP_TARGET p c % 65536 ≠ 0) = true ↔ ¬ s.Importable p c := by
  simp [State.Importable, Classical.or_iff_not_imp_left]

section
variable {s : State} {p c : Nat}

theorem importSnap_illegal (h : ¬ s.Importable p c) : s.importSnap p c = s.expResult p c .illegal :=
  if_pos ((not_importable_iff s p c).mpr h)

variable (h : s.Importable p c)
include h

theorem importSnap_keyless (hk : s.keySet (s.jobOf p c) = none) : s.importSnap p c = s.expResult p c .protection := by
  rw [State.importSnap, if_neg (fun hn => (not_importable_iff s p c).mp hn h), hk]

variable {k : KeySet} (hk : s.keySet (s.jobOf p c) = some k)
include hk

/-- An IMPORT opens its container. -/
theorem importSnap_opens : s.importSnap p c = onOk (s.openContainer p c k)
    (fun b t => t.startSnap ⟨p, c, false, .ok, [(s.reg .SNAP_EXP_TARGET p c, b)], false, 2 ^ 64⟩)
    (fun e t => t.startSnap (failedSnap p c e)) := by
  rw [State.importSnap, if_neg (fun hn => (not_importable_iff s p c).mp hn h), hk]
  dsimp only
  generalize s.openContainer p c k = x
  obtain ⟨st, b, t⟩ := x
  cases st <;> rfl

theorem importSnap_begins (hx : (s.openContainer p c k).1 = .ok) : s.importSnap p c = (s.openContainer p c k).2.2.startSnap
    ⟨p, c, false, .ok, [(s.reg .SNAP_EXP_TARGET p c, (s.openContainer p c k).2.1)], false, 2 ^ 64⟩ := by
  rw [importSnap_opens h hk, onOk_ok _ _ hx]

theorem importSnap_unopened (hx : (s.openContainer p c k).1 ≠ .ok) :
    s.importSnap p c = (s.openContainer p c k).2.2.startSnap (failedSnap p c (s.openContainer p c k).1) := by
  rw [importSnap_opens h hk, onOk_failed _ _ hx]

end

/-! ### The end of an EXPORT or IMPORT -/

/-- The EXPORT or IMPORT of a context that is under way. -/
def State.transfer (s : State) (c : CtxId) : Option SnapJob :=
  s.snapJobs.find? (fun j => !j.promote && j.part = c.part.val && j.ctx = c.ctx.val)

section
variable {s : State} {c : CtxId}

theorem exec_snapCommandComplete_none (h : s.transfer c = none) : exec (.snapCommandComplete c) s = .next s := by
  change execSnapCommandComplete c s = _
  rw [State.transfer] at h
  simp only [execSnapCommandComplete, h]

theorem exec_snapCommandComplete_ends {j : SnapJob} (h : s.transfer c = some j) : exec (.snapCommandComplete c) s = .next (s.endSnap j) := by
  change execSnapCommandComplete c s = _
  rw [State.transfer] at h
  simp only [execSnapCommandComplete, h]

end

/-- An EXPORT or IMPORT runs no more. -/
def State.transferDone (s : State) (j : SnapJob) : State := { s with snapJobs := s.snapJobs.erase j }

/-- The write of an EXPORT's container. -/
def State.exportWrite (s : State) (j : SnapJob) (a : Nat) (b : List Byte) : Status × State :=
  (s.transferDone j).expWrite j.part j.ctx a j.host b

section
variable {s : State} {j : SnapJob}

theorem endSnap_writesNothing (h : j.writes = []) : s.endSnap j = (s.transferDone j).expResult j.part j.ctx j.status := by
  simp only [State.endSnap, h]
  rfl

variable {a : Nat} {b : List Byte} {l : List (Nat × List Byte)} (h : j.writes = (a, b) :: l)
include h

/-- An IMPORT writes its plaintext to HBM. -/
theorem endSnap_imports (hj : j.size = 2 ^ 64) : s.endSnap j =
    ((s.transferDone j).hbmWrite (.job 4 ((s.transferDone j).jobOf j.part j.ctx)) a b).2.expResult j.part j.ctx
      ((s.transferDone j).hbmWrite (.job 4 ((s.transferDone j).jobOf j.part j.ctx)) a b).1 := by
  simp only [State.endSnap, h, if_pos hj]
  rfl

variable (hj : j.size ≠ 2 ^ 64)
include hj

/-- An EXPORT writes its container. -/
theorem endSnap_exports : s.endSnap j =
    (if (s.exportWrite j a b).1 = .ok then (s.exportWrite j a b).2.setReg .SNAP_EXP_LIMIT j.part j.ctx j.size
      else (s.exportWrite j a b).2).expResult j.part j.ctx (s.exportWrite j a b).1 := by
  simp only [State.endSnap, h, if_neg hj]
  rfl

/-- One that is written leaves the container's size in LIMIT. -/
theorem endSnap_exported (hx : (s.exportWrite j a b).1 = .ok) : s.endSnap j =
    ((s.exportWrite j a b).2.setReg .SNAP_EXP_LIMIT j.part j.ctx j.size).expResult j.part j.ctx .ok := by
  rw [endSnap_exports h hj, if_pos hx, hx]

theorem endSnap_unwritten (hx : (s.exportWrite j a b).1 ≠ .ok) :
    s.endSnap j = (s.exportWrite j a b).2.expResult j.part j.ctx (s.exportWrite j a b).1 := by
  rw [endSnap_exports h hj, if_neg hx]

end

/-! ### The obligation -/

/-- Settles O44: the commands of a present context by its step, its points and its areas, what each of them finds when it reads or completes,
and EXPORT and IMPORT by their addresses, their keys and their container. -/
theorem snapshots : Obligations.Snapshots := by
  unfold Obligations.Snapshots
  refine ⟨⟨?recovery, ?promotion⟩, ?exchange, ?completion⟩
  case recovery =>
    intro s bar p c v hf
    refine ⟨fun hc i => exec_snapCmd_absent v hf hc, fun hc => ?_⟩
    rw [exec_resolveCommit v hf hc, exec_resolveAbort v hf hc, exec_rollback v hf hc, exec_promote v hf hc, exec_restore v hf hc]
    refine ⟨fun h => ?undecided, fun h => ?decided, fun h => ?noRollback, fun hstep hok hrole hhold => ?rollback,
      fun h => congrArg _ (promote_busy h), fun hbusy => ?promote, fun h => ?noRestore, fun hstep hq => ?restore⟩
    case undecided => exact ⟨congrArg _ (resolveCommit_undecided h), congrArg _ (resolveAbort_undecided h)⟩
    case decided => exact ⟨congrArg _ (resolveCommit_refused h), congrArg _ (resolveAbort_refused h)⟩
    case noRollback =>
      refine congrArg _ (rollback_refused fun hr => ?_)
      obtain ⟨hok, hstep, hrole, hhold⟩ := (rollbackOk_iff s p c.val).mp hr
      rcases h with h | h | h | h
      · exact h hstep
      · exact h hok
      · exact hrole h
      · exact h hhold
    case rollback => exact congrArg _ (rollback_accepted ((rollbackOk_iff s p c.val).mpr ⟨hok, hstep, hrole, hhold⟩))
    case promote =>
      exact ⟨fun h => congrArg _ (promote_early hbusy h), fun hpoint =>
        ⟨fun hshared hkeys => congrArg _ (promote_begins hbusy hpoint hshared hkeys), fun h => congrArg _ (promote_unshared hbusy hpoint h)⟩⟩
    case noRestore =>
      refine congrArg _ (restore_refused fun hr => ?_)
      obtain ⟨hstep, hq⟩ := hr
      rcases h with h | ⟨q, hmem, hen⟩
      · exact h hstep
      · exact hq q hmem hen
    case restore =>
      rw [restore_reads ⟨hstep, hq⟩]
      exact ⟨fun h => congrArg _ (onOk_failed _ _ h), fun h => congrArg _ (onOk_ok _ _ h)⟩
  case promotion =>
    intro s c o ho
    refine ⟨fun hnone => exec_promoteComplete_none (ho.trans hnone), fun j hj => exec_promoteComplete_ends (ho.trans hj)⟩
  case exchange =>
    intro s bar p c v hf
    refine ⟨fun hc => ⟨exec_exportSnap_ignored v hf hc, exec_importSnap_ignored v hf hc⟩, fun hbusy hc => ?_⟩
    rw [exec_exportSnap v hf hbusy hc, exec_importSnap v hf hbusy hc]
    refine ⟨fun h => congrArg _ (exportSnap_illegal h), fun h => congrArg _ (importSnap_illegal h),
      fun hk => ⟨fun h => congrArg _ (exportSnap_keyless h hk), fun h => congrArg _ (importSnap_keyless h hk)⟩,
      fun k hk => ⟨fun h => ?exporting, fun h => ?importing⟩⟩
    case exporting =>
      exact ⟨fun hx hfits => congrArg _ (exportSnap_begins h hk hx hfits), fun hx hlong => congrArg _ (exportSnap_tooLong h hk hx hlong),
        fun hx => congrArg _ (exportSnap_unread h hk hx)⟩
    case importing => exact ⟨fun hx => congrArg _ (importSnap_begins h hk hx), fun hx => congrArg _ (importSnap_unopened h hk hx)⟩
  case completion =>
    intro s c o ho
    refine ⟨fun hnone => exec_snapCommandComplete_none (ho.trans hnone), fun j hj => ?_⟩
    rw [exec_snapCommandComplete_ends (ho.trans hj)]
    exact ⟨fun h => congrArg _ (endSnap_writesNothing h), fun a b l h => ⟨fun hsize => congrArg _ (endSnap_imports h hsize), fun hsize =>
      ⟨fun hx => congrArg _ (endSnap_exported h hsize hx), fun hx => congrArg _ (endSnap_unwritten h hsize hx)⟩⟩⟩

end Sys2Proof.Machine
end

section
/-! SUPPORT. The SPDM requests and what answers them (R364, R370). -/

namespace Sys2Proof.Machine
open Sys2Proof

variable {s : State} {f : SpdmFunc}

/-! ### Algorithms -/

theorem exec_negotiateAlgorithms_refused {ecdsa sha dhe aead : Bool} (h : (ecdsa && sha && dhe && aead) = false) :
    exec (.negotiateAlgorithms f ecdsa sha dhe aead) s = .next (s.spdm f 0x7F []) :=
  congrArg Host.Outcome.next (if_neg (by simp [h]))

/-! ### Measurements -/

/-- How many measurements a function reports (R370). -/
def measurementCount (f : SpdmFunc) : Nat := if funcCode f < 8 then 6 else 5

theorem measurementCount_le (f : SpdmFunc) : measurementCount f ≤ 6 := by
  unfold measurementCount
  split <;> decide

theorem exec_getMeasurements_number :
    exec (.getMeasurements f 0) s = .next (s.spdm f 0x60 (leBytes 1 (measurementCount f))) := rfl

theorem exec_getMeasurements_one {i : BitVec 8} (h1 : 1 ≤ i.toNat) (hn : i.toNat ≤ measurementCount f) :
    exec (.getMeasurements f i) s = .next (s.spdm f 0x60 (s.measurement (funcCode f) i.toNat)) :=
  congrArg Host.Outcome.next ((if_neg (by omega)).trans (if_pos hn))

/-- 0xFF is the number of no measurement, and asks for all of them. -/
theorem exec_getMeasurements_all : exec (.getMeasurements f 0xFF) s =
    .next (s.spdm f 0x60 ((List.range (measurementCount f)).flatMap (fun j => s.measurement (funcCode f) (j + 1)))) := by
  have hpast : ¬ (0xFF : BitVec 8).toNat ≤ measurementCount f := fun h => absurd (h.trans (measurementCount_le f)) (by decide)
  exact congrArg Host.Outcome.next ((if_neg (by decide)).trans ((if_neg hpast).trans (if_pos rfl)))

theorem exec_getMeasurements_unknown {i : BitVec 8} (hn : measurementCount f < i.toNat) (hi : i.toNat < 0xFF) :
    exec (.getMeasurements f i) s = .next (s.spdm f 0x7F []) :=
  congrArg Host.Outcome.next ((if_neg (by omega)).trans ((if_neg (Nat.not_le.mpr hn)).trans (if_neg (by omega))))

/-! ### The obligation -/

/-- Settles O45: a choice of algorithms by whether one of the four is missing, a measurement by where its index lies. Each other request has one
answer, which its clause writes out. -/
theorem spdmRequests : Obligations.SpdmRequests := by
  unfold Obligations.SpdmRequests
  intro s f std out n
  refine ⟨rfl, rfl, rfl, fun _ _ _ _ hlacks => ?_, rfl, fun _ => rfl, fun _ => rfl, ?_, fun i h1 hn => ?_, ?_, fun i hn hi => ?_⟩
  · exact exec_negotiateAlgorithms_refused hlacks
  · exact exec_getMeasurements_number
  · exact exec_getMeasurements_one h1 hn
  · exact exec_getMeasurements_all
  · exact exec_getMeasurements_unknown hn hi

end Sys2Proof.Machine
end

section
/-! SUPPORT. Debug consent, the token and the expiry of consent (R383). -/

namespace Sys2Proof.Machine
open Sys2Proof

variable {s : State}

/-! ### Consent -/

/-- What keeps debug consent from being given: debug is OPEN already, a partition is not FREE or has a session, or the device is paired. -/
def State.ConsentBarred (s : State) : Prop :=
  s.fld SEC_DEBUG.STATE 0 0 = 2 ∨ (∃ p < 8, s.fld PART_ASSIGN.STATE p 0 ≠ 0) ∨ (∃ x ∈ s.sessions, x.func < 8) ∨ s.paired = true

theorem consentBarred_iff (s : State) :
    (s.fld SEC_DEBUG.STATE 0 0 = 2 || !(List.range 8).all (fun p => s.fld PART_ASSIGN.STATE p 0 = 0) || s.sessions.any (fun x => x.func < 8)
      || s.paired) = true ↔ s.ConsentBarred := by
  simp [State.ConsentBarred, or_assoc]

/-- The challenge that consent gives is fresh. -/
def State.newChallenge (s : State) : State :=
  (List.range 8).foldl (fun t i => t.setReg .SEC_DEBUG_NONCE i 0 (leNat (((s.freshBytes 32).1.drop (4 * i)).take 4))) (s.freshBytes 32).2

theorem consent_refused (h : s.ConsentBarred) : s.consent = s.setFld SEC_DEBUG.RESULT 0 0 2 :=
  if_pos ((consentBarred_iff s).mpr h)

theorem consent_given (h : ¬ s.ConsentBarred) : s.consent = s.newChallenge.debugTo 1 0 .ok :=
  if_neg (fun hb => h ((consentBarred_iff s).mp hb))

theorem exec_consent {v : W32} (h : bit v.toNat 0 = true) : exec (.consent v) s = .next s.consent :=
  congrArg Host.Outcome.next (if_pos h)

theorem exec_consent_unset {v : W32} (h : bit v.toNat 0 = false) : exec (.consent v) s = .next s :=
  congrArg Host.Outcome.next (if_neg (by simp [h]))

/-! ### The token -/

/-- The token is over the challenge of this consent and the debug key has signed it. -/
abbrev State.TokenHolds (s : State) : Prop := (s.token.drop 4).take 32 = s.challenge
  ∧ Config.ecdsaOk Config.debugKeyHash (Config.sha384 (Config.identityKey ++ s.token.take 36)) (s.token.drop 36) = true

theorem submitToken_outside (h : s.fld SEC_DEBUG.STATE 0 0 ≠ 1) : s.submitToken = s := if_pos h

theorem submitToken_inConsent (h : s.fld SEC_DEBUG.STATE 0 0 = 1) :
    s.submitToken = if s.TokenHolds then s.debugTo 2 (leNat (s.token.take 4) % 8) .ok else s.debugTo 0 0 .protection := by
  rw [State.submitToken, if_neg (not_not_intro h)]
  simp only [Bool.and_eq_true, decide_eq_true_eq]

/-! ### The obligation -/

/-- Settles O49: CONSENT by what bars it, the token by the state in which its last word comes, the expiry by whether consent stands. -/
theorem debugUnlock : Obligations.DebugUnlock := by
  unfold Obligations.DebugUnlock
  refine ⟨fun s v hbit => ?consent, fun s v => ?token, fun s => ⟨fun h => ?_, fun h => ?_, fun v => exec_consent_unset⟩⟩
  case consent =>
    rw [exec_consent hbit]
    refine ⟨fun hbar => congrArg _ (consent_refused hbar), fun hopen hfree hsessions hpair => congrArg _ (consent_given ?_)⟩
    rintro (h | ⟨p, hp, h⟩ | ⟨x, hx, h⟩ | h)
    · exact hopen h
    · exact h (hfree p hp)
    · exact absurd (hsessions x hx) (Nat.not_le.mpr h)
    · exact absurd h (by simp [hpair])
  case token => exact ⟨fun h => congrArg Host.Outcome.next (submitToken_inConsent h), fun h => congrArg Host.Outcome.next (submitToken_outside h)⟩
  · exact congrArg Host.Outcome.next (if_pos h)
  · exact congrArg Host.Outcome.next (if_neg h)

end Sys2Proof.Machine
end

section
/-! SUPPORT. The lifecycle (R369), and the assignment and zeroisation of partitions (R373, R377). -/

namespace Sys2Proof.Machine
open Sys2Proof

variable {s : State}

/-! ### The lifecycle -/

/-- Whether a write to SEC_LIFECYCLE names the next state and has what that state needs (R369). -/
def State.Advances (s : State) (v : W32) (cert : Bool) : Prop :=
  SEC_LIFECYCLE.ADVANCE.of v.toNat = s.fld SEC_LIFECYCLE.STATE 0 0 + 1
    ∧ (if s.fld SEC_LIFECYCLE.STATE 0 0 = 0 then cert = true
      else if s.fld SEC_LIFECYCLE.STATE 0 0 = 1 then s.fld SEC_DEBUG.STATE 0 0 = 0 else s.zeroedAll = true)

theorem advances_iff (s : State) (v : W32) (cert : Bool) :
    (SEC_LIFECYCLE.ADVANCE.of v.toNat = s.fld SEC_LIFECYCLE.STATE 0 0 + 1
      && (if s.fld SEC_LIFECYCLE.STATE 0 0 = 0 then cert
        else if s.fld SEC_LIFECYCLE.STATE 0 0 = 1 then s.fld SEC_DEBUG.STATE 0 0 = 0 else s.zeroedAll)) = true ↔ s.Advances v cert := by
  rw [State.Advances, Bool.and_eq_true, decide_eq_true_eq]
  refine and_congr_right fun _ => ?_
  split_ifs
  · rfl
  · exact decide_eq_true_iff
  · rfl

theorem exec_lifecycleAdvance_advances {v : W32} {cert : Bool} (h : s.Advances v cert) : exec (.lifecycleAdvance v cert) s = .next
    { ((s.setFld SEC_LIFECYCLE.STATE 0 0 (s.fld SEC_LIFECYCLE.STATE 0 0 + 1)).setFld SEC_LIFECYCLE.RESULT 0 0 0).destroyAllKeys with
      sessions := s.sessions.filter (fun x => 8 ≤ x.func) } :=
  congrArg Host.Outcome.next (if_pos ((advances_iff s v cert).mpr h))

theorem exec_lifecycleAdvance_refused {v : W32} {cert : Bool} (h : ¬ s.Advances v cert) :
    exec (.lifecycleAdvance v cert) s = .next (s.setFld SEC_LIFECYCLE.RESULT 0 0 3) :=
  congrArg Host.Outcome.next (if_neg (fun ha => h ((advances_iff s v cert).mp ha)))

/-! ### Assignment -/

/-- ZERO of a word whose ZERO takes a value. -/
theorem bit_setBits_zero (v z : Nat) : bit (setBits v 20 1 z) 20 = decide (z % 2 = 1) := by
  have hbit : setBits v 20 1 z / 2 ^ 20 % 2 = z % 2 := by
    simp only [setBits]
    omega
  rw [bit, hbit]

section
variable {p : Fin 8} {v : W32}

theorem exec_partAssign : exec (.partAssign p v) s = .next
    (if s.fld PART_ASSIGN.STATE p.val 0 = 0 && PART_ASSIGN.OWNER.of (setBits v.toNat 20 1 0) ≠ 0 then
      ((s.setFld PART_ASSIGN.OWNER p.val 0 (PART_ASSIGN.OWNER.of (setBits v.toNat 20 1 0))).setFld PART_ASSIGN.STATE p.val 0 1).assignResult p.val .ok
    else s.assignResult p.val .illegal) :=
  congrArg Host.Outcome.next (if_neg (by rw [bit_setBits_zero]; decide))

theorem exec_partAssign_assigns (hst : s.fld PART_ASSIGN.STATE p.val 0 = 0) (ho : PART_ASSIGN.OWNER.of (setBits v.toNat 20 1 0) ≠ 0) :
    exec (.partAssign p v) s = .next (((s.setFld PART_ASSIGN.OWNER p.val 0 (PART_ASSIGN.OWNER.of (setBits v.toNat 20 1 0))).setFld
      PART_ASSIGN.STATE p.val 0 1).assignResult p.val .ok) := by
  rw [exec_partAssign, if_pos (by simp [hst, ho])]

theorem exec_partAssign_refused (h : s.fld PART_ASSIGN.STATE p.val 0 ≠ 0 ∨ PART_ASSIGN.OWNER.of (setBits v.toNat 20 1 0) = 0) :
    exec (.partAssign p v) s = .next (s.assignResult p.val .illegal) := by
  rw [exec_partAssign, if_neg (by simpa [Classical.or_iff_not_imp_left] using h)]

/-! ### Zeroisation of a partition -/

/-- Whether a partition is ASSIGNED or PINNED and has no context admitted (R373). -/
def State.Zeroisable (s : State) (p : Nat) : Prop :=
  (s.fld PART_ASSIGN.STATE p 0 = 1 ∨ s.fld PART_ASSIGN.STATE p 0 = 2) ∧ ∀ c < 64, s.admitted p c = false

theorem zeroisable_iff (s : State) (p : Nat) :
    ((s.fld PART_ASSIGN.STATE p 0 = 1 || s.fld PART_ASSIGN.STATE p 0 = 2) && (List.range 64).all (fun c => !s.admitted p c)) = true
      ↔ s.Zeroisable p := by
  simp [State.Zeroisable]

theorem exec_zeroise : exec (.zeroise p v) s = .next
    (if (s.fld PART_ASSIGN.STATE p.val 0 = 1 || s.fld PART_ASSIGN.STATE p.val 0 = 2) && (List.range 64).all (fun c => !s.admitted p.val c) then
      (s.startZero p.val).assignResult p.val .ok
    else s.assignResult p.val .illegal) :=
  congrArg Host.Outcome.next (if_pos (by rw [bit_setBits_zero]; decide))

theorem exec_zeroise_begins (h : s.Zeroisable p.val) : exec (.zeroise p v) s = .next ((s.startZero p.val).assignResult p.val .ok) := by
  rw [exec_zeroise, if_pos ((zeroisable_iff s p.val).mpr h)]

theorem exec_zeroise_refused (h : ¬ s.Zeroisable p.val) : exec (.zeroise p v) s = .next (s.assignResult p.val .illegal) := by
  rw [exec_zeroise, if_neg (fun hz => h ((zeroisable_iff s p.val).mp hz))]

end

/-! ### ZERO_ALL -/

section
variable {v : W32}

theorem zeroAll_begins (h : ∀ c ∈ allCtx, s.admitted c.1 c.2 = false) :
    s.zeroAll = ((List.range 8).foldl State.startZero s.destroyAllKeys).setFld SEC_ZERO_ALL.BUSY 0 0 1 :=
  if_neg (by rw [List.any_eq_true]; rintro ⟨c, hc, ha⟩; rw [h c hc] at ha; cases ha)

theorem zeroAll_refused (h : ∃ c ∈ allCtx, s.admitted c.1 c.2 = true) : s.zeroAll = s :=
  if_pos (List.any_eq_true.mpr h)

theorem exec_zeroAll_begins (hbit : bit v.toNat 0 = true) (h : ∀ c ∈ allCtx, s.admitted c.1 c.2 = false) : exec (.zeroAll v) s = .next
    (((List.range 8).foldl State.startZero s.destroyAllKeys).setFld SEC_ZERO_ALL.BUSY 0 0 1) :=
  congrArg Host.Outcome.next ((if_pos hbit).trans (zeroAll_begins h))

theorem exec_zeroAll_ignored (h : bit v.toNat 0 = false ∨ ∃ c ∈ allCtx, s.admitted c.1 c.2 = true) : exec (.zeroAll v) s = .next s := by
  refine congrArg Host.Outcome.next (?_ : (if bit v.toNat 0 then s.zeroAll else s) = s)
  split_ifs with hbit
  · exact zeroAll_refused (h.resolve_left (by simp [hbit]))
  · rfl

end

/-! ### The end of a zeroisation -/

/-- What the end of a partition's zeroisation leaves: it is FREE and has no owner. -/
def State.freePart (s : State) (p : Nat) : State := ((s.zeroPart p).setFld PART_ASSIGN.STATE p 0 0).setFld PART_ASSIGN.OWNER p 0 0

/-- Whether a ZERO_ALL runs and no partition is ZEROISING any more. -/
def State.AllZeroed (s : State) : Prop := s.fld SEC_ZERO_ALL.BUSY 0 0 = 1 ∧ ∀ q < 8, s.fld PART_ASSIGN.STATE q 0 ≠ 3

theorem allZeroed_iff (s : State) :
    (s.fld SEC_ZERO_ALL.BUSY 0 0 = 1 && (List.range 8).all (fun q => s.fld PART_ASSIGN.STATE q 0 ≠ 3)) = true ↔ s.AllZeroed := by
  simp [State.AllZeroed]

section
variable {p : Fin 8}

theorem exec_zeroisationComplete_stays (h : s.fld PART_ASSIGN.STATE p.val 0 ≠ 3) : exec (.zeroisationComplete p) s = .next s :=
  congrArg Host.Outcome.next (if_pos h)

variable (h : s.fld PART_ASSIGN.STATE p.val 0 = 3)
include h

theorem exec_zeroisationComplete_frees (hz : ¬ (s.freePart p.val).AllZeroed) : exec (.zeroisationComplete p) s = .next (s.freePart p.val) :=
  congrArg Host.Outcome.next ((if_neg (not_not_intro h)).trans (if_neg (fun hb => hz ((allZeroed_iff _).mp hb))))

/-- The last partition that is zeroised ends ZERO_ALL. -/
theorem exec_zeroisationComplete_last (hz : (s.freePart p.val).AllZeroed) :
    exec (.zeroisationComplete p) s = .next (({ s.freePart p.val with zeroedAll := true } : State).setFld SEC_ZERO_ALL.BUSY 0 0 0) :=
  congrArg Host.Outcome.next ((if_neg (not_not_intro h)).trans (if_pos ((allZeroed_iff _).mpr hz)))

end

/-! ### The obligation -/

/-- Settles O47: the lifecycle by what the next state needs, a partition by its state and its admitted contexts, the end of a zeroisation by
whether it is the last of a ZERO_ALL. -/
theorem lifecycleAndPartitions : Obligations.LifecycleAndPartitions := by
  unfold Obligations.LifecycleAndPartitions
  refine ⟨fun s v cert => ⟨exec_lifecycleAdvance_advances, exec_lifecycleAdvance_refused⟩, fun s p v => ?partition,
    fun s v => ⟨exec_zeroAll_begins, exec_zeroAll_ignored⟩, fun s p => ⟨exec_zeroisationComplete_stays, fun h3 => ?ends⟩⟩
  case partition =>
    refine ⟨exec_partAssign_assigns, exec_partAssign_refused, fun hst hidle => exec_zeroise_begins ⟨hst, hidle⟩, fun h => ?_⟩
    refine exec_zeroise_refused fun hz => ?_
    obtain ⟨hst, hidle⟩ := hz
    rcases h with ⟨h1, h2⟩ | hbusy
    · exact hst.elim h1 h2
    · exact hbusy hidle
  case ends =>
    refine ⟨fun h => exec_zeroisationComplete_frees h3 fun hz => ?_, fun hbusy hq => exec_zeroisationComplete_last h3 ⟨hbusy, hq⟩⟩
    obtain ⟨hbusy, hnone⟩ := hz
    rcases h with h | ⟨q, hq, hst⟩
    · exact h hbusy
    · exact hnone q hq hst

end Sys2Proof.Machine
end

section
/-! SUPPORT. Sessions, the custody messages inside them and retired keys (R364, R366, R367, R369 to R372, R383). -/

namespace Sys2Proof.Machine
open Sys2Proof

variable {s : State} {f : SpdmFunc} {sid : W32}

/-! ### Key exchange -/

/-- The device is in the field and debug is CLOSED, so that a tenant may open a session (R369, R383). -/
def State.InField (s : State) : Prop := s.fld SEC_LIFECYCLE.STATE 0 0 = 2 ∧ s.fld SEC_DEBUG.STATE 0 0 = 0

theorem not_inField_iff (s : State) : (s.fld SEC_LIFECYCLE.STATE 0 0 ≠ 2 || s.fld SEC_DEBUG.STATE 0 0 ≠ 0) = true ↔ ¬ s.InField := by
  simp [State.InField, Classical.or_iff_not_imp_left]

section
variable {p : Fin 8} {k : List Byte}

theorem exec_keyExchange_outside (h : ¬ s.InField) (key : Option (List Byte)) :
    exec (.keyExchange (.partition p) sid key) s = .next (s.spdm (.partition p) 0x7F []) := by
  have hout := (not_inField_iff s).mpr h
  cases key with
  | some k => exact congrArg Host.Outcome.next (if_pos hout)
  | none => exact congrArg Host.Outcome.next (if_pos (by rw [hout]; rfl))

variable (h : s.InField)
include h

/-- In the field a requester that authenticates is answered by the state of the partition. -/
theorem exec_keyExchange_inField : exec (.keyExchange (.partition p) sid (some k)) s = .next
    (if s.fld PART_ASSIGN.STATE p.val 0 = 0 || s.fld PART_ASSIGN.STATE p.val 0 = 3 then s.refuseSession (.partition p)
    else if s.fld PART_ASSIGN.STATE p.val 0 = 1 then
      (({ s with pins := SMap.set [] s.pins p.val (Config.sha384 k) } : State).setFld PART_ASSIGN.STATE p.val 0 2).openSession
        (.partition p) sid.toNat (Config.sha384 k)
    else if s.pinOf p.val = Config.sha384 k then s.openSession (.partition p) sid.toNat (Config.sha384 k)
    else s.refuseSession (.partition p)) :=
  congrArg Host.Outcome.next (if_neg (fun hout => (not_inField_iff s).mp hout h))

theorem exec_keyExchange_pins (h1 : s.fld PART_ASSIGN.STATE p.val 0 = 1) : exec (.keyExchange (.partition p) sid (some k)) s = .next
    ((({ s with pins := SMap.set [] s.pins p.val (Config.sha384 k) } : State).setFld PART_ASSIGN.STATE p.val 0 2).openSession
      (.partition p) sid.toNat (Config.sha384 k)) := by
  rw [exec_keyExchange_inField h, if_neg (by simp [h1]), if_pos h1]

theorem exec_keyExchange_unassigned (hst : s.fld PART_ASSIGN.STATE p.val 0 = 0 ∨ s.fld PART_ASSIGN.STATE p.val 0 = 3) :
    exec (.keyExchange (.partition p) sid (some k)) s = .next (s.refuseSession (.partition p)) := by
  rw [exec_keyExchange_inField h, if_pos (by simpa using hst)]

/-- Once a partition is pinned, only the pinned key opens a session (R371). -/
theorem exec_keyExchange_pinned (h0 : s.fld PART_ASSIGN.STATE p.val 0 ≠ 0) (h3 : s.fld PART_ASSIGN.STATE p.val 0 ≠ 3)
    (h1 : s.fld PART_ASSIGN.STATE p.val 0 ≠ 1) : exec (.keyExchange (.partition p) sid (some k)) s = .next
      (if s.pinOf p.val = Config.sha384 k then s.openSession (.partition p) sid.toNat (Config.sha384 k)
      else s.refuseSession (.partition p)) := by
  rw [exec_keyExchange_inField h, if_neg (by simp [h0, h3]), if_neg h1]

/-- A requester that does not authenticate gets an error where it would be pinned, and is refused elsewhere. -/
theorem exec_keyExchange_unauthenticated : exec (.keyExchange (.partition p) sid none) s = .next
    (if s.fld PART_ASSIGN.STATE p.val 0 = 1 then s.spdm (.partition p) 0x7F [] else s.refuseSession (.partition p)) := by
  obtain ⟨hlife, hdebug⟩ := h
  exact congrArg Host.Outcome.next (if_congr (by simp [hlife, hdebug]) rfl rfl)

end

theorem exec_keyExchange_tenantless (hf : f ∈ [SpdmFunc.operator, .mctp]) (key : Option (List Byte)) :
    exec (.keyExchange f sid key) s = .next (s.openSession f sid.toNat []) := by
  rcases List.mem_pair.mp hf with rfl | rfl <;> rfl

/-! ### The messages of a session -/

section
variable (h : s.session f sid.toNat = none)
include h

/-- A message of a session that does not stand is an error. -/
theorem exec_sessionMsg_none : ∀ c ∈ [Instr.finish f sid true, .finish f sid false, .keyUpdate f sid, .endSession f sid],
    exec c s = .next (s.spdm f 0x7F []) := by
  have hfinish (ok : Bool) : execFinish f sid ok s = .next (s.spdm f 0x7F []) := by simp only [execFinish, h]
  have hupdate : execKeyUpdate f sid s = .next (s.spdm f 0x7F []) := by simp only [execKeyUpdate, h]
  have hend : execEndSession f sid s = .next (s.spdm f 0x7F []) := by simp only [execEndSession, h]
  simp only [List.forall_mem_cons]
  exact ⟨hfinish true, hfinish false, hupdate, hend, List.forall_mem_nil _⟩

end

section
variable {x : Session} (h : s.session f sid.toNat = some x)
include h

theorem exec_finish (ok : Bool) : exec (.finish f sid ok) s = .next
    (if ok then (s.setSession { x with finished := true }).spdmStd f 0x65
    else ({ s with sessions := s.sessions.erase x } : State).spdm f 0x7F []) := by
  change execFinish f sid ok s = _
  simp only [execFinish, h]

theorem exec_keyUpdate_finished (hx : x.finished = true) : exec (.keyUpdate f sid) s = .next
    (((s.freshBytes 64).2.setSession { x with updates := x.updates + 1, keys := (s.freshBytes 64).1 }).spdmStd f 0x69) := by
  change execKeyUpdate f sid s = _
  simp only [execKeyUpdate, h, if_pos hx]

theorem exec_keyUpdate_unfinished (hx : x.finished = false) : exec (.keyUpdate f sid) s = .next (s.spdm f 0x7F []) := by
  change execKeyUpdate f sid s = _
  simp only [execKeyUpdate, h, hx, Bool.false_eq_true, if_false]

theorem exec_endSession : exec (.endSession f sid) s = .next (({ s with sessions := s.sessions.erase x } : State).spdmStd f 0x6C) := by
  change execEndSession f sid s = _
  simp only [execEndSession, h]

end

/-! ### Where a custody message is taken -/

section
variable {n code : Nat} {g : State → Nat → Session → Status × List Byte × State}

/-- Outside a finished session a custody message is an SPDM error. -/
theorem custodyMsg_noSession (h : ∀ x, s.session f n = some x → x.finished = false) : s.custodyMsg f n code g = s.spdm f 0x7F [] := by
  unfold State.custodyMsg
  split
  · rfl
  · next x hx => exact if_pos (by simp [h x hx])

variable {x : Session} (hx : x.finished = true)
include hx

/-- Only the tenant of a partition has keys and a policy (R370, R372). -/
theorem custodyMsg_tenantless (h : s.session f n = some x) (hf : f ∈ [SpdmFunc.operator, .mctp]) :
    s.custodyMsg f n code g = s.custody f code .protection [] := by
  simp only [State.custodyMsg, h, hx, Bool.not_true, Bool.false_eq_true, if_false]
  rcases List.mem_pair.mp hf with rfl | rfl <;> rfl

theorem custodyMsg_answers {p : Fin 8} (h : s.session (.partition p) n = some x) {st : Status} {body : List Byte} {t : State}
    (hg : g s p.val x = (st, body, t)) : s.custodyMsg (.partition p) n code g = t.custody (.partition p) code st body := by
  simp only [State.custodyMsg, h, hx, Bool.not_true, Bool.false_eq_true, if_false, hg]

end

section
variable {p : Fin 8} {b body : List Byte} {x : Session} {st : Status} {t : State}
variable (h : s.session (.partition p) sid.toNat = some x) (hx : x.finished = true)
include h hx

theorem exec_jobKeysSet (hg : s.keysSet b x = (st, body, t)) :
    exec (.jobKeysSet (.partition p) sid b) s = .next (t.custody (.partition p) 1 st body) :=
  congrArg Host.Outcome.next (custodyMsg_answers hx h hg)

theorem exec_jobKeysRotate (hg : s.keysRotate b x = (st, body, t)) :
    exec (.jobKeysRotate (.partition p) sid b) s = .next (t.custody (.partition p) 2 st body) :=
  congrArg Host.Outcome.next (custodyMsg_answers hx h hg)

theorem exec_jobEnd (hg : s.jobEnd b x = (st, body, t)) :
    exec (.jobEnd (.partition p) sid b) s = .next (t.custody (.partition p) 3 st body) :=
  congrArg Host.Outcome.next (custodyMsg_answers hx h hg)

theorem exec_policySet (hg : s.policySet p.val b = (st, body, t)) :
    exec (.policySet (.partition p) sid b) s = .next (t.custody (.partition p) 4 st body) :=
  congrArg Host.Outcome.next (custodyMsg_answers hx h hg)

theorem exec_custodyStatus :
    exec (.custodyStatus (.partition p) sid b) s = .next (s.custody (.partition p) 5 .ok (s.custodyStatus x)) :=
  congrArg Host.Outcome.next (custodyMsg_answers hx h rfl)

end

/-! ### JOB_KEYS_SET -/

section
variable {b : List Byte} {x : Session}

theorem keysSet_misfit (h : b.length ≠ 194) : s.keysSet b x = (.illegal, [], s) := if_pos h

variable (hlen : b.length = 194)
include hlen

theorem keysSet_returned (h : s.fld SEC_LIFECYCLE.STATE 0 0 = 3) : s.keysSet b x = (.protection, [], s) :=
  (if_neg (not_not_intro hlen)).trans (if_pos h)

variable (hlife : s.fld SEC_LIFECYCLE.STATE 0 0 ≠ 3)
include hlife

/-- A key set that is there already is not installed again; the same keys of the same tenant are OK. -/
theorem keysSet_present {k : KeySet} (hk : s.keySet (bodyJob b) = some k) :
    s.keysSet b x = (if k.pin = x.pin ∧ k.keys = b.drop 2 then .ok else .protection, [], s) := by
  rw [State.keysSet, if_neg (not_not_intro hlen), if_neg hlife, hk]
  simp only [Bool.and_eq_true, decide_eq_true_eq]

variable (hk : s.keySet (bodyJob b) = none)
include hk

theorem keysSet_full (h : 511 ≤ s.keys.length) : s.keysSet b x = (.illegal, [], s) := by
  rw [State.keysSet, if_neg (not_not_intro hlen), if_neg hlife, hk]
  exact if_pos h

theorem keysSet_installs (h : s.keys.length < 511) : s.keysSet b x = (.ok, [], s.installKeys (bodyJob b) x.pin (b.drop 2)) := by
  rw [State.keysSet, if_neg (not_not_intro hlen), if_neg hlife, hk]
  exact if_neg (Nat.not_le.mpr h)

end

/-! ### JOB_KEYS_ROTATE -/

/-- A job's key set takes its next keys and the pick that they wait for, from the body of a rotation (R367). -/
def State.keysAwait (s : State) (k : KeySet) (b : List Byte) : State :=
  { s with keys := s.keys.map (fun y => if y.job = k.job then
      { y with next := some (leNat ((b.drop 2).take 8), (b.drop 10).take 32, b.drop 42) } else y) }

section
variable {b : List Byte} {x : Session}

theorem keysRotate_keyless (h : s.keySet (bodyJob b) = none) : s.keysRotate b x = (.protection, [], s) := by
  rw [State.keysRotate, h]

variable {k : KeySet} (hk : s.keySet (bodyJob b) = some k)
include hk

theorem keysRotate_notOwner (h : k.pin ≠ x.pin) : s.keysRotate b x = (.protection, [], s) := by
  rw [State.keysRotate, hk]
  exact if_pos h

variable (hpin : k.pin = x.pin)
include hpin

theorem keysRotate_illegal (h : b.length ≠ 74 ∨ k.next.isSome = true ∨ 2 ≤ k.retired.length) : s.keysRotate b x = (.illegal, [], s) := by
  rw [State.keysRotate, hk]
  exact (if_neg (not_not_intro hpin)).trans (if_pos (by simpa [or_assoc] using h))

theorem keysRotate_awaits (hlen : b.length = 74) (hnext : k.next = none) (hret : k.retired.length < 2) :
    s.keysRotate b x = (.ok, [], s.keysAwait k b) := by
  rw [State.keysRotate, hk]
  exact (if_neg (not_not_intro hpin)).trans (if_neg (by simp [hlen, hnext, hret]))

end

/-! ### JOB_END -/

section
variable {b : List Byte} {x : Session}

theorem jobEnd_keyless (h : s.keySet (bodyJob b) = none) : s.jobEnd b x = (.protection, [], s) := by
  rw [State.jobEnd, h]

variable {k : KeySet} (hk : s.keySet (bodyJob b) = some k)
include hk

theorem jobEnd_misfit (h : b.length ≠ 2) : s.jobEnd b x = (.illegal, [], s) := by
  rw [State.jobEnd, hk]
  exact if_pos h

variable (hlen : b.length = 2)
include hlen

theorem jobEnd_destroys (h : k.pin = x.pin) : s.jobEnd b x = (.ok, [], s.destroyKeys k.job) := by
  rw [State.jobEnd, hk]
  exact (if_neg (not_not_intro hlen)).trans (if_pos h)

theorem jobEnd_notOwner (h : k.pin ≠ x.pin) : s.jobEnd b x = (.protection, [], s) := by
  rw [State.jobEnd, hk]
  exact (if_neg (not_not_intro hlen)).trans (if_neg h)

end

/-! ### POLICY_SET -/

theorem policySet_illegal {b : List Byte} (p : Nat) (h0 : b ≠ [0]) (h1 : b ≠ [1]) : s.policySet p b = (.illegal, [], s) := by
  match b with
  | [] => rfl
  | [v] => exact (if_neg fun h => h0 (by rw [h])).trans (if_neg fun h => h1 (by rw [h]))
  | _ :: _ :: _ => rfl

/-! ### The obligation -/

/-- Settles O46: a key exchange by the device, the partition's state and its pin, the messages of a session by whether it stands and is
finished, a custody message by its function and by the first check of its own that fails. What opens a session, the policies, the status and the
release of a retired key have one case each. -/
theorem sessionsAndCustody : Obligations.SessionsAndCustody := by
  unfold Obligations.SessionsAndCustody
  refine ⟨⟨fun s f sid pin => rfl, fun s p sid k => ?exchange, fun s f sid key hf => exec_keyExchange_tenantless hf key,
    fun s f sid o ho => ?session⟩, ⟨fun s p sid b x hs hx => ?custody, fun s f sid b hs => ?outside, fun s f sid b x hf hs hx => ?elsewhere⟩,
    fun s job gen => rfl⟩
  case exchange =>
    intro f h st field
    refine ⟨exec_keyExchange_outside, fun hin => ⟨exec_keyExchange_pins hin, fun h0 h3 h1 hpin => ?_, fun h0 h3 h1 hpin => ?_,
      exec_keyExchange_unassigned hin, fun h1 => ?_, fun h1 => ?_⟩⟩
    · rw [exec_keyExchange_pinned hin h0 h3 h1, if_pos hpin]
    · rw [exec_keyExchange_pinned hin h0 h3 h1, if_neg hpin]
    · rw [exec_keyExchange_unauthenticated hin, if_pos h1]
    · rw [exec_keyExchange_unauthenticated hin, if_neg h1]
  case session =>
    refine ⟨fun hnone => exec_sessionMsg_none (ho.trans hnone), fun x hsome => ?_⟩
    have hs := ho.trans hsome
    exact ⟨exec_finish hs true, exec_finish hs false, exec_keyUpdate_finished hs, exec_keyUpdate_unfinished hs, exec_endSession hs⟩
  case custody =>
    intro f job
    refine ⟨fun h => exec_jobKeysSet hs hx (keysSet_misfit h), fun hlen => ?set,
      fun hk => ⟨exec_jobKeysRotate hs hx (keysRotate_keyless hk), exec_jobEnd hs hx (jobEnd_keyless hk)⟩,
      fun k hk => ⟨fun h => exec_jobKeysRotate hs hx (keysRotate_notOwner hk h), fun hpin => ?rotate,
        fun h => exec_jobEnd hs hx (jobEnd_misfit hk h), fun hlen h => exec_jobEnd hs hx (jobEnd_destroys hk hlen h),
        fun hlen h => exec_jobEnd hs hx (jobEnd_notOwner hk hlen h)⟩,
      exec_policySet hs hx rfl, exec_policySet hs hx rfl, fun h0 h1 => exec_policySet hs hx (policySet_illegal p.val h0 h1),
      exec_custodyStatus hs hx⟩
    case set =>
      refine ⟨fun h => exec_jobKeysSet hs hx (keysSet_returned hlen h), fun hlife => ⟨fun k hk => ⟨fun hsame => ?_, fun hother => ?_⟩,
        fun hk => ⟨fun h => exec_jobKeysSet hs hx (keysSet_full hlen hlife hk h),
          fun h => exec_jobKeysSet hs hx (keysSet_installs hlen hlife hk h)⟩⟩⟩
      · rw [exec_jobKeysSet hs hx (keysSet_present hlen hlife hk), if_pos hsame]
      · rw [exec_jobKeysSet hs hx (keysSet_present hlen hlife hk), if_neg hother]
    case rotate =>
      exact ⟨fun h => exec_jobKeysRotate hs hx (keysRotate_illegal hk hpin h),
        fun hlen hnext hret => exec_jobKeysRotate hs hx (keysRotate_awaits hk hpin hlen hnext hret)⟩
  case outside =>
    have herror (code : Nat) (g : State → Nat → Session → Status × List Byte × State) :
        (.next (s.custodyMsg f sid.toNat code g) : Host.Outcome State Fault Refusal) = .next (s.spdm f 0x7F []) :=
      congrArg _ (custodyMsg_noSession hs)
    simp only [List.forall_mem_cons]
    exact ⟨herror 1 _, herror 2 _, herror 3 _, herror 4 _, herror 5 _, List.forall_mem_nil _⟩
  case elsewhere =>
    have hrefused (code : Nat) (g : State → Nat → Session → Status × List Byte × State) :
        (.next (s.custodyMsg f sid.toNat code g) : Host.Outcome State Fault Refusal) = .next (s.custody f code .protection []) :=
      congrArg _ (custodyMsg_tenantless hx hs hf)
    simp only [List.forall_mem_cons]
    exact ⟨hrefused 1 _, hrefused 2 _, hrefused 3 _, hrefused 4 _, hrefused 5 _, List.forall_mem_nil _⟩

end Sys2Proof.Machine
end

section
/-! SUPPORT. The step, its commands, and runs of bytes in a memory. -/

namespace Sys2Proof.Machine
open Sys2Proof

/-! ### The step -/

/-- Settles O1: the step looks at the queue alone, and a microsecond of the management plane at the first lock. -/
theorem stepRunsFront : Obligations.StepRunsFront := by
  unfold Obligations.StepRunsFront
  refine ⟨fun s c rest h => ?front, fun s h hl => ?locked, fun s h hl => ?unlocked⟩
  case front => simp [step, h]
  case locked => simp [step, h, State.tick, hl]
  case unlocked => simp [step, h, State.tick, hl]

/-- Settles O2: the meaning of every command ends in a next state, whatever it finds on its way there. -/
theorem everyCommandGoesOn : Obligations.EveryCommandGoesOn := by
  unfold Obligations.EveryCommandGoesOn
  intro c s
  cases c <;> exact ⟨_, rfl⟩

/-! ### Runs of bytes -/

/-- A run of bytes written reads as its bytes where it lies, and leaves every other address. -/
theorem get_writeBytes (m : SMap Byte) (a : Nat) (bs : List Byte) (x : Nat) :
    SMap.get 0 (writeBytes m a bs) x = if a ≤ x ∧ x < a + bs.length then bs.getD (x - a) 0 else SMap.get 0 m x := by
  induction bs generalizing m a with
  | nil => rw [writeBytes, if_neg (by simp)]
  | cons b bs ih =>
    rw [writeBytes, ih, SMap.get_set, List.length_cons]
    rcases Nat.lt_trichotomy x a with hlt | rfl | hgt
    · rw [if_neg (by omega), if_neg (by omega), if_neg (by omega)]
    · rw [if_neg (by omega), if_pos rfl, if_pos (by omega), Nat.sub_self, List.getD_cons_zero]
    · have hsub : x - a = x - (a + 1) + 1 := by omega
      rw [if_neg (by omega : ¬ x = a), hsub, List.getD_cons_succ]
      exact if_congr (by omega) rfl rfl

theorem readBytes_writeBytes (m : SMap Byte) (a : Nat) (bs : List Byte) : readBytes (writeBytes m a bs) a bs.length = bs := by
  refine List.ext_getElem (by simp [readBytes]) fun i hi hbs => ?_
  have hin : a ≤ a + i ∧ a + i < a + bs.length := by omega
  simp only [readBytes, List.getElem_map, List.getElem_range]
  rw [get_writeBytes, if_pos hin, Nat.add_sub_cancel_left, List.getD_eq_getElem _ _ hbs]

/-- Settles O5: what `get_writeBytes` says inside the run and outside of it, and that each byte's write keeps the canonical form. -/
theorem memoryWrite : Obligations.MemoryWrite := by
  unfold Obligations.MemoryWrite
  intro m a bs hm
  refine ⟨readBytes_writeBytes m a bs, fun x hx => ?_, writeBytes_wf hm a bs⟩
  rw [get_writeBytes, if_neg hx]

end Sys2Proof.Machine
end

section
/-! SUPPORT. What an alarm event does to the registers of its class, and that the risk value follows without touching them (R348, R399). -/

namespace Sys2Proof.Machine
open Sys2Proof

/-! ### What the risk value and the twin's traffic write -/

/-- The registers that the risk value and what is sent to the twin change (R348, R349, R360). -/
def riskRegs : List RegName := [.SELV_RISK, .SELV_FORCED_FLUSHES, .SELV_TX_BYTES]

theorem regs_pump (s : State) (l : Nat) : (s.pump l).regs = s.regs := by
  unfold State.pump
  rfl

theorem regs_enqueue (s : State) (l cls : Nat) (pk : Packet) (b : List Byte) : (s.enqueue l cls pk b).regs = s.regs := by
  rw [State.enqueue, regs_pump]
  rfl

section
variable {r : RegName} {i j : Nat} (hi : i < 2 ^ 20) (hj : j < 2 ^ 20) (hr : r ∉ riskRegs)
include hi hj hr

/-- A write of one of those registers leaves every other register. -/
theorem reg_setReg_risk (s : State) {q : RegName} (hq : q ∈ riskRegs) (v : Nat) : (s.setReg q 0 0 v).reg r i j = s.reg r i j :=
  reg_setReg_of_ne s v (by decide) (by decide) hi hj fun h => by cases h; exact hr hq

theorem reg_sendSelvage (s : State) (type job commit w2 offset arg : Nat) (b : List Byte) :
    (s.sendSelvage type job commit w2 offset arg b).reg r i j = s.reg r i j := by
  unfold State.sendSelvage
  dsimp only
  split
  · split
    · rfl
    · rw [State.reg, regs_enqueue]
      split <;> exact reg_setReg_risk hi hj hr _ (by decide) _
  · rfl

theorem reg_sendFlush (s : State) : s.sendFlush.reg r i j = s.reg r i j := by
  unfold State.sendFlush
  split
  · refine List.foldlRecOn (motive := fun t : State => t.reg r i j = s.reg r i j) _ _
      (reg_setReg_risk hi hj hr s (q := .SELV_FORCED_FLUSHES) (by decide) _) fun t ht job _ => ?_
    exact (reg_sendSelvage hi hj hr t ..).trans ht
  · rfl

theorem reg_riskFollow (s : State) : s.riskFollow.reg r i j = s.reg r i j := by
  have hset (v w : Nat) : ((s.setFld SELV_RISK.VALUE 0 0 v).setFld SELV_RISK.INTERVAL 0 0 w).reg r i j = s.reg r i j :=
    (reg_setReg_risk hi hj hr _ (by decide) _).trans (reg_setReg_risk hi hj hr _ (by decide) _)
  unfold State.riskFollow
  dsimp only
  split
  · rfl
  · split
    · exact (reg_sendFlush hi hj hr _).trans (hset _ _)
    · exact hset _ _

end

/-! ### The registers of a class -/

/-- The time that an event of a class takes: that of the event, in whole seconds for the value classes (R380, R399). -/
def State.alarmTime (s : State) (cls : Nat) : Nat :=
  if 0x20 ≤ cls && cls ≤ 0x28 then s.now.1 / 8000000000 * 8000000000 else s.now.1

/-- The first time of a class after an event: it is taken where nothing is counted. -/
def State.alarmFirst (s : State) (cls : Nat) : State :=
  if s.reg .ALM_COUNT cls 0 = 0 then s.now.2.setReg .ALM_FIRST cls 0 (s.alarmTime cls) else s.now.2

/-- What an event leaves in the registers of alarms. -/
def State.alarmed (s : State) (cls : Nat) : State :=
  let t := ((s.alarmFirst cls).setReg .ALM_LAST cls 0 (s.alarmTime cls)).setReg .ALM_COUNT cls 0 (min (s.reg .ALM_COUNT cls 0 + 1) (2 ^ 64 - 1))
  t.setReg .ALM_SUMMARY 0 0 (setBits (t.reg .ALM_SUMMARY 0 0) cls 1 1)

/-- An event feeds the risk estimator with the weight of its class, once its registers are written (R348). -/
theorem alarm_eq (s : State) (cls : Nat) : s.alarm cls =
    if (s.alarmed cls).riskWeight cls = 0 || (s.alarmed cls).mgmtStopped then s.alarmed cls
    else ({ s.alarmed cls with riskE := min 255 ((s.alarmed cls).riskE + (s.alarmed cls).riskWeight cls) } : State).riskFollow := rfl

/-- The risk value follows an event in registers of its own. -/
theorem reg_alarm (s : State) (cls : Nat) {r : RegName} {i j : Nat} (hi : i < 2 ^ 20) (hj : j < 2 ^ 20) (hr : r ∉ riskRegs) :
    (s.alarm cls).reg r i j = (s.alarmed cls).reg r i j := by
  rw [alarm_eq]
  split
  · rfl
  · exact reg_riskFollow hi hj hr _

/-- The first time of a class is the one register that may take a value there. -/
theorem reg_alarmFirst_of_ne {cls : Nat} (s : State) {r : RegName} {d : Nat} (hc : cls < 2 ^ 20) (hd : d < 2 ^ 20)
    (h : r ≠ .ALM_FIRST ∨ d ≠ cls) : (s.alarmFirst cls).reg r d 0 = s.reg r d 0 := by
  have hne : (r, d, 0) ≠ (RegName.ALM_FIRST, cls, 0) := by
    rintro ⟨⟩
    simp at h
  unfold State.alarmFirst
  split
  · exact reg_setReg_of_ne s.now.2 _ hc (by decide) hd (by decide) hne
  · rfl

theorem bit_setBits_self (x k : Nat) : bit (setBits x k 1 1) k = true := by
  have hset : setBits x k 1 1 = x % 2 ^ k + (1 + 2 * (x / 2 ^ (k + 1))) * 2 ^ k := by
    rw [setBits, Nat.pow_succ]
    ring_nf
  have h : setBits x k 1 1 / 2 ^ k % 2 = 1 := by
    rw [hset, Nat.add_mul_div_right _ _ (Nat.two_pow_pos k), Nat.div_eq_of_lt (Nat.mod_lt _ (Nat.two_pow_pos k))]
    omega
  exact decide_eq_true h

section
variable (s : State) {cls : Nat} (hc : cls < 64)
include hc

theorem reg_alarmed_count : (s.alarmed cls).reg .ALM_COUNT cls 0 = min (s.reg .ALM_COUNT cls 0 + 1) (2 ^ 64 - 1) := by
  have hc' : cls < 2 ^ 20 := by omega
  rw [State.alarmed, reg_setReg_of_ne _ _ (by decide) (by decide) hc' (by decide) (by simp), reg_setReg_same]
  exact Nat.mod_eq_of_lt (by simp only [RegName.info]; omega)

theorem reg_alarmed_last : (s.alarmed cls).reg .ALM_LAST cls 0 = s.alarmTime cls % 2 ^ 64 := by
  have hc' : cls < 2 ^ 20 := by omega
  rw [State.alarmed, reg_setReg_of_ne _ _ (by decide) (by decide) hc' (by decide) (by simp),
    reg_setReg_of_ne _ _ hc' (by decide) hc' (by decide) (by simp), reg_setReg_same]
  rfl

theorem reg_alarmed_first : (s.alarmed cls).reg .ALM_FIRST cls 0 = (s.alarmFirst cls).reg .ALM_FIRST cls 0 := by
  have hc' : cls < 2 ^ 20 := by omega
  rw [State.alarmed, reg_setReg_of_ne _ _ (by decide) (by decide) hc' (by decide) (by simp),
    reg_setReg_of_ne _ _ hc' (by decide) hc' (by decide) (by simp), reg_setReg_of_ne _ _ hc' (by decide) hc' (by decide) (by simp)]

theorem bit_alarmed_summary : bit ((s.alarmed cls).reg .ALM_SUMMARY 0 0) cls = true := by
  rw [State.alarmed, reg_setReg_same]
  exact (bit_mod_two_pow _ hc).trans (bit_setBits_self _ cls)

/-- The registers of alarms of another class stay. -/
theorem reg_alarmed_other {d : Nat} (hd : d < 64) (hne : d ≠ cls) {r : RegName} (hr : r ≠ .ALM_SUMMARY) :
    (s.alarmed cls).reg r d 0 = s.reg r d 0 := by
  have hc' : cls < 2 ^ 20 := by omega
  have hd' : d < 2 ^ 20 := by omega
  rw [State.alarmed, reg_setReg_of_ne _ _ (by decide) (by decide) hd' (by decide) (by simp [hr]),
    reg_setReg_of_ne _ _ hc' (by decide) hd' (by decide) (by simp [hne]),
    reg_setReg_of_ne _ _ hc' (by decide) hd' (by decide) (by simp [hne]), reg_alarmFirst_of_ne s hc' hd' (.inr hne)]

end

/-- Settles O53: no register of alarms is one that the risk value follows in, so each reads as the event's own writes leave it. -/
theorem alarmCounts : Obligations.AlarmCounts := by
  unfold Obligations.AlarmCounts
  intro s cls hc
  have hreg {r : RegName} {d : Nat} (hd : d < 64) (hr : r ∉ riskRegs) : (s.alarm cls).reg r d 0 = (s.alarmed cls).reg r d 0 :=
    reg_alarm s cls (by omega) (by decide) hr
  refine ⟨?count, ?summary, fun h => ?kept, fun h => ?taken, fun d hd hne => ?others⟩
  case count => rw [hreg hc (by decide), reg_alarmed_count s hc]
  case summary => rw [hreg (by decide) (by decide), bit_alarmed_summary s hc]
  case kept =>
    rw [hreg hc (by decide), reg_alarmed_first s hc, State.alarmFirst, if_neg h]
    rfl
  case taken =>
    rw [hreg hc (by decide), hreg hc (by decide), reg_alarmed_first s hc, reg_alarmed_last s hc, State.alarmFirst, if_pos h, reg_setReg_same]
    rfl
  case others =>
    have hother {r : RegName} (hr : r ∉ riskRegs) (hs : r ≠ .ALM_SUMMARY) : (s.alarm cls).reg r d 0 = s.reg r d 0 :=
      (hreg hd hr).trans (reg_alarmed_other s hc hd hne hs)
    exact ⟨hother (by decide) (by decide), hother (by decide) (by decide), hother (by decide) (by decide)⟩

end Sys2Proof.Machine
end

section
/-! SUPPORT. The operator's reset requests (R392, R393), and what a chip reset leaves of the register store (R389, R397). -/

namespace Sys2Proof.Machine
open Sys2Proof

/-! ### The operator's requests -/

/-- LEVEL is no bit of what lies above it. -/
theorem bits_setBits_level (x v : Nat) {a n : Nat} (h : 3 ≤ a) : bits (setBits x 0 3 v) a n = bits x a n := by
  have hlow : x % 2 ^ 0 + v % 2 ^ 3 * 2 ^ 0 < 2 ^ 3 := by omega
  rw [bits, bits, ← Nat.add_sub_of_le h, Nat.pow_add, ← Nat.div_div_eq_div_mul, ← Nat.div_div_eq_div_mul, setBits, Nat.zero_add,
    Nat.add_mul_div_right _ _ (by decide), Nat.div_eq_of_lt hlow, Nat.zero_add]

theorem setBits_level_mod (x : Nat) {v : Nat} (h : v < 8) : setBits x 0 3 v % 8 = v := by
  simp only [setBits]
  omega

/-- A request of the operator by its level, for what it names (R392, R393). -/
def State.resetRequest (s : State) (p c e : Nat) (ack : Bool) : Nat → State
  | 0 => s
  | 1 => if s.admitted p c then ((s.stopCtx p c).settle).rstResult .ok else s.rstResult .illegal
  | 2 => if e < 48 then (s.engineReset p e 1).rstResult .ok else s.rstResult .illegal
  | 3 => (s.partReset p 1).rstResult .ok
  | 4 => (s.chipReset 1).rstResult .ok
  | 5 => s.powerCycle ack
  | _ => s.rstResult .illegal

/-- A write of RST_REQ with a level is that request for the PART, CTX and ENGINE of the word. -/
theorem writeRstReq_level (s : State) (v : Nat) (ack : Bool) {n : Nat} (h : n < 8) :
    s.writeRstReq (setBits v 0 3 n) ack = s.resetRequest (RST_REQ.PART.of v) (RST_REQ.CTX.of v) (RST_REQ.ENGINE.of v) ack n := by
  have hp : RST_REQ.PART.of (setBits v 0 3 n) = RST_REQ.PART.of v := bits_setBits_level v n (by decide)
  have hc : RST_REQ.CTX.of (setBits v 0 3 n) = RST_REQ.CTX.of v := bits_setBits_level v n (by decide)
  have he : RST_REQ.ENGINE.of (setBits v 0 3 n) = RST_REQ.ENGINE.of v := bits_setBits_level v n (by decide)
  unfold State.writeRstReq
  rw [hp, hc, he, setBits_level_mod v h]
  rfl

/-- Settles O51: each request by its level and what it names, level 5 by the descriptor and the acknowledgement. -/
theorem resetRequests : Obligations.ResetRequests := by
  unfold Obligations.ResetRequests
  intro s v p c e
  have hreq {n : Nat} (ack : Bool) (h : n < 8) {t : State} (ht : s.resetRequest p c e ack n = t) :
      (.next (s.writeRstReq (setBits v.toNat 0 3 n) ack) : Host.Outcome State Fault Refusal) = .next t :=
    congrArg _ ((writeRstReq_level s v.toNat ack h).trans ht)
  refine ⟨fun h => hreq false (n := 1) (by decide) (if_pos h), fun h => hreq false (n := 1) (by decide) (if_neg (by simp [h])),
    fun h => hreq false (n := 2) (by decide) (if_pos h), fun h => hreq false (n := 2) (by decide) (if_neg (Nat.not_lt.mpr h)),
    hreq false (n := 3) (by decide) rfl, hreq false (n := 4) (by decide) rfl, fun d h => hreq true (n := 5) (by decide) ?ack,
    fun d h => hreq false (n := 5) (by decide) ?silent, fun h ack => hreq ack (n := 5) (by decide) ?nameless⟩
  case ack => simp only [State.resetRequest, State.powerCycle, h, if_true]
  case silent => simp [State.resetRequest, State.powerCycle, h]
  case nameless => simp only [State.resetRequest, State.powerCycle, h]

/-! ### The kept bits -/

/-- What a chip reset leaves of a word of a register (R397). -/
def RegName.keptWord (r : RegName) (v : W64) : W64 :=
  (v &&& BitVec.ofNat 64 r.info.kept) ||| (r.resetWord &&& ~~~ BitVec.ofNat 64 r.info.kept)

theorem bit_keptWord (r : RegName) (v : W64) {k : Nat} (hk : k < 64) :
    bit (r.keptWord v).toNat k = if bit r.info.kept k then bit v.toNat k else bit r.info.reset k := by
  simp only [bit_eq_testBit, RegName.keptWord, RegName.resetWord, BitVec.testBit_toNat, BitVec.getLsbD_or, BitVec.getLsbD_and,
    BitVec.getLsbD_not, BitVec.getLsbD_ofNat, hk, decide_true, Bool.true_and]
  cases r.info.kept.testBit k <;> simp

/-- An element at its reset value is left at it. -/
theorem keptWord_resetWord (r : RegName) : r.keptWord r.resetWord = r.resetWord := by
  refine BitVec.eq_of_getLsbD_eq fun k hk => ?_
  simp only [RegName.keptWord, BitVec.getLsbD_or, BitVec.getLsbD_and, BitVec.getLsbD_not, hk, decide_true, Bool.true_and]
  cases r.resetWord.getLsbD k <;> cases (BitVec.ofNat 64 r.info.kept).getLsbD k <;> rfl

/-- The register that a key of the store is an element of. -/
theorem regKey_div (r : RegName) (i j : Nat) : regKey r i j / 2 ^ 40 = r.ctorIdx := by
  unfold regKey
  omega

/-- The cell that a chip reset leaves of one of the register store, where it leaves any. -/
def keptCell (rs : List RegName) (x : Nat × W64) : Option (Nat × W64) :=
  match rs.find? (fun r => r.ctorIdx = x.1 / 2 ^ 40) with
  | none => none
  | some r => if r.keptWord x.2 = r.resetWord then none else some (x.1, r.keptWord x.2)

theorem keepRegs_eq (rs : List RegName) (m : SMap W64) : keepRegs rs m = m.filterMap (keptCell rs) := rfl

/-- A cell that is left stays at its key, which is an element of one of `rs`. -/
theorem keptCell_some {rs : List RegName} {x y : Nat × W64} (h : keptCell rs x = some y) :
    y.1 = x.1 ∧ ∃ r ∈ rs, r.ctorIdx = x.1 / 2 ^ 40 := by
  unfold keptCell at h
  split at h
  · cases h
  · next r hr =>
    split at h
    · cases h
    · cases h
      exact ⟨rfl, r, List.mem_of_find?_eq_some hr, by simpa using List.find?_some hr⟩

theorem keptCell_mem {rs : List RegName} {r : RegName} (hr : r ∈ rs) (i j : Nat) (v : W64) :
    keptCell rs (regKey r i j, v) = if r.keptWord v = r.resetWord then none else some (regKey r i j, r.keptWord v) := by
  have hfind : rs.find? (fun q => q.ctorIdx = regKey r i j / 2 ^ 40) = some r := by
    rw [regKey_div]
    cases hf : rs.find? (fun q => decide (q.ctorIdx = r.ctorIdx)) with
    | none => simpa using List.find?_eq_none.mp hf r hr
    | some q =>
      have hq : q.ctorIdx = r.ctorIdx := by simpa using List.find?_some hf
      rw [RegName.ctorIdx_injective hq]
  unfold keptCell
  rw [hfind]

/-- What no cell lists reads as unlisted. -/
theorem SMap.get_of_forall_ne {α : Type} (d : α) {m : SMap α} {k : Nat} (h : ∀ c ∈ m, c.1 ≠ k) : SMap.get d m k = d := by
  induction m with
  | nil => rfl
  | cons c m ih => rw [SMap.get, if_neg (h c (by simp)), ih fun c hc => h c (List.mem_cons_of_mem _ hc)]

/-- An element of a register outside `rs` reads as at reset. -/
theorem get_keepRegs_of_not_mem {rs : List RegName} (m : SMap W64) {r : RegName} (hr : r ∉ rs) (i j : Nat) :
    SMap.get r.resetWord (keepRegs rs m) (regKey r i j) = r.resetWord := by
  refine SMap.get_of_forall_ne _ fun c hc hkey => ?_
  obtain ⟨x, _, hx⟩ := List.mem_filterMap.mp (show c ∈ m.filterMap (keptCell rs) from hc)
  obtain ⟨hk, q, hq, hidx⟩ := keptCell_some hx
  rw [← hk, hkey, regKey_div] at hidx
  exact hr (RegName.ctorIdx_injective hidx ▸ hq)

/-- An element of a register of `rs` reads as what its word leaves. -/
theorem get_keepRegs_of_mem {rs : List RegName} {m : SMap W64} (hm : SMap.Rising m) {r : RegName} (hr : r ∈ rs) (i j : Nat) :
    SMap.get r.resetWord (keepRegs rs m) (regKey r i j) = r.keptWord (SMap.get r.resetWord m (regKey r i j)) := by
  rw [keepRegs_eq]
  induction m with
  | nil => exact (keptWord_resetWord r).symm
  | cons c m ih =>
    obtain ⟨hlt, hm'⟩ := List.pairwise_cons.mp hm
    by_cases hc : c.1 = regKey r i j
    · have hcell : c = (regKey r i j, c.2) := Prod.ext hc rfl
      rw [SMap.get, if_pos hc, List.filterMap_cons, hcell, keptCell_mem hr]
      by_cases hv : r.keptWord c.2 = r.resetWord
      · rw [if_pos hv, hv]
        refine SMap.get_of_forall_ne _ fun y hy hkey => ?_
        obtain ⟨x, hx, hxy⟩ := List.mem_filterMap.mp hy
        have := hlt x hx
        rw [← (keptCell_some hxy).1, hkey, hc] at this
        exact Nat.lt_irrefl _ this
      · rw [if_neg hv]
        exact if_pos rfl
    · rw [SMap.get, if_neg hc, List.filterMap_cons, ← ih hm']
      split
      · rfl
      · next y hy =>
      have hne : y.1 ≠ regKey r i j := (keptCell_some hy).1 ▸ hc
      rw [SMap.get, if_neg hne]

/-! ### The chip reset -/

theorem drivePerst_outs_only (s old : State) : ∃ o, s.drivePerst old = { s with outs := o } := by
  refine List.foldlRecOn (motive := fun t : State => ∃ o, t = { s with outs := o }) _ _ ⟨_, rfl⟩ fun t ht n _ => ?_
  obtain ⟨o, rfl⟩ := ht
  split
  · exact ⟨o, rfl⟩
  · exact ⟨_, rfl⟩

/-- A chip reset is a wipe that keeps the always-on domain and what OTP and fuses hold, and four fields beyond the registers. -/
theorem resetChip_eq (s : State) : ∃ o, s.resetChip = { s.wipe (alwaysOn ++ fused) with
    outs := o, commonTwin := s.commonTwin, thermtrip := s.thermtrip, maxBefore := s.fld HANG_CFG.MAX_LEVEL 0 0, dips := s.dips } := by
  obtain ⟨o, ho⟩ := drivePerst_outs_only (s.wipe (alwaysOn ++ fused)) s
  unfold State.resetChip
  rw [ho]
  dsimp only
  split
  · exact ⟨_, rfl⟩
  · exact ⟨o, rfl⟩

theorem reg_resetChip (s : State) (r : RegName) (i j : Nat) :
    s.resetChip.reg r i j = (SMap.get r.resetWord (keepRegs (alwaysOn ++ fused) s.spoilOtp.regs) (regKey r i j)).toNat := by
  obtain ⟨o, ho⟩ := resetChip_eq s
  rw [ho]
  rfl

/-- A generation being programmed is marked in OTP_GEN_STATUS alone (R435). -/
theorem reg_spoilOtp (s : State) {r : RegName} {i j : Nat} (hi : i < 2 ^ 20) (hj : j < 2 ^ 20) (hr : r ≠ .OTP_GEN_STATUS) :
    s.spoilOtp.reg r i j = s.reg r i j := by
  unfold State.spoilOtp
  split
  · exact reg_setReg_of_ne _ _ (by decide) (by decide) hi hj fun h => hr (congrArg Prod.fst h)
  · rfl

theorem spoilOtp_rising {s : State} (h : SMap.Rising s.regs) : SMap.Rising s.spoilOtp.regs := by
  unfold State.spoilOtp
  split
  · exact setReg_rising (s := { s with otpOp := none }) h ..
  · exact h

/-- Settles O52: what a chip reset leaves of each word of the register store, and that nothing else of the device is carried over. -/
theorem chipResetKeeps : Obligations.ChipResetKeeps := by
  unfold Obligations.ChipResetKeeps
  intro s i j hi hj
  refine ⟨fun hs r hr k hk => ?kept, fun r hon hfused => ?reset, ?_⟩
  case kept =>
    have hmem : r ∈ alwaysOn ++ fused := by
      simp only [List.mem_append, fused, List.mem_cons] at hr ⊢
      tauto
    have hne : r ≠ .OTP_GEN_STATUS := by
      rintro rfl
      revert hr
      decide
    rw [reg_resetChip, get_keepRegs_of_mem (spoilOtp_rising hs) hmem, bit_keptWord r _ hk, ← reg_spoilOtp s hi hj hne]
    rfl
  case reset =>
    rw [reg_resetChip, get_keepRegs_of_not_mem _ (by simp [hon, hfused])]
    rfl
  · obtain ⟨o, ho⟩ := resetChip_eq s
    rw [ho]
    exact ⟨rfl, rfl, rfl, rfl, rfl, rfl, rfl, rfl⟩

end Sys2Proof.Machine
end

section
/-! SUPPORT. Alarm clears (R399, R400), the rings of the logs (R404, R406), and the end of incident mode (R408). -/

namespace Sys2Proof.Machine
open Sys2Proof

/-! ### Alarm clears -/

section
variable {cls : Fin 64} (v : W32) (s : State)

/-- A reserved class takes no clear (R400). -/
theorem exec_alarmClear_reserved (h : cls.val = 0x1F ∨ 0x29 ≤ cls.val) : exec (.alarmClear cls v) s = .next s :=
  congrArg Host.Outcome.next (if_pos (by rcases h with h | h <;> simp [setBits_lowest_mod, h]))

theorem exec_alarmClear (h1 : cls.val ≠ 0x1F) (h2 : cls.val < 0x29) : exec (.alarmClear cls v) s = .next
    (if s.alarmStands cls.val then s.setFld ALM_CTRL.HELD cls.val 0 1 else
      let t := ((s.setReg .ALM_COUNT cls.val 0 0).setReg .ALM_FIRST cls.val 0 0).setReg .ALM_LAST cls.val 0 0
      (t.setReg .ALM_SUMMARY 0 0 (setBits (t.reg .ALM_SUMMARY 0 0) cls.val 1 0)).setFld ALM_CTRL.HELD cls.val 0 0) :=
  congrArg Host.Outcome.next (if_neg (by simp [setBits_lowest_mod, h1, h2]))

end

/-! ### Records written out -/

/-- The record that a ring's write-out takes has left the staging store. -/
def State.unstaged (s : State) (r : LogRec) : State := { s with staged := s.staged.erase r }

theorem exec_recordWriteOut_none {ring : Fin 9} {s : State} (h : s.staged.find? (fun r => r.ring = ring.val) = none) :
    exec (.recordWriteOut ring) s = .next s := by
  change execRecordWriteOut ring s = _
  rw [execRecordWriteOut, h]

theorem exec_recordWriteOut_some {ring : Fin 9} {s : State} {r : LogRec} (h : s.staged.find? (fun r => r.ring = ring.val) = some r) :
    exec (.recordWriteOut ring) s = .next ((s.unstaged r).writeRecord r) := by
  change execRecordWriteOut ring s = _
  rw [execRecordWriteOut, h]
  rfl

/-- Where the log agent writes the next record of a ring, and with what answer of the memory. -/
def State.recordWrite (s : State) (r : LogRec) : Status × State :=
  s.hbmWrite (.ring r.ring) (s.ringAt r.ring (s.regAt (ringWr r.ring))) r.bytes

section
variable {s : State} {r : LogRec}

theorem writeRecord_disabled (h : s.regAt (ringCfg r.ring) % 2 = 0) : s.writeRecord r = s.logLoss r.ring := if_pos h

variable (h : s.regAt (ringCfg r.ring) % 2 = 1)
include h

theorem writeRecord_enabled : s.writeRecord r =
    match s.recordWrite r with
    | (.ok, t) =>
      let rd := t.regAt (ringRd r.ring)
      let u := if s.regAt (ringWr r.ring) - rd = t.ringSize r.ring then (t.setAt (ringRd r.ring) (rd + 1)).logLoss r.ring else t
      u.setAt (ringWr r.ring) ((s.regAt (ringWr r.ring) + 1) % 2 ^ 64)
    | (_, t) => t.logLoss r.ring := by
  rw [State.writeRecord, if_neg (by omega)]
  rfl

theorem writeRecord_unwritten (hw : (s.recordWrite r).1 ≠ .ok) : s.writeRecord r = (s.recordWrite r).2.logLoss r.ring := by
  rw [writeRecord_enabled h]
  generalize s.recordWrite r = x at hw ⊢
  obtain ⟨st, t⟩ := x
  cases st
  case ok => exact absurd rfl hw
  all_goals rfl

variable (hw : (s.recordWrite r).1 = .ok)
include hw

theorem writeRecord_written : s.writeRecord r =
    (if s.regAt (ringWr r.ring) - (s.recordWrite r).2.regAt (ringRd r.ring) = (s.recordWrite r).2.ringSize r.ring then
      ((s.recordWrite r).2.setAt (ringRd r.ring) ((s.recordWrite r).2.regAt (ringRd r.ring) + 1)).logLoss r.ring
    else (s.recordWrite r).2).setAt (ringWr r.ring) ((s.regAt (ringWr r.ring) + 1) % 2 ^ 64) := by
  rw [writeRecord_enabled h]
  generalize s.recordWrite r = x at hw ⊢
  obtain ⟨st, t⟩ := x
  subst hw
  rfl

theorem writeRecord_room (hroom : s.regAt (ringWr r.ring) - (s.recordWrite r).2.regAt (ringRd r.ring) ≠ (s.recordWrite r).2.ringSize r.ring) :
    s.writeRecord r = (s.recordWrite r).2.setAt (ringWr r.ring) ((s.regAt (ringWr r.ring) + 1) % 2 ^ 64) := by
  rw [writeRecord_written h hw, if_neg hroom]

/-- A full ring loses its oldest record (R404). -/
theorem writeRecord_full (hfull : s.regAt (ringWr r.ring) - (s.recordWrite r).2.regAt (ringRd r.ring) = (s.recordWrite r).2.ringSize r.ring) :
    s.writeRecord r = (((s.recordWrite r).2.setAt (ringRd r.ring) ((s.recordWrite r).2.regAt (ringRd r.ring) + 1)).logLoss r.ring).setAt
      (ringWr r.ring) ((s.regAt (ringWr r.ring) + 1) % 2 ^ 64) := by
  rw [writeRecord_written h hw, if_pos hfull]

end

/-! ### Read pointers and enabling -/

/-- A read pointer is clamped to what the ring holds (R404). -/
theorem writeRd_tenant (s : State) {p : Nat} (hp : p < 8) (v : Nat) : s.writeRd p v =
    s.setReg .SCHED_LOG_RD p 0 (max (s.reg .SCHED_LOG_WR p 0 - s.ringSize p) (min (s.reg .SCHED_LOG_WR p 0) v)) := by
  have h8 : p ≠ 8 := by omega
  simp only [State.writeRd, ringWr, ringRd, State.regAt, State.setAt, if_neg h8]

theorem exec_logRdWrite_tenant {s : State} {bar : Bar} (hbar : bar ≠ .operator) (v : W64) :
    exec (.logRdWrite bar v) s = .next (s.viaPhysical bar (fun p => s.writeRd p v.toNat)) := by
  cases bar with
  | operator => exact absurd rfl hbar
  | tenant p ide => rfl
  | virtual p n ide => rfl

theorem exec_logEnable_tenant {s : State} {bar : Bar} (hbar : bar ≠ .operator) (v : W32) :
    exec (.logEnable bar v) s = .next (s.viaPhysical bar (fun p => s.writeRingCfg p (setBits v.toNat 0 1 1))) := by
  cases bar with
  | operator => exact absurd rfl hbar
  | tenant p ide => rfl
  | virtual p n ide => rfl

/-- An access that acts for a function goes through a tenant's BAR. -/
theorem ne_operator_of_function {s : State} {bar : Bar} {x : Nat × Nat} (h : s.function bar = some x) : bar ≠ .operator := by
  rintro rfl
  simp [State.function] at h

/-- What a write of a ring's CFG stores: SIZE_LOG2 is taken from 11 to 24 while the ring is disabled (R406). -/
def State.takeRingCfg (s : State) (x : RegName × Nat) (w : Nat) : State :=
  s.writeMasked x.1 x.2 0 (if s.regAt x % 2 = 1 ∨ bits w 8 5 < 11 ∨ 24 < bits w 8 5 then setBits w 8 5 (bits (s.regAt x) 8 5) else w)

/-- Enabling a ring empties it; a ring that is enabled stays as full as it is (R406). -/
theorem writeRingCfg_enable (s : State) (ring v : Nat) : s.writeRingCfg ring (setBits v 0 1 1) =
    if s.regAt (ringCfg ring) % 2 = 0 then
      ((s.takeRingCfg (ringCfg ring) (setBits v 0 1 1)).setAt (ringWr ring) 0).setAt (ringRd ring) 0
    else s.takeRingCfg (ringCfg ring) (setBits v 0 1 1) := by
  have hv : setBits v 0 1 1 % 2 = 1 := setBits_lowest_mod v 1
  simp only [State.writeRingCfg, State.takeRingCfg, hv, Bool.or_eq_true, or_assoc, decide_true, Bool.and_true, decide_eq_true_eq]

/-! ### Incident mode -/

/-- Incident mode may end: every ring's staged records are below an eighth of its quota, and the rate below an eighth of RATE (R408). -/
def State.Calm (s : State) : Prop :=
  s.incident = true ∧ (∀ r < 9, 8 * s.stagedOf r < quota r) ∧ 8 * s.msRecords < max 1 (s.fld LOG_INCIDENT.RATE 0 0)

theorem not_calm_iff (s : State) :
    (!s.incident || (List.range 9).any (fun r => quota r ≤ 8 * s.stagedOf r) || max 1 (s.fld LOG_INCIDENT.RATE 0 0) ≤ 8 * s.msRecords) = true
      ↔ ¬ s.Calm := by
  simp only [State.Calm, Bool.or_eq_true, Bool.not_eq_true', List.any_eq_true, List.mem_range, decide_eq_true_eq, not_and_or, not_forall,
    Nat.not_lt, Bool.not_eq_true, or_assoc, exists_prop]

theorem exec_incidentExit_stays {s : State} (h : ¬ s.Calm) : exec .incidentExit s = .next s :=
  congrArg Host.Outcome.next (if_pos ((not_calm_iff s).mpr h))

theorem exec_incidentExit_ends {s : State} (h : s.Calm) : exec .incidentExit s = .next
    (s.coalesce.foldl State.writeEntry (({ s with coalesce := [] } : State).setFld LOG_INCIDENT.ACTIVE 0 0 0)) :=
  congrArg Host.Outcome.next (if_neg (not_not.mpr h ∘ (not_calm_iff s).mp))

theorem exec_coalesceFlush (n : Nat) (s : State) : exec (.coalesceFlush n) s = .next
    (match s.coalesce[n]? with
      | some r => ({ s with coalesce := s.coalesce.erase r } : State).writeEntry r
      | none => s) := rfl

/-- Settles O54: a clear by its class and its cause, a write-out by its ring and what the memory answers, the pointers and the enabling by the ring
they name, and the end of incident mode by whether all is calm. -/
theorem alarmsAndLogs : Obligations.AlarmsAndLogs := by
  unfold Obligations.AlarmsAndLogs
  refine ⟨fun s cls v => ?clear, fun s ring => ?writeOut, fun s v => ?operatorRd, fun s bar p v hf hp => ?tenantRd, fun s v => ?operatorCfg,
    fun s bar p v hf hp => ?tenantCfg, fun s bar p f v w hf => ?virtual, fun s n => ?flush, fun s => ?exit⟩
  case clear =>
    refine ⟨fun h1 h2 hs => ?_, fun h1 h2 hs => ?_, exec_alarmClear_reserved v s⟩
    · rw [exec_alarmClear v s h1 h2, if_neg (by simp [hs])]
    · rw [exec_alarmClear v s h1 h2, if_pos hs]
  case writeOut =>
    refine ⟨exec_recordWriteOut_none, fun r hr => ?_⟩
    rw [exec_recordWriteOut_some hr]
    refine ⟨fun h => ?_, fun h hw => ?_, fun h hw => ⟨fun hfull => ?_, fun hfull => ?_⟩⟩
    · exact congrArg Host.Outcome.next (writeRecord_disabled h)
    · exact congrArg Host.Outcome.next (writeRecord_unwritten h hw)
    · exact congrArg Host.Outcome.next (writeRecord_room h hw hfull)
    · exact congrArg Host.Outcome.next (writeRecord_full h hw hfull)
  case operatorRd => rfl
  case tenantRd => rw [exec_logRdWrite_tenant (ne_operator_of_function hf), viaPhysical_some hf, writeRd_tenant s hp]
  case operatorCfg =>
    exact ⟨fun h => congrArg Host.Outcome.next ((writeRingCfg_enable s 8 v.toNat).trans (if_pos h)),
      fun h => congrArg Host.Outcome.next ((writeRingCfg_enable s 8 v.toNat).trans (if_neg (show ¬ s.reg .LOG_OP_CFG 0 0 % 2 = 0 by omega)))⟩
  case tenantCfg =>
    have h8 : p ≠ 8 := by omega
    have hexec := exec_logEnable_tenant (s := s) (ne_operator_of_function hf) v
    rw [viaPhysical_some hf, writeRingCfg_enable] at hexec
    simp only [ringCfg, ringWr, ringRd, if_neg h8, State.regAt, State.setAt, State.takeRingCfg] at hexec
    exact ⟨fun h => hexec.trans (congrArg Host.Outcome.next (if_pos h)), fun h => hexec.trans (congrArg Host.Outcome.next (if_neg (by omega)))⟩
  case virtual =>
    have hbar := ne_operator_of_function hf
    exact ⟨(exec_logRdWrite_tenant hbar v).trans (congrArg Host.Outcome.next (viaPhysical_virtual hf)),
      (exec_logEnable_tenant hbar w).trans (congrArg Host.Outcome.next (viaPhysical_virtual hf))⟩
  case flush =>
    refine ⟨fun h => ?_, fun r h => ?_⟩ <;> rw [exec_coalesceFlush, h]
  case exit => exact ⟨exec_incidentExit_ends, exec_incidentExit_stays⟩

end Sys2Proof.Machine
end

section
/-! SUPPORT. The flash commands (R432) and the programming of the one-time-programmable configuration (R435). -/

namespace Sys2Proof.Machine
open Sys2Proof

/-! ### Flash commands -/

/-- Outside tabby mode the image in use is neither erased nor programmed (R432). -/
def State.flashFree (s : State) : Prop := s.fld BOOT_STATUS.TABBY 0 0 ≠ 0 ∨ s.fld BOOT_FLASH_ADDR.SEL 0 0 ≠ s.fld BOOT_STATUS.IMAGE 0 0

theorem not_flashFree_iff (s : State) :
    (s.fld BOOT_STATUS.TABBY 0 0 = 0 && s.fld BOOT_FLASH_ADDR.SEL 0 0 = s.fld BOOT_STATUS.IMAGE 0 0) = true ↔ ¬ s.flashFree := by
  simp only [State.flashFree, Bool.and_eq_true, decide_eq_true_eq, not_or, not_not]

/-- The units that a flash command takes: an erase 64 KiB, the others 256 B. -/
def flashUnit (cmd : Nat) : Nat := if cmd = 1 then 65536 else 256

/-- A flash command begins. -/
def State.flashBegun (s : State) (cmd : Nat) (page : List Byte) : State :=
  ({ s with flashOp := some ⟨cmd, s.fld BOOT_FLASH_ADDR.SEL 0 0, s.fld BOOT_FLASH_ADDR.ADDR 0 0, page⟩ } : State).setFld BOOT_FLASH_CMD.BUSY 0 0 1

section
variable {s : State} (v : Nat) {cmd : Nat} (h0 : cmd ≠ 0) (h4 : cmd < 4)
include h0 h4

/-- A write of BOOT_FLASH_CMD by its command. -/
theorem writeFlashCmd_eq : s.writeFlashCmd (setBits v 0 2 cmd) =
    if s.flashOp.isSome then s.flashResult .illegal
    else if s.fld BOOT_FLASH_ADDR.ADDR 0 0 % flashUnit cmd ≠ 0 then s.flashResult .illegal
    else if cmd ≠ 3 && s.fld BOOT_STATUS.TABBY 0 0 = 0 && s.fld BOOT_FLASH_ADDR.SEL 0 0 = s.fld BOOT_STATUS.IMAGE 0 0 then s.flashResult .protection
    else s.flashBegun cmd (if cmd = 2 then s.window else []) := by
  unfold State.writeFlashCmd
  rw [setBits_cmd_mod v h4]
  exact if_neg h0

theorem writeFlashCmd_busy (h : s.flashOp.isSome = true) : s.writeFlashCmd (setBits v 0 2 cmd) = s.flashResult .illegal := by
  rw [writeFlashCmd_eq v h0 h4, if_pos h]

theorem writeFlashCmd_misaligned (ha : s.fld BOOT_FLASH_ADDR.ADDR 0 0 % flashUnit cmd ≠ 0) :
    s.writeFlashCmd (setBits v 0 2 cmd) = s.flashResult .illegal := by
  rw [writeFlashCmd_eq v h0 h4, if_pos ha, ite_self]

variable (h : s.flashOp = none) (ha : s.fld BOOT_FLASH_ADDR.ADDR 0 0 % flashUnit cmd = 0)
include h ha

theorem writeFlashCmd_barred (h3 : cmd ≠ 3) (hf : ¬ s.flashFree) : s.writeFlashCmd (setBits v 0 2 cmd) = s.flashResult .protection := by
  rw [writeFlashCmd_eq v h0 h4, if_neg (by simp [h]), if_neg (not_not.mpr ha), if_pos]
  rw [Bool.and_assoc, Bool.and_eq_true]
  exact ⟨decide_eq_true h3, (not_flashFree_iff s).mpr hf⟩

theorem writeFlashCmd_begins (hf : cmd = 3 ∨ s.flashFree) :
    s.writeFlashCmd (setBits v 0 2 cmd) = s.flashBegun cmd (if cmd = 2 then s.window else []) := by
  rw [writeFlashCmd_eq v h0 h4, if_neg (by simp [h]), if_neg (not_not.mpr ha), if_neg]
  rw [Bool.and_assoc, Bool.and_eq_true, not_flashFree_iff, decide_eq_true_eq]
  tauto

end

/-- What a flash command that ends leaves before its change: it is no longer under way, and its RESULT is OK. -/
def State.flashEnded (s : State) : State := (({ s with flashOp := none } : State).setFld BOOT_FLASH_CMD.BUSY 0 0 0).flashResult .ok

/-- The change that a flash command makes at its end (R432). -/
def State.flashDone (s : State) (o : FlashOp) : State :=
  if o.cmd = 1 then { s with flash := SMap.clearRange s.flash (o.sel * 2 ^ 28 + o.addr) 65536 }
  else if o.cmd = 2 then
    { s with flash := (o.page.zipIdx).foldl (fun m b => SMap.set (0xFF : Byte) m (o.sel * 2 ^ 28 + o.addr + b.2) b.1) s.flash }
  else (List.range 64).foldl (fun u i => u.setReg .BOOT_FLASH_DATA i 0 (leNat (((s.readFlash o.sel o.addr 256).drop (4 * i)).take 4))) s

theorem exec_flashCommandComplete_none {s : State} (h : s.flashOp = none) : exec .flashCommandComplete s = .next s := by
  change execFlashCommandComplete s = _
  rw [execFlashCommandComplete, h]

theorem exec_flashCommandComplete_some {s : State} {o : FlashOp} (h : s.flashOp = some o) :
    exec .flashCommandComplete s = .next (s.flashEnded.flashDone o) := by
  change execFlashCommandComplete s = _
  rw [execFlashCommandComplete, h]
  rfl

/-! ### OTP -/

/-- The generation that OTP_PROGRAM burns next: the first that is blank and not being programmed (R435). -/
def State.nextGen (s : State) : Option Nat := [1, 2, 3, 4].find? (fun g => s.genMark g = 0 && (s.otpOp.map (·.1)) ≠ some g)

/-- Whether a generation may be burnt: never in the returned state, and in the blank state by the vendor alone (R435). -/
def State.Burnable (s : State) (vendor : Bool) : Prop := s.fld SEC_LIFECYCLE.STATE 0 0 ≠ 3 ∧ (s.fld SEC_LIFECYCLE.STATE 0 0 ≠ 0 ∨ vendor = true)

theorem not_burnable_iff (s : State) (vendor : Bool) :
    (s.fld SEC_LIFECYCLE.STATE 0 0 = 3 || (s.fld SEC_LIFECYCLE.STATE 0 0 = 0 && !vendor)) = true ↔ ¬ s.Burnable vendor := by
  simp only [State.Burnable, Bool.or_eq_true, Bool.and_eq_true, decide_eq_true_eq, Bool.not_eq_true', not_and_or, not_or, not_not,
    Bool.not_eq_true]

section
variable {s : State} {vendor : Bool} (v : W32)

theorem exec_otpProgram : exec (.otpProgram v vendor) s = .next
    (if s.fld SEC_LIFECYCLE.STATE 0 0 = 3 || (s.fld SEC_LIFECYCLE.STATE 0 0 = 0 && !vendor) then s.otpResult .protection
    else match s.nextGen with
      | none => s.otpResult .illegal
      | some g =>
        if s.otpStaged.getD 0x3F 0 ≠ 0 then s.otpResult .level
        else if s.otpOp.isSome then s.otpResult .illegal
        else ({ s with otpOp := some (g, s.otpImage g) } : State).setFld OTP_CMD.BUSY 0 0 1) :=
  congrArg Host.Outcome.next (if_neg (by simp [setBits_lowest_mod]))

theorem exec_otpProgram_barred (h : ¬ s.Burnable vendor) : exec (.otpProgram v vendor) s = .next (s.otpResult .protection) := by
  rw [exec_otpProgram, if_pos ((not_burnable_iff s vendor).mpr h)]

variable (h : s.Burnable vendor)
include h

theorem exec_otpProgram_full (hg : s.nextGen = none) : exec (.otpProgram v vendor) s = .next (s.otpResult .illegal) := by
  rw [exec_otpProgram, if_neg fun hx => (not_burnable_iff s vendor).mp hx h, hg]

theorem exec_otpProgram_next {g : Nat} (hg : s.nextGen = some g) : exec (.otpProgram v vendor) s = .next
    (if s.otpStaged.getD 0x3F 0 ≠ 0 then s.otpResult .level
    else if s.otpOp.isSome then s.otpResult .illegal
    else ({ s with otpOp := some (g, s.otpImage g) } : State).setFld OTP_CMD.BUSY 0 0 1) := by
  rw [exec_otpProgram, if_neg fun hx => (not_burnable_iff s vendor).mp hx h, hg]

end

theorem exec_otpProgramComplete_none {s : State} (h : s.otpOp = none) : exec .otpProgramComplete s = .next s := by
  change execOtpProgramComplete s = _
  rw [execOtpProgramComplete, h]

/-- Settles O59: a flash command by its address and the image in use, its end by its kind, a burn by the lifecycle, the generation that is next,
and what is staged. -/
theorem flashAndOtp : Obligations.FlashAndOtp := by
  unfold Obligations.FlashAndOtp
  refine ⟨fun s v => ?start, fun s op hop => ?finish, fun s v vendor => ?burn, fun s o ho => ?burnt⟩
  case start =>
    refine ⟨fun h => ?busy, fun h => ⟨fun ha hf => ?_, fun ha hf => ?_, fun ha => ?_, fun ha hf => ?_, fun ha hf => ?_, fun ha => ?_,
      fun ha => ?misaligned⟩⟩
    case busy =>
      simp only [List.forall_mem_cons]
      exact ⟨congrArg Host.Outcome.next (writeFlashCmd_busy v.toNat (by decide) (by decide) h),
        congrArg Host.Outcome.next (writeFlashCmd_busy v.toNat (by decide) (by decide) h),
        congrArg Host.Outcome.next (writeFlashCmd_busy v.toNat (by decide) (by decide) h), List.forall_mem_nil _⟩
    case misaligned =>
      simp only [List.forall_mem_cons]
      exact ⟨congrArg Host.Outcome.next (writeFlashCmd_misaligned v.toNat (by decide) (by decide) ha),
        congrArg Host.Outcome.next (writeFlashCmd_misaligned v.toNat (by decide) (by decide) ha), List.forall_mem_nil _⟩
    · exact congrArg Host.Outcome.next (writeFlashCmd_begins v.toNat (by decide) (by decide) h ha (.inr hf))
    · exact congrArg Host.Outcome.next (writeFlashCmd_begins v.toNat (by decide) (by decide) h ha (.inr hf))
    · exact congrArg Host.Outcome.next (writeFlashCmd_begins v.toNat (by decide) (by decide) h ha (.inl rfl))
    · exact congrArg Host.Outcome.next (writeFlashCmd_barred v.toNat (by decide) (by decide) h ha (by decide) hf)
    · exact congrArg Host.Outcome.next (writeFlashCmd_barred v.toNat (by decide) (by decide) h ha (by decide) hf)
    · exact congrArg Host.Outcome.next (writeFlashCmd_misaligned v.toNat (by decide) (by decide) ha)
  case finish =>
    refine ⟨fun hn => exec_flashCommandComplete_none (hop.trans hn), fun o ho => ?_⟩
    rw [exec_flashCommandComplete_some (hop.trans ho)]
    refine ⟨fun h1 => ?_, fun h2 => ?_, fun h1 h2 => ?_⟩
    · exact congrArg Host.Outcome.next (if_pos h1)
    · exact congrArg Host.Outcome.next ((if_neg (by omega)).trans (if_pos h2))
    · exact congrArg Host.Outcome.next ((if_neg h1).trans (if_neg h2))
  case burn =>
    refine ⟨exec_otpProgram_barred v, exec_otpProgram_full v, fun hmay g hg => ?_⟩
    rw [exec_otpProgram_next v hmay hg]
    refine ⟨fun hl => ?_, fun hl => ⟨fun hb => ?_, fun hb => ?_⟩⟩
    · rw [if_pos hl]
    · rw [if_neg (not_not.mpr hl), if_pos hb]
    · rw [if_neg (not_not.mpr hl), if_neg (by simp [hb])]
  case burnt =>
    refine ⟨fun hn => exec_otpProgramComplete_none (ho.trans hn), fun g b hb => ?_⟩
    change execOtpProgramComplete s = _
    rw [execOtpProgramComplete, ho.trans hb]

end Sys2Proof.Machine
end

section
/-! The canonical form of the memories (O4), from here to the end of this section. Its many short lemmas are elaborated one after another: side
by side, their threads' stacks alone would fill the memory that a check may take. -/

set_option Elab.async false


section
/-! SUPPORT. The canonical form of the memories and of the register store: how each kind of change of a state keeps it. Every lemma of this
kind lies in the namespace `State.MemWf`, so that a proof names the operations in the order in which the model applies them. -/

namespace Sys2Proof.Machine
open Sys2Proof

theorem SMap.nil_wf {α : Type} {d : Nat → α} : SMap.Wf d [] := ⟨List.Pairwise.nil, nofun⟩

/-- What a chip reset leaves of the register store keeps its order. -/
theorem keepRegs_rising {rs : List RegName} {m : SMap W64} (h : SMap.Rising m) : SMap.Rising (keepRegs rs m) := by
  rw [keepRegs_eq]
  refine List.Pairwise.filterMap _ (fun x x' hx y hy y' hy' => ?_) h
  rw [(keptCell_some hy).1, (keptCell_some hy').1]
  exact hx

/-- What the canonical form speaks of. -/
def State.stores (s : State) : SMap Byte × SMap Byte × SMap Byte × SMap Byte × SMap Byte × SMap Byte × SMap W64 :=
  (s.hbm, s.bobbin, s.beam, s.board, s.host, s.flash, s.regs)

/-- The same, taken from the state's constructor: of a state that is written out, it is found without a look at its other fields. -/
def State.storesOf : State → SMap Byte × SMap Byte × SMap Byte × SMap Byte × SMap Byte × SMap Byte × SMap W64
  | { hbm, bobbin, beam, board, host, flash, regs, .. } => (hbm, bobbin, beam, board, host, flash, regs)

theorem State.memWf_of_storesOf {s t : State} (hs : s.MemWf) (e : t.storesOf = s.stores) : t.MemWf := by
  simp only [State.storesOf, State.stores, Prod.mk.injEq] at e
  obtain ⟨h1, h2, h3, h4, h5, h6, h7⟩ := e
  unfold State.MemWf
  rw [h1, h2, h3, h4, h5, h6, h7]
  exact hs

/-- What a row of Onaile answers keeps the form: the state of an instruction that was issued. -/
def Issued.MemWf : Issued → Prop
  | .go _ t => t.MemWf
  | _ => True

section
variable {s t : State} (hs : s.MemWf)
include hs

/-! ### Changes of fields -/

/-- A change of other fields. -/
theorem State.MemWf.upd (e : t.storesOf = s.stores := by rfl) : t.MemWf := State.memWf_of_storesOf hs e

theorem State.MemWf.withHbm {m : SMap Byte} (h : SMap.Wf (fun _ => (0 : Byte)) s.hbm → SMap.Wf (fun _ => (0 : Byte)) m) :
    State.MemWf { s with hbm := m } := by
  obtain ⟨hbm, bobbin, beam, board, host, flash, regs⟩ := hs
  exact ⟨h hbm, bobbin, beam, board, host, flash, regs⟩

theorem State.MemWf.withBobbin {m : SMap Byte} (h : SMap.Wf (fun _ => (0 : Byte)) s.bobbin → SMap.Wf (fun _ => (0 : Byte)) m) :
    State.MemWf { s with bobbin := m } := by
  obtain ⟨hbm, bobbin, beam, board, host, flash, regs⟩ := hs
  exact ⟨hbm, h bobbin, beam, board, host, flash, regs⟩

theorem State.MemWf.withBeam {m : SMap Byte} (h : SMap.Wf (fun _ => (0 : Byte)) s.beam → SMap.Wf (fun _ => (0 : Byte)) m) :
    State.MemWf { s with beam := m } := by
  obtain ⟨hbm, bobbin, beam, board, host, flash, regs⟩ := hs
  exact ⟨hbm, bobbin, h beam, board, host, flash, regs⟩

theorem State.MemWf.withBoard {m : SMap Byte} (h : SMap.Wf (fun _ => (0 : Byte)) s.board → SMap.Wf (fun _ => (0 : Byte)) m) :
    State.MemWf { s with board := m } := by
  obtain ⟨hbm, bobbin, beam, board, host, flash, regs⟩ := hs
  exact ⟨hbm, bobbin, beam, h board, host, flash, regs⟩

theorem State.MemWf.withHost {m : SMap Byte} (h : SMap.Wf (fun _ => (0 : Byte)) s.host → SMap.Wf (fun _ => (0 : Byte)) m) :
    State.MemWf { s with host := m } := by
  obtain ⟨hbm, bobbin, beam, board, host, flash, regs⟩ := hs
  exact ⟨hbm, bobbin, beam, board, h host, flash, regs⟩

theorem State.MemWf.withFlash {m : SMap Byte} (h : SMap.Wf (fun _ => (0xFF : Byte)) s.flash → SMap.Wf (fun _ => (0xFF : Byte)) m) :
    State.MemWf { s with flash := m } := by
  obtain ⟨hbm, bobbin, beam, board, host, flash, regs⟩ := hs
  exact ⟨hbm, bobbin, beam, board, host, h flash, regs⟩

theorem State.MemWf.withRegs {m : SMap W64} (h : SMap.Rising s.regs → SMap.Rising m) :
    State.MemWf { s with regs := m } := by
  obtain ⟨hbm, bobbin, beam, board, host, flash, regs⟩ := hs
  exact ⟨hbm, bobbin, beam, board, host, flash, h regs⟩

/-! ### Branches -/

theorem State.MemWf.ite {c : Prop} {d : Decidable c} (ht : t.MemWf) : (if c then s else t).MemWf := by
  split
  · exact hs
  · exact ht

/-- Two branches that begin with the same operations. -/
theorem State.MemWf.branch {a b : State} {c : Prop} {d : Decidable c} (ha : s.MemWf → a.MemWf) (hb : s.MemWf → b.MemWf) :
    (if c then a else b).MemWf := (ha hs).ite (hb hs)

theorem State.MemWf.getD {o : Option State} (ho : ∀ {u : State}, o = some u → u.MemWf) : (o.getD s).MemWf := by
  cases o with
  | none => exact hs
  | some u => exact ho rfl

theorem State.MemWf.some_getD : ((some s).getD t).MemWf := hs

/-! ### Folds -/

theorem State.MemWf.foldl {α : Type} {l : List α} {f : State → α → State} (hf : ∀ {u : State} {x : α}, u.MemWf → (f u x).MemWf) :
    (l.foldl f s).MemWf :=
  List.foldlRecOn (motive := State.MemWf) l f hs fun _ hu _ _ => hf hu

theorem State.MemWf.foldl2 {α β : Type} {l : List α} {b : β} {f : β × State → α → β × State}
    (hf : ∀ {u : β × State} {x : α}, u.2.MemWf → (f u x).2.MemWf) : (l.foldl f (b, s)).2.MemWf :=
  List.foldlRecOn (motive := fun u : β × State => u.2.MemWf) l f hs fun _ hu _ _ => hf hu

/-- The state that a fold of pairs ends in, where the pair is taken apart. -/
theorem State.MemWf.foldl2_eq {α β : Type} {l : List α} {b b' : β} {f : β × State → α → β × State} (e : l.foldl f (b, s) = (b', t))
    (hf : ∀ {u : β × State} {x : α}, u.2.MemWf → (f u x).2.MemWf) : t.MemWf := by
  have h : (l.foldl f (b, s)).2.MemWf := hs.foldl2 hf
  rw [e] at h
  exact h

theorem State.MemWf.foldl22 {α β γ : Type} {l : List α} {b : β} {c : γ} {f : β × γ × State → α → β × γ × State}
    (hf : ∀ {u : β × γ × State} {x : α}, u.2.2.MemWf → (f u x).2.2.MemWf) : (l.foldl f (b, c, s)).2.2.MemWf :=
  List.foldlRecOn (motive := fun u : β × γ × State => u.2.2.MemWf) l f hs fun _ hu _ _ => hf hu

theorem State.MemWf.foldl222 {α β γ δ : Type} {l : List α} {b : β} {c : γ} {d : δ} {f : β × γ × δ × State → α → β × γ × δ × State}
    (hf : ∀ {u : β × γ × δ × State} {x : α}, u.2.2.2.MemWf → (f u x).2.2.2.MemWf) : (l.foldl f (b, c, d, s)).2.2.2.MemWf :=
  List.foldlRecOn (motive := fun u : β × γ × δ × State => u.2.2.2.MemWf) l f hs fun _ hu _ _ => hf hu

theorem State.MemWf.foldl22_eq {α β γ : Type} {l : List α} {b b' : β} {c c' : γ} {f : β × γ × State → α → β × γ × State}
    (e : l.foldl f (b, c, s) = (b', c', t)) (hf : ∀ {u : β × γ × State} {x : α}, u.2.2.MemWf → (f u x).2.2.MemWf) : t.MemWf := by
  have h : (l.foldl f (b, c, s)).2.2.MemWf := hs.foldl22 hf
  rw [e] at h
  exact h

theorem State.MemWf.foldl222_eq {α β γ δ : Type} {l : List α} {b b' : β} {c c' : γ} {d d' : δ}
    {f : β × γ × δ × State → α → β × γ × δ × State} (e : l.foldl f (b, c, d, s) = (b', c', d', t))
    (hf : ∀ {u : β × γ × δ × State} {x : α}, u.2.2.2.MemWf → (f u x).2.2.2.MemWf) : t.MemWf := by
  have h : (l.foldl f (b, c, d, s)).2.2.2.MemWf := hs.foldl222 hf
  rw [e] at h
  exact h

theorem State.MemWf.foldl1 {α β : Type} {l : List α} {b : β} {f : State × β → α → State × β}
    (hf : ∀ {u : State × β} {x : α}, u.1.MemWf → (f u x).1.MemWf) : (l.foldl f (s, b)).1.MemWf :=
  List.foldlRecOn (motive := fun u : State × β => u.1.MemWf) l f hs fun _ hu _ _ => hf hu

end

/-! ### Answers that carry a state -/

section
variable {α β γ : Type} {a : α} {b : β} {t : State}

theorem State.MemWf.pair2 (ht : t.MemWf) : (a, t).2.MemWf := ht

theorem State.MemWf.pair22 (ht : t.MemWf) : (a, b, t).2.2.MemWf := ht

theorem State.MemWf.both22 {a' : α} {b' : β} {c : Prop} {d : Decidable c} (ht : t.MemWf) :
    (if c then (a, b, t) else (a', b', t)).2.2.MemWf := by
  split
  · exact ht
  · exact ht

theorem State.MemWf.of2 {x : α × State} (hx : x.2.MemWf) (e : x = (a, t)) : t.MemWf := by
  subst e
  exact hx

theorem State.MemWf.of22 {x : α × β × State} (hx : x.2.2.MemWf) (e : x = (a, b, t)) : t.MemWf := by
  subst e
  exact hx

theorem State.MemWf.ite2 {x y : α × State} {c : Prop} {d : Decidable c} (hx : x.2.MemWf) (hy : y.2.MemWf) : (if c then x else y).2.MemWf := by
  split
  · exact hx
  · exact hy

theorem State.MemWf.ite22 {x y : α × β × State} {c : Prop} {d : Decidable c} (hx : x.2.2.MemWf) (hy : y.2.2.MemWf) :
    (if c then x else y).2.2.MemWf := by
  split
  · exact hx
  · exact hy

theorem State.MemWf.ite222 {x y : α × β × γ × State} {c : Prop} {d : Decidable c} (hx : x.2.2.2.MemWf) (hy : y.2.2.2.MemWf) :
    (if c then x else y).2.2.2.MemWf := by
  split
  · exact hx
  · exact hy

theorem State.MemWf.ite1 {x y : State × β} {c : Prop} {d : Decidable c} (hx : x.1.MemWf) (hy : y.1.MemWf) : (if c then x else y).1.MemWf := by
  split
  · exact hx
  · exact hy

theorem State.MemWf.branch22 {x y : α × β × State} {s : State} {c : Prop} {d : Decidable c} (hs : s.MemWf) (hx : s.MemWf → x.2.2.MemWf)
    (hy : s.MemWf → y.2.2.MemWf) : (if c then x else y).2.2.MemWf := (hx hs).ite22 (hy hs)

theorem State.MemWf.branch2 {x y : α × State} {s : State} {c : Prop} {d : Decidable c} (hs : s.MemWf) (hx : s.MemWf → x.2.MemWf)
    (hy : s.MemWf → y.2.MemWf) : (if c then x else y).2.MemWf := (hx hs).ite2 (hy hs)

end

end Sys2Proof.Machine
end

section
/-! SUPPORT. The canonical form through: the operations that every family shares: reading and writing registers, counters and outputs, time, free
values, alarms (R399), the risk value (R348, R349) and log records (R402 to R408). -/

namespace Sys2Proof.Machine
open Sys2Proof

section
variable {s : State} (hs : s.MemWf)
include hs

/-! ### Registers -/

theorem State.MemWf.setReg {r : RegName} {i j v : Nat} : (s.setReg r i j v).MemWf :=
  hs.withRegs (setReg_rising · ..)

theorem State.MemWf.setFld {f : Field} {i j v : Nat} : (s.setFld f i j v).MemWf :=
  hs.setReg

theorem State.MemWf.bump {r : RegName} {i j n : Nat} : (s.bump r i j n).MemWf :=
  hs.setReg

theorem State.MemWf.bumpFld {f : Field} {i j n : Nat} : (s.bumpFld f i j n).MemWf :=
  hs.setFld

theorem State.MemWf.writeMasked {r : RegName} {i j v : Nat} : (s.writeMasked r i j v).MemWf :=
  hs.setReg

theorem State.MemWf.clearSelected {rs : List RegName} {i v : Nat} : (s.clearSelected rs i v).MemWf :=
  hs.foldl fun hu => hu.setReg.ite hu

/-! ### Outputs and free values -/

theorem State.MemWf.emit {o : Out} : (s.emit o).MemWf :=
  hs.upd

theorem State.MemWf.fresh : s.fresh.2.MemWf :=
  hs.upd

theorem State.MemWf.freshBytes {n : Nat} : (s.freshBytes n).2.MemWf :=
  hs.upd

/-! ### Time -/

theorem State.MemWf.now : s.now.2.MemWf :=
  hs.fresh

/-! ### Contexts -/

theorem State.MemWf.setStep {p c : Nat} {r : StepRec} : (s.setStep p c r).MemWf :=
  hs.upd

/-! ### Links -/

theorem State.MemWf.setPort {l : Nat} {x : Port} : (s.setPort l x).MemWf :=
  hs.upd

theorem State.MemWf.pump {l : Nat} : (s.pump l).MemWf :=
  hs.upd

theorem State.MemWf.sendFlit {l : Nat} {b : FlitBody} : (s.sendFlit l b).MemWf :=
  hs.setPort.pump

theorem State.MemWf.enqueue {l cls : Nat} {pk : Packet} {sealed : List Byte} : (s.enqueue l cls pk sealed).MemWf :=
  hs.setPort.pump

/-! ### Selvage packets to the twin (R339, R340) -/

theorem State.MemWf.sendSelvage {type job commit w2 offset arg : Nat} {payload : List Byte} :
    (s.sendSelvage type job commit w2 offset arg payload).MemWf := by
  unfold State.sendSelvage
  extract_lets
  split
  · exact hs.ite (hs.upd.bump.upd.ite hs.upd.bump).enqueue
  · exact hs

theorem State.MemWf.sendFlush : s.sendFlush.MemWf :=
  (hs.bump.foldl (·.sendSelvage)).ite hs

/-! ### The risk value -/

theorem State.MemWf.riskFollow : s.riskFollow.MemWf :=
  hs.ite (hs.setFld.setFld.sendFlush.ite hs.setFld.setFld)

/-! ### Alarms -/

theorem State.MemWf.alarm {cls : Nat} : (s.alarm cls).MemWf :=
  (hs.now.setReg.ite hs.now).setReg.setReg.setReg.branch id (·.upd.riskFollow)

/-! ### Log records -/

theorem State.MemWf.logLoss {ring : Nat} : (s.logLoss ring).MemWf :=
  (hs.bump.ite hs.bump).alarm

theorem State.MemWf.stage {r : LogRec} : (s.stage r).MemWf :=
  hs.upd.ite hs.logLoss

theorem State.MemWf.writeEntry {r : LogRec} : (s.writeEntry r).MemWf :=
  hs.stage

theorem State.MemWf.coalesceRec {r : LogRec} : (s.coalesceRec r).MemWf := by
  unfold State.coalesceRec
  split
  · exact hs.upd
  · split
    · exact hs.upd
    · exact hs.upd.ite hs.writeEntry.upd

theorem State.MemWf.incidentCheck : s.incidentCheck.MemWf :=
  hs.setFld.alarm.ite hs

theorem State.MemWf.logRec {ring kind source : Nat} {body : List Byte} : (s.logRec ring kind source body).MemWf :=
  (hs.now.upd.coalesceRec.ite hs.now.upd.stage).incidentCheck

theorem State.MemWf.trace {ring b source : Nat} {body : List Byte} : (s.trace ring b source body).MemWf :=
  (((hs.upd.upd.bump.ite hs.upd.upd.bump).incidentCheck.ite hs.upd.upd.now.stage.incidentCheck).ite hs.upd).ite hs

theorem State.MemWf.logBoth {p kind : Nat} {body tenantBody : List Byte} : (s.logBoth p kind body tenantBody).MemWf :=
  hs.logRec.logRec

/-! ### Accesses through a BAR -/

theorem State.MemWf.viaTenant {bar : Bar} {f : Nat → Nat → State} (hf : ∀ {p v : Nat}, (f p v).MemWf) : (s.viaTenant bar f).MemWf := by
  refine hs.ite ?_
  cases bar with
  | operator => exact hs
  | tenant p ide => exact hf.ite hs.bump.alarm
  | virtual p v ide => exact hf.ite hs.bump.alarm

theorem State.MemWf.viaPhysical {bar : Bar} {f : Nat → State} (hf : ∀ {p : Nat}, (f p).MemWf) : (s.viaPhysical bar f).MemWf :=
  hs.viaTenant (hf.ite hs)

end

end Sys2Proof.Machine
end

section
/-! SUPPORT. The canonical form through: operating profiles, roles and clocks (R27 to R40), and the forcing of R39 and its end (R421). -/

namespace Sys2Proof.Machine
open Sys2Proof

section
variable {s : State} (hs : s.MemWf)
include hs

/-! ### What a change would give -/

theorem State.MemWf.profileResult {r : Nat} : (s.profileResult r).MemWf :=
  hs.setFld

theorem State.MemWf.requestChange : s.requestChange.MemWf :=
  hs.upd.setFld.profileResult.ite (hs.upd.setFld.profileResult.ite hs.upd.setFld)

theorem State.MemWf.traceVote {r : RegName} {i v : Nat} : (s.traceVote r i v).MemWf :=
  hs.trace

theorem State.MemWf.writeProfile {v : Nat} : (s.writeProfile v).MemWf :=
  hs.traceVote.profileResult.ite (hs.traceVote.profileResult.ite hs.traceVote.setFld.requestChange)

theorem State.MemWf.writeRole {p v : Nat} : (s.writeRole p v).MemWf :=
  hs.traceVote.setFld.branch id (·.setFld.requestChange.ite hs.traceVote.profileResult)

theorem State.MemWf.writeLimit {p v : Nat} : (s.writeLimit p v).MemWf :=
  hs.traceVote.setFld.ite hs.traceVote

/-! ### Clocks -/

theorem State.MemWf.retarget : s.retarget.MemWf :=
  hs.foldl fun hu => hu.ite hu.upd.setFld

/-! ### Forcing (R39, R421) -/

theorem State.MemWf.forceClock {cause : Nat} : (s.forceClock cause).MemWf :=
  hs.setFld.setFld.retarget

theorem State.MemWf.releaseForce : s.releaseForce.MemWf :=
  hs.setFld.setFld.ite hs.setFld

/-! ### The pick boundary -/

theorem State.MemWf.applyProfile : s.applyProfile.MemWf :=
  hs.ite ((hs.ite hs.setFld.profileResult).ite (hs.upd.setFld.setFld.profileResult.ite (hs.upd.setFld.setFld.profileResult.foldl (·.setFld))))

theorem State.MemWf.profileBoundary : s.profileBoundary.MemWf :=
  hs.ite (hs.releaseForce.ite hs.applyProfile).retarget

end

end Sys2Proof.Machine
end

section
/-! SUPPORT. The canonical form through: the device-side code of HBM blocks (R300, R301), the row tracker and soft repair (R309 to R311), and
reading one block (R302). A stored block holds its data, its POISON, and the bits that have turned since it was written; its code is valid for
what was written, so what the decoder finds depends on those bits alone. -/

namespace Sys2Proof.Machine
open Sys2Proof

section
variable {s : State} (hs : s.MemWf)
include hs

/-! ### Addresses (R293) -/

theorem State.MemWf.hbmEvent {a kind req lane : Nat} : (s.hbmEvent a kind req lane).MemWf :=
  hs.now.setReg.setReg.setReg.logRec

/-! ### Row repair (R309 to R311) -/

theorem State.MemWf.putRepair {t : Track} {v : Nat} {u : State} (e : s.putRepair t v = some u) : u.MemWf := by
  obtain ⟨x, -, rfl⟩ := Option.map_eq_some_iff.mp e
  exact hs.setReg.setReg

theorem State.MemWf.repairRowNow {t : Track} : (s.repairRowNow t).MemWf :=
  hs.ite (((hs.getD hs.putRepair).ite hs).alarm.logRec.ite hs.upd)

theorem State.MemWf.trackRow {a : Nat} : (s.trackRow a).MemWf :=
  hs.upd.repairRowNow.ite hs.upd

theorem State.MemWf.hitLanes {st ch : Nat} {lanes : List Nat} : (s.hitLanes st ch lanes).MemWf :=
  hs.upd

/-! ### One block (R302) -/

theorem State.MemWf.readBlock {req b : Nat} : (s.readBlock req b).2.2.MemWf := by
  unfold State.readBlock
  extract_lets
  split
  · exact hs.bump.hbmEvent.alarm.repairRowNow
  · next e places _ =>
    cases places with
    | nil => exact hs.bump.hbmEvent.ite22 hs
    | cons p ps => exact hs.bump.hbmEvent.hitLanes.trackRow.branch22 (·.bump.hbmEvent) id

theorem State.MemWf.turn {b : Nat} {d : Damage} : (s.turn b d).MemWf :=
  hs.upd

/-! ### The beam store's cache of HBM (R323) -/

theorem State.MemWf.reline {line : Nat} {f : Line → Option Line} : (s.reline line f).MemWf :=
  hs.upd

theorem State.MemWf.dropLine {line : Nat} : (s.dropLine line).MemWf :=
  hs.reline

theorem State.MemWf.dropLines {hit : Nat → Bool} : (s.dropLines hit).MemWf :=
  hs.upd

theorem State.MemWf.agree {b : Nat} {poison : Bool} : (s.agree b poison).MemWf :=
  hs.ite hs.reline

theorem State.MemWf.touch {hint line : Nat} {got : List (Nat × List Byte)} : (s.touch hint line got).MemWf := by
  unfold State.touch
  extract_lets
  split
  · exact hs.upd.ite (hs.ite hs.upd)
  · exact hs.ite hs.upd

theorem State.MemWf.putBlock {b : Nat} {data : List Byte} {poison : Bool} : (s.putBlock b data poison).MemWf := by
  obtain ⟨-, others⟩ := hs.agree (b := b) (poison := poison)
  exact ⟨writeBytes_wf hs.left .., others⟩

end

end Sys2Proof.Machine
end

section
/-! SUPPORT. The canonical form through: where operands lie and who may reach them: address forms (R239), bobbin windows (R240), pattern and
board-tier cards (R314, R315, R327), HBM blocks with their poison and retirement (R302, R303, R312), and tile descriptors (R241). -/

namespace Sys2Proof.Machine
open Sys2Proof

section
variable {s : State} (hs : s.MemWf)
include hs

/-! ### HBM -/

theorem State.MemWf.hbmCheck {w : Who} {write : Bool} {a n : Nat} : (s.hbmCheck w write a n).2.MemWf := by
  unfold State.hbmCheck
  split
  · exact hs
  · split
    · exact hs
    · split
      · exact hs.bump.hbmEvent
      · exact hs

theorem State.MemWf.deliver {req b : Nat} : (s.deliver req b).2.2.MemWf := by
  unfold State.deliver
  split
  · exact hs
  · exact hs.ite22 hs.readBlock

theorem State.MemWf.hbmTake {req hint a n : Nat} : (s.hbmTake req hint a n).2.2.MemWf := by
  refine State.MemWf.both22 (hs.foldl22 fun hu => ?_)
  split
  next e => exact (hu.foldl2_eq e (·.deliver)).branch id (·.touch)

theorem State.MemWf.hbmReadAs {hint : Nat} {w : Who} {a n : Nat} : (s.hbmReadAs hint w a n).2.2.MemWf := by
  unfold State.hbmReadAs
  split
  · exact (hs.hbmCheck.of2 ‹_›).hbmTake
  · exact hs.hbmCheck.of2 ‹_›

theorem State.MemWf.hbmRead {w : Who} {a n : Nat} : (s.hbmRead w a n).2.2.MemWf :=
  hs.hbmReadAs

theorem State.MemWf.poisonBlocks {bs : List Nat} : (s.poisonBlocks bs).MemWf :=
  hs.foldl (·.putBlock)

theorem State.MemWf.hbmStore {req a : Nat} {bytes : List Byte} : (s.hbmStore req a bytes).2.MemWf := by
  unfold State.hbmStore
  extract_lets
  split
  next e =>
    refine State.MemWf.poisonBlocks (State.MemWf.withHbm ?_ (writeBytes_wf · ..))
    exact ((hs.foldl2_eq e fun hu => hu.readBlock.branch2 (·.putBlock) id).foldl (·.upd)).foldl (·.agree)

theorem State.MemWf.hbmWrite {w : Who} {a : Nat} {bytes : List Byte} : (s.hbmWrite w a bytes).2.MemWf := by
  unfold State.hbmWrite
  split
  · exact (hs.hbmCheck.of2 ‹_›).hbmStore
  · exact hs.hbmCheck.of2 ‹_›

/-! ### The board tier -/

theorem State.MemWf.boardCount {r : RegName} {a n : Nat} : (s.boardCount r a n).MemWf :=
  hs.foldl (·.bump)

theorem State.MemWf.boardRead {w : Who} {a n : Nat} : (s.boardRead w a n).2.2.MemWf := by
  unfold State.boardRead
  split
  · exact hs.boardCount
  · exact hs

theorem State.MemWf.boardWrite {w : Who} {a : Nat} {bytes : List Byte} : (s.boardWrite w a bytes).2.MemWf := by
  unfold State.boardWrite
  split
  · refine State.MemWf.boardCount (hs.withBoard fun h => ?_)
    exact List.foldlRecOn _ _ h fun _ hm _ _ => writeBytes_wf hm ..
  · exact hs

/-! ### Addresses of programs -/

theorem State.MemWf.readLoc {p c : Nat} {l : Loc} {n : Nat} : (s.readLoc p c l n).2.2.MemWf := by
  unfold State.readLoc
  split
  · exact hs.ite22 hs
  · exact hs.ite22 hs
  · exact hs.hbmRead
  · exact hs.boardRead
  · exact hs

theorem State.MemWf.writeLoc {p c : Nat} {l : Loc} {bytes : List Byte} : (s.writeLoc p c l bytes).2.MemWf := by
  cases l with
  | bobbin e off => exact State.MemWf.ite2 (hs.withBobbin (writeBytes_wf · ..)) hs
  | beam off => exact State.MemWf.ite2 (hs.withBeam (writeBytes_wf · ..)) hs
  | hbm a => exact hs.hbmWrite
  | board a => exact hs.boardWrite
  | bad => exact hs

end

end Sys2Proof.Machine
end

section
/-! SUPPORT. The canonical form through: the treadle sequencer's shared operations: queues and their completion records (R268, R274), knots
(R277), and how a program state waits, meets an exception and ends (R246, R247, R272). -/

namespace Sys2Proof.Machine
open Sys2Proof

section
variable {s : State} (hs : s.MemWf)
include hs

/-! ### Program states -/

theorem State.MemWf.setProg {k : Nat} {g : Prog} : (s.setProg k g).MemWf :=
  hs.upd

/-! ### Queues -/

theorem State.MemWf.setQueue {p q : Nat} {x : Queue} : (s.setQueue p q x).MemWf :=
  hs.upd

theorem State.MemWf.refreshQ {p q : Nat} : (s.refreshQ p q).MemWf :=
  hs.setFld

theorem State.MemWf.queueError {p q err : Nat} : (s.queueError p q err).MemWf :=
  hs.setFld.setFld

theorem State.MemWf.progress {p c : Nat} : (s.progress p c).MemWf :=
  hs.bump

theorem State.MemWf.putRecord {p q a : Nat} {bytes : List Byte} : (s.putRecord p q a bytes).2.MemWf :=
  State.MemWf.ite2 (hs.withHost (writeBytes_wf · ..)) hs.hbmWrite

theorem State.MemWf.recordWritten {p q : Nat} {cmd : Cmd} {st : Status} {bytes : List Byte} : (s.recordWritten p q cmd st bytes).MemWf :=
  ((hs.setQueue.bump.ite hs.setQueue.bump.bump).branch (·.emit) id).trace.progress

theorem State.MemWf.complete {p q : Nat} {cmd : Cmd} {st : Status} {flags engine result : Nat} :
    (s.complete p q cmd st flags engine result).MemWf := by
  unfold State.complete
  extract_lets
  split
  extract_lets
  refine State.MemWf.refreshQ ?_
  split
  · exact (hs.setQueue.putRecord.of2 ‹_›).recordWritten
  · exact (hs.setQueue.putRecord.of2 ‹_›).queueError

theorem State.MemWf.completeBare {p q : Nat} {cmd : Cmd} {st : Status} : (s.completeBare p q cmd st).MemWf :=
  hs.complete

theorem State.MemWf.setCmd {p q : Nat} {cmd : Cmd} : (s.setCmd p q cmd).MemWf :=
  hs.setQueue.refreshQ

theorem State.MemWf.disableQueue {p q : Nat} : (s.disableQueue p q).MemWf :=
  (hs.setFld.foldl (·.completeBare)).setFld.refreshQ

/-! ### The end of a program -/

theorem State.MemWf.copyEnded {k : Nat} {g : Prog} {st : Status} {result : Nat} : (s.copyEnded k g st result).MemWf :=
  hs.setQueue

theorem State.MemWf.endCheck {k : Nat} : (s.endCheck k).MemWf := by
  unfold State.endCheck
  split
  · exact hs
  · split
    · split
      · exact hs.upd.copyEnded
      · exact hs.upd.copyEnded
      · exact hs
    · exact hs

theorem State.MemWf.settleOne {k : Nat} : (s.settleOne k).MemWf := by
  unfold State.settleOne
  split
  · exact hs
  · exact (hs.setProg.ite hs).endCheck

theorem State.MemWf.settle : s.settle.MemWf :=
  hs.foldl (·.settleOne)

theorem State.MemWf.raise {k : Nat} {t : Trap} : (s.raise k t).MemWf := by
  unfold State.raise
  split
  · exact hs
  · exact hs.setProg.endCheck

theorem State.MemWf.killAt {k : Nat} {st : Status} {op : Nat} : (s.killAt k st op).MemWf := by
  unfold State.killAt
  split
  · exact hs
  · exact hs.upd.copyEnded

theorem State.MemWf.killProg {k : Nat} {st : Status} : (s.killProg k st).MemWf :=
  hs.fresh.killAt

/-! ### Knots -/

theorem State.MemWf.releaseKnot {p k : Nat} : (s.releaseKnot p k).MemWf :=
  (hs.foldl fun hu => hu.completeBare.ite hu).settle

theorem State.MemWf.knotTo {p k v : Nat} : (s.knotTo p k v).MemWf :=
  (hs.setReg.emit.ite hs.setReg).releaseKnot

theorem State.MemWf.knotAdd {p k v : Nat} : (s.knotAdd p k v).MemWf :=
  (hs.setFld.ite hs).knotTo

/-! ### Asynchronous operations -/

theorem State.MemWf.startAsync {o : AsyncOp} : (s.startAsync o).MemWf :=
  hs.upd

theorem State.MemWf.tellOwner {o : Owner} {st : Status} : (s.tellOwner o st).MemWf := by
  unfold State.tellOwner
  split
  · exact hs
  · split
    · exact hs.completeBare
    · exact hs
  · split
    · exact hs
    · exact hs.setProg

theorem State.MemWf.endAsync {o : AsyncOp} {st : Status} {signal : Bool} : (s.endAsync o st signal).MemWf := by
  refine State.MemWf.settle ?_
  cases o.knot with
  | none => exact hs.upd.tellOwner
  | some k => exact hs.upd.tellOwner.branch (·.knotAdd) id

end

end Sys2Proof.Machine
end

section
/-! SUPPORT. The canonical form through: weft packets: their fields (R177), checksum (R180), checks on arrival (R179), replies and sending. -/

namespace Sys2Proof.Machine
open Sys2Proof

section
variable {s : State} (hs : s.MemWf)
include hs

/-! ### Sending -/

theorem State.MemWf.sendPacket {k : Packet} {op fails : Nat} : (s.sendPacket k op fails).MemWf :=
  hs.ite ((hs.upd.ite hs.upd.upd).branch (·.upd) (·.enqueue))

theorem State.MemWf.reply {k : Packet} {st : Status} : (s.reply k st).MemWf :=
  hs.ite hs.sendPacket

/-! ### Checks on arrival (R179) -/

theorem State.MemWf.tagCheck {space : Nat} {k : Packet} : (s.tagCheck space k).2.MemWf := by
  unfold State.tagCheck
  cases s.keySet (pkJob k) with
  | none => exact hs
  | some key =>
    refine hs.ite2 ?_
    extract_lets
    split
    · exact hs.ite hs.upd
    · exact hs.ite2 hs.upd

theorem State.MemWf.owe {l : Nat} {k : Packet} : (s.owe l k).MemWf :=
  hs.setPort

theorem State.MemWf.arrival {k : Packet} : (s.arrival k).2.MemWf := by
  unfold State.arrival
  split
  · exact hs.upd
  · exact (hs.owe.tagCheck.ite hs.owe.tagCheck.bump).ite2 hs

theorem State.MemWf.arrive {k : Packet} : (s.arrive k).2.MemWf := by
  unfold State.arrive
  split
  have ha := hs.arrival.of2 ‹_›
  exact ha.ite2 (ha.reply.ite2 (ha.reply.ite2 (ha.reply.ite2 (ha.bump.reply.ite2 ha))))

/-- The state in which a packet that has arrived is taken. -/
theorem State.MemWf.arrive_some {k : Packet} {u v : State} (e : s.arrive k = (some u, v)) : u.MemWf := by
  unfold State.arrive at e
  split at e
  have ha := hs.arrival.of2 ‹_›
  split_ifs at e <;> simp at e
  obtain ⟨rfl, -⟩ := e
  exact ha

theorem State.MemWf.receive {k : Packet} {f : State → State} (hf : ∀ {u : State}, u.MemWf → (f u).MemWf) : (s.receive k f).MemWf := by
  unfold State.receive
  split
  · exact hf (hs.arrive_some ‹_›)
  · exact hs.arrive.of2 ‹_›

end

end Sys2Proof.Machine
end

section
/-! SUPPORT. The canonical form through: the end of a step: veto and abort (R226, R227, R450), the commit's messages to the home (R221, R279), and
the fault report (R199). -/

namespace Sys2Proof.Machine
open Sys2Proof

section
variable {s : State} (hs : s.MemWf)
include hs

/-! ### Peer table and exponent planes (R201) -/

theorem State.MemWf.peerRow {p c red : Nat} : (s.peerRow p c red).2.2.MemWf := by
  unfold State.peerRow
  extract_lets
  split
  · exact hs
  · split
    · exact (hs.hbmRead.of22 ‹_›).branch22 id id
    · exact hs.hbmRead.of22 ‹_›

theorem State.MemWf.peerList {p c off n : Nat} : (s.peerList p c off n).2.2.MemWf := by
  unfold State.peerList
  extract_lets
  split
  · exact hs
  · split
    · exact hs
    · split
      · exact hs.hbmRead.of22 ‹_›
      · exact hs.hbmRead.of22 ‹_›

theorem State.MemWf.planeRead {p c : Nat} {r : PeerRow} {copy b n : Nat} : (s.planeRead p c r copy b n).2.2.MemWf := by
  unfold State.planeRead
  split
  · exact hs
  · split
    · exact hs
    · split
      · exact hs.hbmRead.of22 ‹_›
      · exact hs.hbmRead.of22 ‹_›

theorem State.MemWf.planeWrite {p c : Nat} {r : PeerRow} {copy : Nat} {vs : List (Nat × Int)} : (s.planeWrite p c r copy vs).2.MemWf := by
  refine State.MemWf.ite2 hs (hs.foldl2 fun hu => ?_)
  split
  · exact State.MemWf.hbmWrite hu
  · exact hu

theorem State.MemWf.calibMarks {p c : Nat} {r : PeerRow} : (s.calibMarks p c r).2.2.MemWf := by
  unfold State.calibMarks
  split
  · exact hs
  · split
    · exact hs.hbmRead.of22 ‹_›
    · exact hs.hbmRead.of22 ‹_›

theorem State.MemWf.setCalib {p c : Nat} {r : PeerRow} {copy v : Nat} : (s.setCalib p c r copy v).MemWf := by
  unfold State.setCalib
  split
  · exact (hs.calibMarks.of22 ‹_›).hbmWrite
  · exact hs.calibMarks.of22 ‹_›

/-! ### Commit traffic and slots -/

theorem State.MemWf.sendCommit {p c op dst step extra : Nat} {payload : List Byte} : (s.sendCommit p c op dst step extra payload).MemWf :=
  hs.sendPacket

theorem State.MemWf.sendVeto {p c cause : Nat} : (s.sendVeto p c cause).MemWf :=
  hs.sendCommit

theorem State.MemWf.slotTo {p slot st : Nat} : (s.slotTo p slot st).MemWf :=
  hs.setFld.trace

theorem State.MemWf.setSlot {slot : Nat} {x : Slot} : (s.setSlot slot x).MemWf :=
  hs.upd

theorem State.MemWf.abortSlots {p c step : Nat} : (s.abortSlots p c step).MemWf :=
  hs.foldl fun hu => hu.slotTo.ite hu

theorem State.MemWf.saveLayers {p c : Nat} : (s.saveLayers p c).MemWf :=
  hs.setStep

theorem State.MemWf.wideRead {who : Who} {w : WideArea} {half off n : Nat} : (s.wideRead who w half off n).2.2.MemWf := by
  refine hs.foldl22 fun hu => ?_
  split
  · exact State.MemWf.hbmRead hu
  · exact hu

theorem State.MemWf.wideWrite {who : Who} {w : WideArea} {half off : Nat} {bytes : List Byte} : (s.wideWrite who w half off bytes).2.MemWf := by
  refine hs.foldl22 fun hu => ?_
  split
  · exact State.MemWf.hbmWrite hu
  · exact hu

theorem State.MemWf.releaseWide {p c l : Nat} {keep : Bool} : (s.releaseWide p c l keep).MemWf := by
  unfold State.releaseWide
  split
  · exact hs
  · exact hs.setFld.upd

theorem State.MemWf.followWide {p c : Nat} {wide : List Nat} : (s.followWide p c wide).MemWf :=
  hs.foldl fun hu => hu.foldl fun hu => hu.ite hu.setFld

theorem State.MemWf.restoreLayers {p c : Nat} : (s.restoreLayers p c).MemWf :=
  hs.foldl fun hu => (hu.releaseWide.ite hu).setFld.setFld.setFld.setFld.setReg.setFld.setFld.setReg

theorem State.MemWf.spoilSlots {p : Nat} {es : List Nat} : (s.spoilSlots p es).MemWf :=
  hs.foldl fun hu => (hu.withHbm (fillBytes_wf · ..)).upd

theorem State.MemWf.spoilBackSlots {p c : Nat} : (s.spoilBackSlots p c).MemWf :=
  hs.spoilSlots.setFld.ite hs.spoilSlots

theorem State.MemWf.restoreBacks {p c : Nat} : (s.restoreBacks p c).MemWf :=
  hs.foldl (·.peerRow.planeWrite.setCalib)

theorem State.MemWf.clearWatch {p c : Nat} : (s.clearWatch p c).MemWf :=
  hs.upd

theorem State.MemWf.stepEnd {p c : Nat} {st : Status} {cause : Nat} : (s.stepEnd p c st cause).MemWf :=
  hs.logRec.trace

theorem State.MemWf.setStepStatus {p c state result cause : Nat} : (s.setStepStatus p c state result cause).MemWf :=
  hs.setReg

theorem State.MemWf.endStep {p c : Nat} {st : Status} {cause : Nat} : (s.endStep p c st cause).MemWf :=
  hs.spoilBackSlots.restoreBacks.restoreLayers.clearWatch.followWide.abortSlots.setStep.setReg.setStepStatus.bump.stepEnd.settle

theorem State.MemWf.vetoStep {p c cause : Nat} : (s.vetoStep p c cause).MemWf :=
  hs.sendVeto.endStep.ite (hs.sendVeto.ite hs)

theorem State.MemWf.abortStep {p c cause : Nat} : (s.abortStep p c cause).MemWf :=
  hs.sendVeto.endStep.ite hs

theorem State.MemWf.dropStep {p c cause : Nat} : (s.dropStep p c cause).MemWf :=
  hs.ite (hs.sendVeto.endStep.ite hs.endStep)

theorem State.MemWf.redFault {p dev kind red elem block step : Nat} : (s.redFault p dev kind red elem block step).MemWf :=
  hs.ite hs.setReg.setReg.setReg.setReg

theorem State.MemWf.logRedFault {p dev kind red elem block step : Nat} : (s.logRedFault p dev kind red elem block step).MemWf :=
  hs.logRec

end

end Sys2Proof.Machine
end

section
/-! SUPPORT. The canonical form through: what the rows of Onaile share: instructions, fetch, hazards and units (R238, R243 to R246), and how a
unit's instruction completes. -/

namespace Sys2Proof.Machine
open Sys2Proof

section
variable {s : State} (hs : s.MemWf)
include hs

/-! ### Fetch (R238) -/

theorem State.MemWf.fetch {p e : Nat} {g : Prog} : (s.fetch p e g).2.2.MemWf := by
  unfold State.fetch
  extract_lets
  split
  · exact hs
  · split
    · exact (hs.readLoc.of22 ‹_›).upd
    · exact hs.readLoc.of22 ‹_›

theorem State.MemWf.emptyCache {n : Nat} : (s.emptyCache n).MemWf :=
  hs.upd

/-! ### Hazards and units -/

theorem State.MemWf.startUnit {n u : Nat} : (s.startUnit n u).MemWf := by
  unfold State.startUnit
  split
  · split
    · exact hs.upd.ite hs
    · exact hs
  · exact hs

theorem State.MemWf.giveUnit {i : Iss} {u : Nat} {st : Status} {flags : Nat} {reads writes : List (Nat × Nat)} {posts : List Post} :
    (s.giveUnit i u st flags reads writes posts).MemWf :=
  hs.upd

theorem State.MemWf.giveConverter {i : Iss} {reads writes : List (Nat × Nat)} {posts : List Post} {w : CnvWork} :
    (s.giveConverter i reads writes posts w).MemWf :=
  hs.upd.startUnit

theorem State.MemWf.bobWrite {i : Iss} {off : Nat} {bytes : List Byte} : (s.bobWrite i off bytes).MemWf :=
  hs.withBobbin (writeBytes_wf · ..)

/-! ### Completion -/

theorem State.MemWf.post {x : Post} : (s.post x).MemWf := by
  unfold State.post
  split
  · exact hs.bump.upd.ite hs.bump
  · exact hs.bumpFld
  · exact hs.upd.bumpFld.ite hs.upd
  · exact hs.ite hs.setReg

theorem State.MemWf.spoilDest {o : UnitOp} : (s.spoilDest o).MemWf :=
  hs.foldl fun hu => hu.freshBytes.withBobbin (writeBytes_wf · ..)

theorem State.MemWf.abortOps {dies : UnitOp → Bool} : (s.abortOps dies).MemWf :=
  hs.upd.foldl (·.spoilDest)

end

end Sys2Proof.Machine
end

section
/-! SUPPORT. The canonical form through: the forward array (R101 to R118) and the backward array with its reed transposer (R133 to R154). -/

namespace Sys2Proof.Machine
open Sys2Proof

section
variable {s : State} (hs : s.MemWf)
include hs

/-! ### Outputs -/

theorem State.MemWf.writeOut {i : Iss} {d : Desc} {ws : List (Nat × Nat × Nat)} : (s.writeOut i d ws).MemWf :=
  hs.foldl (·.bobWrite)

theorem State.MemWf.wideIndex {i : Iss} {w : WideArea} {f off : Nat} : (s.wideIndex i w f off).2.MemWf := by
  unfold State.wideIndex
  extract_lets
  split
  split
  · exact hs.fresh.of2 ‹_›
  · exact hs.fresh.of2 ‹_›

theorem State.MemWf.wideOperand {i : Iss} {layer : Nat} {d : Desc} : (s.wideOperand i layer d).2.2.MemWf := by
  unfold State.wideOperand
  -- The reading is left abstract: the kernel would otherwise begin to run it.
  obtain ⟨read, eread⟩ : ∃ read, read = State.wideRead := ⟨_, rfl⟩
  rw [← eread]
  cases s.wideAreaOf i.part i.ctx layer with
  | none => exact hs
  | some w =>
    refine hs.foldl22 fun hu => hu.ite22 ?_
    split
    have h := fun who half off n => (hu.wideIndex.of2 ‹_›).wideRead (who := who) (w := w) (half := half) (off := off) (n := n)
    rw [← eread] at h
    split
    · exact (h ..).of22 ‹_›
    · exact (h ..).of22 ‹_›

/-! ### FMUL -/

theorem State.MemWf.fmulWeights {i : Iss} : (s.fmulWeights i).2.2.MemWf :=
  hs.wideOperand.ite22 hs

/-! ### Backward instructions -/

theorem State.MemWf.bwdTiles {i : Iss} {op : BwdOp} : (s.bwdTiles i op).2.2.MemWf :=
  hs.wideOperand.ite22 hs

end

end Sys2Proof.Machine
end

section
/-! SUPPORT. The canonical form through: the heddle converter (R74 to R100): rotation, scales, outliers, packing and unpacking, for the engines
and for the batten's packing path. -/

namespace Sys2Proof.Machine
open Sys2Proof

section
variable {s : State} (hs : s.MemWf)
include hs

/-! ### The instructions -/

theorem State.MemWf.winWrite {b off : Nat} {bytes : List Byte} : (s.winWrite b off bytes).MemWf :=
  hs.withBobbin (writeBytes_wf · ..)

theorem State.MemWf.writePacked {b f at' : Nat} {plane : Option Nat} {t : Nat} {rows : List PackedRow} :
    (s.writePacked b f at' plane t rows).MemWf := by
  unfold State.writePacked
  refine hs.foldl fun hu => ?_
  extract_lets
  split
  · exact (hu.foldl (·.winWrite)).winWrite
  · exact hu.foldl (·.winWrite)

theorem State.MemWf.cnvTile {p b : Nat} {w : CnvWork} : (s.cnvTile p b w).2.MemWf :=
  ((hs.writePacked.foldl (·.post)).ite (hs.foldl (·.winWrite)).bump).fresh.bump

end

end Sys2Proof.Machine
end

section
/-! SUPPORT. The canonical form through: the reduction engine (R176 to R201, R286 to R288): slots, packets, exponent planes, sends. -/

namespace Sys2Proof.Machine
open Sys2Proof

section
variable {s : State} (hs : s.MemWf)
include hs

/-! ### Slots (R182 to R186) -/

theorem State.MemWf.openResult {p c t : Nat} : (s.openResult p c t).2.MemWf := by
  unfold State.openResult
  split
  · exact hs.peerRow
  · exact hs

theorem State.MemWf.dropFault {p dev red elem step : Nat} : (s.dropFault p dev red elem step).MemWf :=
  hs.redFault.logRedFault

theorem State.MemWf.openSlot {p c t : Nat} : (s.openSlot p c t).2.MemWf := by
  unfold State.openSlot
  split
  · extract_lets
    split
    · exact (hs.openResult.of2 ‹_›).upd.setSlot.setFld.slotTo.setFld.alarm.dropFault.vetoStep
    · exact (hs.openResult.of2 ‹_›).upd.setSlot.setFld.slotTo.setFld
  · exact (hs.openResult.of2 ‹_›).setFld

theorem State.MemWf.releaseSlot {p t : Nat} : (s.releaseSlot p t).2.MemWf :=
  hs.setFld.ite2 (hs.ite hs.slotTo).setSlot.setFld

theorem State.MemWf.sendExponents {p c t type : Nat} {vals : List Nat} : (s.sendExponents p c t type vals).MemWf :=
  (hs.peerRow.peerList.ite22 hs.peerRow).branch (·.vetoStep) (·.foldl (·.foldl (·.sendPacket)))

theorem State.MemWf.finishCalib {p c t : Nat} : (s.finishCalib p c t).MemWf :=
  hs.slotTo.setFld.sendExponents.ite hs

theorem State.MemWf.sumCheck {t : Nat} : (s.sumCheck t).MemWf := by
  unfold State.sumCheck
  split
  · exact hs
  · exact hs.ite (hs.bump.slotTo.setFld.sendExponents.ite hs.slotTo.setFld.bump.redFault.logRedFault.alarm.vetoStep)

/-! ### Matching (R189, R190) -/

theorem State.MemWf.answerHeld {p : Nat} {k : Packet} : (s.answerHeld p k).MemWf :=
  hs.bump.reply.ite hs.reply

theorem State.MemWf.holdPacket {p c : Nat} {k : Packet} : (s.holdPacket p c k).MemWf :=
  hs.answerHeld.ite hs.bump.upd

theorem State.MemWf.overDeliver {p c t : Nat} {k : Packet} : (s.overDeliver p c t k).MemWf :=
  hs.slotTo.redFault.logRedFault.vetoStep

theorem State.MemWf.addReduce {p c t : Nat} {k : Packet} : (s.addReduce p c t k).MemWf := by
  have h : ((s.bump .RED_RX_PACKETS p 0 1).bump .RED_RX_BLOCKS p 0 (pkLen k)).MemWf := hs.bump.bump
  unfold State.addReduce
  extract_lets n first a u code acc bad
  cases bad with
  | nil => exact h.peerRow.planeRead.upd
  | cons i is => exact State.MemWf.vetoStep (h.peerRow.planeRead.upd.bump.redFault.logRedFault.slotTo.alarm)

theorem State.MemWf.addCalib {p c t : Nat} {k : Packet} : (s.addCalib p c t k).MemWf :=
  hs.upd.setSlot.finishCalib

theorem State.MemWf.raiseDropped {p c : Nat} {k : Packet} : (s.raiseDropped p c k).MemWf :=
  hs.foldl fun hu => hu.bumpFld.overDeliver.ite hu.bumpFld.finishCalib

theorem State.MemWf.addDrop {p c : Nat} {k : Packet} : (s.addDrop p c k).MemWf :=
  hs.ite (hs.alarm.dropFault.vetoStep.ite hs.alarm.setStep.bump.raiseDropped)

theorem State.MemWf.obey {p c : Nat} {k : Packet} {v : Verdict} : (s.obey p c k v).MemWf := by
  unfold State.obey
  split
  · exact hs.bump
  · extract_lets
    refine State.MemWf.reply ?_
    split
    · exact hs.bump.bump
    · exact hs.bump
  · exact hs.holdPacket
  · exact hs.bump.reply
  · exact hs.reply
  · exact hs.overDeliver
  · exact hs.addReduce.ite hs.addCalib
  · exact hs.addDrop

theorem State.MemWf.matchRed {k : Packet} : (s.matchRed k).MemWf :=
  hs.foldl (·.obey)

theorem State.MemWf.release1 {h : Held} : (s.release1 h).MemWf :=
  hs.ite (hs.ite hs.upd.obey)

theorem State.MemWf.rematch {p c : Nat} : (s.rematch p c).MemWf :=
  hs.foldl (·.release1)

/-! ### Windows (R286, R287) -/

theorem State.MemWf.shortSlot {p c t : Nat} : (s.shortSlot p c t).MemWf :=
  hs.ite hs.setFld.bumpFld.logRec.alarm.slotTo.vetoStep

theorem State.MemWf.closeSlot {p c t : Nat} : (s.closeSlot p c t).MemWf :=
  hs.slotTo.rematch.shortSlot.ite hs

theorem State.MemWf.closeWindows {p : Nat} : (s.closeWindows p).MemWf :=
  (hs.foldl (·.setFld.setFld)).foldl fun hu => hu.foldl fun hu => hu.closeSlot.ite hu

/-! ### Exponents arriving (R184, R185) -/

theorem State.MemWf.saveBack {p c red : Nat} {row : PeerRow} {back : Nat} : (s.saveBack p c red row back).MemWf := by
  unfold State.saveBack
  extract_lets
  split
  · exact hs
  · split
    · split
      · exact ((hs.planeRead.of22 ‹_›).calibMarks.of22 ‹_›).setStep
      · exact (hs.planeRead.of22 ‹_›).calibMarks.of22 ‹_›
    · exact hs.planeRead.of22 ‹_›

theorem State.MemWf.fillBack {p c red : Nat} {row : PeerRow} : (s.fillBack p c red row).2.MemWf := by
  unfold State.fillBack
  extract_lets got all ph back
  refine State.MemWf.ite2 hs ?_
  split
  · extract_lets e1 known u
    have hu : u.MemWf := (hs.planeRead.of22 ‹_›).saveBack
    clear_value known
    cases known with
    | nil => exact hu.setCalib
    | cons e es =>
      dsimp only
      split
      · exact (hu.planeWrite.of2 ‹_›).setCalib
      · exact hu.planeWrite
  · exact hs.planeRead.of22 ‹_›

omit hs in
theorem State.MemWf.endTake {k : Packet} {x : Status × State} (hx : x.2.MemWf) : (State.endTake k x).MemWf :=
  hx.branch id (·.reply)

omit hs in
theorem State.MemWf.takeExpmax {k : Packet} {x : Status × State} {c : Nat × Nat} (hx : x.2.MemWf) : (State.takeExpmax k x c).2.MemWf :=
  hx.peerRow.branch2 id (·.setStep.fillBack)

theorem State.MemWf.matchExpmax {k : Packet} : (s.matchExpmax k).MemWf :=
  hs.reply.ite (hs.reply.ite (State.MemWf.endTake (hs.foldl2 State.MemWf.takeExpmax)))

theorem State.MemWf.fillFront {p c red : Nat} {row : PeerRow} : (s.fillFront p c red row).MemWf := by
  unfold State.fillFront
  extract_lets
  split
  · split
    · exact (hs.planeRead.of22 ‹_›).planeWrite.setStep.setCalib
    · exact hs.planeRead.of22 ‹_›
  · exact hs

omit hs in
theorem State.MemWf.takeExpset {k : Packet} {x : Status × State} {c : Nat × Nat} (hx : x.2.MemWf) : (State.takeExpset k x c).2.MemWf := by
  unfold State.takeExpset
  extract_lets
  split
  split
  · exact ((hx.peerRow.of22 ‹_›).planeWrite.of2 ‹_›).setStep.fillFront
  · exact (hx.peerRow.of22 ‹_›).planeWrite.of2 ‹_›

theorem State.MemWf.matchExpset {k : Packet} : (s.matchExpset k).MemWf :=
  hs.reply.ite (State.MemWf.endTake (hs.foldl2 State.MemWf.takeExpset))

/-! ### Gathering (R195) -/

theorem State.MemWf.copyWrite {w : Who} {p c e off : Nat} {bytes : List Byte} : (s.copyWrite w p c e off bytes).2.MemWf := by
  unfold State.copyWrite
  split
  · exact hs.wideWrite
  · exact hs.hbmWrite

theorem State.MemWf.copyRead {w : Who} {p c e off n : Nat} : (s.copyRead w p c e off n).2.2.MemWf := by
  unfold State.copyRead
  split
  · exact hs.wideRead
  · exact hs.hbmRead

theorem State.MemWf.gatherCheck {job : Nat} : (s.gatherCheck job).MemWf :=
  hs.foldl (·.setStep.knotAdd)

theorem State.MemWf.gatherWrite {w : Who} {dev p c e off : Nat} {bytes : List Byte} : (s.gatherWrite w dev p c e off bytes).2.MemWf := by
  unfold State.gatherWrite
  extract_lets
  split
  · exact hs.redFault.vetoStep
  · split
    · exact (hs.copyWrite.of2 ‹_›).setStep
    · exact hs.copyWrite.of2 ‹_›

omit hs in
theorem State.MemWf.takeGather {k : Packet} {x : Status × Nat × State} {c : Nat × Nat} (hx : x.2.2.MemWf) :
    (State.takeGather k x c).2.2.MemWf :=
  State.MemWf.foldl22 hx fun hu => hu.branch22 id (·.gatherWrite)

omit hs in
theorem State.MemWf.endGather {p : Nat} {k : Packet} {x : Status × Nat × State} (hx : x.2.2.MemWf) : (State.endGather p k x).MemWf :=
  hx.bump.branch (·.gatherCheck) (·.branch id (·.reply))

theorem State.MemWf.matchGather {k : Packet} : (s.matchGather k).MemWf := by
  unfold State.matchGather
  extract_lets cs step
  clear_value cs
  cases cs with
  | nil => exact hs.reply
  | cons c cs => exact hs.holdPacket.ite (hs.reply.ite (hs.bump.holdPacket.ite (State.MemWf.endGather (hs.foldl22 State.MemWf.takeGather))))

/-! ### Sending (R263, R288, R192) -/

theorem State.MemWf.sendDrops {p c red ord mark op : Nat} : (s.sendDrops p c red ord mark op).MemWf :=
  hs.foldl (·.sendPacket)

theorem State.MemWf.lateness {p c red : Nat} : (s.lateness p c red).2.MemWf := by
  unfold State.lateness
  extract_lets
  split
  · exact hs
  · exact hs.setStep

theorem State.MemWf.dropOnce {p c : Nat} {a : SendArgs} {mark : Nat} {o : AsyncOp} : (s.dropOnce p c a mark o).MemWf :=
  hs.startAsync.ite hs.startAsync.setStep.sendDrops

theorem State.MemWf.rsend {p c e : Nat} {a : SendArgs} {o : AsyncOp} : (s.rsend p c e a o).MemWf := by
  unfold State.rsend
  split
  split
  split
  have h := ((hs.peerRow.of22 ‹_›).calibMarks.of22 ‹_›).lateness.of2 ‹_›
  extract_lets
  refine h.dropOnce.ite ?_
  split
  · exact h.dropOnce
  · split
    · split
      · exact ((h.readLoc.of22 ‹_›).planeRead.of22 ‹_›).startAsync.bump.foldl (·.sendPacket)
      · exact ((h.readLoc.of22 ‹_›).planeRead.of22 ‹_›).startAsync
    · exact (h.readLoc.of22 ‹_›).startAsync

theorem State.MemWf.rscan {p c e : Nat} {a : SendArgs} {o : AsyncOp} : (s.rscan p c e a o).MemWf := by
  unfold State.rscan
  split
  split
  · exact ((hs.peerRow.of22 ‹_›).readLoc.of22 ‹_›).startAsync
  · exact ((hs.peerRow.of22 ‹_›).readLoc.of22 ‹_›).startAsync

theorem State.MemWf.rcalib {p c e : Nat} {a : SendArgs} {o : AsyncOp} : (s.rcalib p c e a o).MemWf := by
  unfold State.rcalib
  extract_lets
  split
  split
  · exact ((hs.peerRow.of22 ‹_›).readLoc.of22 ‹_›).startAsync.foldl (·.sendPacket)
  · exact ((hs.peerRow.of22 ‹_›).readLoc.of22 ‹_›).startAsync

/-! ### Replies (R181, R188, R263) -/

theorem State.MemWf.resend {x : Sent} {k : Packet} {fails : Nat} : (s.resend x k fails).MemWf :=
  hs.upd.sendPacket

theorem State.MemWf.rebounce {x : Sent} : (s.rebounce x).MemWf := by
  unfold State.rebounce
  split
  · exact hs.upd
  · exact hs.upd.sendPacket.ite (hs.upd.foldl (·.sendPacket))

theorem State.MemWf.resendBounced {p : Nat} : (s.resendBounced p).MemWf := by
  unfold State.resendBounced
  refine hs.foldl fun hu => ?_
  split
  · exact hu.rebounce.ite hu
  · exact hu

theorem State.MemWf.opStatus {id : Nat} {st : Status} : (s.opStatus id st).MemWf :=
  hs.upd

theorem State.MemWf.matchStatus {k : Packet} : (s.matchStatus k).MemWf := by
  unfold State.matchStatus
  split
  · exact hs
  · extract_lets
    split
    · refine hs.resend.ite ?_
      split
      · exact hs.upd.opStatus.alarm.vetoStep
      · exact hs.upd.opStatus.alarm.foldl (·.vetoStep)
    · split
      · split
        · exact hs.rebounce.ite hs.upd
        · exact hs.upd
      · split
        · split
          · exact hs.upd.endAsync
          · exact hs.upd
        · exact hs.upd.opStatus

/-! ### The commands -/

theorem State.MemWf.remoteAdd {k : Packet} : (s.remoteAdd k).MemWf :=
  hs.knotAdd.ite hs.reply

theorem State.MemWf.writeSlotCtrl {p slot v : Nat} : (s.writeSlotCtrl p slot v).MemWf := by
  unfold State.writeSlotCtrl
  split
  · exact ((hs.setFld.ite hs).openSlot.ite ((hs.setFld.ite hs).releaseSlot.ite (hs.setFld.ite hs))).ite hs
  · exact hs

theorem State.MemWf.writeClose {p w v : Nat} : (s.writeClose p w v).MemWf :=
  hs.setReg.setFld

end

end Sys2Proof.Machine
end

section
/-! SUPPORT. The canonical form through: the tension monitor's evaluation at a micro-step's close (R120 to R123, R155, R156), widening, and the
opening of a micro-step (R285). -/

namespace Sys2Proof.Machine
open Sys2Proof

section
variable {s : State} (hs : s.MemWf)
include hs

/-! ### Widening (R123, R124) -/

theorem State.MemWf.widen {p c l : Nat} : (s.widen p c l).2.MemWf :=
  hs.ite2 (hs.setFld.setFld.upd.ite2 hs.setFld.logRec.alarm)

theorem State.MemWf.battenLoad {p f : Nat} {t : Tile} : (s.battenLoad p f t).2.MemWf := by
  unfold State.battenLoad
  split
  · exact hs.bump.post
  · exact hs

theorem State.MemWf.wideRows {p c e t : Nat} : (s.wideRows p c e t).2.2.MemWf := by
  unfold State.wideRows
  extract_lets
  split
  · extract_lets
    split
    · exact hs.hbmRead.of22 ‹_›
    · exact hs.hbmRead.of22 ‹_›
  · split
    · exact (hs.hbmRead.of22 ‹_›).battenLoad.branch22 id id
    · exact hs.hbmRead.of22 ‹_›

theorem State.MemWf.packWide {w : WideArea} : (s.packWide w).2.MemWf := by
  refine hs.foldl2 fun hu => ?_
  split
  · split
    · exact ((State.MemWf.wideRows hu).of22 ‹_›).foldl (·.post) |>.wideWrite
    · exact (State.MemWf.wideRows hu).of22 ‹_›
  · exact hu

theorem State.MemWf.widened {w : WideArea} : (s.widened w).MemWf :=
  hs.setFld.setFld.bump.alarm.branch (·.followWide) id

/-! ### The evaluation (R120, R121, R155, R156) -/

theorem State.MemWf.meanSquare {grad : Bool} {p l : Nat} : (s.meanSquare grad p l).2.MemWf := by
  unfold State.meanSquare
  split
  exact State.MemWf.ite2 hs.fresh (State.MemWf.ite2 hs hs)

theorem State.MemWf.evalLayer {p c l : Nat} : (s.evalLayer p c l).2.MemWf := by
  unfold State.evalLayer
  extract_lets
  split
  split
  have h := (hs.meanSquare.of2 ‹_›).meanSquare.of2 ‹_›
  exact ((h.setReg.setReg.branch (·.bumpFld.bump) (·.setReg)).branch (·.bumpFld.bump) (·.setReg)).setFld.setFld.upd

theorem State.MemWf.evaluate {p c : Nat} : (s.evaluate p c).MemWf := by
  unfold State.evaluate
  split
  next e =>
    split
    next e' =>
      have h := (hs.foldl2_eq e (·.evalLayer)).foldl2_eq e' (·.widen)
      exact (h.branch (·.alarm.upd) id).branch (fun hu => ((hu.branch (·.bump) id).branch (·.bump) id).alarm.vetoStep) id

/-! ### Micro-steps -/

theorem State.MemWf.openMicro {p c : Nat} : (s.openMicro p c).MemWf :=
  (hs.foldl fun hu => hu.setFld.bump.ite hu).setStep

theorem State.MemWf.closeMicro {p c : Nat} : (s.closeMicro p c).MemWf :=
  hs.evaluate.openMicro

/-! ### The commands -/

theorem State.MemWf.writeReference {p layer : Nat} {grad : Bool} {v : Nat} : (s.writeReference p layer grad v).MemWf :=
  hs.setReg.ite hs

end

end Sys2Proof.Machine
end

section
/-! SUPPORT. The canonical form through: mirroring: what a context streams to its twin at a commit (R343 to R345, R353), and what the twin stores
and folds (R345, R347). -/

namespace Sys2Proof.Machine
open Sys2Proof

section
variable {s : State} (hs : s.MemWf)
include hs

/-! ### The sender (R344, R345) -/

theorem State.MemWf.decideMethod {p c e old : Nat} {full : Bool} : (s.decideMethod p c e old full).2.MemWf :=
  hs.setFld.ite2 (hs.setFld.setFld.upd.ite2 (hs.setFld.setFld.ite2 hs.setFld.setFld))

theorem State.MemWf.sendPart {p c e type off n sent : Nat} : (s.sendPart p c e type off n sent).2.MemWf := by
  unfold State.sendPart
  extract_lets
  split
  · exact (hs.hbmRead.of22 ‹_›).sendSelvage
  · exact hs.hbmRead.of22 ‹_›

theorem State.MemWf.sendEntry {p c e : Nat} {w : Sending} {sent : Nat} : (s.sendEntry p c e w sent).2.MemWf := by
  unfold State.sendEntry
  extract_lets
  split
  · exact hs
  · exact hs.foldl2 (·.sendPart)
  · exact hs.foldl2 (·.sendPart)

theorem State.MemWf.sendTail {p c sent : Nat} : (s.sendTail p c sent).MemWf :=
  hs.sendSelvage.sendSelvage.sendSelvage

theorem State.MemWf.streamCommit {p c : Nat} {old : Nat → Nat} : (s.streamCommit p c old).MemWf := by
  refine State.MemWf.ite ?_ hs
  extract_lets
  split
  next e =>
    have h := hs.foldl2_eq e (·.decideMethod)
    refine State.MemWf.ite ?_ h
    split
    next e => exact ((h.foldl2_eq e (·.sendEntry)).upd.branch (·.upd) id).sendTail

theorem State.MemWf.restream {p c : Nat} : (s.restream p c).MemWf := by
  refine State.MemWf.ite ?_ hs
  extract_lets u
  have hu : u.MemWf := hs.upd
  split
  next e => exact (hu.foldl2_eq e fun hv => hv.ite2 hv.sendEntry).upd.sendTail

theorem State.MemWf.stopStreams : s.stopStreams.MemWf :=
  hs.setPort.upd

theorem State.MemWf.streamFirst : s.streamFirst.MemWf :=
  hs.setPort

/-! ### The receiver (R345) -/

theorem State.MemWf.countRx {p c commit n : Nat} : (s.countRx p c commit n).MemWf :=
  hs.upd

/-! ### Folding (R347) -/

theorem State.MemWf.foldDelta {p c : Nat} {d : Delta} : (s.foldDelta p c d).MemWf := by
  unfold State.foldDelta
  extract_lets
  split
  · extract_lets
    split
    · split
      · exact (((hs.hbmRead.of22 ‹_›).boardWrite.of2 ‹_›).boardWrite.of2 ‹_›).upd
      · exact ((hs.hbmRead.of22 ‹_›).boardWrite.of2 ‹_›).boardWrite.of2 ‹_›
    · exact (hs.hbmRead.of22 ‹_›).boardWrite.of2 ‹_›
  · exact hs.hbmRead.of22 ‹_›

theorem State.MemWf.fold {p c top : Nat} : (s.fold p c top).MemWf :=
  (hs.foldl (·.foldDelta)).bump.upd

end

end Sys2Proof.Machine
end

section
/-! SUPPORT. The canonical form through: the step and its job-wide commit (R219 to R228): OPEN, COMMIT and VETO, the signal, the home's decision
and its twin's record, the member's outcome, and the flip. -/

namespace Sys2Proof.Machine
open Sys2Proof

section
variable {s : State} (hs : s.MemWf)
include hs

/-! ### OPEN, COMMIT, VETO (R220, R221, R226) -/

theorem State.MemWf.openStep {p c : Nat} : (s.openStep p c).MemWf :=
  hs.setReg.setStep.clearWatch.setStepStatus.openMicro.gatherCheck

theorem State.MemWf.openCmd {p c : Nat} : (s.openCmd p c).2.MemWf :=
  hs.openStep.ite2 hs.setFld

theorem State.MemWf.commitCmd {p c : Nat} : (s.commitCmd p c).2.MemWf :=
  hs.setStep.setFld.ite2 hs.setFld

theorem State.MemWf.vetoCmd {p c : Nat} : (s.vetoCmd p c).2.MemWf :=
  hs.vetoStep

theorem State.MemWf.stepWrite {bar : Bar} {c : Nat} {f : State → Nat → Nat → Status × State} (hf : ∀ {p : Nat}, (f s p c).2.MemWf) :
    (s.stepWrite bar c f).MemWf :=
  hs.viaPhysical (hf.ite hs)

theorem State.MemWf.writeVeto {p v : Nat} : (s.writeVeto p v).MemWf :=
  (hs.foldl (·.vetoStep)).ite hs

/-! ### The home (R222, R225, R279) -/

theorem State.MemWf.setHome {h : Home} : (s.setHome h).MemWf :=
  hs.upd

theorem State.MemWf.sendOutcome {h : Home} {m : Nat × Nat} : (s.sendOutcome h m).MemWf := by
  unfold State.sendOutcome
  split
  · exact hs
  · exact hs.sendPacket

theorem State.MemWf.sendOutcomes {h : Home} : (s.sendOutcomes h).MemWf :=
  hs.setHome.foldl (·.sendOutcome)

theorem State.MemWf.unrecorded {h : Home} : (s.unrecorded h).MemWf :=
  hs.bump.sendOutcomes

theorem State.MemWf.decide {h : Home} {dec flip cause : Nat} : (s.decide h dec flip cause).MemWf :=
  hs.setHome.sendSelvage.ite hs.unrecorded

theorem State.MemWf.twinAnswered {job step : Nat} {st : Status} : (s.twinAnswered job step st).MemWf :=
  hs.ite (hs.sendOutcomes.ite hs.sendOutcomes)

theorem State.MemWf.flushDecisions : s.flushDecisions.MemWf :=
  hs.foldl (·.unrecorded)

theorem State.MemWf.lateVeto {job : Nat} : (s.lateVeto job).MemWf :=
  hs.bump

theorem State.MemWf.matchSignal {k : Packet} : (s.matchSignal k).MemWf := by
  unfold State.matchSignal
  extract_lets
  split
  · exact hs.lateVeto.ite (hs.ite (hs.setHome.sendOutcome.ite hs.setHome))
  · exact hs.ite (hs.decide.ite (hs.decide.ite hs.setHome))

theorem State.MemWf.matchVeto {k : Packet} : (s.matchVeto k).MemWf :=
  hs.lateVeto.ite hs.decide

/-! ### The home's twin (R222, R223) -/

theorem State.MemWf.matchQuery {k : Packet} : (s.matchQuery k).MemWf := by
  unfold State.matchQuery
  extract_lets
  refine State.MemWf.sendPacket ?_
  split
  · exact hs
  · exact hs.upd

/-! ### The member (R223, R224) -/

theorem State.MemWf.learn {p c dec flip cause : Nat} {union : List Byte} : (s.learn p c dec flip cause union).MemWf :=
  ((hs.bump.ite hs).setStep.setStepStatus.ite hs).ite (hs.endStep.ite hs)

theorem State.MemWf.matchOutcome {k : Packet} : (s.matchOutcome k).MemWf :=
  hs.reply.ite (hs.reply.ite (hs.ite hs.learn))

/-! ### The flip (R216 to R218, R224) -/

theorem State.MemWf.rotate {p e : Nat} {hold : Bool} : (s.rotate p e hold).MemWf :=
  hs.setReg

theorem State.MemWf.followHold {p c old : Nat} : (s.followHold p c old).MemWf :=
  (hs.ite (hs.setFld.ite hs.setFld.setReg.upd)).ite hs.setFld

theorem State.MemWf.flipLayer {p c o : Nat} {union : List Byte} {built : Nat → Bool} : (s.flipLayer p c o union built).MemWf :=
  hs.setFld.setFld.setFld.setFld.branch id (·.branch (·.releaseWide.setFld.setFld.setFld) (·.branch (·.upd) (·.branch (·.widen) id)))

theorem State.MemWf.publishNoise {p c : Nat} : (s.publishNoise p c).MemWf :=
  hs.foldl (·.setReg.setReg.setReg)

theorem State.MemWf.flip {p c : Nat} : (s.flip p c).MemWf :=
  (((hs.foldl (·.rotate)).followHold.setFld.setFld.foldl (·.setFld)).foldl
    (·.flipLayer)).followWide.setReg.setReg.bump.bump.publishNoise.setStep.saveLayers.setStepStatus.setFld.stepEnd.streamCommit.settle

theorem State.MemWf.flips : s.flips.MemWf :=
  hs.foldl (·.flip)

end

end Sys2Proof.Machine
end

section
/-! SUPPORT. The canonical form through: the weft ports' and the selvage link's lanes, negotiation and flits (R163 to R168, R175, R338). Links 0
to 15 are the weft ports and link 16 the selvage link. -/

namespace Sys2Proof.Machine
open Sys2Proof

section
variable {s : State} (hs : s.MemWf)
include hs

/-! ### States of a link -/

theorem State.MemWf.chooseUpstream : s.chooseUpstream.MemWf := by
  unfold State.chooseUpstream
  extract_lets best u
  have hu : u.MemWf := hs.foldl (·.setFld)
  clear_value best u
  cases best with
  | none => exact hu.setFld
  | some l => exact (hu.ite hu.upd).setFld.setFld

theorem State.MemWf.linkTo {l st : Nat} : (s.linkTo l st).MemWf :=
  (hs.setFld.setFld.ite hs.setFld.setFld.setFld.setFld.setFld).trace.chooseUpstream.ite hs.upd.trace

theorem State.MemWf.setLanes {l m : Nat} : (s.setLanes l m).MemWf :=
  hs.setFld.ite hs

theorem State.MemWf.train {l : Nat} : (s.train l).MemWf :=
  hs.setPort.linkTo

theorem State.MemWf.linkOpen {l : Nat} : (s.linkOpen l).MemWf :=
  hs.linkTo.pump

/-! ### Training -/

theorem State.MemWf.writePortCtrl {l v : Nat} : (s.writePortCtrl l v).MemWf :=
  hs.setFld.linkTo.ite (hs.setFld.train.ite hs.setFld)

/-! ### Flits (R165, R166) -/

theorem State.MemWf.linkFault {l : Nat} {fec : Bool} {n : Nat} : (s.linkFault l fec n).MemWf :=
  hs.setPort

theorem State.MemWf.idleFlit {l : Nat} : (s.idleFlit l).MemWf :=
  hs.sendFlit.ite hs.pump

/-! ### Negotiation (R168) -/

theorem State.MemWf.setPartner {l partner : Nat} : (s.setPartner l partner).MemWf :=
  hs.setFld.ite hs.upd

/-! ### Retraining (R167) -/

theorem State.MemWf.retrain {l : Nat} : (s.retrain l).MemWf :=
  (hs.setPort.bump.ite hs.setPort).linkTo.alarm

theorem State.MemWf.endRetrain {l : Nat} {good : Option Nat} : (s.endRetrain l good).MemWf := by
  unfold State.endRetrain
  split
  · exact hs.setPort.setLanes.linkOpen
  · exact hs.setPort.linkTo.ite hs.setPort.retrain

end

end Sys2Proof.Machine
end

section
/-! SUPPORT. The canonical form through: the batten (R202 to R215, R233, R234): registration, and the update of a shard: gradients, clipping,
noise statistics, optimiser sequences, moments, learned scales, and the back forward copy. -/

namespace Sys2Proof.Machine
open Sys2Proof

section
variable {s : State} (hs : s.MemWf)
include hs

/-! ### Registration (R203 to R206) -/

theorem State.MemWf.takeEntry {p e : Nat} : (s.takeEntry p e).MemWf :=
  hs.upd

theorem State.MemWf.regError {p e b : Nat} : (s.regError p e b).MemWf :=
  hs.setReg.setFld

theorem State.MemWf.validate {p e : Nat} : (s.validate p e).MemWf := by
  unfold State.validate
  split
  · exact hs
  · extract_lets
    split
    · exact hs.regError
    · exact ((hs.takeEntry.upd.setFld.ite hs.takeEntry.upd).branch (·.setFld) id).setFld.setReg

theorem State.MemWf.invalidate {p e : Nat} : (s.invalidate p e).MemWf := by
  unfold State.invalidate
  split
  · exact hs
  · exact hs.regError.ite hs.setFld

/-! ### The update (R207 to R215) -/

theorem State.MemWf.battenBad {p c : Nat} : (s.battenBad p c).MemWf :=
  hs.bump.alarm.vetoStep

theorem State.MemWf.frontCodes {x : Shard} {t : Nat} : (s.frontCodes x t).2.MemWf := by
  unfold State.frontCodes
  extract_lets tile red held repack
  clear_value held
  split
  · exact hs
  · split
    · exact (hs.hbmRead.of22 ‹_›).battenLoad
    · exact hs.hbmRead.of22 ‹_›

theorem State.MemWf.ownCopies {job red tile size : Nat} {img : List Byte} : (s.ownCopies job red tile size img).2.MemWf :=
  hs.foldl2 fun hu => (hu.setFld.ite hu).gatherWrite.ite2 hu

theorem State.MemWf.gatherBytes {job red tile size off : Nat} {img : List Byte} : (s.gatherBytes job red tile size off img).2.2.MemWf := by
  unfold State.gatherBytes
  split
  · exact hs.copyRead
  · exact hs

theorem State.MemWf.sendGather {p c red tile size : Nat} {holders : List Nat} {img : List Byte} :
    (s.sendGather p c red tile size holders img).2.MemWf := by
  unfold State.sendGather
  extract_lets
  split
  · exact hs
  · refine hs.foldl2 fun hu => ?_
    split
    · exact (hu.gatherBytes.of22 ‹_›).foldl (·.sendPacket)
    · exact hu.gatherBytes.of22 ‹_›

theorem State.MemWf.releaseSpent {p c red : Nat} : (s.releaseSpent p c red).MemWf :=
  hs.foldl fun hu => hu.releaseSlot.ite hu

theorem State.MemWf.addNoise {p c e : Nat} {g : Array GradSrc} : (s.addNoise p c e g).MemWf :=
  hs.setStep

theorem State.MemWf.updateShard {p c e : Nat} {grads : Array GradSrc} : (s.updateShard p c e grads).MemWf := by
  unfold State.updateShard
  extract_lets n f red job k const slotSrc
  split
  · next er =>
    have h := hs.hbmRead.of22 er
    extract_lets
    split
    extract_lets
    refine h.upd.bump.battenBad.ite ?_
    extract_lets
    split
    · generalize hx : (if isK f = true then _ else _)  = x
      have hv : x.2.2.MemWf := by
        subst hx
        refine State.MemWf.ite22 (State.MemWf.foldl22 h.upd.bump fun hu => ?_) h.upd.bump
        split
        · exact (hu.frontCodes.ite2 hu).of2 ‹_›
        · exact (hu.frontCodes.ite2 hu).of2 ‹_›
      split
      replace hv := hv.of22 rfl
      refine State.MemWf.ite hv.vetoStep (hv.battenBad.ite ?_)
      extract_lets sc moves u1 layer wide tilesOut narrow imgs plane size u2 back u3
      have h1 : u1.MemWf := hv.bump.bump
      have h2 : u2.MemWf := h1.ite (h1.foldl (·.foldl (·.post)))
      have h3 : u3.MemWf := h2.setFld.ite h2
      split
      · split
        have hr := (h3.hbmWrite.of2 ‹_›).peerRow.of22 ‹_›
        generalize hy : (if _ = Status.ok then State.peerList _ _ _ _ _ else _) = y
        have hl : y.2.2.MemWf := by
          subst hy
          exact hr.peerList.ite22 hr
        split
        replace hl := hl.of22 rfl
        refine State.MemWf.ite hl.vetoStep ?_
        split
        next e =>
          have hg := hl.foldl22_eq e fun hu => hu.ite22 ?_
          · exact hg.ite (hg.vetoStep.ite (hg.vetoStep.ite ((hg.branch (·.addNoise) id).setStep.branch (·.releaseSpent) id).gatherCheck))
          · split
            exact State.MemWf.ite22 ((hu.ownCopies.of2 ‹_›).sendGather.pair22) ((hu.ownCopies.of2 ‹_›).pair22)
      · exact (h3.hbmWrite.of2 ‹_›).vetoStep
    · exact h.upd.bump.battenBad
  · exact (hs.hbmRead.of22 ‹_›).vetoStep
  · exact hs.vetoStep

theorem State.MemWf.waitOnce {p c e : Nat} {mirror : Bool} : (s.waitOnce p c e mirror).MemWf :=
  hs.ite (hs.setStep.bump.ite hs.setStep.bump)

end

end Sys2Proof.Machine
end

section
/-! SUPPORT. The canonical form through: onaile's control, scalar, shuttle, knot, reduction, batten and time instructions (R246 to R254, R262 to
R264). -/

namespace Sys2Proof.Machine
open Sys2Proof

section
variable {s : State} (hs : s.MemWf)
include hs

/-! ### System selectors (R248, R249) -/

theorem State.MemWf.sysr {i : Iss} {sel : Nat} : (s.sysr i sel).2.MemWf := by
  unfold State.sysr
  extract_lets
  split
  · exact hs
  · exact hs
  · exact hs
  · exact hs
  · exact hs
  · exact hs
  · exact hs
  · exact hs
  · exact hs
  · exact hs
  · exact hs
  · exact hs
  · exact hs.fresh
  · exact hs

/-! ### The shuttle (R252 to R254, R332, R333) -/

theorem State.MemWf.startShuttle {i : Iss} {opcode : Nat} {kv : Bool} {knot : Nat} {w : Work} {fixed : Option Status} :
    (s.startShuttle i opcode kv knot w fixed).MemWf :=
  hs.startAsync

theorem State.MemWf.poisonDest {l : Loc} {len : Nat} : (s.poisonDest l len).MemWf := by
  unfold State.poisonDest
  split
  · exact hs.poisonBlocks
  · exact hs

theorem State.MemWf.spoilBoard {d : Loc} {len : Nat} : (s.spoilBoard d len).MemWf := by
  unfold State.spoilBoard
  split
  · exact (hs.withBoard fun h => List.foldlRecOn _ _ h fun _ hm _ _ => SMap.set_wf hm ..).upd
  · exact hs

theorem State.MemWf.boardEvent {port addr : Nat} : (s.boardEvent port addr).MemWf :=
  hs.bump.logRec.alarm

theorem State.MemWf.copyFails {p : Nat} {src dst : Loc} {at' len : Nat} : (s.copyFails p src dst at' len).MemWf := by
  unfold State.copyFails
  split
  · exact hs.boardEvent.poisonDest
  · exact hs.spoilBoard
  · exact hs.poisonDest
  · exact hs.spoilBoard
  · exact hs.bump.alarm.poisonDest

theorem State.MemWf.readHinted {p c hint : Nat} {l : Loc} {n : Nat} : (s.readHinted p c hint l n).2.2.MemWf := by
  unfold State.readHinted
  split
  · exact hs.hbmReadAs
  · exact hs.readLoc

theorem State.MemWf.moveBytes {o : AsyncOp} {err : Bool} {port : Option Nat} : (s.moveBytes o err port).2.MemWf := by
  unfold State.moveBytes
  split
  · exact hs
  · split
    · extract_lets
      split
      · split
        · exact hs.copyFails
        · split
          · exact (hs.readHinted.of22 ‹_›).writeLoc
          · exact (hs.readHinted.of22 ‹_›).poisonDest
      · exact hs
    · extract_lets
      split
      · exact hs.spoilBoard.ite2 hs.writeLoc
      · exact hs
    · exact hs

/-! ### Knots (R262) -/

theorem State.MemWf.sendKnotAdd {p c e : Nat} {owner : Owner} {word v : Nat} : (s.sendKnotAdd p c e owner word v).MemWf :=
  hs.startAsync.sendPacket

/-! ### Batten (R262) -/

theorem State.MemWf.writeCursor {p c v : Nat} : (s.writeCursor p c v).MemWf :=
  hs.setReg.ite hs

end

end Sys2Proof.Machine
end

section
/-! SUPPORT. The canonical form through: the hardware queues (R266 to R275): doorbells, enabling, fetching, the start and completion of each type
of command, passes and micro-step closes (R285), and the writes to knots (R276, R277). -/

namespace Sys2Proof.Machine
open Sys2Proof

section
variable {s : State} (hs : s.MemWf)
include hs

/-! ### Queue registers -/

theorem State.MemWf.writeTail {p q v : Nat} : (s.writeTail p q v).MemWf :=
  (hs.setReg.queueError.ite hs.setReg.refreshQ).ite hs.setReg

theorem State.MemWf.writeAck {p q v : Nat} : (s.writeAck p q v).MemWf :=
  hs.setReg.queueError.ite hs.setReg

theorem State.MemWf.enableQueue {p q : Nat} : (s.enableQueue p q).MemWf := by
  unfold State.enableQueue
  split
  · exact hs.setFld.setReg.setReg.setReg.setQueue.setFld.setFld.refreshQ
  · exact (hs.alarm.ite hs).queueError

theorem State.MemWf.writeQueueCtrl {p q v : Nat} : (s.writeQueueCtrl p q v).MemWf :=
  (hs.writeMasked.ite hs).branch (·.branch id (·.enableQueue)) (·.disableQueue)

theorem State.MemWf.writeHostLevel {p f v : Nat} : (s.writeHostLevel p f v).MemWf :=
  hs.setReg

/-! ### Fetching (R268) -/

theorem State.MemWf.joinRing {p q n : Nat} {b : List Byte} : (s.joinRing p q n b).MemWf :=
  hs.setQueue.upd.setReg.refreshQ

/-! ### The start of a command (R270 to R273) -/

theorem State.MemWf.blockCmd {p q : Nat} {c : Cmd} : (s.blockCmd p q c).MemWf :=
  hs.setCmd

theorem State.MemWf.serve {p q : Nat} : (s.serve p q).MemWf :=
  hs.upd

theorem State.MemWf.startCmd {x : QueueId} {is : Cmd → Bool} {f : State → Nat → Nat → Nat → Cmd → State}
    (hf : ∀ {u : State} {p q c : Nat} {cmd : Cmd}, u.MemWf → (f u p q c cmd).MemWf) : (s.startCmd x is f).MemWf := by
  unfold State.startCmd
  extract_lets
  split
  · exact hs.ite (hs.blockCmd.ite (hs.ite ((hs.serve.ite hs).branch (·.progress.completeBare) hf)))
  · exact hs

/-! ### LAUNCH (R272) -/

theorem State.MemWf.placeCopies {p c q : Nat} {cmd : Cmd} : (s.placeCopies p c q cmd).1.MemWf := by
  refine hs.foldl1 fun hu => ?_
  split
  · exact State.MemWf.ite1 (x := (_, _)) hu.emptyCache.setProg hu
  · exact hu

end

end Sys2Proof.Machine
end

section
/-! SUPPORT. The canonical form through: the pair and its heartbeats (R336 to R342), the receiver of selvage packets (R340, R345, R347), risk
(R348), and recovery: resolution, rollback, promotion and restoring a context record (R355 to R358). -/

namespace Sys2Proof.Machine
open Sys2Proof

section
variable {s : State} (hs : s.MemWf)
include hs

/-! ### Admission (R336, R337) -/

theorem State.MemWf.pairTo {st : Nat} {r : Status} : (s.pairTo st r).MemWf :=
  (hs.ite hs.setFld).setFld.setFld

end

end Sys2Proof.Machine
end

section
/-! SUPPORT. The canonical form through: onaile's vector instructions (R258 to R261). A vector instruction computes when it issues; its flags
reach FLAGS when the unit completes it (R243, R248). -/

namespace Sys2Proof.Machine
open Sys2Proof

section
variable {s : State} (hs : s.MemWf)
include hs

/-! ### Reductions (R260) -/

theorem State.MemWf.pairUp {m : PairMsg} {d : Tabnex} {feeds : List W64} : (s.pairUp m d feeds).MemWf :=
  hs.freshBytes.pairTo.upd.setFld.setFld.branch (·.upd.setFld.alarm) (·.setFld.setFld)

end

end Sys2Proof.Machine
end

section
/-! SUPPORT. The canonical form through: the pair and its heartbeats (R336 to R342), the receiver of selvage packets (R340, R345, R347), risk
(R348), and recovery: resolution, rollback, promotion and restoring a context record (R355 to R358). -/

namespace Sys2Proof.Machine
open Sys2Proof

section
variable {s : State} (hs : s.MemWf)
include hs

/-! ### Admission (R336, R337) -/

theorem State.MemWf.sendPair : s.sendPair.MemWf :=
  hs.sendFlit

theorem State.MemWf.writePair {v : Nat} {msg : Option PairMsg} : (s.writePair v msg).MemWf := by
  unfold State.writePair
  extract_lets
  refine hs.setFld.ite (hs.setFld.sendPair.setFld.ite ?_)
  split
  · exact hs.setFld.sendPair.setFld
  · split
    · exact hs.setFld.sendPair.pairUp
    · exact hs.setFld.sendPair.pairTo

/-! ### Heartbeats and loss (R341, R342) -/

theorem State.MemWf.heartbeat : s.heartbeat.MemWf :=
  hs.now.sendSelvage

theorem State.MemWf.loseCtx {p c : Nat} : (s.loseCtx p c).MemWf :=
  (hs.abortStep.knotAdd.ite hs.abortStep).ite hs

theorem State.MemWf.twinLost : s.twinLost.MemWf :=
  (hs.setFld.bump.alarm.stopStreams.foldl (·.loseCtx)).flushDecisions

/-! ### Receiving (R340, R345) -/

theorem State.MemWf.ack {k : Packet} {st : Status} : (s.ack k st).MemWf :=
  hs.sendSelvage

theorem State.MemWf.receiveSelvage {k : Packet} {f : State → State} (hf : ∀ {u : State}, u.MemWf → (f u).MemWf) :
    (s.receiveSelvage k f).MemWf :=
  hs.tagCheck.branch id fun hu => hu.bump.branch (·.ack) (·.branch (·.ack) (·.branch (·.ack) hf))

theorem State.MemWf.forPeer {k : Packet} {f : State → Nat → Nat → State} (hf : ∀ {p c : Nat}, (f s p c).MemWf) : (s.forPeer k f).MemWf := by
  unfold State.forPeer
  split
  · exact hf
  · exact hs.ack

theorem State.MemWf.storeMirror {k : Packet} {p c : Nat} : (s.storeMirror k p c).MemWf := by
  unfold State.storeMirror
  split
  extract_lets
  split
  · split
    · exact ((hs.hbmWrite.of2 ‹_›).hbmWrite.of2 ‹_›).countRx
    · exact ((hs.hbmWrite.of2 ‹_›).hbmWrite.of2 ‹_›).ack
  · exact (hs.hbmWrite.of2 ‹_›).ack

theorem State.MemWf.storeRecord {k : Packet} {p c : Nat} : (s.storeRecord k p c).MemWf := by
  unfold State.storeRecord
  split
  split
  · exact (hs.hbmWrite.of2 ‹_›).upd.countRx
  · exact (hs.hbmWrite.of2 ‹_›).ack

theorem State.MemWf.storeDelta {k : Packet} {p c : Nat} : (s.storeDelta k p c).MemWf := by
  unfold State.storeDelta
  split
  · exact hs.ack
  · split
    · exact (hs.hbmWrite.of2 ‹_›).upd.countRx.branch (·.fold) id
    · exact (hs.hbmWrite.of2 ‹_›).ack

theorem State.MemWf.takePoint {k : Packet} {p c : Nat} : (s.takePoint k p c).MemWf :=
  hs.upd.setReg.ack.ite hs.upd.ack

theorem State.MemWf.takeDecision {k : Packet} : (s.takeDecision k).MemWf := by
  unfold State.takeDecision
  split
  · exact hs.ack
  · exact hs.upd.ack

theorem State.MemWf.takeAck {k : Packet} : (s.takeAck k).MemWf := by
  unfold State.takeAck
  split
  · exact hs
  · exact hs.upd.twinAnswered.ite ((hs.upd.upd.upd.setReg.ite (hs.upd.upd.restream.ite hs.upd.upd)).ite (hs.upd.upd.alarm.ite hs.upd))

/-! ### Recovery (R355 to R358) -/

theorem State.MemWf.snapResult {p c : Nat} {st : Status} : (s.snapResult p c st).MemWf :=
  hs.setFld

theorem State.MemWf.resolveCommit {p c : Nat} : (s.resolveCommit p c).MemWf :=
  hs.bump.setStep.setStepStatus.snapResult.settle.ite hs.snapResult

theorem State.MemWf.resolveAbort {p c : Nat} : (s.resolveAbort p c).MemWf :=
  hs.endStep.snapResult.ite hs.snapResult

theorem State.MemWf.spoilPlanes {p c : Nat} : (s.spoilPlanes p c).MemWf := by
  unfold State.spoilPlanes
  extract_lets
  refine hs.foldl fun hu => ?_
  split
  · exact (hu.peerRow.of22 ‹_›).upd.planeWrite
  · exact hu.peerRow.of22 ‹_›

theorem State.MemWf.rotateBack {p e : Nat} : (s.rotateBack p e).MemWf :=
  hs.setReg

theorem State.MemWf.rollback {p c : Nat} : (s.rollback p c).MemWf :=
  hs.snapResult.ite (hs.spoilSlots.spoilPlanes.foldl (·.rotateBack)).setFld.setReg.setReg.setReg.setFld.snapResult

theorem State.MemWf.promote {p c : Nat} : (s.promote p c).MemWf :=
  hs.ite (hs.snapResult.ite (hs.snapResult.ite hs.upd.setFld))

theorem State.MemWf.peek {job a n : Nat} : (s.peek job a n).2.MemWf :=
  hs.hbmRead

theorem State.MemWf.boardPeek {job a n : Nat} : (s.boardPeek job a n).2.MemWf :=
  hs.boardRead

theorem State.MemWf.search {α β : Type} {f : State → α → Option β × State} {l : List α} {b : List β} {t : State}
    (e : State.search f l s = (b, t)) (hf : ∀ {u : State} {x : α}, u.MemWf → (f u x).2.MemWf) : t.MemWf :=
  hs.foldl2_eq e hf

theorem State.MemWf.promoted {p c r : Nat} : (s.promoted p c r).2.MemWf := by
  unfold State.promoted
  extract_lets
  split
  next e1 =>
    have h1 := hs.search e1 fun hu => by
      split
      · exact State.MemWf.ite2 (hu.peek.of2 ‹_›).peek.pair2 (hu.peek.of2 ‹_›).pair2
      · exact hu.peek.of2 ‹_›
    split
    next e2 =>
      have h2 := h1.search e2 fun hu => by
        extract_lets
        split
        · split
          exact hu.peek.of2 ‹_›
        · split
          · exact State.MemWf.ite2 (hu.boardPeek.of2 ‹_›).boardPeek.pair2 (hu.boardPeek.of2 ‹_›).pair2
          · exact hu.boardPeek.of2 ‹_›
      split
      next e3 => exact h2.search e3 fun hu => State.MemWf.ite2 hu.pair2 hu.peek.pair2

theorem State.MemWf.restoreQueue {p q : Nat} {b : List Byte} : (s.restoreQueue p q b).MemWf :=
  hs.writeMasked.writeMasked.writeMasked.setReg.setReg.setReg

theorem State.MemWf.restoreStream {p c i cursor : Nat} {b : List Byte} : (s.restoreStream p c i cursor b).MemWf :=
  hs.setReg.setReg.setReg.logRec.ite hs.setReg.setReg.setReg

theorem State.MemWf.restore {p c : Nat} : (s.restore p c).MemWf := by
  unfold State.restore
  split
  · exact hs.snapResult
  · split
    · exact ((((hs.hbmRead.of22 ‹_›).setReg.setReg.setReg.setReg.foldl (·.restoreQueue)).foldl (·.knotTo)).branch (·.foldl
      (·.restoreStream)) id).snapResult
    · exact (hs.hbmRead.of22 ‹_›).snapResult

theorem State.MemWf.snapCmd {p c v : Nat} : (s.snapCmd p c v).MemWf := by
  unfold State.snapCmd
  split
  · exact hs
  · split
    · exact hs.resolveCommit
    · exact hs.resolveAbort
    · exact hs.rollback
    · exact hs.promote
    · exact hs.restore
    · exact hs

end

end Sys2Proof.Machine
end

section
/-! SUPPORT. The canonical form through: the HBM stacks' commands: single accesses (R302, R303), lane and row repair (R295, R309), the temperature
readout (R292), scrubbing (R307), the stack counters (R318, R319) and the pattern-card commands (R317). -/

namespace Sys2Proof.Machine
open Sys2Proof

section
variable {s : State} (hs : s.MemWf)
include hs

/-! ### Accesses -/

theorem State.MemWf.answer {a : Agent} {st : Status} {bytes : List Byte} : (s.answer a st bytes).MemWf := by
  unfold State.answer
  split
  · exact hs.emit.ite hs.emit
  · exact hs.emit.ite hs.emit.vetoStep
  · exact hs.emit

theorem State.MemWf.serveReq {x : HbmReq} : (s.serveReq x).MemWf := by
  unfold State.serveReq
  split
  · exact hs.hbmTake.answer
  · exact hs.poisonBlocks.answer
  · exact hs.hbmStore.answer

theorem State.MemWf.takeReq {r : HbmReq} : (s.takeReq r).MemWf :=
  hs.upd.ite hs.serveReq

theorem State.MemWf.serveWaiting : s.serveWaiting.MemWf :=
  hs.upd.foldl (·.takeReq)

theorem State.MemWf.request {a : Agent} {write : Bool} {addr n : Nat} {r : HbmReq} : (s.request a write addr n r).MemWf := by
  unfold State.request
  split
  · exact (hs.hbmCheck.of2 ‹_›).takeReq
  · exact (hs.hbmCheck.of2 ‹_›).answer

/-! ### Repair -/

theorem State.MemWf.rewriteRow {t : Track} : (s.rewriteRow t).MemWf := by
  unfold State.rewriteRow
  refine hs.foldl fun hu => ?_
  extract_lets
  split
  · exact hu.putBlock
  · exact hu.putBlock

/-! ### Scrubbing (R307) -/

theorem State.MemWf.scrubBlock {a : Nat} {d : Damage} : (s.scrubBlock a d).MemWf := by
  unfold State.scrubBlock
  extract_lets b u found
  refine State.MemWf.ite hs.turn ?_
  clear_value found
  split
  split
  · exact (hs.turn.readBlock.of22 ‹_›).putBlock
  · exact hs.turn.readBlock.of22 ‹_›

/-! ### Counters (R318, R319) -/

theorem State.MemWf.clearStack {st v : Nat} : (s.clearStack st v).MemWf :=
  hs.clearSelected.upd.ite hs.clearSelected

/-! ### Pattern-card commands (R316, R317) -/

theorem State.MemWf.writeCardCmd {p v : Nat} : (s.writeCardCmd p v).MemWf :=
  hs.ite (hs.setFld.ite (hs.setFld.ite hs.setFld.upd))

theorem State.MemWf.fillCards {bank p first n : Nat} {f : Nat → Nat} : (s.fillCards bank p first n f).MemWf :=
  hs.upd

end

end Sys2Proof.Machine
end

section
/-! SUPPORT. The canonical form through: the traffic generators of the channels (R297 to R299): their patterns, what a run tests and finds, and
their commands. -/

namespace Sys2Proof.Machine
open Sys2Proof

section
variable {s : State} (hs : s.MemWf)
include hs

/-! ### Runs (R297, R299) -/

theorem State.MemWf.writeTg {st ch v : Nat} : (s.writeTg st ch v).MemWf := by
  unfold State.writeTg
  extract_lets u u1 u2 w
  have hu : u.MemWf := hs.writeMasked
  have hw : w.MemWf := by
    refine State.MemWf.ite ?_ hu
    split
    · exact hu.setReg.setReg.setReg.setReg.setReg.upd
    · exact hu.setFld
  exact hw.upd.ite hw

theorem State.MemWf.zeroRows {st ch mask first last : Nat} : (s.zeroRows st ch mask first last).MemWf := by
  obtain ⟨hbm, others⟩ := hs
  exact ⟨SMap.filter_wf hbm _, others⟩

theorem State.MemWf.tgFound {st ch : Nat} {x : List TgPlace} : (s.tgFound st ch x).MemWf := by
  unfold State.tgFound
  split
  · exact hs
  · exact hs.setReg.setReg.setReg.setReg

end

end Sys2Proof.Machine
end

section
/-! SUPPORT. The canonical form through: the parity of the on-chip SRAM and what its errors do (R305, R306, R319). -/

namespace Sys2Proof.Machine
open Sys2Proof

section
variable {s : State} (hs : s.MemWf)
include hs

theorem State.MemWf.sramCount {p : Nat} {x : SramPlace} {part creel : RegName} : (s.sramCount p x part creel).MemWf := by
  unfold State.sramCount
  split
  · exact hs.bump
  · exact hs.bump
  · exact hs.bump
  · split
    · exact hs.bump
    · exact hs
  · split
    · exact hs.bump
    · exact hs
  · split
    · exact hs.bump
    · exact hs
  · exact hs

theorem State.MemWf.failSlot {t : Nat} : (s.failSlot t).MemWf := by
  unfold State.failSlot
  split
  · exact hs.slotTo.redFault.logRedFault.vetoStep.ite hs
  · exact hs

theorem State.MemWf.sramLost {p : Nat} {x : SramPlace} : (s.sramLost p x).MemWf := by
  unfold State.sramLost
  extract_lets
  split
  · exact hs.sramCount.alarm
  · exact hs.sramCount.alarm
  · exact hs.sramCount.alarm.dropLine
  · exact hs.sramCount.alarm.failSlot.ite hs
  · exact hs.sramCount.alarm.failSlot.ite hs
  · split
    · exact hs.sramCount.alarm.upd.reply
    · exact hs
  · exact hs.emptyCache

end

end Sys2Proof.Machine
end

section
/-! SUPPORT. The canonical form through: custody: device keys and attestation (R364, R370, R371), job keys (R365 to R368, R372), the lifecycle
(R369), partitions, admission and leaving (R373 to R377), and debug unlock (R383). -/

namespace Sys2Proof.Machine
open Sys2Proof

section
variable {s : State} (hs : s.MemWf)
include hs

/-! ### Measurements and the aliases' key (R364, R370) -/

theorem State.MemWf.deriveAlias : s.deriveAlias.MemWf :=
  hs.upd

/-! ### SPDM (R370) -/

theorem State.MemWf.spdm {f : SpdmFunc} {code : Nat} {body : List Byte} : (s.spdm f code body).MemWf :=
  hs.emit

theorem State.MemWf.spdmStd {f : SpdmFunc} {code : Nat} : (s.spdmStd f code).MemWf :=
  hs.upd.spdm

theorem State.MemWf.refuseSession {f : SpdmFunc} : (s.refuseSession f).MemWf :=
  hs.bump.alarm.spdm

theorem State.MemWf.openSession {f : SpdmFunc} {sid : Nat} {pin : List Byte} : (s.openSession f sid pin).MemWf :=
  hs.freshBytes.upd.spdm

theorem State.MemWf.setSession {x : Session} : (s.setSession x).MemWf :=
  hs.upd

/-! ### Job keys (R365 to R367, R372) -/

theorem State.MemWf.jobState {i st : Nat} : (s.jobState i st).MemWf :=
  hs.setFld

theorem State.MemWf.destroyKeys {job : Nat} : (s.destroyKeys job).MemWf := by
  unfold State.destroyKeys
  exact hs.upd.branch id (·.jobState)

theorem State.MemWf.destroyAllKeys : s.destroyAllKeys.MemWf :=
  hs.foldl (·.destroyKeys)

theorem State.MemWf.custody {f : SpdmFunc} {code : Nat} {st : Status} {body : List Byte} : (s.custody f code st body).MemWf :=
  hs.emit

theorem State.MemWf.custodyMsg {f : SpdmFunc} {sid code : Nat} {g : State → Nat → Session → Status × List Byte × State}
    (hg : ∀ {p : Nat} {x : Session}, (g s p x).2.2.MemWf) : (s.custodyMsg f sid code g).MemWf := by
  unfold State.custodyMsg
  split
  · exact hs.spdm
  · refine hs.spdm.ite ?_
    split
    · exact hg.custody
    · exact hs.custody

theorem State.MemWf.installKeys {job : Nat} {pin keys : List Byte} : (s.installKeys job pin keys).MemWf := by
  unfold State.installKeys
  exact hs.upd.branch id (·.jobState.setFld)

theorem State.MemWf.keysSet {b : List Byte} {x : Session} : (s.keysSet b x).2.2.MemWf := by
  refine hs.ite22 (hs.ite22 ?_)
  split
  · exact hs
  · exact State.MemWf.ite22 hs hs.installKeys.pair22

theorem State.MemWf.keysRotate {b : List Byte} {x : Session} : (s.keysRotate b x).2.2.MemWf := by
  unfold State.keysRotate
  split
  · exact hs
  · exact hs.ite22 (hs.ite22 hs.upd)

theorem State.MemWf.jobEnd {b : List Byte} {x : Session} : (s.jobEnd b x).2.2.MemWf := by
  unfold State.jobEnd
  split
  · exact hs.ite22 (State.MemWf.ite22 hs.destroyKeys.pair22 hs)
  · exact hs

theorem State.MemWf.policySet {p : Nat} {b : List Byte} : (s.policySet p b).2.2.MemWf := by
  unfold State.policySet
  split
  · exact hs.upd.ite22 (hs.upd.ite22 hs)
  · exact hs

theorem State.MemWf.rotateKeys {k : KeySet} : (s.rotateKeys k).MemWf := by
  unfold State.rotateKeys
  split
  · exact hs
  · exact hs.ite (hs.upd.ite hs.upd.setFld)

/-! ### Lifecycle (R369) -/

theorem State.MemWf.writeLifecycle {v : Nat} {cert : Bool} : (s.writeLifecycle v cert).MemWf :=
  hs.setFld.setFld.destroyAllKeys.upd.ite hs.setFld

/-! ### Partitions (R373, R377) -/

theorem State.MemWf.assignResult {p : Nat} {st : Status} : (s.assignResult p st).MemWf :=
  hs.setFld

theorem State.MemWf.startZero {p : Nat} : (s.startZero p).MemWf :=
  hs.upd.setFld

theorem State.MemWf.writeAssign {p v : Nat} : (s.writeAssign p v).MemWf :=
  (hs.startZero.assignResult.ite hs.assignResult).ite (hs.setFld.setFld.assignResult.ite hs.assignResult)

theorem State.MemWf.zeroAll : s.zeroAll.MemWf :=
  hs.ite (hs.destroyAllKeys.foldl (·.startZero)).setFld

theorem State.MemWf.clearPartRegs {rs : List RegName} {p : Nat} : (s.clearPartRegs rs p).MemWf :=
  hs.withRegs (·.filter _)

theorem State.MemWf.zeroHbm {p : Nat} : (s.zeroHbm p).MemWf := by
  obtain ⟨hbm, others⟩ := hs
  exact ⟨SMap.clearRange_wf hbm .., others⟩

theorem State.MemWf.stacksDown {p : Nat} : (s.stacksDown p).MemWf :=
  hs.zeroHbm.foldl fun hu => (hu.foldl fun hu => hu.setFld.setReg.ite hu.setFld).setReg.setFld.upd

theorem State.MemWf.zeroSram {p : Nat} : (s.zeroSram p).MemWf :=
  (hs.withBobbin (SMap.clearRange_wf · ..)).withBeam (SMap.clearRange_wf · ..)

theorem State.MemWf.zeroAcc {p c : Nat} : (s.zeroAcc p c).MemWf :=
  hs.upd

theorem State.MemWf.zeroCards {p : Nat} : (s.zeroCards p).MemWf :=
  hs.upd

theorem State.MemWf.unpin {p : Nat} : (s.unpin p).MemWf :=
  hs.upd.ite (hs.upd.foldl (·.destroyKeys))

theorem State.MemWf.zeroPart {p : Nat} : (s.zeroPart p).MemWf :=
  ((hs.foldl (·.zeroAcc)).zeroHbm.zeroSram.zeroCards.clearPartRegs.unpin.branch (·.setFld) id).upd

/-! ### Admission (R375) -/

theorem State.MemWf.admitResult {p c : Nat} {st : Status} : (s.admitResult p c st).MemWf :=
  hs.setFld

theorem State.MemWf.grantRuns {p c : Nat} : (s.grantRuns p c).MemWf :=
  (hs.foldl (·.setReg.setReg.setReg.setReg.setQueue.setReg.setReg.setReg)).foldl (·.setReg.setReg.setReg)

theorem State.MemWf.followLock {p c : Nat} : (s.followLock p c).MemWf :=
  hs.setFld.ite hs

theorem State.MemWf.beginLife {p c : Nat} : (s.beginLife p c).MemWf :=
  (hs.foldl (·.setReg)).setFld.setFld.setFld.setStep.upd

theorem State.MemWf.admitNow {p c i : Nat} : (s.admitNow p c i).MemWf :=
  hs.setFld.jobState.setFld.setFld.setFld.setFld.setReg.setReg.setReg.beginLife.upd.grantRuns.saveLayers.followLock.admitResult

theorem State.MemWf.tryAdmit {p c : Nat} : (s.tryAdmit p c).MemWf := by
  unfold State.tryAdmit
  split
  · exact hs.admitNow
  · exact hs.admitResult
  · exact hs.admitResult

/-! ### Leaving (R375, R376) -/

theorem State.MemWf.killCtx {p c : Nat} {st : Status} : (s.killCtx p c st).MemWf :=
  hs.abortOps.upd.foldl (·.killProg)

theorem State.MemWf.abortStarted {p q : Nat} : (s.abortStarted p q).MemWf :=
  hs.foldl (·.completeBare)

theorem State.MemWf.clearSuspect {n c : Nat} : (s.clearSuspect n c).MemWf :=
  hs.upd.ite hs.upd.setFld

theorem State.MemWf.nextReplay {n : Nat} : (s.nextReplay n).MemWf := by
  unfold State.nextReplay
  split
  · exact hs.setFld.ite hs
  · exact hs

theorem State.MemWf.unsuspect {p c : Nat} : (s.unsuspect p c).MemWf :=
  hs.upd.foldl (·.nextReplay)

theorem State.MemWf.leaveNow {p c cause : Nat} : (s.leaveNow p c cause).MemWf := by
  refine State.MemWf.admitResult ?_
  exact ((hs.dropStep.killCtx.foldl (·.abortStarted.disableQueue)).upd.foldl fun hu => hu.ite hu.slotTo.setSlot).setReg.setFld.unsuspect.setFld

theorem State.MemWf.leave {p c : Nat} : (s.leave p c).MemWf :=
  hs.leaveNow.ite hs.admitResult

theorem State.MemWf.writeAdmit {p c v : Nat} : (s.writeAdmit p c v).MemWf := by
  unfold State.writeAdmit
  extract_lets
  split
  · exact (hs.ite hs.setFld).tryAdmit
  · exact (hs.ite hs.setFld).leave
  · exact hs.ite hs.setFld

theorem State.MemWf.zeroGrants {p c : Nat} : (s.zeroGrants p c).MemWf := by
  refine State.MemWf.zeroAcc (State.MemWf.withBeam (hs.foldl fun hu => ?_) (SMap.clearRange_wf · ..))
  exact hu.withBobbin (SMap.clearRange_wf · ..)

theorem State.MemWf.freeCtx {p c : Nat} : (s.freeCtx p c).MemWf :=
  (((hs.zeroGrants.foldl (·.setFld)).foldl (·.setFld)).upd.setStep.setReg.setReg.setReg.setFld.setFld.branch id (·.setFld)).branch (·.jobState) id

theorem State.MemWf.zeroPage {page : Nat} : (s.zeroPage page).MemWf := by
  obtain ⟨hbm, others⟩ := hs
  exact ⟨SMap.clearRange_wf hbm .., others⟩

theorem State.MemWf.dropBoardCards {i : Nat} : (s.dropBoardCards i).MemWf :=
  hs.foldl fun hu => hu.foldl fun hu => hu.setFld.ite hu

/-! ### Debug unlock (R383) -/

theorem State.MemWf.debugTo {st scope : Nat} {r : Status} : (s.debugTo st scope r).MemWf :=
  hs.setFld.setFld.setFld.branch id (·.alarm.deriveAlias)

theorem State.MemWf.consent : s.consent.MemWf :=
  hs.setFld.ite (hs.freshBytes.foldl (·.setReg)).debugTo

theorem State.MemWf.submitToken : s.submitToken.MemWf :=
  hs.ite (hs.debugTo.ite hs.debugTo)

end

end Sys2Proof.Machine
end

section
/-! SUPPORT. The canonical form through: alyen snapshots: the container of version 1 (R4, R381), EXPORT and IMPORT (R382). -/

namespace Sys2Proof.Machine
open Sys2Proof

section
variable {s : State} (hs : s.MemWf)
include hs

theorem State.MemWf.container {p c : Nat} {k : KeySet} : (s.container p c k).2.2.MemWf := by
  unfold State.container
  split
  next e =>
    have h := hs.foldl222_eq e fun hu => hu.ite222 ?_
    · exact h.ite22 h.freshBytes.pair22
    · split
      · exact hu.hbmRead.of22 ‹_›
      · exact hu.hbmRead.of22 ‹_›

theorem State.MemWf.expResult {p c : Nat} {st : Status} : (s.expResult p c st).MemWf :=
  hs.setFld.setFld

theorem State.MemWf.startSnap {j : SnapJob} : (s.startSnap j).MemWf :=
  hs.upd.setFld

theorem State.MemWf.exportSnap {p c : Nat} : (s.exportSnap p c).MemWf := by
  unfold State.exportSnap
  extract_lets
  split
  · exact hs.expResult
  · split
    · exact hs.expResult
    · split
      · exact (hs.container.of22 ‹_›).branch (·.startSnap) (·.startSnap)
      · exact (hs.container.of22 ‹_›).startSnap

theorem State.MemWf.expRead {p c off n : Nat} : (s.expRead p c off n).2.2.MemWf := by
  unfold State.expRead
  extract_lets
  split
  · exact hs
  · split
    · exact hs.hbmRead
    · exact hs.boardRead
    · exact hs.readLoc

theorem State.MemWf.expWrite {p c a : Nat} {host : Bool} {b : List Byte} : (s.expWrite p c a host b).2.MemWf := by
  refine State.MemWf.ite2 (hs.withHost (writeBytes_wf · ..)) ?_
  split
  · exact hs.hbmWrite
  · exact hs.boardWrite
  · exact hs.writeLoc

theorem State.MemWf.openContainer {p c : Nat} {k : KeySet} : (s.openContainer p c k).2.2.MemWf := by
  unfold State.openContainer
  split
  · extract_lets
    split
    · exact hs.expRead.of22 ‹_›
    · split
      · exact hs.expRead.of22 ‹_›
      · split
        · exact hs.expRead.of22 ‹_›
        · split
          · split
            · split
              · exact ((hs.expRead.of22 ‹_›).expRead.of22 ‹_›).expRead.of22 ‹_›
              · split
                · exact ((hs.expRead.of22 ‹_›).expRead.of22 ‹_›).expRead.of22 ‹_›
                · exact ((hs.expRead.of22 ‹_›).expRead.of22 ‹_›).expRead.of22 ‹_›
            · exact ((hs.expRead.of22 ‹_›).expRead.of22 ‹_›).expRead.of22 ‹_›
          · exact (hs.expRead.of22 ‹_›).expRead.of22 ‹_›
  · exact hs.expRead.of22 ‹_›

theorem State.MemWf.importSnap {p c : Nat} : (s.importSnap p c).MemWf := by
  unfold State.importSnap
  extract_lets
  split
  · exact hs.expResult
  · split
    · exact hs.expResult
    · split
      · exact (hs.openContainer.of22 ‹_›).startSnap
      · exact (hs.openContainer.of22 ‹_›).startSnap

theorem State.MemWf.writeExp {p c v : Nat} : (s.writeExp p c v).MemWf := by
  unfold State.writeExp
  split
  · exact hs
  · extract_lets
    split
    · exact hs.setFld.exportSnap
    · exact hs.setFld.importSnap
    · exact hs.setFld

theorem State.MemWf.endSnap {j : SnapJob} : (s.endSnap j).MemWf := by
  unfold State.endSnap
  extract_lets
  split
  · exact hs.upd.expResult
  · exact hs.upd.hbmWrite.expResult.ite (hs.upd.expWrite.setReg.ite hs.upd.expWrite).expResult

end

end Sys2Proof.Machine
end

section
/-! SUPPORT. The canonical form through: the board tier's ports, its interleave map and its cards (R324 to R330). -/

namespace Sys2Proof.Machine
open Sys2Proof

section
variable {s : State} (hs : s.MemWf)
include hs

theorem State.MemWf.drivePerst {old : State} : (s.drivePerst old).MemWf :=
  hs.foldl fun hu => hu.ite hu.emit

theorem State.MemWf.writeBoardPort {n v : Nat} : (s.writeBoardPort n v).MemWf :=
  hs.writeMasked.drivePerst.branch (·.setFld) (·.branch (·.setFld) id)

theorem State.MemWf.writeMap {v : Nat} : (s.writeMap v).MemWf :=
  (hs.setReg.setReg.upd.ite hs.setFld).ite (hs.setFld.ite hs.setReg.setReg.upd)

theorem State.MemWf.writeBoardCard {f : Field} {i v : Nat} : (s.writeBoardCard f i v).MemWf :=
  hs.bump.ite hs.setFld

theorem State.MemWf.writeBoardCards {i v : Nat} : (s.writeBoardCards i v).MemWf :=
  hs.writeBoardCard.writeBoardCard

end

end Sys2Proof.Machine
end

section
/-! SUPPORT. The canonical form through: watchdogs, escalation and the levels of reset (R385 to R394), replay and quarantine (R395, R396), and the
training of the stacks (R294). -/

namespace Sys2Proof.Machine
open Sys2Proof

section
variable {s : State} (hs : s.MemWf)
include hs

/-! ### Training (R294) -/

theorem State.MemWf.trainChannel {t : Training} {st ch : Nat} : (s.trainChannel t st ch).MemWf :=
  hs.setReg.setReg.upd.branch id (·.alarm)

theorem State.MemWf.failStack {st : Nat} : (s.failStack st).MemWf := by
  unfold State.failStack
  exact (hs.foldl (·.setReg)).setReg.alarm

theorem State.MemWf.trainPart {t : Training} {p : Nat} : (s.trainPart t p).MemWf :=
  ((hs.zeroHbm.upd.foldl fun hu => (hu.foldl (·.trainChannel)).ite hu.failStack).foldl (·.setFld)).serveWaiting

/-! ### Escalation -/

theorem State.MemWf.resetBusy : s.resetBusy.MemWf :=
  hs.setFld

theorem State.MemWf.resetRecord {cls level p e cause : Nat} : (s.resetRecord cls level p e cause).MemWf := by
  unfold State.resetRecord
  exact hs.alarm.logRec.trace

theorem State.MemWf.stopRecords {p c : Nat} {where' : List Byte} : (s.stopRecords p c where').MemWf := by
  unfold State.stopRecords
  exact hs.logBoth.trace

theorem State.MemWf.stopCtx {p c : Nat} : (s.stopCtx p c).MemWf :=
  ((hs.fresh.foldl fun hu => hu.disableQueue.ite hu).abortOps.upd.foldl (·.killAt)).abortStep.bumpFld.alarm.stopRecords

/-! ### Suspects (R395, R396) -/

theorem State.MemWf.quarantine {n c : Nat} : (s.quarantine n c).MemWf :=
  (hs.setFld.alarm.logBoth.foldl (·.clearSuspect)).unsuspect

/-! ### Engine reset, level 2 -/

theorem State.MemWf.engineReset {p e cause : Nat} : (s.engineReset p e cause).MemWf := by
  unfold State.engineReset
  extract_lets n mine ctxs u u1 u2 u3 u4 sus u5 u6
  have h1 : u1.MemWf := hs.abortOps.emptyCache.upd
  have h2 : u2.MemWf := h1.foldl (·.endAsync)
  have h3 : u3.MemWf := h2.foldl (·.killProg)
  have h4 : u4.MemWf := h3.foldl (·.abortStep)
  have h5 : u5.MemWf := h4.foldl (·.setFld)
  have h6 : u6.MemWf := h5.upd
  exact hs.ite h6.bump.resetRecord.resetBusy.settle

/-! ### Partition reset, level 3 -/

theorem State.MemWf.startPartReset {p cause : Nat} : (s.startPartReset p cause).MemWf := by
  unfold State.startPartReset
  extract_lets u1 u2 u u3 u4
  have h2 : u2.MemWf := hs.upd.foldl (·.leaveNow)
  have h : u.MemWf := h2.stacksDown.zeroSram.clearPartRegs
  have h4 : u4.MemWf := h.upd.setReg
  exact h4.resetRecord.resetBusy

theorem State.MemWf.partReset {p cause : Nat} : (s.partReset p cause).MemWf :=
  hs.ite (hs.upd.ite hs.startPartReset)

theorem State.MemWf.dueResets : s.dueResets.MemWf :=
  hs.foldl fun hu => hu.ite hu.startPartReset

/-! ### Chip reset, level 4 -/

theorem State.MemWf.spoilOtp : s.spoilOtp.MemWf := by
  unfold State.spoilOtp
  split
  · exact hs.upd.setReg
  · exact hs

theorem State.MemWf.wipe {rs : List RegName} : (s.wipe rs).MemWf := by
  obtain ⟨-, -, -, board, host, flash, regs⟩ := hs.spoilOtp
  exact ⟨SMap.nil_wf, SMap.nil_wf, SMap.nil_wf, board, host, flash, keepRegs_rising regs⟩

theorem State.MemWf.resetChip : s.resetChip.MemWf :=
  hs.wipe.drivePerst.upd.branch (·.emit) id

theorem State.MemWf.chipReset {cause : Nat} : (s.chipReset cause).MemWf :=
  (hs.alarm.resetChip.branch id (·.setFld)).upd.logRec.resetBusy

theorem State.MemWf.rstResult {st : Status} : (s.rstResult st).MemWf :=
  hs.setFld

theorem State.MemWf.powerCycle {ack : Bool} : (s.powerCycle ack).MemWf := by
  unfold State.powerCycle
  split
  · exact hs.emit.alarm.chipReset.ite hs.emit.rstResult
  · exact hs.rstResult

/-! ### The events -/

theorem State.MemWf.writeRstReq {v : Nat} {ack : Bool} : (s.writeRstReq v ack).MemWf := by
  unfold State.writeRstReq
  extract_lets
  split
  · exact hs
  · exact hs.stopCtx.settle.rstResult.ite hs.rstResult
  · exact hs.engineReset.rstResult.ite hs.rstResult
  · exact hs.partReset.rstResult
  · exact hs.chipReset.rstResult
  · exact hs.powerCycle
  · exact hs.rstResult

end

end Sys2Proof.Machine
end

section
/-! SUPPORT. The canonical form through: the pick boundary and what is due at it (R36, R224, R229, R280, R287, R290, R367, R421), and fabric time
(R172, R173, R281 to R284, R424, R444). Times are in units of 2^−3 ns. -/

namespace Sys2Proof.Machine
open Sys2Proof

section
variable {s : State} (hs : s.MemWf)
include hs

/-! ### Handover (R229) -/

theorem State.MemWf.handover {p c : Nat} : (s.handover p c).MemWf :=
  hs.setFld.ite ((hs.upd.setFld.setFld.branch (·.followWide) id).ite hs.setFld.setFld)

/-! ### Scheduled signals (R280) -/

theorem State.MemWf.fire {x : Sched} : (s.fire x).MemWf := by
  unfold State.fire
  extract_lets
  split
  · split
    · exact hs.upd.trace.knotAdd.completeBare
    · exact hs.upd.trace.knotAdd
  · exact hs.upd.trace.knotAdd

theorem State.MemWf.fireDue : s.fireDue.MemWf :=
  hs.foldl (·.fire)

/-! ### Tables in two banks (R289 to R291, R312, R316, R376)  The switch of a table is element i: p its owner table, 8 + p its pattern cards, 16 + s
stack s's remap table, 32 the weft route table. -/

theorem State.MemWf.bankStatus {i filled : Nat} {bad : Bool} : (s.bankStatus i filled bad).MemWf :=
  hs.setFld.setFld

theorem State.MemWf.recount {i : Nat} : (s.recount i).MemWf :=
  hs.bankStatus.ite (hs.bankStatus.ite hs)

theorem State.MemWf.tableSwitch {i : Nat} : (s.tableSwitch i).MemWf :=
  hs.ite (((hs.setFld.ite hs).setFld.setFld.setFld.setFld.trace.branch (·.upd.bankStatus) (·.recount.branch (·.resendBounced) id)).ite
    (hs.setFld.ite hs).setFld.bump)

/-! ### The boundary (R283) -/

theorem State.MemWf.atBoundary : s.atBoundary.MemWf :=
  ((((((hs.dueResets.profileBoundary.ite hs.dueResets).foldl (·.closeWindows)).flips.foldl (·.handover)).fireDue.foldl (·.tableSwitch)).foldl
    (·.rotateKeys)).branch id (·.upd)).settle

theorem State.MemWf.setTime {t : Nat} : (s.setTime t).MemWf :=
  hs.setReg.setReg

theorem State.MemWf.holdPick : s.holdPick.MemWf :=
  hs.upd

theorem State.MemWf.tick : s.tick.MemWf :=
  (hs.ite hs.profileBoundary).upd

theorem State.MemWf.stepTime {t : Nat} : (s.stepTime t).MemWf :=
  hs.setTime.atBoundary.ite hs.setTime

/-! ### Lock (R173, R284) -/

theorem State.MemWf.loseLock : s.loseLock.MemWf :=
  hs.upd.ite hs.upd.setFld.setFld.bump.alarm

theorem State.MemWf.declareLock {t : Nat} : (s.declareLock t).MemWf :=
  hs.upd.setFld.setFld.branch (·.stepTime) id

theorem State.MemWf.correct {twice : Int} : (s.correct twice).MemWf :=
  hs.upd.stepTime.ite (hs.upd.ite hs)

theorem State.MemWf.exchange {twice : Int} : (s.exchange twice).MemWf :=
  (hs.upd.correct.ite hs.upd.upd).branch (·.declareLock) id

/-! ### TIME messages -/

theorem State.MemWf.rootConflict {l : Nat} : (s.rootConflict l).MemWf :=
  (hs.ite hs.setFld.alarm).upd

/-! ### The root (R282, R444) -/

theorem State.MemWf.writeTimeCfg {v : Nat} : (s.writeTimeCfg v).MemWf :=
  hs.writeMasked.upd.setFld.setTime.chooseUpstream

end

end Sys2Proof.Machine
end

section
/-! SUPPORT. The canonical form through: the power ladder and its votes (R409 to R416), supply excursions and the reset level (R418 to R423), and
the control lands (R441, R445 to R447). Domains are 0 CLK, 1 CORE, 2 HBM, 3 LINK. -/

namespace Sys2Proof.Machine
open Sys2Proof

section
variable {s : State} (hs : s.MemWf)
include hs

/-! ### Attempts (R413) -/

theorem State.MemWf.lastEvent {k abort p c d : Nat} : (s.lastEvent k abort p c d).MemWf :=
  hs.setReg

theorem State.MemWf.writeTarget {v : Nat} : (s.writeTarget v).MemWf := by
  unfold State.writeTarget
  extract_lets
  split
  · exact hs.traceVote.writeMasked
  · split
    · exact hs.traceVote.writeMasked.branch (·.setFld) id
    · split
      · exact hs.traceVote.writeMasked.setFld
      · exact (hs.traceVote.writeMasked.foldl fun hu => hu.bump.ite hu).setFld.lastEvent

theorem State.MemWf.writeHostVote {v : Nat} : (s.writeHostVote v).MemWf :=
  hs.traceVote.writeMasked

/-! ### Entry and exit (R410, R414, R415) -/

theorem State.MemWf.driveHbmEn {b : Bool} : (s.driveHbmEn b).MemWf :=
  hs.ite hs.upd.emit

theorem State.MemWf.hbmOff : s.hbmOff.MemWf :=
  ((hs.foldl (·.stacksDown)).upd.foldl (·.setReg)).driveHbmEn

theorem State.MemWf.powerTo {n : Nat} : (s.powerTo n).MemWf :=
  hs.setFld

theorem State.MemWf.wakeTo {n : Nat} : (s.wakeTo n).MemWf :=
  hs.ite (hs.powerTo.driveHbmEn.upd.ite hs.powerTo).settle

theorem State.MemWf.leaveD4 : s.leaveD4.MemWf :=
  hs.setReg.setFld.wakeTo.ite hs

/-! ### Supplies (R418 to R423) -/

theorem State.MemWf.dipFlushNow {t : Nat} : (s.dipFlushNow t).MemWf := by
  unfold State.dipFlushNow
  extract_lets
  split
  · exact hs.streamFirst.ite hs.streamFirst.upd.sendFlush
  · exact hs.streamFirst.upd.sendFlush

theorem State.MemWf.writeDip {v : Nat} : (s.writeDip v).MemWf :=
  hs.setReg.setReg.setReg.ite hs

theorem State.MemWf.supplyReset : s.supplyReset.MemWf :=
  (hs.setReg.ite hs).chipReset

theorem State.MemWf.dropLoom {d : Nat} : (s.dropLoom d).MemWf :=
  hs.setPort

/-! ### Lands (R441, R445, R447) -/

theorem State.MemWf.uncount : s.uncount.MemWf :=
  hs.setFld.ite hs

end

end Sys2Proof.Machine
end

section
/-! SUPPORT. The canonical form through: boot (R425 to R431), the flash commands (R432), and the one-time-programmable configuration (R433 to
R436). -/

namespace Sys2Proof.Machine
open Sys2Proof

section
variable {s : State} (hs : s.MemWf)
include hs

/-! ### The steps of boot (R425) -/

theorem State.MemWf.bootStage {n : Nat} : (s.bootStage n).MemWf :=
  hs.setFld

theorem State.MemWf.bootFail {cause : Nat} : (s.bootFail cause).MemWf :=
  hs.setReg.resetChip.upd.resetBusy

theorem State.MemWf.readOtp : s.readOtp.MemWf :=
  hs.setFld.setFld.setFld

theorem State.MemWf.takeImage {x : Nat} : (s.takeImage x).MemWf :=
  (hs.upd.setFld.ite hs.upd.setFld.setFld.alarm).bootStage

theorem State.MemWf.applySettings : s.applySettings.MemWf :=
  ((hs.foldl fun hu => hu.setFld.ite hu).foldl fun hu => hu.setFld.ite hu).bootStage

theorem State.MemWf.harden {refused : List (Fin 16 × Fin 256)} {st : Nat} : (s.harden refused st).MemWf :=
  hs.foldl fun hu => hu.setFld.ite hu.setFld.bump

theorem State.MemWf.bootHbm {env : BootEnv} : (s.bootHbm env).MemWf :=
  ((hs.driveHbmEn.upd.branch (·.foldl (·.harden)) id).foldl (·.trainPart)).bootStage

theorem State.MemWf.bootPorts : s.bootPorts.MemWf :=
  (hs.foldl fun hu => hu.train.ite hu).bootStage.drivePerst

theorem State.MemWf.bootDone : s.bootDone.MemWf :=
  (hs.setFld.upd.resetBusy.branch (·.alarm) id).deriveAlias.bootStage

theorem State.MemWf.bootSteps {env : BootEnv} {r n : Nat} : (s.bootSteps env r n).MemWf := by
  induction n generalizing s with
  | zero => exact hs
  | succ n ih =>
    refine hs.ite ?_
    split
    · exact ih hs.applySettings
    · split
      · exact hs.bootFail
      · exact ih hs.bootStage
    · exact hs.bootHbm.branch (·.bootFail) ih
    · exact ih hs.bootPorts
    · exact ih hs.bootStage
    · exact hs.bootDone

theorem State.MemWf.writeBootCtrl {v : Nat} : (s.writeBootCtrl v).MemWf :=
  (hs.ite hs.setFld).setFld.ite ((hs.ite hs.setFld).setFld.chipReset.ite (hs.ite hs.setFld).setFld)

/-! ### Flash commands (R432) -/

theorem State.MemWf.flashResult {st : Status} : (s.flashResult st).MemWf :=
  hs.setFld

theorem State.MemWf.writeFlashCmd {v : Nat} : (s.writeFlashCmd v).MemWf :=
  hs.ite (hs.flashResult.ite (hs.flashResult.ite (hs.flashResult.ite hs.upd.setFld)))

/-! ### OTP (R435) -/

theorem State.MemWf.otpResult {st : Status} : (s.otpResult st).MemWf :=
  hs.setFld

theorem State.MemWf.writeOtpCmd {v : Nat} {vendor : Bool} : (s.writeOtpCmd v vendor).MemWf := by
  unfold State.writeOtpCmd
  extract_lets
  split
  · exact hs
  · split
    · exact hs.otpResult
    · split
      · exact hs.otpResult
      · exact hs.otpResult.ite (hs.otpResult.ite hs.upd.setFld)

end

end Sys2Proof.Machine
end

section
/-! SUPPORT. The canonical form through: clearing alarms (R399), the log agent and its rings (R404, R406), and incident mode (R408). -/

namespace Sys2Proof.Machine
open Sys2Proof

section
variable {s : State} (hs : s.MemWf)
include hs

/-! ### Alarms -/

theorem State.MemWf.writeAlarm {cls v : Nat} : (s.writeAlarm cls v).MemWf :=
  hs.ite (hs.setFld.ite hs.setReg.setReg.setReg.setReg.setFld)

/-! ### Rings -/

theorem State.MemWf.setAt {x : RegName × Nat} {v : Nat} : (s.setAt x v).MemWf :=
  hs.setReg

theorem State.MemWf.writeRecord {r : LogRec} : (s.writeRecord r).MemWf := by
  unfold State.writeRecord
  split
  · exact hs.logLoss
  · extract_lets
    split
    · exact ((hs.hbmWrite.of2 ‹_›).branch (·.setAt.logLoss) id).setAt
    · exact (hs.hbmWrite.of2 ‹_›).logLoss

theorem State.MemWf.latchRecord : s.latchRecord.MemWf := by
  unfold State.latchRecord
  extract_lets
  split
  · exact hs.setFld
  · split
    · exact ((hs.hbmRead.of22 ‹_›).foldl (·.setReg)).setFld
    · exact (hs.hbmRead.of22 ‹_›).setFld

theorem State.MemWf.writeRd {ring v : Nat} : (s.writeRd ring v).MemWf :=
  hs.setAt.latchRecord.ite hs.setAt

theorem State.MemWf.writeRingCfg {ring v : Nat} : (s.writeRingCfg ring v).MemWf :=
  hs.writeMasked.setAt.setAt.ite hs.writeMasked

theorem State.MemWf.writeRingBase {ring v : Nat} : (s.writeRingBase ring v).MemWf :=
  hs.ite hs.setAt

end

end Sys2Proof.Machine
end

section
/-! SUPPORT. The canonical form through: the rows of Onaile together: which program state issues next (R236), the instruction word (R244, R245)
and its issue (R238, R246), and the command of each row. -/

namespace Sys2Proof.Machine
open Sys2Proof

section
variable {s : State} (hs : s.MemWf)
include hs

/-! ### Which program state issues (R236) -/

theorem State.MemWf.turnTo {p e i : Nat} : (s.turnTo p e i).MemWf :=
  hs.upd

/-! ### Issue -/

theorem State.MemWf.trapped {i : Iss} {st : Status} : (s.trapped i st).MemWf :=
  hs.setProg.progress.raise

theorem State.MemWf.issue {x : Issue} {r : Row} (hr : ∀ {i : Iss} {u : State}, u.MemWf → (r.effect i u).MemWf) : (s.issue x r).MemWf := by
  unfold State.issue
  extract_lets
  split
  · exact hs
  · refine hs.ite ?_
    split
    · have hu := hs.fetch.of22 ‹_›
      extract_lets i v
      have hv : v.MemWf := hu.turnTo
      refine State.MemWf.ite (hv.trapped.ite ?_) (hs.ite hu.turnTo.trapped)
      split
      · exact hv.trapped
      · exact hs
      · next e =>
        have hg := hr (i := i) hv
        rw [e] at hg
        exact State.MemWf.settleOne (State.MemWf.progress (State.MemWf.setProg hg))
    · exact (hs.fetch.of22 ‹_›).fresh.turnTo.trapped

end

end Sys2Proof.Machine
end

section
/-! SUPPORT. The canonical form through: accesses to registers through the BARs (R8, R11 to R17): which register lies at an offset, which function
sees it, what a write does beyond storing its fields, and the split accesses of R12. -/

namespace Sys2Proof.Machine
open Sys2Proof

section
variable {s : State} (hs : s.MemWf)
include hs

/-! ### Who sees it -/

theorem State.MemWf.atPlace {bar : Bar} {off : Nat} {d : State} {f : Nat → RegPlace → State} (hd : d.MemWf)
    (hf : ∀ {p : Nat} {x : RegPlace}, (f p x).MemWf) : (s.atPlace bar off d f).MemWf := by
  unfold State.atPlace
  split
  · refine State.MemWf.ite ?_ hd
    split
    · exact hf
    · exact hd
  · refine hs.viaTenant fun {p v} => ?_
    split
    · exact hf.ite hd
    · exact hd

/-! ### Writes -/

theorem State.MemWf.clearGroup {rs : List RegName} {i : Nat} : (s.clearGroup rs i).MemWf :=
  hs.foldl (·.setReg)

theorem State.MemWf.writeOperator {r : RegName} {i j v : Nat} {t : State} (ht : t.MemWf) : ((s.writeOperator r i j v).getD t).MemWf := by
  unfold State.writeOperator
  split
  · exact hs.writeProfile
  · exact hs.writeTarget
  · exact hs.writeHostVote
  · exact hs.writeDip
  · exact hs.writeBootCtrl
  · exact hs.writeFlashCmd
  · exact hs.writeOtpCmd
  · exact hs.writeTimeCfg
  · exact hs.writeAlarm
  · exact hs.writeRingBase
  · exact hs.writeRingCfg
  · exact hs.writeRd.some_getD
  · exact hs.writeRstReq
  · exact hs.writeMasked
  · exact hs.writeMasked
  · exact hs.writeRole
  · exact hs.writeLimit
  · exact hs.writeVeto
  · exact hs.writeAssign
  · exact hs.ite hs.writeMasked
  · exact hs.writeAdmit
  · exact hs.writeCardCmd
  · exact hs.ite hs.writeMasked.dropLines
  · exact hs.writeMasked
  · exact hs.clearGroup.ite hs
  · exact hs.clearStack
  · exact hs.writeMasked.recount.ite hs
  · exact hs.writeTg
  · exact hs.writeMap
  · exact hs.writeBoardPort
  · exact hs.writeBoardCards
  · exact hs.writePortCtrl
  · exact hs.writePair.some_getD
  · exact hs.writeMasked.riskFollow
  · exact hs.writeMasked.riskFollow
  · exact hs.writeLifecycle
  · exact hs.consent.ite hs
  · exact hs.zeroAll.ite hs
  · exact hs.setReg.submitToken.ite hs.setReg
  · split
    · exact hs.ite hs.writeMasked
    · exact ht

theorem State.MemWf.writeTenant {p : Nat} {r : RegName} {i j v : Nat} {t : State} (ht : t.MemWf) :
    ((s.writeTenant p r i j v).getD t).MemWf := by
  unfold State.writeTenant
  split
  · exact hs.writeRingBase
  · exact hs.writeRingCfg
  · exact hs.writeRd
  · exact hs.writeTail
  · exact hs.writeAck
  · exact hs.writeQueueCtrl
  · exact hs.writeMasked.ite hs
  · exact hs.writeMasked.ite hs
  · exact hs.writeHostLevel
  · exact hs.knotTo
  · exact hs.knotAdd
  · exact hs.writeMasked
  · exact hs.writeMasked.followLock
  · exact hs.setReg.ite hs
  · exact hs.clearSelected
  · exact hs.clearSelected
  · exact hs.clearSelected
  · exact hs.writeReference
  · exact hs.writeReference
  · refine hs.ite ?_
    split
    · exact hs.openCmd
    · exact hs.commitCmd
    · exact hs.vetoCmd
    · exact hs
  · exact hs.writeCursor
  · extract_lets
    split
    · exact hs.validate
    · exact hs.invalidate
    · exact hs
  · exact hs.clearSelected
  · exact hs.clearSelected
  · exact hs.clearGroup.ite hs
  · exact hs.writeSlotCtrl
  · exact hs.snapCmd
  · exact hs.writeExp
  · exact hs.writeClose
  · exact hs.writeMasked.recount.ite hs
  · exact hs.writeMasked.recount.ite hs
  · exact hs.writeMasked.recount.ite hs
  · exact hs.writeMasked.recount.ite hs
  · split
    · exact hs.writeMasked.ite hs
    · split
      · exact hs.writeMasked.ite hs
      · exact ht

theorem State.MemWf.writeReg {p : Nat} {r : RegName} {i j v : Nat} : (s.writeReg p r i j v).MemWf := by
  refine (State.MemWf.ite hs.writeMasked hs.writeMasked.setFld).ite ?_
  split
  · exact hs.writeOperator hs.writeMasked
  · exact hs.writeTenant hs.writeMasked

theorem State.MemWf.writeHalf {p : Nat} {x : RegPlace} {v : Nat} : (s.writeHalf p x v).MemWf :=
  hs.writeReg.ite (hs.upd.ite hs.upd.writeReg)

theorem State.MemWf.write32 {bar : Bar} {off v : Nat} : (s.write32 bar off v).MemWf :=
  hs.ite (hs.atPlace hs hs.writeHalf)

theorem State.MemWf.write64 {bar : Bar} {off v : Nat} : (s.write64 bar off v).MemWf :=
  hs.ite ((hs.atPlace hs hs.writeReg).ite hs.write32.write32)

/-! ### Reads -/

theorem State.MemWf.readHalf {x : RegPlace} : (s.readHalf x).MemWf := by
  unfold State.readHalf
  extract_lets
  split
  · exact hs.emit
  · split
    · exact hs.upd.emit
    · split
      · exact hs.upd.emit
      · exact hs.emit

end

end Sys2Proof.Machine
end

section
/-! SUPPORT. The canonical form through: how the instruction of a unit, or a tile of it, completes (R75, R76, R243). -/

namespace Sys2Proof.Machine
open Sys2Proof

section
variable {s : State} (hs : s.MemWf)
include hs

theorem State.MemWf.cnvTiles {p b : Nat} {w : CnvWork} {n : Nat} : (s.cnvTiles p b w n).2.MemWf := by
  induction n generalizing s w with
  | zero => exact hs
  | succ n ih => exact ih hs.cnvTile

theorem State.MemWf.leaveUnit {o : UnitOp} : (s.leaveUnit o).MemWf :=
  hs.upd.startUnit

theorem State.MemWf.tileDone {o : UnitOp} : (s.tileDone o).MemWf := by
  unfold State.tileDone
  split
  · exact hs.cnvTile.upd.ite hs
  · exact hs

theorem State.MemWf.finishWork {o : UnitOp} : (s.finishWork o).MemWf := by
  unfold State.finishWork
  split
  · exact hs.cnvTiles
  · exact hs

theorem State.MemWf.unitDone {o : UnitOp} : (s.unitDone o).MemWf := by
  unfold State.unitDone
  extract_lets u v
  have hu : u.MemWf := hs.leaveUnit.finishWork.foldl (·.post)
  have hv : v.MemWf := by
    dsimp only [v]
    split
    · exact hu.setProg
    · exact hu
  exact State.MemWf.settle (hv.ite hv.raise)

theorem State.MemWf.unitError {o : UnitOp} : (s.unitError o).MemWf :=
  hs.leaveUnit.spoilDest.bump.alarm.raise.settle

end

end Sys2Proof.Machine
end

section
/-! SUPPORT. The canonical form through the rows of Onaile: an instruction that issues keeps it (R250 to R264). An instruction that raises an
exception, or is held, answers no state. -/

namespace Sys2Proof.Machine
open Sys2Proof

/-! ### Shapes of an answer -/

section
variable {x y : Issued} {c : Prop} {d : Decidable c}

theorem Issued.MemWf.ite (hx : x.MemWf) (hy : y.MemWf) : (if c then x else y).MemWf := by
  split
  · exact hx
  · exact hy

theorem Issued.MemWf.unlessRaise {st : Status} (hx : x.MemWf) : (if c then .raise st else x).MemWf := .ite trivial hx

theorem Issued.MemWf.elseRaise {st : Status} (hx : x.MemWf) : (if c then x else .raise st).MemWf := .ite hx trivial

theorem Issued.MemWf.unlessHold (hx : x.MemWf) : (if c then .hold else x).MemWf := .ite trivial hx

end

theorem regs1_memWf {f : Iss → Prog} {i : Iss} {s : State} (hs : s.MemWf) : (regs1 f i s).MemWf := hs

section
variable {i : Iss} {s : State} (hs : s.MemWf)
include hs

theorem State.MemWf.go {g : Prog} : (Issued.go g s).MemWf := hs

omit hs in
theorem Iss.own_memWf {a n align : Nat} {write : Bool} {f : Nat → Issued} (hf : ∀ {off : Nat}, (f off).MemWf) :
    (i.own s a n align write f).MemWf := by
  unfold Iss.own
  split
  · trivial
  · exact .unlessRaise (.unlessRaise (.unlessHold hf))

omit hs in
theorem State.shuttle_memWf {st : Status} {f : Unit → Issued} (hf : (f ()).MemWf) : (s.shuttle i st f).MemWf := .unlessHold (.unlessRaise hf)

omit hs in
theorem bstep_memWf {f : State → Nat → Nat → Status × State} (hf : ∀ {p c : Nat}, (f s p c).2.MemWf) : (bstep f i s).MemWf := hf

omit hs in
theorem vecIssue_memWf {f : Issued} (hf : f.MemWf) : (vecIssue i s f).MemWf := .unlessHold hf

theorem vecFail_memWf {st : Status} : (vecFail i s st).MemWf := hs.giveUnit

theorem vecDone_memWf {r : Prog × FFlags} {reads writes : List (Nat × Nat)} : (vecDone i s r reads writes).MemWf := hs.giveUnit

/-! ### Unit instructions -/

theorem fmulIssue_memWf : (fmulIssue i s).MemWf := by
  unfold fmulIssue
  refine .unlessHold (.ite hs.giveUnit (.unlessHold (.ite hs ?_)))
  split
  have ht := hs.fmulWeights.of22 ‹_›
  exact .ite ht.giveUnit (.ite ht.giveUnit ht.writeOut.giveUnit)

theorem bwdIssue_memWf {op : BwdOp} : (bwdIssue op i s).MemWf := by
  unfold bwdIssue
  refine .unlessHold (.ite hs.giveUnit (.ite hs.giveUnit (.ite hs.giveUnit (.unlessHold (.ite hs ?_)))))
  split
  have ht := hs.bwdTiles.of22 ‹_›
  exact .ite ht.giveUnit (.ite ht.giveUnit ht.writeOut.giveUnit)

theorem cnvIssue_memWf {op : CnvOp} : (cnvIssue op i s).MemWf := by
  unfold cnvIssue
  refine .unlessHold (.ite hs.giveUnit (.unlessHold (.ite hs ?_)))
  split
  · exact hs.giveUnit
  · exact .ite hs.giveUnit hs.giveConverter

/-! ### Control and scalars (R250, R251) -/

theorem rowJmpa_memWf : (rowJmpa.effect i s).MemWf := by
  dsimp only [rowJmpa]
  split
  · exact hs
  · trivial

theorem rowLoop_memWf : (rowLoop.effect i s).MemWf := by
  dsimp only [rowLoop]
  exact regs1_memWf hs

theorem rowSop_memWf : (rowSop.effect i s).MemWf := by
  dsimp only [rowSop]
  split
  · exact hs
  · trivial

theorem rowSopi_memWf : (rowSopi.effect i s).MemWf := by
  dsimp only [rowSopi]
  split
  · exact hs
  · trivial

theorem rowSld_memWf : (rowSld.effect i s).MemWf := Iss.own_memWf hs

theorem rowSst_memWf : (rowSst.effect i s).MemWf := Iss.own_memWf hs.bobWrite

theorem rowScmp_memWf : (rowScmp.effect i s).MemWf := by
  dsimp only [rowScmp]
  split
  · exact hs
  · trivial

theorem rowAop_memWf : (rowAop.effect i s).MemWf := .unlessRaise hs

theorem rowTld_memWf : (rowTld.effect i s).MemWf := Iss.own_memWf hs

theorem rowTst_memWf : (rowTst.effect i s).MemWf := Iss.own_memWf hs.bobWrite

theorem rowTadj_memWf : (rowTadj.effect i s).MemWf := .unlessRaise hs

theorem rowSysr_memWf : (rowSysr.effect i s).MemWf := by
  refine .ite hs ?_
  split
  · exact hs.sysr.of2 ‹_›
  · trivial

theorem rowSysw_memWf : (rowSysw.effect i s).MemWf := .ite (.elseRaise hs) (.elseRaise hs)

/-! ### The shuttle (R252 to R254, R333) -/

theorem rowCopy_memWf : (rowCopy.effect i s).MemWf := .unlessRaise (State.shuttle_memWf hs.startShuttle.go)

theorem rowFillInstr_memWf : (rowFillInstr.effect i s).MemWf := by
  dsimp only [rowFillInstr]
  refine State.shuttle_memWf ?_
  exact hs.startShuttle.go

theorem rowCopyobj_memWf : (rowCopyobj.effect i s).MemWf := by
  dsimp only [rowCopyobj]
  refine State.shuttle_memWf ?_
  refine .ite hs.startShuttle.go (.unlessRaise ?_)
  split
  · have ht := hs.hbmReadAs.of22 ‹_›
    split
    · exact ht.startShuttle
    · exact ht.startShuttle
  · exact (hs.hbmReadAs.of22 ‹_›).startShuttle

/-! ### Knots, reduction, batten and time (R262 to R264) -/

theorem rowKsigLocal_memWf : (rowKsigLocal.effect i s).MemWf := .elseRaise hs.knotAdd

theorem rowKsigRemote_memWf : (rowKsigRemote.effect i s).MemWf := .unlessRaise (.unlessRaise hs.sendKnotAdd)

theorem rowKwait_memWf : (rowKwait.effect i s).MemWf := .elseRaise hs

theorem rowKread_memWf : (rowKread.effect i s).MemWf := .elseRaise hs

theorem rowRsend_memWf : (rowRsend.effect i s).MemWf := by
  dsimp only [rowRsend]
  split
  · exact .ite hs hs.rsend
  · trivial

theorem rowRscan_memWf : (rowRscan.effect i s).MemWf := by
  dsimp only [rowRscan]
  split
  · exact .ite hs hs.rscan
  · trivial

theorem rowRcalib_memWf : (rowRcalib.effect i s).MemWf := by
  dsimp only [rowRcalib]
  split
  · exact .ite hs hs.rcalib
  · trivial

theorem rowRslotOpen_memWf : (rowRslotOpen.effect i s).MemWf :=
  Iss.own_memWf (.ite hs ((hs.foldl (·.writeMasked)).ite hs).openSlot)

theorem rowRslotRelease_memWf : (rowRslotRelease.effect i s).MemWf := .ite hs hs.releaseSlot

theorem rowBstepOpen_memWf : (rowBstepOpen.effect i s).MemWf := bstep_memWf hs.openCmd

theorem rowBstepCommit_memWf : (rowBstepCommit.effect i s).MemWf := bstep_memWf hs.commitCmd

theorem rowBstepVeto_memWf : (rowBstepVeto.effect i s).MemWf := bstep_memWf hs.vetoCmd

theorem rowBstat_memWf : (rowBstat.effect i s).MemWf := .ite hs hs

theorem rowTnow_memWf : (rowTnow.effect i s).MemWf := by
  dsimp only [rowTnow]
  split
  · exact hs
  · exact hs.now
  · exact hs
  · trivial

theorem rowTsched_memWf : (rowTsched.effect i s).MemWf := .unlessRaise (.unlessHold hs.upd)

/-! ### Vectors (R258 to R261) -/

theorem rowVop_memWf : (rowVop.effect i s).MemWf := .unlessRaise (vecIssue_memWf (.ite (vecFail_memWf hs) (vecDone_memWf hs)))

theorem rowVfma_memWf : (rowVfma.effect i s).MemWf := vecIssue_memWf (vecDone_memWf hs)

theorem rowVld_memWf : (rowVld.effect i s).MemWf := vecIssue_memWf (Iss.own_memWf (vecDone_memWf hs))

theorem rowVst_memWf : (rowVst.effect i s).MemWf :=
  vecIssue_memWf (Iss.own_memWf (vecDone_memWf (hs.foldl fun hu => hu.bobWrite.ite hu)))

theorem rowVred_memWf : (rowVred.effect i s).MemWf := .unlessRaise (vecIssue_memWf (vecDone_memWf hs.fresh))

theorem rowVcvt_memWf : (rowVcvt.effect i s).MemWf := .unlessRaise (vecIssue_memWf (vecDone_memWf hs))

theorem rowVcmp_memWf : (rowVcmp.effect i s).MemWf := .unlessRaise (vecIssue_memWf (.ite (vecFail_memWf hs) (vecDone_memWf hs)))

theorem rowVsel_memWf : (rowVsel.effect i s).MemWf := vecIssue_memWf (vecDone_memWf hs)

theorem rowVbcast_memWf : (rowVbcast.effect i s).MemWf := vecIssue_memWf (vecDone_memWf hs)

theorem rowVrand_memWf : (rowVrand.effect i s).MemWf := vecIssue_memWf (.ite (vecFail_memWf hs) (vecDone_memWf hs))

end

end Sys2Proof.Machine
end

section
/-! SUPPORT. The canonical form through the commands of the block, and through its step. -/

namespace Sys2Proof.Machine
open Sys2Proof

/-- The next state of an outcome keeps the form. -/
def NextWf : Host.Outcome State Fault Refusal → Prop
  | .next t => t.MemWf
  | _ => True

section
variable {s : State} (hs : s.MemWf)
include hs

/-! ### Commands whose meaning is told by cases -/

/-- The state in which the gradients of a shard's slots have been read. -/
theorem State.MemWf.slotGrads {p c e : Nat} {st : Status} {g : Array GradSrc} {u : State} (h : s.slotGrads p c e = some (st, g, u)) : u.MemWf := by
  unfold State.slotGrads at h
  extract_lets red b0 nb slots at h
  split at h
  · cases h
  · split at h
    next e1 =>
      have h1 := hs.peerRow.of22 e1
      split at h
      next e2 =>
        cases h
        exact (h1.planeRead.ite22 h1.pair22).of22 e2

theorem execSlotClearComplete_memWf {slot : Fin 4096} : NextWf (execSlotClearComplete slot s) := by
  unfold execSlotClearComplete
  extract_lets
  split
  · exact (hs.setSlot.closeSlot.ite hs.setSlot.rematch).ite hs
  · exact hs

theorem execHoldRelease_memWf : NextWf (execHoldRelease s) := by
  unfold execHoldRelease
  split
  · exact hs.upd.matchGather.ite hs.release1
  · exact hs

theorem execHoldTimeout_memWf {n : Nat} : NextWf (execHoldTimeout n s) := by
  unfold execHoldTimeout
  split
  · exact hs.upd.answerHeld.ite hs
  · exact hs

theorem execReplyWindowExpiry_memWf {seq : W64} : NextWf (execReplyWindowExpiry seq s) := by
  unfold execReplyWindowExpiry
  split
  · exact hs.upd
  · exact hs

theorem execWidenCopyComplete_memWf {p : Fin 8} {layer : Fin 4096} : NextWf (execWidenCopyComplete p layer s) := by
  unfold execWidenCopyComplete
  split
  · exact hs
  · split
    · exact hs
    · split
      · exact hs.setFld.releaseWide
      · split
        · exact (hs.packWide.of2 ‹_›).widened
        · exact hs.packWide.of2 ‹_›
        · exact (hs.packWide.of2 ‹_›).vetoStep

theorem execQueryDeadline_memWf {c : CtxId} : NextWf (execQueryDeadline c s) := by
  unfold execQueryDeadline
  extract_lets
  split
  · exact hs.setFld.settle.ite hs
  · exact hs

theorem execTrainingComplete_memWf {port : Fin 17} {r : TrainEnd} : NextWf (execTrainingComplete port r s) := by
  unfold execTrainingComplete
  extract_lets
  split
  · exact hs
  · split
    · split
      · exact hs.setLanes.linkTo
      · exact hs.setLanes.linkTo
    · exact hs.linkTo

theorem execShardUpdate_memWf {p : Fin 8} {entry : Fin 4096} : NextWf (execShardUpdate p entry s) := by
  unfold execShardUpdate
  extract_lets
  split
  · exact hs
  · refine hs.ite (hs.ite (hs.waitOnce.ite (hs.waitOnce.ite ?_)))
    split
    · split
      · exact hs
      · exact (hs.slotGrads ‹_›).updateShard
      · exact (hs.slotGrads ‹_›).vetoStep
    · split
      · exact (hs.hbmRead.of22 ‹_›).branch (·.battenBad) (·.updateShard)
      · exact (hs.hbmRead.of22 ‹_›).vetoStep

theorem execShuttleComplete_memWf {op : Nat} {err : Bool} : NextWf (execShuttleComplete op err s) := by
  unfold execShuttleComplete
  split
  · split
    · exact hs.moveBytes.endAsync
    · exact hs.moveBytes.endAsync
    · exact hs
  · exact hs

theorem execKsigRemoteComplete_memWf {op : Nat} : NextWf (execKsigRemoteComplete op s) := by
  unfold execKsigRemoteComplete
  split
  · exact hs.upd.endAsync.ite hs
  · exact hs

theorem execSendComplete_memWf {op : Nat} : NextWf (execSendComplete op s) := by
  unfold execSendComplete
  split
  · split
    · exact hs.ite (hs.alarm.ite hs).endAsync
    · exact hs
  · exact hs

theorem execScanComplete_memWf {op : Nat} : NextWf (execScanComplete op s) := by
  unfold execScanComplete
  split
  · split
    · exact (hs.setStep.ite hs).endAsync
    · exact hs
  · exact hs

theorem execCommandFetch_memWf {x : QueueId} {err : Bool} : NextWf (execCommandFetch x err s) := by
  unfold execCommandFetch
  extract_lets
  refine hs.ite (hs.queueError.ite ?_)
  split
  have ht := (hs.pair22.ite22 hs.hbmRead).of22 ‹_›
  split
  · exact ht.joinRing
  · exact ht.queueError
  · exact ht.queueError

theorem execLaunchComplete_memWf {x : QueueId} : NextWf (execLaunchComplete x s) := by
  unfold execLaunchComplete
  extract_lets
  split
  · exact hs
  · exact hs.complete.knotAdd.ite hs.complete

theorem execPassClose_memWf {x : QueueId} : NextWf (execPassClose x s) :=
  hs.startCmd (fun hu => by
      split
      · exact hu.progress.upd.completeBare
      · exact hu.progress.completeBare)

theorem execPromoteComplete_memWf {c : CtxId} : NextWf (execPromoteComplete c s) := by
  unfold execPromoteComplete
  extract_lets
  split
  · exact hs
  · extract_lets u
    have hu : u.MemWf := State.MemWf.setFld hs.upd
    split
    next e1 =>
      split
      next e2 =>
        refine ((hu.promoted.of2 e1).foldl2_eq e2 fun hv => hv.ite2 ?_).snapResult
        split
        · exact hv
        · exact hv.hbmWrite

theorem execLaneRepairComplete_memWf {stack : Fin 16} {ch : Fin 32} : NextWf (execLaneRepairComplete stack ch s) := by
  unfold execLaneRepairComplete
  extract_lets
  split
  · exact hs
  · exact hs.upd.setFld.setFld.bump.serveWaiting

theorem execSoftRepairComplete_memWf {stack : Fin 16} : NextWf (execSoftRepairComplete stack s) := by
  unfold execSoftRepairComplete
  split
  · exact hs
  · extract_lets u
    have hu : u.MemWf := State.MemWf.rewriteRow hs.upd
    exact (hu.getD hu.putRepair).bump.serveWaiting

theorem execCardCommandComplete_memWf {p : Fin 8} : NextWf (execCardCommandComplete p s) := by
  unfold execCardCommandComplete
  extract_lets q shadow u v w
  have hv : v.MemWf := (State.MemWf.setFld hs.upd).setFld
  have hw : w.MemWf := hv.upd
  split
  · exact hs
  · refine State.MemWf.ite ?_ hw.setFld.setFld
    exact State.MemWf.upd (hv.fillCards.bumpFld.branch (·.setFld) id)

theorem execTgRunComplete_memWf {stack : Fin 16} {ch : Fin 32} {flips : List Flip} : NextWf (execTgRunComplete stack ch flips s) := by
  unfold execTgRunComplete
  extract_lets
  split
  split
  · exact hs
  · exact (hs.fresh.of2 ‹_›).zeroRows.tgFound.upd.setReg.serveWaiting

theorem execSramSweep_memWf {p : Fin 8} {e : SramError} : NextWf (execSramSweep p e s) := by
  unfold execSramSweep
  split
  · exact hs
  · exact hs.sramCount
  · exact hs.sramLost

theorem execKeyExchange_memWf {f : SpdmFunc} {sid : W32} {key : Option (List Byte)} : NextWf (execKeyExchange f sid key s) := by
  unfold execKeyExchange
  split
  · exact hs.spdm.ite (hs.refuseSession.ite (hs.upd.setFld.openSession.ite (hs.openSession.ite hs.refuseSession)))
  · exact hs.spdm.ite hs.refuseSession
  · exact hs.openSession

theorem execFinish_memWf {f : SpdmFunc} {sid : W32} {ok : Bool} : NextWf (execFinish f sid ok s) := by
  unfold execFinish
  split
  · exact hs.setSession.spdmStd.ite hs.upd.spdm
  · exact hs.spdm

theorem execKeyUpdate_memWf {f : SpdmFunc} {sid : W32} : NextWf (execKeyUpdate f sid s) := by
  unfold execKeyUpdate
  split
  · exact hs.freshBytes.setSession.spdmStd.ite hs.spdm
  · exact hs.spdm

theorem execEndSession_memWf {f : SpdmFunc} {sid : W32} : NextWf (execEndSession f sid s) := by
  unfold execEndSession
  split
  · exact hs.upd.spdmStd
  · exact hs.spdm

theorem execSnapCommandComplete_memWf {c : CtxId} : NextWf (execSnapCommandComplete c s) := by
  unfold execSnapCommandComplete
  split
  · exact hs.endSnap
  · exact hs

theorem execBtierPortTraining_memWf {n : Fin 4} {r : CxlEnd} : NextWf (execBtierPortTraining n r s) := by
  unfold execBtierPortTraining
  extract_lets k u
  have hu : u.MemWf := hs.bump.alarm.ite hs
  refine hs.ite ?_
  split
  · exact hu.setReg.alarm
  · exact hu.setReg.branch (·.alarm) id
  · exact hu.setReg.setReg

theorem execBtierReadTimeout_memWf {op : Nat} {n : Fin 4} : NextWf (execBtierReadTimeout op n s) := by
  unfold execBtierReadTimeout
  split
  · split
    · split
      · exact hs.moveBytes.endAsync
      · exact hs
    · exact hs
  · exact hs

theorem execContextWatchdog_memWf {c : CtxId} : NextWf (execContextWatchdog c s) := by
  unfold execContextWatchdog
  refine hs.ite (State.MemWf.settle ?_)
  split
  · exact hs.stopCtx.quarantine
  · exact hs.stopCtx

theorem execUnitWatchdog_memWf {e : EngineId} : NextWf (execUnitWatchdog e s) := by
  unfold execUnitWatchdog
  extract_lets
  split
  · exact hs
  · split
    · exact hs.stopCtx.quarantine.engineReset
    · exact hs.engineReset

theorem execReplayClear_memWf {e : EngineId} : NextWf (execReplayClear e s) := by
  unfold execReplayClear
  extract_lets
  split
  · exact hs.clearSuspect.nextReplay
  · exact hs

theorem execTimeMsg_memWf {port : Fin 16} {m : TimeMsg} : NextWf (execTimeMsg port m s) := by
  unfold execTimeMsg
  extract_lets l last s1 s2 s3 src s4 up t
  have h2 : s2.MemWf := hs.setFld.setFld.rootConflict.ite hs.setFld.setFld
  have ht : t.MemWf := h2.chooseUpstream.setPort.branch (·.setReg) id
  clear_value last t
  refine hs.ite ?_
  split
  · exact ht.setFld.branch (·.exchange) id
  · exact ht

theorem execExcursionEnd_memWf {rail : Fin 16} {minMv mv : BitVec 16} {us : W32} : NextWf (execExcursionEnd rail minMv mv us s) := by
  unfold execExcursionEnd
  extract_lets
  split
  · exact hs
  · exact hs.now.setFld.setFld.setReg.setReg.setReg.upd

theorem execBootStart_memWf {env : BootEnv} : NextWf (execBootStart env s) := by
  unfold execBootStart
  extract_lets n t u
  have hu : u.MemWf := (hs.ite hs.setFld).readOtp
  refine hs.ite (hs.readOtp.setFld.bootStage.upd.resetBusy.ite ?_)
  refine hu.bootSteps.ite (hu.bootFail.ite (hu.bootFail.ite (hu.bootStage.ite (hu.bootFail.ite ?_))))
  split
  · exact hu.takeImage.bootSteps
  · exact hu.bootFail

theorem execFlashCommandComplete_memWf : NextWf (execFlashCommandComplete s) := by
  unfold execFlashCommandComplete
  split
  · exact hs
  · refine hs.upd.setFld.flashResult.branch (·.withFlash (SMap.clearRange_wf · ..)) (·.branch (·.withFlash fun hm => ?_) (·.foldl (·.setReg)))
    exact List.foldlRecOn (motive := SMap.Wf fun _ => (0xFF : Byte)) _ _ hm fun _ hu _ _ => SMap.set_wf hu ..

theorem execOtpProgramComplete_memWf : NextWf (execOtpProgramComplete s) := by
  unfold execOtpProgramComplete
  split
  · exact hs
  · exact (hs.upd.foldl (·.setReg)).setReg.setFld.otpResult

theorem execRecordWriteOut_memWf {ring : Fin 9} : NextWf (execRecordWriteOut ring s) := by
  unfold execRecordWriteOut
  split
  · exact hs.upd.writeRecord
  · exact hs

theorem execLogRdWrite_memWf {bar : Bar} {v : W64} : NextWf (execLogRdWrite bar v s) := by
  unfold execLogRdWrite
  split
  · exact hs.writeRd
  · exact hs.viaPhysical hs.writeRd

theorem execLogEnable_memWf {bar : Bar} {v : W32} : NextWf (execLogEnable bar v s) := by
  unfold execLogEnable
  extract_lets
  split
  · exact hs.writeRingCfg
  · exact hs.viaPhysical hs.writeRingCfg

theorem execCoalesceFlush_memWf {n : Nat} : NextWf (execCoalesceFlush n s) := by
  unfold execCoalesceFlush
  split
  · exact hs.upd.writeEntry
  · exact hs

theorem execUnitInstructionComplete_memWf {e : EngineId} {u : EngUnit} {r : UnitEnd} : NextWf (execUnitInstructionComplete e u r s) := by
  unfold execUnitInstructionComplete
  split
  · exact hs
  · split
    · exact hs.tileDone
    · exact hs.unitDone
    · exact hs.unitError

/-! ### Every command -/

/-- A command that is not named above applies its operations one after another. -/
theorem exec_memWf {c : Instr} : NextWf (exec c s) := by
  cases c with
  | registerWrite => exact hs.write64.ite hs.write32
  | splitWriteLow => exact hs.write32
  | splitWriteHigh => exact hs.write32
  | splitReadLow => exact have ht := State.MemWf.ite hs (hs.atPlace hs hs.readHalf); ht.emit.ite ht
  | profileRequest => exact hs.writeProfile
  | roleWrite => exact hs.writeRole
  | clockLimitWrite => exact hs.writeLimit
  | pickBoundary => exact hs.holdPick.ite hs.setTime.atBoundary
  | clockChangeComplete => exact hs.setFld
  | thermalForce => exact hs.upd.forceClock.branch id (·.alarm)
  | packAct => exact hs.issue (cnvIssue_memWf ·)
  | packWgtInit => exact hs.issue (cnvIssue_memWf ·)
  | packWgt => exact hs.issue (cnvIssue_memWf ·)
  | unpack => exact hs.issue (cnvIssue_memWf ·)
  | rotate => exact hs.issue (cnvIssue_memWf ·)
  | round => exact hs.issue (cnvIssue_memWf ·)
  | cnvCounterClear => exact hs.viaPhysical hs.clearSelected
  | cnvFaultClear => exact hs.viaPhysical (hs.setReg.ite hs)
  | fmul => exact hs.issue fmulIssue_memWf
  | dgrad => exact hs.issue (bwdIssue_memWf ·)
  | wgrad => exact hs.issue (bwdIssue_memWf ·)
  | matmulBf16 => exact hs.issue (bwdIssue_memWf ·)
  | unitInstructionComplete => exact execUnitInstructionComplete_memWf hs
  | widenCopyComplete => exact execWidenCopyComplete_memWf hs
  | tenReferenceWrite => exact hs.viaPhysical hs.writeReference
  | tenFwdCounterClear => exact hs.viaPhysical hs.clearSelected
  | tenBwdCounterClear => exact hs.viaPhysical hs.clearSelected
  | portEnable => exact hs.writePortCtrl
  | partnerSignalDetect => exact hs.train.ite hs
  | trainingComplete => exact execTrainingComplete_memWf hs
  | trainingTimeout => exact hs.linkTo.ite hs
  | negotiateSend => exact hs.sendFlit.ite hs
  | negotiate => exact hs.ite (hs.setPort.linkTo.branch (·.alarm) (·.alarm.ite (hs.setPort.setPartner.branch (·.linkOpen) id)))
  | negotiateTimeout => exact hs.linkTo.alarm.ite hs
  | flitReceive => exact hs.ite ((hs.bump.ite hs).linkFault.branch (·.sendFlit) (·.setPort.branch (·.idleFlit) (·.pump)))
  | retryReq => exact hs.ite (hs.bump.ite hs).linkFault.upd
  | retrain => exact hs.retrain.ite hs
  | retrainComplete => exact hs.ite (hs.endRetrain.twinLost.ite hs.endRetrain)
  | timeSend => exact hs.ite hs.now.sendFlit
  | timeMsg => exact execTimeMsg_memWf hs
  | upstreamLoss => exact hs.upd.setFld.chooseUpstream.ite hs
  | fabricLockLoss => exact hs.ite hs.loseLock
  | statusPacket => exact hs.receive (·.matchStatus)
  | reduce => exact hs.receive (·.matchRed)
  | drop => exact hs.receive (·.matchRed)
  | calib => exact hs.receive (·.matchRed)
  | expmax => exact hs.receive (·.matchExpmax)
  | expset => exact hs.receive (·.matchExpset)
  | gather => exact hs.receive (·.matchGather)
  | remoteKnotAdd => exact hs.receive (·.remoteAdd)
  | signal => exact hs.receive (·.matchSignal)
  | veto => exact hs.receive (·.matchVeto)
  | outcome => exact hs.receive (·.matchOutcome)
  | query => exact hs.receive (·.matchQuery)
  | answer => exact hs.receive (·.matchOutcome)
  | slotOpen => exact hs.viaPhysical hs.writeSlotCtrl
  | slotClearComplete => exact execSlotClearComplete_memWf hs
  | slotRelease => exact hs.viaPhysical hs.writeSlotCtrl
  | sumCheckComplete => exact hs.sumCheck
  | holdRelease => exact execHoldRelease_memWf hs
  | holdTimeout => exact execHoldTimeout_memWf hs
  | replyWindowExpiry => exact execReplyWindowExpiry_memWf hs
  | redCounterClear => exact hs.viaPhysical hs.clearSelected
  | windowCloseWrite => exact hs.viaPhysical hs.writeClose
  | validate => exact hs.viaPhysical hs.validate
  | invalidate => exact hs.viaPhysical hs.invalidate
  | stepOpen => exact hs.stepWrite hs.openCmd
  | stepCommit => exact hs.stepWrite hs.commitCmd
  | stepVeto => exact hs.stepWrite hs.vetoCmd
  | shardUpdate => exact execShardUpdate_memWf hs
  | commitSignal => exact hs.sendCommit.setStep.setStepStatus.ite hs
  | commitDeadline => exact hs.sendCommit.setStep.ite hs
  | queryDeadline => exact execQueryDeadline_memWf hs
  | commitVeto => exact hs.writeVeto
  | batCounterClear => exact hs.viaPhysical hs.clearSelected
  | nopInstr => exact hs.issue id
  | br => exact hs.issue id
  | jmpa => exact hs.issue rowJmpa_memWf
  | call => exact hs.issue id
  | loop => exact hs.issue rowLoop_memWf
  | waitu => exact hs.issue id
  | yield => exact hs.issue id
  | endProgram => exact hs.issue id
  | sop => exact hs.issue rowSop_memWf
  | sopi => exact hs.issue rowSopi_memWf
  | sli => exact hs.issue id
  | sld => exact hs.issue rowSld_memWf
  | sst => exact hs.issue rowSst_memWf
  | scmp => exact hs.issue rowScmp_memWf
  | aop => exact hs.issue rowAop_memWf
  | aget => exact hs.issue id
  | tld => exact hs.issue rowTld_memWf
  | tst => exact hs.issue rowTst_memWf
  | tadj => exact hs.issue rowTadj_memWf
  | sysr => exact hs.issue rowSysr_memWf
  | sysw => exact hs.issue rowSysw_memWf
  | copy => exact hs.issue rowCopy_memWf
  | copyobj => exact hs.issue rowCopyobj_memWf
  | fillInstr => exact hs.issue rowFillInstr_memWf
  | waits => exact hs.issue id
  | shuttleComplete => exact execShuttleComplete_memWf hs
  | vop => exact hs.issue rowVop_memWf
  | vfma => exact hs.issue rowVfma_memWf
  | vld => exact hs.issue rowVld_memWf
  | vst => exact hs.issue rowVst_memWf
  | vred => exact hs.issue rowVred_memWf
  | vcvt => exact hs.issue rowVcvt_memWf
  | vcmp => exact hs.issue rowVcmp_memWf
  | vsel => exact hs.issue rowVsel_memWf
  | vbcast => exact hs.issue rowVbcast_memWf
  | vrand => exact hs.issue rowVrand_memWf
  | ksigLocal => exact hs.issue rowKsigLocal_memWf
  | ksigRemote => exact hs.issue rowKsigRemote_memWf
  | ksigRemoteComplete => exact execKsigRemoteComplete_memWf hs
  | kwait => exact hs.issue rowKwait_memWf
  | kread => exact hs.issue rowKread_memWf
  | rsend => exact hs.issue rowRsend_memWf
  | sendComplete => exact execSendComplete_memWf hs
  | rscan => exact hs.issue rowRscan_memWf
  | scanComplete => exact execScanComplete_memWf hs
  | rcalib => exact hs.issue rowRcalib_memWf
  | rslotOpen => exact hs.issue rowRslotOpen_memWf
  | rslotRelease => exact hs.issue rowRslotRelease_memWf
  | bstepOpen => exact hs.issue rowBstepOpen_memWf
  | bstepCommit => exact hs.issue rowBstepCommit_memWf
  | bstepVeto => exact hs.issue rowBstepVeto_memWf
  | bstat => exact hs.issue rowBstat_memWf
  | bcursorReadCommitted => exact hs.issue id
  | bcursorReadProvisional => exact hs.issue id
  | bcursorWrite => exact hs.issue (·.writeCursor)
  | tnow => exact hs.issue rowTnow_memWf
  | twaitp => exact hs.issue id
  | tsched => exact hs.issue rowTsched_memWf
  | doorbell => exact hs.viaTenant (hs.writeTail.ite hs)
  | cplAck => exact hs.viaTenant (hs.writeAck.ite hs)
  | queueEnable => exact hs.viaTenant (hs.writeQueueCtrl.ite hs)
  | queueDisable => exact hs.viaTenant (hs.writeQueueCtrl.ite hs)
  | hostLevelWrite => exact hs.viaTenant (hs.writeHostLevel.ite hs)
  | commandFetch => exact execCommandFetch_memWf hs
  | nopCommand => exact hs.startCmd (·.progress.completeBare)
  | launch => exact hs.startCmd (fun hu => hu.progress.completeBare.ite (hu.placeCopies.progress.setCmd.ite hu.placeCopies.blockCmd))
  | launchComplete => exact execLaunchComplete_memWf hs
  | kwaitCommand => exact hs.startCmd (fun hu => hu.progress.completeBare.ite (hu.progress.completeBare.ite hu.progress.setCmd))
  | ksigCommand => exact hs.startCmd (fun hu => (hu.progress.completeBare.ite (hu.progress.completeBare.ite hu.progress.setCmd.sendKnotAdd)).ite
      (hu.progress.knotAdd.completeBare.ite hu.progress.completeBare))
  | tsig => exact hs.startCmd (fun hu => hu.progress.completeBare.ite (hu.blockCmd.ite hu.progress.setCmd.upd))
  | passOpen => exact hs.startCmd (fun hu => hu.blockCmd.ite hu.progress.upd.completeBare)
  | passClose => exact execPassClose_memWf hs
  | mstepClose => exact hs.startCmd (fun hu => hu.progress.closeMicro.completeBare.ite hu.progress.completeBare)
  | knotWrite => exact hs.viaTenant (hs.knotTo.ite hs)
  | knotAdd => exact hs.viaTenant (hs.knotAdd.ite hs)
  | hbmRead => exact hs.turn.request
  | hbmWrite => exact hs.turn.request
  | laneRepair => exact hs.ite (hs.upd.ite (hs.ite hs.upd.alarm))
  | softRepairComplete => exact execSoftRepairComplete_memWf hs
  | tempReadout => exact hs.ite hs.setFld
  | scrubRead => exact hs.ite ((hs.scrubBlock.scrubBlock.upd.branch (·.setReg) id).branch (·.bump.upd) id)
  | tgStart => exact hs.writeTg
  | tgStop => exact hs.writeTg
  | tgRunComplete => exact execTgRunComplete_memWf hs
  | hbmCounterClear => exact hs.clearStack
  | ceRateCheck => exact hs.upd.alarm.ite hs.upd
  | sramSweep => exact execSramSweep_memWf hs
  | cardFill => exact hs.writeCardCmd
  | copyActive => exact hs.writeCardCmd
  | cardCommandComplete => exact execCardCommandComplete_memWf hs
  | btierPortTraining => exact execBtierPortTraining_memWf hs
  | mapBuild => exact hs.writeMap
  | mapDisable => exact hs.writeMap
  | btierCardWrite => exact hs.writeBoardCards
  | btierReadTimeout => exact execBtierReadTimeout_memWf hs
  | btierPortFail => exact hs.setFld.alarm.ite hs.setFld
  | pairAdmit => exact hs.writePair
  | heartbeatSend => exact hs.heartbeat.ite hs
  | heartbeat => exact hs.ite (hs.ack.ite (hs.ack.ite hs.bump.upd))
  | twinLoss => exact hs.twinLost.ite hs
  | mirror => exact hs.receiveSelvage fun hu => hu.forPeer hu.storeMirror
  | delta => exact hs.receiveSelvage fun hu => hu.forPeer hu.storeDelta
  | record => exact hs.receiveSelvage fun hu => hu.forPeer hu.storeRecord
  | point => exact hs.receiveSelvage fun hu => hu.forPeer hu.takePoint
  | decision => exact hs.receiveSelvage (·.takeDecision)
  | ack => exact hs.receiveSelvage (·.takeAck)
  | flush => exact hs.receiveSelvage (·.foldl (·.fold))
  | fold => exact hs.fold.ite hs
  | riskDecay => exact hs.ite hs.upd.riskFollow
  | twinElevated => exact hs.alarm.ite hs
  | resolveCommit => exact hs.viaPhysical hs.snapCmd
  | resolveAbort => exact hs.viaPhysical hs.snapCmd
  | rollback => exact hs.viaPhysical hs.snapCmd
  | promote => exact hs.viaPhysical hs.snapCmd
  | promoteComplete => exact execPromoteComplete_memWf hs
  | restore => exact hs.viaPhysical hs.snapCmd
  | getVersion => exact hs.spdmStd
  | getCapabilities => exact hs.spdmStd
  | negotiateAlgorithms => exact hs.spdmStd.ite hs.spdm
  | getDigests => exact hs.spdm
  | getCertificate => exact hs.spdm
  | challenge => exact hs.upd.spdm
  | getMeasurements => exact hs.spdm.ite (hs.spdm.ite (hs.spdm.ite hs.spdm))
  | keyExchange => exact execKeyExchange_memWf hs
  | finish => exact execFinish_memWf hs
  | keyUpdate => exact execKeyUpdate_memWf hs
  | endSession => exact execEndSession_memWf hs
  | jobKeysSet => exact hs.custodyMsg hs.keysSet
  | jobKeysRotate => exact hs.custodyMsg hs.keysRotate
  | jobEnd => exact hs.custodyMsg hs.jobEnd
  | policySet => exact hs.custodyMsg hs.policySet
  | custodyStatus => exact hs.custodyMsg hs
  | retiredKeyRelease => exact hs.upd
  | lifecycleAdvance => exact hs.writeLifecycle
  | partAssign => exact hs.writeAssign
  | zeroise => exact hs.writeAssign
  | zeroAll => exact hs.zeroAll.ite hs
  | zeroisationComplete => exact hs.ite (hs.zeroPart.setFld.setFld.branch (·.upd.setFld) id)
  | admission => exact hs.writeAdmit
  | leave => exact hs.writeAdmit
  | leaveComplete => exact hs.freeCtx.ite hs
  | jobTeardown => exact hs.ite (hs.foldl (·.zeroPage)).dropBoardCards.setReg.upd
  | exportSnap => exact hs.viaPhysical hs.writeExp
  | importSnap => exact hs.viaPhysical hs.writeExp
  | snapCommandComplete => exact execSnapCommandComplete_memWf hs
  | consent => exact hs.consent.ite hs
  | debugToken => exact hs.setReg.submitToken
  | consentExpiry => exact hs.debugTo.ite hs
  | contextWatchdog => exact execContextWatchdog_memWf hs
  | drainExpiry => exact (hs.ite (hs.foldl (·.engineReset))).upd
  | unitWatchdog => exact execUnitWatchdog_memWf hs
  | engineResetComplete => exact hs.upd.resetBusy.nextReplay.ite hs
  | engineResetTimeout => exact hs.ite (hs.partReset.ite hs.upd.resetBusy.setReg)
  | progressWatchdog => exact hs.partReset.ite hs
  | partitionResetComplete => exact hs.ite (hs.upd.resetBusy.foldl fun hu => hu.freeCtx.ite hu).trainPart
  | partitionResetTimeout => exact hs.ite (hs.chipReset.ite hs.upd.resetBusy.setFld.setFld)
  | mgmtWatchdog => exact hs.upd.alarm.bumpFld
  | contextStopRequest => exact hs.writeRstReq
  | engineResetRequest => exact hs.writeRstReq
  | partitionResetRequest => exact hs.writeRstReq
  | chipResetRequest => exact hs.writeRstReq
  | powerCycleRequest => exact hs.writeRstReq
  | replayClear => exact execReplayClear_memWf hs
  | alarmClear => exact hs.writeAlarm
  | recordWriteOut => exact execRecordWriteOut_memWf hs
  | logRdWrite => exact execLogRdWrite_memWf hs
  | logEnable => exact execLogEnable_memWf hs
  | coalesceFlush => exact execCoalesceFlush_memWf hs
  | incidentExit => exact hs.ite (hs.upd.setFld.foldl (·.writeEntry))
  | entryAttempt => exact hs.writeTarget
  | hostVote => exact hs.writeHostVote
  | powerEntry => exact hs.ite ((hs.hbmOff.ite hs).setFld.bump.lastEvent.powerTo.wakeTo.ite ((hs.hbmOff.ite hs).powerTo.branch (·.setFld) id))
  | powerExit => exact hs.ite (hs.wakeTo.setFld.ite hs.wakeTo)
  | wakeLand => exact hs.leaveD4
  | i3cWake => exact hs.leaveD4
  | excursionStart => exact hs.ite hs.now.setFld.setFld.bumpFld.upd.forceClock.alarm.dipFlushNow
  | excursionEnd => exact execExcursionEnd_memWf hs
  | resetLevelCrossing => exact hs.ite ((hs.upd.setFld.dropLoom.ite hs.upd.setFld).branch (·.supplyReset) id)
  | supplyChipReset => exact hs.supplyReset.ite hs
  | dipClear => exact hs.writeDip
  | refclkLoss => exact hs.upd.loseLock.ite hs
  | refclkHoldoverExpiry => exact (hs.upd.foldl (·.linkTo)).ite hs
  | refclkReturn => exact (hs.upd.foldl fun hu => hu.train.ite hu).ite hs.upd
  | bootStart => exact execBootStart_memWf hs
  | bootTimeout => exact hs.ite ((hs.setReg.powerCycle.ite hs.setReg).branch id (·.bootFail))
  | retry => exact hs.writeBootCtrl
  | flashErase => exact hs.writeFlashCmd
  | flashProgram => exact hs.writeFlashCmd
  | flashRead => exact hs.writeFlashCmd
  | flashCommandComplete => exact execFlashCommandComplete_memWf hs
  | smbusReadByte => exact hs.ite (hs.emit.ite (hs.emit.ite (hs.emit.ite hs)))
  | otpProgram => exact hs.writeOtpCmd
  | otpProgramComplete => exact execOtpProgramComplete_memWf hs
  | thermalTrip => exact hs.ite hs.alarm.uncount.resetChip.upd.setFld.emit
  | resetN => exact hs.ite (hs.uncount.chipReset.branch (·.upd.emit) id)
  | pciePerst => exact (hs.upd.foldl (·.queueError)).foldl (·.foldl (·.setReg))
  | pciePerstRelease => exact hs.upd
  | powerOnReset => exact hs.wipe.drivePerst.upd.branch (·.emit) id
  | vaonUp => exact hs.upd
  | ppsIn => exact hs.ite (hs.correct.ite hs.alarm)
  | ppsOut => exact hs.emit
  | hbmPg => exact (hs.upd.upd.foldl (·.trainPart)).ite hs.upd
  | laneRepairComplete => exact execLaneRepairComplete_memWf hs
  | ieee1588Message => exact hs.setFld.ite (hs.setFld.loseLock.ite (hs.setFld.correct.declareLock.ite hs.setFld.declareLock))
  | functionReset => exact hs.setReg
  | junctionTemperature => exact hs.now.upd.riskFollow

end

/-- Settles O4: the operations of the model keep the form one by one, so a command does, and so does a microsecond without one. -/
theorem stepKeepsMemWf : Obligations.StepKeepsMemWf := by
  unfold Obligations.StepKeepsMemWf
  intro s t hs h
  cases hq : s.pending with
  | nil =>
    simp only [step, hq] at h
    cases h
    exact hs.tick
  | cons c rest =>
    have hu : State.MemWf { s with pending := rest } := hs.upd
    have hx : NextWf (exec c { s with pending := rest }) := exec_memWf hu
    simp only [step, hq] at h
    rw [h] at hx
    exact hx

end Sys2Proof.Machine
end

/-! End of the canonical form of the memories. -/

end

section
/-! SUPPORT. The rows of the weft's packet types (R178, R278), and a packet whose tag does not verify (R167, R179). -/

namespace Sys2Proof.Machine
open Sys2Proof

/-! ### Fields of a word -/

theorem bits_setBits_self (x lo len v : Nat) : bits (setBits x lo len v) lo len = v % 2 ^ len := by
  have hsplit : setBits x lo len v = x % 2 ^ lo + 2 ^ lo * (v % 2 ^ len + x / 2 ^ (lo + len) * 2 ^ len) := by
    unfold setBits
    ring
  rw [bits, hsplit, Nat.add_mul_div_left _ _ (Nat.two_pow_pos lo), Nat.div_eq_of_lt (Nat.mod_lt _ (Nat.two_pow_pos lo)), Nat.zero_add,
    Nat.add_mul_mod_self_right, Nat.mod_mod]

/-- A field that lies in the low `w` bits of a word is that of the word cut to them. -/
theorem bits_mod_two_pow {w lo len : Nat} (x : Nat) (h : lo + len ≤ w) : bits (x % 2 ^ w) lo len = bits x lo len := by
  obtain ⟨d, rfl⟩ := Nat.exists_eq_add_of_le h
  rw [bits, bits, Nat.add_assoc, Nat.pow_add, Nat.mod_mul_right_div_self, Nat.mod_mod_of_dvd _ (Nat.pow_dvd_pow 2 (Nat.le_add_right len d))]

/-- A field of a 64-bit word after it has been set. -/
theorem bits_ofNat_setBits {lo len : Nat} (x v : Nat) (h : lo + len ≤ 64) :
    bits (BitVec.ofNat 64 (setBits x lo len v)).toNat lo len = v % 2 ^ len := by
  rw [BitVec.toNat_ofNat, bits_mod_two_pow _ h, bits_setBits_self]

/-! ### The packets of a row -/

theorem pkType_asType {t : Nat} {k : Packet} (h : pkType k < 8) : pkType (asType t k) = t % 16 := by
  rw [asType, if_neg (Nat.not_le.mpr h)]
  exact bits_ofNat_setBits _ _ (by decide)

theorem asType_reserved {t : Nat} {k : Packet} (h : 8 ≤ pkType k) : asType t k = k := if_pos h

/-- A packet that passes the level check has the type of its row. -/
theorem pkType_asType_of_levelOk {t : Nat} {k : Packet} (h : pkLevelOk (asType t k) = true) : pkType (asType t k) = t % 16 := by
  rcases Nat.lt_or_ge (pkType k) 8 with hk | hk
  · exact pkType_asType hk
  · simp [asType_reserved hk, pkLevelOk, Nat.not_lt.mpr hk] at h

@[simp] theorem asType_port (t : Nat) (k : Packet) : (asType t k).port = k.port := by unfold asType; split <;> rfl

@[simp] theorem asType_tagOk (t : Nat) (k : Packet) : (asType t k).tagOk = k.tagOk := by unfold asType; split <;> rfl

@[simp] theorem asKnot_port (op : Nat) (k : Packet) : (asKnot op k).port = k.port := by
  unfold asKnot
  dsimp only
  split <;> exact asType_port 6 k

@[simp] theorem asKnot_tagOk (op : Nat) (k : Packet) : (asKnot op k).tagOk = k.tagOk := by
  unfold asKnot
  dsimp only
  split <;> exact asType_tagOk 6 k

/-! ### Packets that do not get in -/

section
variable {s : State} {k : Packet} {port : Fin 16} (hp : k.port = some port) (f : State → State)
include hp

theorem receive_tagRefused (hu : s.linkUp port.val = true) (ht : k.tagOk = false) :
    s.receive k f = (s.owe port.val k).bump .WEFT_PORT_AUTH_FAIL port.val 0 1 := by
  have htag : (s.owe port.val k).tagCheck 0 k = (false, s.owe port.val k) := by
    unfold State.tagCheck
    cases (s.owe port.val k).keySet (pkJob k) <;> simp [ht]
  rw [State.receive, arrive_refused hp hu htag]

theorem receive_portDown (hu : s.linkUp port.val = false) : s.receive k f = s := by
  simp [State.receive, State.arrive, State.arrival, hp, hu]

end

/-- Every row of the weft's packets receives a packet that came as the one it is given. -/
theorem exec_weftPacket {pk : Packet} {c : Instr × Packet}
    (hc : c ∈ [(Instr.statusPacket pk, asType 0 pk), (.reduce pk, asType 1 pk), (.drop pk, asType 2 pk), (.calib pk, asType 3 pk),
      (.expmax pk, asType 4 pk), (.expset pk, asType 7 pk), (.gather pk, asType 5 pk), (.remoteKnotAdd pk, asKnot 0 pk), (.signal pk, asKnot 1 pk),
      (.veto pk, asKnot 2 pk), (.outcome pk, asKnot 3 pk), (.query pk, asKnot 4 pk), (.answer pk, asKnot 5 pk)]) (s : State) :
    c.2.port = pk.port ∧ c.2.tagOk = pk.tagOk ∧ ∃ f, exec c.1 s = .next (s.receive c.2 f) := by
  simp only [List.mem_cons, List.not_mem_nil, or_false] at hc
  rcases hc with rfl | rfl | rfl | rfl | rfl | rfl | rfl | rfl | rfl | rfl | rfl | rfl | rfl <;>
    exact ⟨by simp, by simp, _, rfl⟩

/-- Settles O21: each row receives its packet, which the tag's check or its port keeps out. -/
theorem packetTagRefused : Obligations.PacketTagRefused := by
  unfold Obligations.PacketTagRefused
  intro s pk port hport c hc
  obtain ⟨hp, ht, f, hexec⟩ := exec_weftPacket hc s
  rw [hexec]
  exact ⟨fun htag hup => congrArg _ (receive_tagRefused (hp.trans hport) f hup (ht.trans htag)),
    fun hdown => congrArg _ (receive_portDown (hp.trans hport) f hdown)⟩

end Sys2Proof.Machine
end

section
/-! SUPPORT. REDUCE, DROP and CALIB packets (R179, R183, R185, R189, R193): the contexts they are for and their verdicts. -/

namespace Sys2Proof.Machine
open Sys2Proof

/-! ### Matching -/

theorem pkType_asType_ne {t n : Nat} (k : Packet) (ht : t % 16 ≠ n) (hn : n < 8) : pkType (asType t k) ≠ n := by
  rcases Nat.lt_or_ge (pkType k) 8 with hk | hk
  · rwa [pkType_asType hk]
  · rw [asType_reserved hk]
    omega

/-- A packet that names a block is for one context, where it meets its verdict. -/
theorem matchRed_block {k : Packet} (h : pkType k ≠ 2) (s : State) :
    let x := s.rxCtx (pkJob k) (pkRed k) (pkBlock k)
    s.matchRed k = s.obey x.1 x.2 k (s.verdict x.1 x.2 k none) := by
  have hctx : s.redCtxs k = [s.rxCtx (pkJob k) (pkRed k) (pkBlock k)] := if_neg h
  simp only [State.matchRed, hctx, List.foldl_cons, List.foldl_nil]

/-! ### The verdict of a packet of the open step (R189) -/

theorem newer_self (a : Nat) : newer a a = false := by
  have h : (a + 65536 - a % 65536) % 65536 = 0 := by omega
  simp [newer, h]

section
variable {t : State} {p c : Nat} {k : Packet} {a : Nat}

/-- The rows of R189 before those of a slot let through a packet of the open step that meets one slot and lies within it. -/
theorem verdict_covered (hd : pkType k ≠ 2) (hended : pkStep k ∉ (t.stepOf p c).ended) (hstep : pkStep k = t.reg .BAT_STEP_NUM p c)
    (hopen : t.stepState p c ≠ 0)
    (hmeets : (t.slotsFor p c (pkStep k) (pkRed k)).filter (fun u => t.fld RED_SLOT_BASE.BLOCK u 0 < pkBlock k + pkBlocks k
      && pkBlock k < t.fld RED_SLOT_BASE.BLOCK u 0 + t.fld RED_SLOT_LEN.LEN u 0) = [a])
    (hlo : t.fld RED_SLOT_BASE.BLOCK a 0 ≤ pkBlock k)
    (hhi : pkBlock k + pkBlocks k ≤ t.fld RED_SLOT_BASE.BLOCK a 0 + t.fld RED_SLOT_LEN.LEN a 0) (since : Option Nat) :
    t.verdict p c k since = t.slotVerdict p k [a] since := by
  unfold State.verdict
  dsimp only
  rw [hmeets]
  simp [hd, hended, ← hstep, hopen, hlo, hhi]

/-- One slot accepts a packet that none of the rows before refuses it. -/
theorem slotVerdict_accept (hd : pkType k ≠ 2) (hst : t.fld RED_SLOT_CTRL.STATE a 0 = 1) (hw : t.windowClosed p a = false)
    (hepoch : pkEpoch k = t.epoch p) (hslot : t.fld RED_SLOT_ID.EPOCH a 0 = pkEpoch k) (hclear : (t.slot a).clearing = false)
    (hop : t.fld RED_SLOT_CTRL.OP a 0 = 1 ↔ pkType k = 3) (hgoal : (t.slot a).accepted + pkBlocks k ≤ t.slotGoal a) :
    t.slotVerdict p k [a] none = .accept a := by
  have hlate : t.lateFor p a none = false := by simp [State.lateFor, hst, hw]
  have hnewer : newer (pkEpoch k) (t.epoch p) = false := hepoch ▸ newer_self _
  simp [State.slotVerdict, hlate, hnewer, hslot, hclear, hop, hd, hst, hgoal]

end

/-- Settles O18: a packet is matched where its block belongs, its verdict has one effect each, and the rows of R189 that come before
acceptance are excluded one by one. -/
theorem reductionPackets : Obligations.ReductionPackets := by
  unfold Obligations.ReductionPackets
  refine ⟨?matched, ?effects, ?accepted⟩
  case matched =>
    intro s pk
    refine ⟨fun k _ hin => ⟨?reduce, ?calib⟩, fun hin => congrArg _ (receive_of_arrives hin _)⟩
    case reduce =>
      rintro rfl
      exact congrArg _ ((receive_of_arrives hin _).trans (matchRed_block (pkType_asType_ne pk (by decide) (by decide)) _))
    case calib =>
      rintro rfl
      exact congrArg _ ((receive_of_arrives hin _).trans (matchRed_block (pkType_asType_ne pk (by decide) (by decide)) _))
  case effects =>
    intro t p c k a w
    refine ⟨fun h => if_pos h, fun h => if_neg (by omega), rfl, rfl, rfl, rfl, rfl, rfl, rfl, rfl⟩
  case accepted =>
    intro t p c k a b n htype hended hstep hopen hmeets hlo hhi hst hw hepoch hslot hclear hop hgoal
    have hd : pkType k ≠ 2 := by omega
    rw [verdict_covered hd hended hstep hopen hmeets hlo hhi, slotVerdict_accept hd hst hw hepoch hslot hclear hop hgoal]

end Sys2Proof.Machine
end

section
/-! SUPPORT. STATUS, EXPMAX, EXPSET and GATHER packets (R178, R181, R184, R185, R188, R195, R263). -/

namespace Sys2Proof.Machine
open Sys2Proof

/-! ### STATUS -/

theorem matchStatus_unknown {s : State} {k : Packet} (h : s.sent.find? (fun x => x.seq = pkArg k && x.job = pkJob k) = none) :
    s.matchStatus k = s := by simp only [State.matchStatus, h]

/-- The packets that wait for a STATUS, but for one that has been resolved. -/
def State.resolved (s : State) (x : Sent) : State := { s with sent := s.sent.filter (fun y => !(y.seq = x.seq && y.job = x.job)) }

section
variable {s : State} {k : Packet} {x : Sent} (hx : s.sent.find? (fun x => x.seq = pkArg k && x.job = pkJob k) = some x)
include hx

section
variable (hst : Status.ofCode (pkBlock k) = .checksum) (hty : pkType x.pk ∈ [1, 3, 5])
include hst hty

theorem matchStatus_resends (hf : x.fails < 2) : s.matchStatus k = s.resend x x.pk (x.fails + 1) := by
  have hty' : pkType x.pk = 1 ∨ pkType x.pk = 3 ∨ pkType x.pk = 5 := by simpa using hty
  simp [State.matchStatus, hx, hst, hty', hf, or_assoc]

variable (hf : 2 ≤ x.fails)
include hf

theorem matchStatus_vetoes {o : AsyncOp} (ho : ((s.resolved x).opStatus x.op .checksum).async x.op = some o) :
    s.matchStatus k = (((s.resolved x).opStatus x.op .checksum).alarm 0x25).vetoStep o.part o.ctx 3 := by
  unfold State.resolved at ho ⊢
  simp only [State.matchStatus, hx]
  rw [if_pos (by simpa [hst, or_assoc] using hty), if_neg (Nat.not_lt.mpr hf)]
  simp only [ho]

theorem matchStatus_vetoesJob (ho : ((s.resolved x).opStatus x.op .checksum).async x.op = none) :
    let u := (s.resolved x).opStatus x.op .checksum
    s.matchStatus k = (u.openCtxs (pkJob x.pk) (pkStep x.pk)).foldl (fun s c => s.vetoStep c.1 c.2 3) (u.alarm 0x25) := by
  unfold State.resolved at ho ⊢
  simp only [State.matchStatus, hx]
  rw [if_pos (by simpa [hst, or_assoc] using hty), if_neg (Nat.not_lt.mpr hf)]
  simp only [ho]

end

section
variable (hst : Status.ofCode (pkBlock k) = .epoch) (hty : pkType x.pk ∈ [1, 2, 3])
include hst hty

theorem matchStatus_bouncedAlone (ho : s.async x.op = none) : s.matchStatus k = s.resolved x := by
  have hty' : pkType x.pk = 1 ∨ pkType x.pk = 2 ∨ pkType x.pk = 3 := by simpa using hty
  simp [State.matchStatus, State.resolved, hx, hst, hty', ho, or_assoc]

variable {o : AsyncOp} (ho : s.async x.op = some o)
include ho

theorem matchStatus_rebounces (hn : newer (s.epoch o.part) (pkEpoch x.pk) = true) : s.matchStatus k = s.rebounce x := by
  have hty' : pkType x.pk = 1 ∨ pkType x.pk = 2 ∨ pkType x.pk = 3 := by simpa using hty
  simp [State.matchStatus, hx, hst, hty', ho, hn, or_assoc]

theorem matchStatus_waitsForTable (hn : newer (s.epoch o.part) (pkEpoch x.pk) = false) : s.matchStatus k =
    { s with sent := s.sent.map (fun y => if y.seq = x.seq && y.job = x.job then { y with bounced := true } else y) } := by
  have hty' : pkType x.pk = 1 ∨ pkType x.pk = 2 ∨ pkType x.pk = 3 := by simpa using hty
  simp [State.matchStatus, hx, hst, hty', ho, hn, or_assoc]

end

section
variable (hty : pkType x.pk = 6)
include hty

theorem matchStatus_endsAddition {o : AsyncOp} (ho : (s.resolved x).async x.op = some o) :
    s.matchStatus k = (s.resolved x).endAsync o (Status.ofCode (pkBlock k)) (decide (Status.ofCode (pkBlock k) = Status.ok)) := by
  unfold State.resolved at ho ⊢
  simp only [State.matchStatus, hx]
  rw [if_neg (by simp [hty]), if_neg (by simp [hty]), if_pos hty]
  simp only [ho]

theorem matchStatus_additionGone (ho : (s.resolved x).async x.op = none) : s.matchStatus k = s.resolved x := by
  unfold State.resolved at ho ⊢
  simp only [State.matchStatus, hx]
  rw [if_neg (by simp [hty]), if_neg (by simp [hty]), if_pos hty]
  simp only [ho]

end

/-- Any other status, and CHECKSUM or EPOCH for a packet that cannot be sent again, reaches the operation. -/
theorem matchStatus_reaches (hty : pkType x.pk ≠ 6) (hc : ¬ (Status.ofCode (pkBlock k) = .checksum ∧ pkType x.pk ∈ [1, 3, 5]))
    (he : ¬ (Status.ofCode (pkBlock k) = .epoch ∧ pkType x.pk ∈ [1, 2, 3])) :
    s.matchStatus k = (s.resolved x).opStatus x.op (Status.ofCode (pkBlock k)) := by
  simp only [State.matchStatus, hx]
  rw [if_neg (by simpa [or_assoc] using hc), if_neg (by simpa [or_assoc] using he), if_neg hty]
  rfl

end

/-! ### EXPMAX and EXPSET -/

theorem endTake_ok {k : Packet} {x : Status × State} (h : x.1 = .ok) : State.endTake k x = x.2 := if_pos h

theorem endTake_refused {k : Packet} {x : Status × State} (h : x.1 ≠ .ok) : State.endTake k x = x.2.reply k x.1 := if_neg h

/-- A nibble that is not of 8 to 14 is defined: below 8, or 15. -/
theorem expmaxReserved_iff (k : Packet) : (List.range (pkCount k)).any (fun i => 8 ≤ expNibble k i && expNibble k i ≤ 14) = true
    ↔ ¬ ∀ i < pkCount k, expNibble k i < 8 ∨ expNibble k i = 15 := by
  have hle : ∀ i, expNibble k i < 16 := fun i => Nat.mod_lt _ (by decide)
  simp only [List.any_eq_true, List.mem_range, Bool.and_eq_true, decide_eq_true_eq, not_forall]
  refine exists_congr fun i => ⟨fun ⟨hi, h⟩ => ⟨hi, by omega⟩, fun ⟨hi, h⟩ => ⟨hi, ?_⟩⟩
  have := hle i
  omega

section
variable {s : State} {k : Packet}

theorem matchExpmax_timeout (h : s.expmaxCtxs k = []) : s.matchExpmax k = s.reply k .timeout := if_pos h

theorem matchExpmax_illegal (h : s.expmaxCtxs k ≠ []) (hdef : ¬ ∀ i < pkCount k, expNibble k i < 8 ∨ expNibble k i = 15) :
    s.matchExpmax k = s.reply k .illegal := (if_neg h).trans (if_pos ((expmaxReserved_iff k).mpr hdef))

theorem matchExpmax_taken (h : s.expmaxCtxs k ≠ []) (hdef : ∀ i < pkCount k, expNibble k i < 8 ∨ expNibble k i = 15) :
    s.matchExpmax k = State.endTake k ((s.expmaxCtxs k).foldl (State.takeExpmax k) (.ok, s)) :=
  (if_neg h).trans (if_neg (fun hr => (expmaxReserved_iff k).mp hr hdef))

theorem matchExpset_timeout (h : s.expsetCtxs k = []) : s.matchExpset k = s.reply k .timeout := if_pos h

theorem matchExpset_taken (h : s.expsetCtxs k ≠ []) :
    s.matchExpset k = State.endTake k ((s.expsetCtxs k).foldl (State.takeExpset k) (.ok, s)) := if_neg h

end

/-! ### GATHER -/

theorem matchGather_illegal {s : State} {k : Packet} (h : s.gatherCtxs k = []) : s.matchGather k = s.reply k .illegal := by
  simp only [State.matchGather, h]

section
variable {s : State} {k : Packet} {p c : Nat} (h : (s.gatherCtxs k).head? = some (p, c))
include h

theorem matchGather_early (hstep : s.reg .BAT_STEP_NUM p c < pkStep k) : s.matchGather k = s.holdPacket p c k := by
  obtain ⟨rest, hcs⟩ := List.head?_eq_some_iff.mp h
  simp only [State.matchGather, hcs, if_pos hstep]

theorem matchGather_late (hstep : pkStep k < s.reg .BAT_STEP_NUM p c ∨ (pkStep k = s.reg .BAT_STEP_NUM p c ∧ s.stepState p c = 0)) :
    s.matchGather k = s.reply k .timeout := by
  obtain ⟨rest, hcs⟩ := List.head?_eq_some_iff.mp h
  simp only [State.matchGather, hcs]
  rw [if_neg (by omega), if_pos (by simpa using hstep.imp_right And.right)]

variable (hstep : pkStep k = s.reg .BAT_STEP_NUM p c) (hopen : s.stepState p c ≠ 0)
include hstep hopen

theorem matchGather_waits (hw : s.gatherWaits (s.gatherCtxs k) k = true) :
    s.matchGather k = (s.bump .BAT_HANDOVER_WAITS p 0 1).holdPacket p c k := by
  obtain ⟨rest, hcs⟩ := List.head?_eq_some_iff.mp h
  rw [hcs] at hw
  simp [State.matchGather, hcs, hstep, hopen, hw]

theorem matchGather_taken (hw : s.gatherWaits (s.gatherCtxs k) k = false) :
    s.matchGather k = State.endGather p k ((s.gatherCtxs k).foldl (State.takeGather k) (.ok, 0, s)) := by
  obtain ⟨rest, hcs⟩ := List.head?_eq_some_iff.mp h
  rw [hcs] at hw ⊢
  simp [State.matchGather, hcs, hstep, hopen, hw]

end

section
variable {p : Nat} {k : Packet} {x : Status × Nat × State}

theorem endGather_ok (h : x.1 = .ok) : State.endGather p k x = (x.2.2.bump .RED_GATHER_BYTES p 0 x.2.1).gatherCheck (pkJob k) := if_pos h

theorem endGather_veto (h : x.1 = .veto) : State.endGather p k x = x.2.2.bump .RED_GATHER_BYTES p 0 x.2.1 :=
  (if_neg (by simp [h])).trans (if_pos h)

theorem endGather_refused (h : x.1 ≠ .ok) (hv : x.1 ≠ .veto) :
    State.endGather p k x = (x.2.2.bump .RED_GATHER_BYTES p 0 x.2.1).reply k x.1 := (if_neg h).trans (if_neg hv)

end

/-- Settles O19: each packet is matched in the state that its arrival leaves, by the cases of the lemmas above. -/
theorem packetsMatched : Obligations.PacketsMatched := by
  unfold Obligations.PacketsMatched
  refine ⟨?status, ?expmax, ?expset, ?gather⟩
  case status =>
    intro s pk hin k t found st
    have hexec : exec (.statusPacket pk) s = .next (t.matchStatus k) := congrArg _ (receive_of_arrives hin _)
    rw [hexec]
    refine ⟨fun h => congrArg _ (matchStatus_unknown h), fun x hx => ?_⟩
    intro ty gone
    refine ⟨fun hst hty hf => congrArg _ (matchStatus_resends hx hst hty hf), fun hst hty hf => ?vetoes, fun hst hty => ?bounced,
      fun hty => ?addition, fun hty hc he => congrArg _ (matchStatus_reaches hx hty hc he)⟩
    case vetoes =>
      exact ⟨fun o ho => congrArg _ (matchStatus_vetoes hx hst hty hf ho), fun ho => congrArg _ (matchStatus_vetoesJob hx hst hty hf ho)⟩
    case bounced =>
      exact ⟨fun ho => congrArg _ (matchStatus_bouncedAlone hx hst hty ho),
        fun o ho hn => congrArg _ (matchStatus_rebounces hx hst hty ho hn),
        fun o ho hn => congrArg _ (matchStatus_waitsForTable hx hst hty ho hn)⟩
    case addition =>
      exact ⟨fun o ho => congrArg _ (matchStatus_endsAddition hx hty ho), fun ho => congrArg _ (matchStatus_additionGone hx hty ho)⟩
  case expmax =>
    intro s pk hin k t r defined
    have hexec : exec (.expmax pk) s = .next (t.matchExpmax k) := congrArg _ (receive_of_arrives hin _)
    rw [hexec]
    exact ⟨fun h hd hr => congrArg _ ((matchExpmax_taken h hd).trans (endTake_ok hr)),
      fun h hd hr => congrArg _ ((matchExpmax_taken h hd).trans (endTake_refused hr)),
      fun h hd => congrArg _ (matchExpmax_illegal h hd), fun h => congrArg _ (matchExpmax_timeout h)⟩
  case expset =>
    intro s pk hin k t r
    have hexec : exec (.expset pk) s = .next (t.matchExpset k) := congrArg _ (receive_of_arrives hin _)
    rw [hexec]
    exact ⟨fun h hr => congrArg _ ((matchExpset_taken h).trans (endTake_ok hr)),
      fun h hr => congrArg _ ((matchExpset_taken h).trans (endTake_refused hr)), fun h => congrArg _ (matchExpset_timeout h)⟩
  case gather =>
    intro s pk hin k t cs
    have hexec : exec (.gather pk) s = .next (t.matchGather k) := congrArg _ (receive_of_arrives hin _)
    rw [hexec]
    refine ⟨fun h => congrArg _ (matchGather_illegal h), fun p c hcs => ?_⟩
    exact ⟨fun h => congrArg _ (matchGather_early hcs h), fun h => congrArg _ (matchGather_late hcs h),
      fun hn ho hw => congrArg _ (matchGather_waits hcs hn ho hw), fun hn ho hw =>
        ⟨fun hr => congrArg _ ((matchGather_taken hcs hn ho hw).trans (endGather_ok hr)),
          fun hr => congrArg _ ((matchGather_taken hcs hn ho hw).trans (endGather_veto hr)),
          fun hr hv => congrArg _ ((matchGather_taken hcs hn ho hw).trans (endGather_refused hr hv))⟩⟩

end Sys2Proof.Machine
end

section
/-! SUPPORT. KNOT packets: remote additions, and the commit's messages to the home, its twin and the members (R222 to R226, R278). -/

namespace Sys2Proof.Machine
open Sys2Proof

/-! ### The OP of a row -/

/-- A packet that passes the level check has the OP of its row. -/
theorem pkOp_asKnot_of_levelOk {op : Nat} {pk : Packet} (hop : op < 6) (h : pkLevelOk (asKnot op pk) = true) : pkOp (asKnot op pk) = op := by
  unfold asKnot at h ⊢
  dsimp only at h ⊢
  split at h
  case isTrue hres =>
    have htype := pkType_asType_of_levelOk h
    simp [pkLevelOk, htype, Nat.not_lt.mpr hres] at h
  case isFalse hdef =>
    rw [if_neg hdef]
    exact (bits_ofNat_setBits _ _ (by decide)).trans (Nat.mod_eq_of_lt (by omega))

/-! ### Remote additions -/

theorem remoteAdd_adds {s : State} {k : Packet} (h : s.fld KNOT_CFG.OWNED (bits (pkArg k) 11 3) (bits (pkArg k) 0 11) = 1
      ∧ s.jobOf (bits (pkArg k) 11 3) (s.fld KNOT_CFG.CTX (bits (pkArg k) 11 3) (bits (pkArg k) 0 11)) = pkJob k
      ∧ s.fld KNOT_CFG.REMOTE (bits (pkArg k) 11 3) (bits (pkArg k) 0 11) = 1) :
    s.remoteAdd k = s.knotAdd (bits (pkArg k) 11 3) (bits (pkArg k) 0 11) (bits (pkArg k) 32 32) :=
  if_pos (by simpa [and_assoc] using h)

theorem remoteAdd_refused {s : State} {k : Packet} (h : ¬ (s.fld KNOT_CFG.OWNED (bits (pkArg k) 11 3) (bits (pkArg k) 0 11) = 1
      ∧ s.jobOf (bits (pkArg k) 11 3) (s.fld KNOT_CFG.CTX (bits (pkArg k) 11 3) (bits (pkArg k) 0 11)) = pkJob k
      ∧ s.fld KNOT_CFG.REMOTE (bits (pkArg k) 11 3) (bits (pkArg k) 0 11) = 1)) : s.remoteAdd k = s.reply k .protection :=
  if_neg (by simpa [and_assoc] using h)

/-! ### SIGNAL (R222, R225) -/

/-- The member that a SIGNAL is from: its device, and its context there. -/
abbrev sigMember (k : Packet) : Nat × Nat := (pkSrc k, bits (pkArg k) 11 3 * 64 + bits (pkArg k) 0 6)

/-- MEMBERS of a SIGNAL. -/
abbrev sigMembers (k : Packet) : Nat := bits (pkArg k) 20 20

/-- FLIP_LEAD of a SIGNAL. -/
abbrev sigLead (k : Packet) : Nat := bits (pkArg k) 40 4

/-- A SIGNAL is the first of its STEP, or names the MEMBERS and FLIP_LEAD of the first. -/
abbrev Home.Agrees (h : Home) (k : Packet) : Prop := h.signals = [] ∨ (sigMembers k = h.members ∧ sigLead k = h.lead)

/-- The home's record with the member of a SIGNAL among those that have signalled. -/
abbrev Home.joined (h : Home) (k : Packet) : Home :=
  { h with members := sigMembers k, lead := sigLead k, signals := h.signals ++ [sigMember k] }

theorem differs_iff (h : Home) (k : Packet) :
    (!decide (h.signals = []) && (decide (sigMembers k ≠ h.members) || decide (sigLead k ≠ h.lead))) = true ↔ ¬ h.Agrees k := by
  simp [Home.Agrees, ← not_and_or]

section
variable {s : State} {k : Packet} {h : Home} (hh : s.homeOf (pkJob k) (pkStep k) = h)
include hh

section
variable (hd : h.decision = none)
include hd

section
variable (hnew : sigMember k ∉ h.signals)
include hnew

theorem matchSignal_joins (hs : h.Agrees k) (hlen : (h.joined k).signals.length < sigMembers k) :
    s.matchSignal k = s.setHome { h.joined k with union := orBytes h.union k.payload } := by
  have hc : h.signals.contains (sigMember k) = false := by simpa using hnew
  simp only [State.matchSignal, hh, hd, hc]
  rw [if_neg (by simp), if_neg (mt (differs_iff h k).mp (not_not_intro hs))]
  exact if_neg (Nat.not_le.mpr hlen)

theorem matchSignal_commits (hs : h.Agrees k) (hlen : sigMembers k ≤ (h.joined k).signals.length) :
    s.matchSignal k = s.decide { h.joined k with union := orBytes h.union k.payload } dCommit (s.pick + max 1 (sigLead k)) 0 := by
  have hc : h.signals.contains (sigMember k) = false := by simpa using hnew
  simp only [State.matchSignal, hh, hd, hc]
  rw [if_neg (by simp), if_neg (mt (differs_iff h k).mp (not_not_intro hs))]
  exact if_pos hlen

theorem matchSignal_differs (hs : ¬ h.Agrees k) :
    s.matchSignal k = s.decide { h with signals := h.signals ++ [sigMember k] } dVeto 0 9 := by
  have hc : h.signals.contains (sigMember k) = false := by simpa using hnew
  simp only [State.matchSignal, hh, hd, hc]
  rw [if_neg (by simp), if_pos ((differs_iff h k).mpr hs)]
  rfl

end

section
variable (hold : sigMember k ∈ h.signals)
include hold

theorem matchSignal_repeats (hm : sigMembers k = h.members) (hl : sigLead k = h.lead) : s.matchSignal k = s := by
  have hc : h.signals.contains (sigMember k) = true := by simpa using hold
  simp only [State.matchSignal, hh, hd, hc]
  exact if_pos (by simp [hm, hl])

theorem matchSignal_changes (hs : sigMembers k ≠ h.members ∨ sigLead k ≠ h.lead) : s.matchSignal k = s.decide h dVeto 0 9 := by
  have hc : h.signals.contains (sigMember k) = true := by simpa using hold
  have hne : h.signals ≠ [] := List.ne_nil_of_mem hold
  have hdiff : ¬ h.Agrees k := fun ha => ha.elim hne (fun he => hs.elim (absurd he.1) (absurd he.2))
  simp only [State.matchSignal, hh, hd, hc]
  rw [if_neg (by simpa using fun hm => hs.resolve_left (not_not_intro hm)), if_pos ((differs_iff h k).mpr hdiff)]
  rfl

end

end

section
variable {d : Nat × Nat × Nat} (hd : h.decision = some d)
include hd

theorem matchSignal_lateDiffers (hs : ¬ h.Agrees k) : s.matchSignal k = s.lateVeto h.job := by
  simp only [State.matchSignal, hh, hd]
  exact if_pos ((differs_iff h k).mpr hs)

variable (hs : h.Agrees k)
include hs

theorem matchSignal_lateRepeats (hold : sigMember k ∈ h.signals) : s.matchSignal k = s := by
  simp only [State.matchSignal, hh, hd]
  exact (if_neg (mt (differs_iff h k).mp (not_not_intro hs))).trans (if_pos (by simpa using hold))

variable (hnew : sigMember k ∉ h.signals)
include hnew

theorem matchSignal_lateLearns (hsent : h.sent = true) :
    s.matchSignal k = (s.setHome (h.joined k)).sendOutcome (h.joined k) (sigMember k) := by
  simp only [State.matchSignal, hh, hd]
  rw [if_neg (mt (differs_iff h k).mp (not_not_intro hs)), if_neg (by simpa using hnew), if_pos hsent, ← hd]

theorem matchSignal_lateWaits (hsent : h.sent = false) : s.matchSignal k = s.setHome (h.joined k) := by
  simp only [State.matchSignal, hh, hd]
  rw [if_neg (mt (differs_iff h k).mp (not_not_intro hs)), if_neg (by simpa using hnew), if_neg (by simp [hsent]), ← hd]

end

end

/-! ### VETO and QUERY (R222, R223) -/

theorem matchVeto_decides {s : State} {k : Packet} (h : (s.homeOf (pkJob k) (pkStep k)).decision = none) :
    s.matchVeto k = s.decide (s.homeOf (pkJob k) (pkStep k)) dVeto 0 6 := if_neg (by simp [h])

theorem matchVeto_late {s : State} {k : Packet} {d : Nat × Nat × Nat} (h : (s.homeOf (pkJob k) (pkStep k)).decision = some d) :
    s.matchVeto k = s.lateVeto (s.homeOf (pkJob k) (pkStep k)).job := if_pos (by simp [h])

/-- The answer of the home's twin to a QUERY. -/
def answerTo (k : Packet) (r : TwinRec) : Packet :=
  newPacket (pkJob k) (pkSrc k) 6 (pkStep k) 0 0 0 (commitArg (bits (pkArg k) 11 3) (bits (pkArg k) 0 6) 5) 0
    (outcomeBody r.decision r.flip r.cause r.union)

theorem matchQuery_answers {s : State} {k : Packet} {r : TwinRec} (h : s.twinRec (pkJob k) (pkStep k) = some r) :
    s.matchQuery k = s.sendPacket (answerTo k r) 0 0 := by
  simp only [State.matchQuery, h]
  rfl

theorem matchQuery_aborts {s : State} {k : Packet} (h : s.twinRec (pkJob k) (pkStep k) = none) :
    let r : TwinRec := ⟨s.fld SELV_PAIR_CTRL.TWIN 0 0, pkJob k, pkStep k, dAbort, 0, 7, []⟩
    s.matchQuery k = ({ s with twinRecs := s.twinRecs ++ [r] } : State).sendPacket (answerTo k r) 0 0 := by
  simp only [State.matchQuery, h]
  rfl

/-! ### A decision reaches a member (R223, R224) -/

section
variable {s : State} {p c dec flip cause : Nat} {union : List Byte}

theorem learn_commit (hd : dec = dCommit) (hst : s.stepState p c = 2) (hf : s.pick < flip) : s.learn p c dec flip cause union =
    (s.setStep p c { s.stepOf p c with flip := some flip, union := union }).setStepStatus p c 3 0 0 := by
  simp [State.learn, hd, hst, Nat.not_le.mpr hf]

theorem learn_commitLate (hd : dec = dCommit) (hst : s.stepState p c = 2) (hf : flip ≤ s.pick) :
    let u := s.bump .BAT_FLIP_LATE p 0 1
    s.learn p c dec flip cause union = (u.setStep p c { u.stepOf p c with flip := some (u.pick + 1), union := union }).setStepStatus p c 3 0 0 := by
  simp [State.learn, hd, hst, hf]

theorem learn_veto (hd : dec = dVeto) (hst : s.stepState p c = 1 ∨ s.stepState p c = 2) :
    s.learn p c dec flip cause union = s.endStep p c .veto cause := by simp [State.learn, hd, hst]

theorem learn_abort (hd : dec = dAbort) (hst : s.stepState p c = 1 ∨ s.stepState p c = 2) :
    s.learn p c dec flip cause union = s.endStep p c .aborted cause := by simp [State.learn, hd, hst]

/-- A step that is not open or signalled, and a COMMIT of one that has not signalled, are left alone. -/
theorem learn_ignores (h : (dec = dCommit ∧ s.stepState p c ≠ 2) ∨ (s.stepState p c ≠ 1 ∧ s.stepState p c ≠ 2)) :
    s.learn p c dec flip cause union = s := by
  rcases h with ⟨hd, hst⟩ | ⟨h1, h2⟩
  · exact (if_pos hd).trans (if_neg hst)
  · by_cases hd : dec = dCommit
    · exact (if_pos hd).trans (if_neg h2)
    · exact (if_neg hd).trans (if_neg (by simp [h1, h2]))

end

/-- The cause with which an OUTCOME or ANSWER ends a step (log entry 82). -/
def outcomeCause (op : Nat) (k : Packet) : Nat :=
  if op = 5 ∧ pkByte k 8 = dAbort then 7 else if op = 3 ∧ pkByte k 9 ≠ 9 then 6
  else if 1 ≤ pkByte k 9 ∧ pkByte k 9 ≤ 9 then pkByte k 9 else 6

section
variable {t : State} {k : Packet}

theorem matchOutcome_stranger (h : t.present (bits (pkArg k) 11 3) (bits (pkArg k) 0 6) = false
    ∨ t.jobOf (bits (pkArg k) 11 3) (bits (pkArg k) 0 6) ≠ pkJob k) : t.matchOutcome k = t.reply k .protection :=
  if_pos (by rcases h with h | h <;> simp [h])

variable (hp : t.present (bits (pkArg k) 11 3) (bits (pkArg k) 0 6) = true) (hj : t.jobOf (bits (pkArg k) 11 3) (bits (pkArg k) 0 6) = pkJob k)
include hp hj

theorem matchOutcome_reserved (hd : 2 < pkByte k 8) : t.matchOutcome k = t.reply k .illegal :=
  (if_neg (by simp [hp, hj])).trans (if_pos hd)

theorem matchOutcome_learns (hd : pkByte k 8 ≤ 2) (hs : t.reg .BAT_STEP_NUM (bits (pkArg k) 11 3) (bits (pkArg k) 0 6) = pkStep k) :
    t.matchOutcome k = t.learn (bits (pkArg k) 11 3) (bits (pkArg k) 0 6) (pkByte k 8) (leNat (k.payload.take 8)) (outcomeCause (pkOp k) k)
      (k.payload.drop 32) := by
  simp [State.matchOutcome, outcomeCause, hp, hj, Nat.not_lt.mpr hd, hs]

end

/-! ### The obligation -/

/-- Settles O20: each packet is matched in the state that its arrival leaves; what a member makes of a decision depends on its OP, which
the level check ties to the row. -/
theorem commitPackets : Obligations.CommitPackets := by
  unfold Obligations.CommitPackets
  refine ⟨?add, ?signal, ?veto, ?query, ?outcome⟩
  case add =>
    intro s pk hin k t i p lets
    have hexec : exec (.remoteKnotAdd pk) s = .next (t.remoteAdd k) := congrArg _ (receive_of_arrives hin _)
    rw [hexec]
    exact ⟨fun h => congrArg _ (remoteAdd_adds h), fun h => congrArg _ (remoteAdd_refused h)⟩
  case signal =>
    intro s pk hin k t h who mem lead same all
    have hexec : exec (.signal pk) s = .next (t.matchSignal k) := congrArg _ (receive_of_arrives hin _)
    have hh : t.homeOf (pkJob k) (pkStep k) = h := rfl
    rw [hexec]
    exact ⟨fun hd hw hs => ⟨fun hl => congrArg _ (matchSignal_joins hh hd hw hs hl), fun hl => congrArg _ (matchSignal_commits hh hd hw hs hl)⟩,
      fun hd hw hs => congrArg _ (matchSignal_differs hh hd hw hs), fun hd hw hm hl => congrArg _ (matchSignal_repeats hh hd hw hm hl),
      fun hd hw hs => congrArg _ (matchSignal_changes hh hd hw hs), fun d hd => ⟨fun hs => congrArg _ (matchSignal_lateDiffers hh hd hs),
        fun hs hw => congrArg _ (matchSignal_lateRepeats hh hd hs hw), fun hs hw =>
          ⟨fun hsent => congrArg _ (matchSignal_lateLearns hh hd hs hw hsent), fun hsent => congrArg _ (matchSignal_lateWaits hh hd hs hw hsent)⟩⟩⟩
  case veto =>
    intro s pk hin k t h
    have hexec : exec (.veto pk) s = .next (t.matchVeto k) := congrArg _ (receive_of_arrives hin _)
    rw [hexec]
    exact ⟨fun hd => congrArg _ (matchVeto_decides hd), fun d hd => congrArg _ (matchVeto_late hd)⟩
  case query =>
    intro s pk hin k t out
    have hexec : exec (.query pk) s = .next (t.matchQuery k) := congrArg _ (receive_of_arrives hin _)
    rw [hexec]
    exact ⟨fun r hr => congrArg _ (matchQuery_answers hr), fun hr => congrArg _ (matchQuery_aborts hr)⟩
  case outcome =>
    intro s pk op cmd hcmd hin k t c p dec cause
    have hexec : exec cmd s = .next (t.matchOutcome k) := by
      rcases hcmd with ⟨rfl, rfl⟩ | ⟨rfl, rfl⟩ <;> exact congrArg _ (receive_of_arrives hin _)
    obtain ⟨-, hlevel, -⟩ := hin
    have hop : pkOp k = op := pkOp_asKnot_of_levelOk (by omega) hlevel
    rw [hexec]
    refine ⟨fun hp hj hd hs => ?learns, fun hp hj hd hs => congrArg _ (matchOutcome_otherStep hp hj hd hs),
      fun hp hj hd => congrArg _ (matchOutcome_reserved hp hj hd), fun h => congrArg _ (matchOutcome_stranger h)⟩
    case learns =>
      intro st why flip
      rw [matchOutcome_learns hp hj hd hs, hop]
      exact ⟨fun hc hst hf => congrArg _ (learn_commit hc hst hf), fun hc hst hf => congrArg _ (learn_commitLate hc hst hf),
        fun hv hst => congrArg _ (learn_veto hv hst), fun ha hst => congrArg _ (learn_abort ha hst), fun h => congrArg _ (learn_ignores h)⟩

end Sys2Proof.Machine
end

section
/-! SUPPORT. The commands of reduction slots, held packets and windows (R182, R183, R186, R190, R263, R286, R287). -/

namespace Sys2Proof.Machine
open Sys2Proof

/-! ### The instructions of this part -/

theorem exec_slotClearComplete {s : State} {slot : Fin 4096} : exec (.slotClearComplete slot) s = execSlotClearComplete slot s := rfl

theorem exec_holdRelease {s : State} : exec .holdRelease s = execHoldRelease s := rfl

theorem exec_holdTimeout {s : State} {n : Nat} : exec (.holdTimeout n) s = execHoldTimeout n s := rfl

theorem exec_replyWindowExpiry {s : State} {seq : W64} : exec (.replyWindowExpiry seq) s = execReplyWindowExpiry seq s := rfl

/-! ### A write of RED_SLOT_CTRL -/

/-- What a write of RED_SLOT_CTRL leaves before its command: OP, where the slot is FREE. -/
def State.withSlotOp (s : State) (t v : Nat) : State :=
  if s.fld RED_SLOT_CTRL.STATE t 0 = 0 then s.setFld RED_SLOT_CTRL.OP t 0 (bits v 2 1) else s

theorem withSlotOp_free {s : State} {t : Nat} (v : Nat) (h : s.fld RED_SLOT_CTRL.STATE t 0 = 0) :
    s.withSlotOp t v = s.setFld RED_SLOT_CTRL.OP t 0 (bits v 2 1) := if_pos h

theorem withSlotOp_taken {s : State} {t : Nat} (v : Nat) (h : s.fld RED_SLOT_CTRL.STATE t 0 ≠ 0) : s.withSlotOp t v = s := if_neg h

/-- OP is no bit of STATE. -/
theorem slotState_setFld_op (s : State) (t v : Nat) :
    (s.setFld RED_SLOT_CTRL.OP t 0 v).fld RED_SLOT_CTRL.STATE t 0 = s.fld RED_SLOT_CTRL.STATE t 0 := by
  unfold State.setFld State.fld
  rw [reg_setReg_same, show RegName.RED_SLOT_CTRL.info.width = 32 from rfl, bits_mod_two_pow _ (by decide)]
  simp only [bits, setBits]
  omega

section
variable {s : State} {bar : Bar} {p c : Nat} {slot : Fin 4096} (v : W32) (hf : s.function bar = some (p, 0))
  (hs : s.slotOwner slot.val = some (p, c))
include hf hs

theorem exec_slotOpen : exec (.slotOpen bar slot v) s = .next ((s.withSlotOp slot.val v.toNat).openSlot p c slot.val).2 := by
  refine congrArg Host.Outcome.next ((viaPhysical_some hf).trans ?_)
  simp [State.writeSlotCtrl, hs, setBits_cmd_mod, bits_two_setBits_cmd, State.withSlotOp]

theorem exec_slotRelease : exec (.slotRelease bar slot v) s = .next ((s.withSlotOp slot.val v.toNat).releaseSlot p slot.val).2 := by
  refine congrArg Host.Outcome.next ((viaPhysical_some hf).trans ?_)
  simp [State.writeSlotCtrl, hs, setBits_cmd_mod, bits_two_setBits_cmd, State.withSlotOp]

end

/-! ### Opening (R182) -/

/-- A slot whose opening has passed its checks, with its accumulators clear. -/
def State.slotCleared (s : State) (t : Nat) : State :=
  let len := s.fld RED_SLOT_LEN.LEN t 0
  let a := s.accBlock t 0
  ({ s with acc := SMap.clearRange s.acc (32 * a) (32 * len), accMask := SMap.clearRange s.accMask a len,
            accMax := SMap.clearRange s.accMax a len } : State).setSlot t { clearing := true }

/-- The drop list that a slot opens with. -/
def State.slotDrops (s : State) (p c t : Nat) : List Dropped := s.dropsOf p c (s.reg .RED_SLOT_STEP t 0) (s.fld RED_SLOT_ID.RED_ID t 0)

/-- The slot is OPEN, and counts the ordinals that have been dropped. -/
def State.slotOpened (s : State) (p c t : Nat) : State :=
  ((s.setFld RED_SLOT_CONTRIB.DROPPED t 0 (s.slotDrops p c t).length).slotTo p t 1).setFld RED_SLOT_CTRL.RESULT t 0 0

section
variable {s : State} {p c t : Nat}

theorem openSlot_refused (hx : (s.openResult p c t).1 ≠ .ok) :
    (s.openSlot p c t).2 = (s.openResult p c t).2.setFld RED_SLOT_CTRL.RESULT t 0 (s.openResult p c t).1.code := by
  unfold State.openSlot
  generalize s.openResult p c t = x at hx ⊢
  obtain ⟨e, s2⟩ := x
  cases e with
  | ok => exact absurd rfl hx
  | _ => rfl

/-- A slot that is not FREE is not opened. -/
theorem openSlot_taken (h : s.fld RED_SLOT_CTRL.STATE t 0 ≠ 0) : (s.openSlot p c t).2 = s.setFld RED_SLOT_CTRL.RESULT t 0 3 := by
  have hx : s.openResult p c t = (.illegal, s) := by simp only [State.openResult, State.openCheck, if_pos h]
  rw [openSlot_refused (by simp [hx]), hx]
  rfl

variable (hx : (s.openResult p c t).1 = .ok)
include hx

theorem openSlot_opens
    (hd : (((s.openResult p c t).2.slotCleared t).slotDrops p c t)[(((s.openResult p c t).2.slotCleared t).slotOpened p c t).fld
      RED_SLOT_CONTRIB.EXPECTED t 0 - 1]? = none) :
    (s.openSlot p c t).2 = ((s.openResult p c t).2.slotCleared t).slotOpened p c t := by
  unfold State.openSlot
  generalize s.openResult p c t = x at hx hd ⊢
  obtain ⟨e, s2⟩ := x
  obtain rfl : e = .ok := hx
  dsimp only
  split
  next d hd' => exact absurd (hd.symm.trans hd') nofun
  next => rfl

/-- A slot that opens with nothing left vetoes its step (R193). -/
theorem openSlot_vetoes {d : Dropped}
    (hd : (((s.openResult p c t).2.slotCleared t).slotDrops p c t)[(((s.openResult p c t).2.slotCleared t).slotOpened p c t).fld
      RED_SLOT_CONTRIB.EXPECTED t 0 - 1]? = some d) :
    let u := (s.openResult p c t).2.slotCleared t
    (s.openSlot p c t).2 = (((u.slotOpened p c t).alarm 0x24).dropFault p d.dev (u.fld RED_SLOT_ID.RED_ID t 0) d.elem
      (u.reg .RED_SLOT_STEP t 0)).vetoStep p c 3 := by
  unfold State.openSlot
  generalize s.openResult p c t = x at hx hd ⊢
  obtain ⟨e, s2⟩ := x
  obtain rfl : e = .ok := hx
  dsimp only
  split
  next d' hd' =>
    obtain rfl : d = d' := Option.some.inj (hd.symm.trans hd')
    rfl
  next hd' => exact absurd (hd.symm.trans hd') nofun

end

/-! ### Release (R186) -/

section
variable {s : State} {p t : Nat}

theorem releaseSlot_refused (h : s.fld RED_SLOT_CTRL.STATE t 0 = 1 ∨ s.fld RED_SLOT_CTRL.STATE t 0 = 2) :
    (s.releaseSlot p t).2 = s.setFld RED_SLOT_CTRL.RESULT t 0 3 := by simp [State.releaseSlot, h]

theorem releaseSlot_ends (h : 3 ≤ s.fld RED_SLOT_CTRL.STATE t 0) :
    (s.releaseSlot p t).2 = ((s.slotTo p t 0).setSlot t {}).setFld RED_SLOT_CTRL.RESULT t 0 0 := by
  have h012 : s.fld RED_SLOT_CTRL.STATE t 0 ≠ 0 ∧ s.fld RED_SLOT_CTRL.STATE t 0 ≠ 1 ∧ s.fld RED_SLOT_CTRL.STATE t 0 ≠ 2 := by omega
  simp [State.releaseSlot, h012]

theorem releaseSlot_free (h : s.fld RED_SLOT_CTRL.STATE t 0 = 0) :
    (s.releaseSlot p t).2 = (s.setSlot t {}).setFld RED_SLOT_CTRL.RESULT t 0 0 := by simp [State.releaseSlot, h]

end

/-! ### Clearing and the sum check (R182, R183) -/

/-- A slot whose accumulators are clear. -/
def State.clearDone (s : State) (t : Nat) : State := s.setSlot t { s.slot t with clearing := false }

section
variable {s : State} {slot : Fin 4096} {p c : Nat} (hs : s.slotOwner slot.val = some (p, c))
include hs

theorem exec_slotClearComplete_rematches (hc : (s.slot slot.val).clearing = true) (hw : (s.clearDone slot.val).windowClosed p slot.val = false) :
    exec (.slotClearComplete slot) s = .next ((s.clearDone slot.val).rematch p c) := by
  unfold State.clearDone at hw ⊢
  simp [exec_slotClearComplete, execSlotClearComplete, hs, hc, hw]

theorem exec_slotClearComplete_closes (hc : (s.slot slot.val).clearing = true) (hw : (s.clearDone slot.val).windowClosed p slot.val = true) :
    exec (.slotClearComplete slot) s = .next ((s.clearDone slot.val).closeSlot p c slot.val) := by
  unfold State.clearDone at hw ⊢
  simp [exec_slotClearComplete, execSlotClearComplete, hs, hc, hw]

theorem exec_slotClearComplete_idle (hc : (s.slot slot.val).clearing = false) : exec (.slotClearComplete slot) s = .next s := by
  simp [exec_slotClearComplete, execSlotClearComplete, hs, hc]

end

/-- The sums of a slot's accumulators, as the checksum takes them (R180). -/
def State.slotSums (s : State) (t : Nat) : List Nat :=
  (List.range (32 * s.fld RED_SLOT_LEN.LEN t 0)).map (fun i =>
    let v := signed 32 (SMap.get 0 s.acc (32 * s.accBlock t 0 + i)).toNat
    if v < 0 then redP - v.natAbs else v.natAbs)

/-- The code maxima of a slot's blocks. -/
def State.slotMaxes (s : State) (t : Nat) : List Nat :=
  (List.range (s.fld RED_SLOT_LEN.LEN t 0)).map (fun i => (SMap.get 0 s.accMax (s.accBlock t 0 + i)).toNat)

/-- A slot's accumulators agree with the checks of what was added to them. -/
def State.SumAgrees (s : State) (p c t : Nat) : Prop :=
  checkSum (s.redH (s.jobOf p c) (s.reg .RED_SLOT_STEP t 0) (s.fld RED_SLOT_ID.RED_ID t 0)) (32 * s.fld RED_SLOT_BASE.BLOCK t 0) (s.slotSums t)
    = (s.slot t).sin

/-- A slot whose sum agrees is READY, and its exponents go out. -/
def State.sumReady (s : State) (p c t : Nat) : State :=
  (((s.bump .RED_MAX127 p 0 ((s.slotMaxes t).filter (· = 127)).length).slotTo p t 3).setFld RED_SLOT_CTRL.RESULT t 0 0).sendExponents p c t 4
    ((s.slotMaxes t).map expEntry)

/-- A slot whose sum does not agree has FAILED, and its step is vetoed. -/
def State.sumFails (s : State) (p c t : Nat) : State :=
  let dev := Config.deviceId.toNat
  let red := s.fld RED_SLOT_ID.RED_ID t 0
  let step := s.reg .RED_SLOT_STEP t 0
  let b := s.fld RED_SLOT_BASE.BLOCK t 0
  ((((((s.slotTo p t 4).setFld RED_SLOT_CTRL.RESULT t 0 Status.checksum.code).bump .RED_SUM_FAIL p 0 1).redFault p dev 2 red 0 b step).logRedFault
    p dev 2 red 0 b step).alarm 0x25).vetoStep p c 3

section
variable {s : State} {p c t : Nat} (hs : s.slotOwner t = some (p, c))
include hs

theorem sumCheck_nothing (h : s.fld RED_SLOT_CTRL.OP t 0 = 1 ∨ s.slotComplete p c t = false) : s.sumCheck t = s := by
  simp only [State.sumCheck, hs]
  exact if_pos (by simpa using h)

variable (hop : s.fld RED_SLOT_CTRL.OP t 0 = 0) (hc : s.slotComplete p c t = true)
include hop hc

theorem sumCheck_agrees (h : s.SumAgrees p c t) : s.sumCheck t = s.sumReady p c t := by
  simp only [State.sumCheck, hs]
  exact (if_neg (by simp [hop, hc])).trans (if_pos h)

theorem sumCheck_differs (h : ¬ s.SumAgrees p c t) : s.sumCheck t = s.sumFails p c t := by
  simp only [State.sumCheck, hs]
  exact (if_neg (by simp [hop, hc])).trans (if_neg h)

end

/-! ### Held packets and replies (R190, R263) -/

theorem exec_holdRelease_none {s : State} (h : ∀ x ∈ s.heldPackets, s.heldDue x = false) : exec .holdRelease s = .next s := by
  have hf : s.heldPackets.find? s.heldDue = none := List.find?_eq_none.mpr (fun x hx => by simp [h x hx])
  simp [exec_holdRelease, execHoldRelease, hf]

section
variable {s : State} {h : Held} (hf : s.heldPackets.find? s.heldDue = some h)
include hf

theorem exec_holdRelease_gather (ht : pkType h.pk = 5) :
    exec .holdRelease s = .next (({ s with heldPackets := s.heldPackets.erase h } : State).matchGather h.pk) := by
  simp [exec_holdRelease, execHoldRelease, hf, ht]

/-- A packet whose wait is over has another verdict than to be held. -/
theorem exec_holdRelease_obeys (ht : pkType h.pk ≠ 5) : exec .holdRelease s = .next
    (({ s with heldPackets := s.heldPackets.erase h } : State).obey h.part h.ctx h.pk (s.verdict h.part h.ctx h.pk (some h.since))) := by
  have hdue : s.heldDue h = true := List.find?_some hf
  have hv : s.verdict h.part h.ctx h.pk (some h.since) ≠ .hold := by simpa [State.heldDue, ht] using hdue
  simp [exec_holdRelease, execHoldRelease, hf, ht, State.release1, hv]

end

section
variable {s : State} {n : Nat} {h : Held} (hn : s.heldPackets[n]? = some h)
include hn

theorem exec_holdTimeout_answers (ht : RED_POLICY.HOLD_PICKS.of (s.policy h.part h.ctx) < s.pick - h.since) :
    exec (.holdTimeout n) s = .next (({ s with heldPackets := s.heldPackets.erase h } : State).answerHeld h.part h.pk) := by
  simp only [exec_holdTimeout, execHoldTimeout, hn, if_pos ht]

theorem exec_holdTimeout_early (ht : s.pick - h.since ≤ RED_POLICY.HOLD_PICKS.of (s.policy h.part h.ctx)) :
    exec (.holdTimeout n) s = .next s := by
  simp only [exec_holdTimeout, execHoldTimeout, hn, if_neg (Nat.not_lt.mpr ht)]

end

theorem exec_replyWindowExpiry_resolves {s : State} {seq : W64} {x : Sent}
    (h : s.sent.find? (fun x => x.seq = seq.toNat && !x.bounced && pkType x.pk ≠ 6) = some x) :
    exec (.replyWindowExpiry seq) s = .next { s with sent := s.sent.erase x } := by
  simp only [exec_replyWindowExpiry, execReplyWindowExpiry, h]

theorem exec_replyWindowExpiry_none {s : State} {seq : W64} (h : ∀ x ∈ s.sent, x.seq = seq.toNat → x.bounced = true ∨ pkType x.pk = 6) :
    exec (.replyWindowExpiry seq) s = .next s := by
  have hf : s.sent.find? (fun x => x.seq = seq.toNat && !x.bounced && pkType x.pk ≠ 6) = none := by
    refine List.find?_eq_none.mpr (fun x hx => ?_)
    by_cases hseq : x.seq = seq.toNat
    · rcases h x hx hseq with hb | ht
      · simp [hb]
      · simp [ht]
    · simp [hseq]
  simp only [exec_replyWindowExpiry, execReplyWindowExpiry, hf]

/-! ### The obligation -/

/-- Settles O23: the commands of a slot by its STATE and the checks of its opening, and the others by what they find. -/
theorem slotCommands : Obligations.SlotCommands := by
  unfold Obligations.SlotCommands
  refine ⟨?commands, ?progress, ⟨?release, fun s h => exec_holdRelease_none h, ?timeout, ?reply, ?window⟩⟩
  case commands =>
    intro s bar p c slot v hf hs s1 free x s2
    rw [exec_slotOpen v hf hs, exec_slotRelease v hf hs]
    refine ⟨fun hfree hx => ?opens, fun hfree hx => ?refused, fun htaken => ?taken, fun hst => ?held, fun hst => ?ends, fun hfree => ?free⟩
    case opens =>
      rw [withSlotOp_free _ hfree]
      exact ⟨fun hd => congrArg _ (openSlot_opens hx hd), fun d hd => congrArg _ (openSlot_vetoes hx hd)⟩
    case refused =>
      rw [withSlotOp_free _ hfree]
      exact congrArg _ (openSlot_refused hx)
    case taken =>
      rw [withSlotOp_taken _ htaken]
      exact congrArg _ (openSlot_taken htaken)
    case held =>
      have hst' : s.fld RED_SLOT_CTRL.STATE slot.val 0 = 1 ∨ s.fld RED_SLOT_CTRL.STATE slot.val 0 = 2 := by simpa using hst
      rw [withSlotOp_taken _ (by omega)]
      exact congrArg _ (releaseSlot_refused hst')
    case ends =>
      rw [withSlotOp_taken _ (by omega)]
      exact congrArg _ (releaseSlot_ends hst)
    case free =>
      rw [withSlotOp_free _ hfree]
      exact congrArg _ (releaseSlot_free ((slotState_setFld_op s slot.val _).trans hfree))
  case progress =>
    intro s slot p c hs
    refine ⟨fun hc => ⟨exec_slotClearComplete_rematches hs hc, exec_slotClearComplete_closes hs hc⟩, exec_slotClearComplete_idle hs,
      fun h => congrArg _ (sumCheck_nothing hs h), fun hop hc => ?sums⟩
    exact ⟨fun h => congrArg _ (sumCheck_agrees hs hop hc h), fun h => congrArg _ (sumCheck_differs hs hop hc h)⟩
  case release => exact fun s h hf => ⟨exec_holdRelease_obeys hf, exec_holdRelease_gather hf⟩
  case timeout => exact fun s n h hn => ⟨exec_holdTimeout_answers hn, exec_holdTimeout_early hn⟩
  case reply => exact fun s seq => ⟨fun x => exec_replyWindowExpiry_resolves, exec_replyWindowExpiry_none⟩
  case window => exact fun s bar p w v hf => congrArg _ (viaPhysical_some hf)

end Sys2Proof.Machine
end

section
/-! SUPPORT. RSEND, RSCAN, RCALIB and RSLOT, and the ends of their operations (R185, R192, R263, R264). -/

namespace Sys2Proof.Machine
open Sys2Proof

/-! ### The instructions of this part -/

theorem exec_sendComplete {s : State} {op : Nat} : exec (.sendComplete op) s = execSendComplete op s := rfl

theorem exec_scanComplete {s : State} {op : Nat} : exec (.scanComplete op) s = execScanComplete op s := rfl

/-! ### Checks in order -/

theorem firstBad_of_bad {st : Status} (h : st ≠ .ok) (l : List Status) : firstBad (st :: l) = st := by simp [firstBad, h]

theorem firstBad_ok_cons (l : List Status) : firstBad (.ok :: l) = firstBad l := by simp [firstBad]

/-! ### Sends, scans and calibrations -/

section
variable {i : Iss} {s : State}

/-- A context may scan a pair that it has scanned, and a new one while it has fewer than 256 (R192). -/
def State.ScanRoom (s : State) (i : Iss) : Prop :=
  (i.sendArgs.red, i.sendArgs.ord) ∈ s.scanPairs i.part i.ctx ∨ (s.scanPairs i.part i.ctx).length < 256

theorem scanRoom_iff (s : State) (i : Iss) : ((s.scanPairs i.part i.ctx).contains (i.sendArgs.red, i.sendArgs.ord)
    || decide ((s.scanPairs i.part i.ctx).length < 256)) = true ↔ s.ScanRoom i := by simp [State.ScanRoom]

theorem rsend_refused (h : s.redIssue i 0 ≠ .ok) : rowRsend.effect i s = .raise (s.redIssue i 0) := by
  simp only [rowRsend]

theorem rscan_refused (h : s.redIssue i 1 ≠ .ok) : rowRscan.effect i s = .raise (s.redIssue i 1) := by
  simp only [rowRscan, firstBad_of_bad h]

theorem rscan_full (h : s.redIssue i 1 = .ok) (hroom : ¬ s.ScanRoom i) : rowRscan.effect i s = .raise .illegal := by
  have hfull := eq_false_of_ne_true (mt (scanRoom_iff s i).mp hroom)
  simp only [rowRscan, h, firstBad_ok_cons, hfull]
  rfl

theorem rcalib_refused (h : s.redIssue i 2 ≠ .ok) : rowRcalib.effect i s = .raise (s.redIssue i 2) := by
  simp only [rowRcalib]

variable (hprobe : i.probe = false)
include hprobe

theorem rsend_starts (h : s.redIssue i 0 = .ok) :
    rowRsend.effect i s = .go i.g (s.rsend i.part i.ctx i.engine i.sendArgs (i.sendOp 0x80)) := by
  simp only [rowRsend, h]
  exact if_neg (by simp [hprobe])

theorem rscan_starts (h : s.redIssue i 1 = .ok) (hroom : s.ScanRoom i) :
    rowRscan.effect i s = .go i.g (s.rscan i.part i.ctx i.engine i.sendArgs (i.sendOp 0x81)) := by
  have hroom' := (scanRoom_iff s i).mpr hroom
  simp only [rowRscan, h, firstBad_ok_cons, hroom']
  exact if_neg (by simp [hprobe])

theorem rcalib_starts (h : s.redIssue i 2 = .ok) :
    rowRcalib.effect i s = .go i.g (s.rcalib i.part i.ctx i.engine i.sendArgs (i.sendOp 0x82)) := by
  simp only [rowRcalib, h]
  exact if_neg (by simp [hprobe])

end

/-! ### The ends of operations (R192, R263) -/

theorem exec_sendComplete_none {s : State} {op : Nat} (h : s.async op = none) : exec (.sendComplete op) s = .next s := by
  simp only [exec_sendComplete, execSendComplete, h]

theorem exec_scanComplete_none {s : State} {op : Nat} (h : s.async op = none) : exec (.scanComplete op) s = .next s := by
  simp only [exec_scanComplete, execScanComplete, h]

section
variable {s : State} {op : Nat} {o : AsyncOp} (ho : s.async op = some o)
include ho

theorem exec_sendComplete_other (hw : ∀ r d, o.work ≠ .send r d) : exec (.sendComplete op) s = .next s := by
  simp only [exec_sendComplete, execSendComplete, ho]

theorem exec_scanComplete_other (hw : ∀ r d first, o.work ≠ .scan r d first) : exec (.scanComplete op) s = .next s := by
  simp only [exec_scanComplete, execScanComplete, ho]

section
variable {r d : Nat} (hw : o.work = .send r d)
include hw

theorem exec_sendComplete_waits (h : s.sent.any (fun x => x.op = op) = true) : exec (.sendComplete op) s = .next s := by
  simp only [exec_sendComplete, execSendComplete, ho, hw]
  exact congrArg _ (if_pos h)

variable (h : s.sent.any (fun x => x.op = op) = false)
include h

theorem exec_sendComplete_ends (hst : o.status.getD .ok ≠ .saturated) :
    exec (.sendComplete op) s = .next (s.endAsync o (o.status.getD .ok) true) := by
  simp only [exec_sendComplete, execSendComplete, ho, hw, if_neg hst]
  exact congrArg _ (if_neg (by simp [h]))

theorem exec_sendComplete_saturated (hst : o.status.getD .ok = .saturated) :
    exec (.sendComplete op) s = .next ((s.alarm 0x28).endAsync o .saturated true) := by
  simp only [exec_sendComplete, execSendComplete, ho, hw, hst, if_pos]
  exact congrArg _ (if_neg (by simp [h]))

end

section
variable {r d : Nat} {first : Option Nat} (hw : o.work = .scan r d first)
include hw

theorem exec_scanComplete_holds (hst : o.status = none) (hopen : s.stepState o.part o.ctx = 1) :
    exec (.scanComplete op) s = .next ((s.setStep o.part o.ctx { s.stepOf o.part o.ctx with
      scans := (s.stepOf o.part o.ctx).scans.filter (fun x => !(x.red = r && x.ord = d)) ++ [⟨r, d, first⟩] }).endAsync o .ok true) := by
  simp only [exec_scanComplete, execScanComplete, ho, hw, hst, hopen]
  rfl

theorem exec_scanComplete_ends (h : o.status ≠ none ∨ s.stepState o.part o.ctx ≠ 1) :
    exec (.scanComplete op) s = .next (s.endAsync o (o.status.getD .ok) true) := by
  have hcond : ¬ (o.status.isNone && decide (s.stepState o.part o.ctx = 1)) = true := by
    rcases h with h | h <;> simp [h]
  simp only [exec_scanComplete, execScanComplete, ho, hw, if_neg hcond]

end

end

/-! ### RSLOT (R264) -/

section
variable {i : Iss} {s : State}

/-- The image of a descriptor reaches a FREE slot (R198). -/
def State.withImage (s : State) (t : Nat) (img : List Byte) : State :=
  if s.fld RED_SLOT_CTRL.STATE t 0 = 0 then
    (slotWords.zipIdx).foldl (fun s w => s.writeMasked w.1 t 0 (leNat ((img.drop (4 * w.2 + 4)).take 4))) s
  else s

/-- What RSLOT does with the image of a descriptor. -/
def Iss.opensSlot (i : Iss) (s : State) (img : List Byte) : Issued :=
  if s.ownsSlot i then
    let x := (s.withImage (i.g.getS (i.f 38 5)) img).openSlot i.part i.ctx (i.g.getS (i.f 38 5))
    .go (i.g.setS (i.f 47 5) x.1.code) x.2
  else .go (i.g.setS (i.f 47 5) Status.protection.code) s

/-- RSLOT OPEN reads its image by the rules of the own bobbin. -/
theorem rslotOpen_own (i : Iss) (s : State) :
    rowRslotOpen.effect i s = i.own s (i.g.getA (i.f 43 4)) 32 1 false (fun off => i.opensSlot s (s.bobRead i off 32)) := by
  refine congrArg (i.own s _ 32 1 false) (funext fun off => ?_)
  cases h : s.ownsSlot i <;> simp [Iss.opensSlot, State.withImage, h]

theorem opensSlot_owned (h : s.ownsSlot i = true) (img : List Byte) :
    let x := (s.withImage (i.g.getS (i.f 38 5)) img).openSlot i.part i.ctx (i.g.getS (i.f 38 5))
    i.opensSlot s img = .go (i.g.setS (i.f 47 5) x.1.code) x.2 := if_pos h

theorem opensSlot_foreign (h : s.ownsSlot i = false) (img : List Byte) :
    i.opensSlot s img = .go (i.g.setS (i.f 47 5) Status.protection.code) s := if_neg (by simp [h])

theorem rslotRelease_owned (h : s.ownsSlot i = true) : rowRslotRelease.effect i s =
    .go (i.g.setS (i.f 47 5) (s.releaseSlot i.part (i.g.getS (i.f 38 5))).1.code) (s.releaseSlot i.part (i.g.getS (i.f 38 5))).2 :=
  if_neg (by simp [h])

theorem rslotRelease_foreign (h : s.ownsSlot i = false) :
    rowRslotRelease.effect i s = .go (i.g.setS (i.f 47 5) Status.protection.code) s := if_pos (by simp [h])

end

/-! ### The obligation -/

/-- Settles O35: each instruction is ready under its row, whose effect and whose completion the lemmas above say. -/
theorem reductionInstructions : Obligations.ReductionInstructions := by
  unfold Obligations.ReductionInstructions
  refine ⟨?sends, ?ends, ?slots⟩
  case sends =>
    intro s x g u
    refine ⟨fun hready => ?rsend, fun hready => ?rscan, fun hready => ?rcalib⟩
    case rsend =>
      obtain ⟨go, -, raise⟩ := exec_of_ready (c := .rsend x) (r := rowRsend) rfl hready rfl
      exact ⟨fun h => go _ _ (rsend_starts rfl h), fun h => raise _ (rsend_refused h)⟩
    case rscan =>
      obtain ⟨go, -, raise⟩ := exec_of_ready (c := .rscan x) (r := rowRscan) rfl hready rfl
      exact ⟨fun h hroom => go _ _ (rscan_starts rfl h hroom), fun h hroom => raise _ (rscan_full h hroom), fun h => raise _ (rscan_refused h)⟩
    case rcalib =>
      obtain ⟨go, -, raise⟩ := exec_of_ready (c := .rcalib x) (r := rowRcalib) rfl hready rfl
      exact ⟨fun h => go _ _ (rcalib_starts rfl h), fun h => raise _ (rcalib_refused h)⟩
  case ends =>
    intro s op
    exact ⟨fun h => ⟨exec_sendComplete_none h, exec_scanComplete_none h⟩, fun o ho =>
      ⟨fun r d hw => ⟨exec_sendComplete_waits ho hw, exec_sendComplete_ends ho hw, exec_sendComplete_saturated ho hw⟩,
        exec_sendComplete_other ho, fun r d first hw => ⟨exec_scanComplete_holds ho hw, exec_scanComplete_ends ho hw⟩,
        exec_scanComplete_other ho⟩⟩
  case slots =>
    intro s x g hready u i t a
    refine ⟨fun hcmd => ?release, fun hcmd => ?opens⟩
    case release =>
      obtain ⟨go, -, -⟩ := exec_of_ready (c := .rslotRelease x) (r := rowRslotRelease) rfl hready (decide_eq_true hcmd)
      exact ⟨fun h => go _ _ (rslotRelease_owned h), fun h => go _ _ (rslotRelease_foreign h)⟩
    case opens =>
      obtain ⟨go, hold, raise⟩ := exec_of_ready (c := .rslotOpen x) (r := rowRslotOpen) rfl hready (decide_eq_true hcmd)
      refine ⟨fun h => raise _ ((rslotOpen_own ..).trans (own_illegal (.inl h))), fun off hoff =>
        ⟨fun hin => raise _ ((rslotOpen_own ..).trans (own_protection hoff (Nat.mod_one _) hin)),
          fun hin hbusy => hold ((rslotOpen_own ..).trans (own_waits hoff (Nat.mod_one _) hin hbusy)), fun hin hfree => ?accesses⟩⟩
      have access : rowRslotOpen.effect i u = i.opensSlot u (u.bobRead i off 32) :=
        (rslotOpen_own ..).trans (own_accesses hoff (Nat.mod_one _) hin hfree)
      exact ⟨fun h => go _ _ (access.trans (opensSlot_foreign h _)), fun h => go _ _ (access.trans (opensSlot_owned h _))⟩

end Sys2Proof.Machine
end

section
/-! SUPPORT. Training, negotiation and retraining of a link (R163, R164, R167, R168, R175, R338). -/

namespace Sys2Proof.Machine
open Sys2Proof

/-! ### The lanes to run on (R164, R338) -/

theorem widthOf_all (l : Nat) : widthOf l 0xFF = some 0xFF := if_pos rfl

section
variable {l m : Nat}

/-- Lanes of which the lower half is not whole are not all good. -/
theorem ne_all_of_lower (h : m &&& 0x0F ≠ 0x0F) : m ≠ 0xFF := fun hm => h (hm ▸ rfl)

theorem widthOf_lower (hl : l < 16) (hm : m ≠ 0xFF) (h : m &&& 0x0F = 0x0F) : widthOf l m = some 0x0F := by
  simp [widthOf, hm, h, Nat.not_le.mpr hl]

theorem widthOf_upper (hl : l < 16) (hlow : m &&& 0x0F ≠ 0x0F) (h : m &&& 0xF0 = 0xF0) : widthOf l m = some 0xF0 := by
  simp [widthOf, ne_all_of_lower hlow, hlow, h, Nat.not_le.mpr hl]

theorem widthOf_noHalf (hlow : m &&& 0x0F ≠ 0x0F) (h : m &&& 0xF0 ≠ 0xF0) : widthOf l m = none := by
  simp [widthOf, ne_all_of_lower hlow, hlow, h]

theorem widthOf_selvage (hm : m ≠ 0xFF) : widthOf 16 m = none := by simp [widthOf, hm]

end

/-! ### Training -/

section
variable {s : State} {port : Fin 16} {v : W32}

theorem exec_portEnable_down (h : v.toNat % 2 = 0) : exec (.portEnable port v) s =
    .next ((s.setFld WEFT_PORT_CTRL.ENABLE port.val 0 v.toNat).linkTo port.val 0) := congrArg Host.Outcome.next (if_pos h)

variable (h : v.toNat % 2 = 1)
include h

theorem exec_portEnable_trains (hold : s.fld WEFT_PORT_CTRL.ENABLE port.val 0 = 0)
    (hen : (s.setFld WEFT_PORT_CTRL.ENABLE port.val 0 v.toNat).linkEnabled port.val = true) :
    exec (.portEnable port v) s = .next ((s.setFld WEFT_PORT_CTRL.ENABLE port.val 0 v.toNat).train port.val) :=
  congrArg Host.Outcome.next ((if_neg (by omega)).trans (if_pos (by simp [hold, hen])))

theorem exec_portEnable_stays (hno : s.fld WEFT_PORT_CTRL.ENABLE port.val 0 = 1
      ∨ (s.setFld WEFT_PORT_CTRL.ENABLE port.val 0 v.toNat).linkEnabled port.val = false) :
    exec (.portEnable port v) s = .next (s.setFld WEFT_PORT_CTRL.ENABLE port.val 0 v.toNat) :=
  congrArg Host.Outcome.next ((if_neg (by omega)).trans (if_neg (by rcases hno with hno | hno <;> simp [hno])))

end

section
variable {s : State} {port : Fin 17}

theorem exec_partnerSignalDetect_trains (hst : s.linkState port.val = 0) (hen : s.linkEnabled port.val = true)
    (hf : (s.port port.val).failures < 3) : exec (.partnerSignalDetect port) s = .next (s.train port.val) :=
  congrArg Host.Outcome.next (if_pos (by simp [hst, hen, hf]))

theorem exec_partnerSignalDetect_stays
    (h : s.linkState port.val ≠ 0 ∨ s.linkEnabled port.val = false ∨ 3 ≤ (s.port port.val).failures) :
    exec (.partnerSignalDetect port) s = .next s :=
  congrArg Host.Outcome.next (if_neg (by rcases h with h | h | h <;> simp [h]))

section
variable (hst : s.linkState port.val = 1)
include hst

theorem exec_trainingComplete_negotiates {good : BitVec 8} {w : Nat} (hw : widthOf port.val good.toNat = some w) :
    exec (.trainingComplete port (.done good)) s = .next ((s.setLanes port.val w).linkTo port.val 2) := by
  refine congrArg Host.Outcome.next ((if_neg (not_not_intro hst)).trans ?_)
  simp only [hw]

theorem exec_trainingComplete_noHalf {good : BitVec 8} (hw : widthOf port.val good.toNat = none) :
    exec (.trainingComplete port (.done good)) s = .next ((s.setLanes port.val good.toNat).linkTo port.val 0) := by
  refine congrArg Host.Outcome.next ((if_neg (not_not_intro hst)).trans ?_)
  simp only [hw]

theorem exec_trainingComplete_failed : exec (.trainingComplete port .failed) s = .next (s.linkTo port.val 0) :=
  congrArg Host.Outcome.next (if_neg (not_not_intro hst))

theorem exec_trainingTimeout_down : exec (.trainingTimeout port) s = .next (s.linkTo port.val 0) := congrArg Host.Outcome.next (if_pos hst)

end

theorem exec_trainingComplete_idle (hst : s.linkState port.val ≠ 1) (r : TrainEnd) : exec (.trainingComplete port r) s = .next s :=
  congrArg Host.Outcome.next (if_pos hst)

theorem exec_trainingTimeout_idle (hst : s.linkState port.val ≠ 1) : exec (.trainingTimeout port) s = .next s :=
  congrArg Host.Outcome.next (if_neg hst)

/-! ### Negotiation (R168) -/

/-- The NEGOTIATE that a link sends: its level, its device, that it is no switch, and its lanes. -/
def State.ownNegotiate (s : State) (l : Nat) : FlitBody :=
  .negotiate (s.ownLevel l) Config.deviceId.toNat false (if l < 16 then s.fld WEFT_PORT_STATUS.LANES l 0 else 0xFF)

theorem exec_negotiateSend_sends (hst : s.linkState port.val = 2 ∨ s.linkState port.val = 5) (hh : (s.port port.val).heard = false) :
    exec (.negotiateSend port) s = .next (s.sendFlit port.val (s.ownNegotiate port.val)) :=
  congrArg Host.Outcome.next (if_pos (by simp [hst, hh]))

theorem exec_negotiateSend_silent (h : s.linkState port.val ≠ 2 ∧ s.linkState port.val ≠ 5 ∨ (s.port port.val).heard = true) :
    exec (.negotiateSend port) s = .next s :=
  congrArg Host.Outcome.next (if_neg (by rcases h with ⟨h2, h5⟩ | h <;> simp [*]))

theorem exec_negotiateTimeout_refuses (hst : s.linkState port.val = 2) (hh : (s.port port.val).heard = false) :
    exec (.negotiateTimeout port) s = .next ((s.linkTo port.val 6).alarm 0x0D) :=
  congrArg Host.Outcome.next (if_pos (by simp [hst, hh]))

theorem exec_negotiateTimeout_stays (h : s.linkState port.val ≠ 2 ∨ (s.port port.val).heard = true) :
    exec (.negotiateTimeout port) s = .next s :=
  congrArg Host.Outcome.next (if_neg (by rcases h with h | h <;> simp [h]))

/-- A link that has heard a NEGOTIATE. -/
def State.heardPartner (s : State) (l : Nat) : State := s.setPort l { s.port l with heard := true }

section
variable {level : BitVec 4} {partner : BitVec 16} {sw : Bool} {lanes : BitVec 8}

theorem exec_negotiate_ignored (h2 : s.linkState port.val ≠ 2) (h5 : s.linkState port.val ≠ 5) :
    exec (.negotiate port level partner sw lanes) s = .next s := congrArg Host.Outcome.next (if_pos (by simp [h2, h5]))

section
variable (hst : s.linkState port.val = 2 ∨ s.linkState port.val = 5)
include hst

theorem exec_negotiate_itself (hp : partner = Config.deviceId) : exec (.negotiate port level partner sw lanes) s =
    .next (((s.heardPartner port.val).linkTo port.val 6).alarm 0x0D) :=
  congrArg Host.Outcome.next ((if_neg (by rcases hst with h | h <;> simp [h])).trans (if_pos hp))

variable (hp : partner ≠ Config.deviceId)
include hp

theorem exec_negotiate_level (hl : level = 0) : exec (.negotiate port level partner sw lanes) s =
    .next (((s.heardPartner port.val).linkTo port.val 6).alarm 0x0C) :=
  congrArg Host.Outcome.next (((if_neg (by rcases hst with h | h <;> simp [h])).trans (if_neg hp)).trans (if_pos hl))

/-- A NEGOTIATE that is not refused names the partner, and brings a link UP that does not retrain. -/
theorem exec_negotiate_accepted (hl : level ≠ 0) : exec (.negotiate port level partner sw lanes) s =
    .next (if s.linkState port.val = 2 then ((s.heardPartner port.val).setPartner port.val partner.toNat).linkOpen port.val
      else (s.heardPartner port.val).setPartner port.val partner.toNat) :=
  congrArg Host.Outcome.next (((if_neg (by rcases hst with h | h <;> simp [h])).trans (if_neg hp)).trans (if_neg hl))

end

end

/-! ### Retraining (R167) -/

/-- The replays, or the uncorrectable codewords, of a link within the last millisecond. -/
def State.recentFaults (s : State) (l : Nat) (fec : Bool) : Nat :=
  ((s.port l).faults.filter (fun f => f.2 = fec && f.1 ≤ s.reg .TIME_FABRIC 0 0 && s.reg .TIME_FABRIC 0 0 ≤ f.1 + msUnits)).length

theorem mustRetrain_iff (s : State) (l : Nat) : s.mustRetrain l = true ↔ 16 < s.recentFaults l false ∨ 16 < s.recentFaults l true := by
  rw [State.mustRetrain, Bool.or_eq_true, decide_eq_true_eq, decide_eq_true_eq]
  rfl

theorem exec_retrain_begins (hup : s.linkUp port.val = true)
    (h : 16 < s.recentFaults port.val false ∨ 16 < s.recentFaults port.val true) :
    exec (.retrain port) s = .next (s.retrain port.val) :=
  congrArg Host.Outcome.next (if_pos (by simp [hup, mustRetrain_iff, h]))

theorem exec_retrain_stays
    (h : s.linkUp port.val = false ∨ (s.recentFaults port.val false ≤ 16 ∧ s.recentFaults port.val true ≤ 16)) :
    exec (.retrain port) s = .next s := by
  refine congrArg Host.Outcome.next (if_neg ?_)
  rw [Bool.and_eq_true, mustRetrain_iff]
  rintro ⟨hup, hmust⟩
  rcases h with hdown | ⟨hrep, hfec⟩
  · simp [hdown] at hup
  · omega

/-- The lanes that the end of a retrain leaves a link to run on. -/
def retrainWidth (l : Nat) : TrainEnd → Option Nat
  | .done g => widthOf l g.toNat
  | .failed => none

theorem exec_retrainComplete_idle (h : s.linkState port.val ≠ 5) (r : TrainEnd) : exec (.retrainComplete port r) s = .next s :=
  congrArg Host.Outcome.next (if_pos h)

section
variable (h : s.linkState port.val = 5) {r : TrainEnd} {o : Option Nat} (hr : retrainWidth port.val r = o)
include h hr

theorem exec_retrainComplete_weft (hl : port.val < 16) : exec (.retrainComplete port r) s = .next (s.endRetrain port.val o) := by
  subst hr
  refine congrArg Host.Outcome.next ((if_neg (not_not_intro h)).trans ?_)
  cases r <;> exact if_neg (by simp [Nat.ne_of_lt hl])

/-- A retrain of the selvage link ends in the loss of the twin (R338). -/
theorem exec_retrainComplete_selvage (hl : port.val = 16) : exec (.retrainComplete port r) s =
    .next (if (s.endRetrain port.val o).paired then (s.endRetrain port.val o).twinLost else s.endRetrain port.val o) := by
  subst hr
  refine congrArg Host.Outcome.next ((if_neg (not_not_intro h)).trans ?_)
  cases r <;> simp [hl, retrainWidth]

end

end

theorem retrainWidth_selvage {r : TrainEnd} (h : r ≠ .done 0xFF) : retrainWidth 16 r = none := by
  cases r with
  | failed => rfl
  | done g => exact widthOf_selvage (fun hg => h (congrArg TrainEnd.done (BitVec.eq_of_toNat_eq hg)))

/-! ### The obligation -/

/-- Settles O15: each command by the link's state and what it finds, and the ends of trainings by the lanes they leave. -/
theorem linkStates : Obligations.LinkStates := by
  unfold Obligations.LinkStates
  refine ⟨⟨?enable, ?signal, ?complete, ?notTraining⟩, ⟨?sends, ?negotiate⟩, ?retrain, ?ends, ?notRetraining⟩
  case enable => exact fun s port v => ⟨exec_portEnable_down, exec_portEnable_trains, exec_portEnable_stays⟩
  case signal => exact fun s port => ⟨exec_partnerSignalDetect_trains, exec_partnerSignalDetect_stays⟩
  case complete =>
    intro s port good hst m
    refine ⟨fun hm => ?_, fun hm hl hlow => exec_trainingComplete_negotiates hst (widthOf_lower hl hm hlow),
      fun hlow hl hup => exec_trainingComplete_negotiates hst (widthOf_upper hl hlow hup), fun hm h => ?_,
      exec_trainingComplete_failed hst, exec_trainingTimeout_down hst⟩
    · exact exec_trainingComplete_negotiates hst ((congrArg (widthOf port.val) hm).trans (widthOf_all _))
    · refine exec_trainingComplete_noHalf hst ?_
      rcases h with hl | ⟨hlow, hup⟩
      · exact hl ▸ widthOf_selvage hm
      · exact widthOf_noHalf hlow hup
  case notTraining => exact fun s port hst => ⟨exec_trainingComplete_idle hst, exec_trainingTimeout_idle hst⟩
  case sends =>
    exact fun s port => ⟨exec_negotiateSend_sends, exec_negotiateSend_silent, exec_negotiateTimeout_refuses, exec_negotiateTimeout_stays⟩
  case negotiate =>
    intro s port level partner sw lanes l t u
    refine ⟨fun hst => ⟨exec_negotiate_itself hst, exec_negotiate_level hst⟩, fun hst hp hl => ?up, fun hst hp hl => ?names,
      exec_negotiate_ignored⟩
    case up => exact (exec_negotiate_accepted (.inl hst) hp hl).trans (congrArg _ (if_pos hst))
    case names => exact (exec_negotiate_accepted (.inr hst) hp hl).trans (congrArg _ (if_neg (hst ▸ by decide)))
  case retrain => exact fun s port => ⟨exec_retrain_begins, exec_retrain_stays⟩
  case ends =>
    intro s port r hst l good n t bad
    have hgood : ∀ w, s.endRetrain l (some w) = good w := fun _ => rfl
    have hbad : s.endRetrain l none = bad := rfl
    refine ⟨fun hl => ?weft, fun hl => ?selvage⟩
    case weft =>
      simp only [← hgood, ← hbad]
      refine ⟨?_, ?_, ?_, ?_⟩
      · rintro rfl
        exact exec_retrainComplete_weft hst (widthOf_all _) hl
      · rintro g rfl hm hlow
        exact exec_retrainComplete_weft hst (widthOf_lower hl hm hlow) hl
      · rintro g rfl hlow hup
        exact exec_retrainComplete_weft hst (widthOf_upper hl hlow hup) hl
      · rintro (rfl | ⟨g, rfl, hlow, hup⟩)
        · exact exec_retrainComplete_weft hst (o := none) rfl hl
        · exact exec_retrainComplete_weft hst (widthOf_noHalf hlow hup) hl
    case selvage =>
      simp only [← hgood, ← hbad]
      refine ⟨?_, fun hr => ?_⟩
      · rintro rfl
        exact exec_retrainComplete_selvage hst (widthOf_all _) hl
      · exact exec_retrainComplete_selvage hst ((congrArg (retrainWidth · r) hl).trans (retrainWidth_selvage hr)) hl
  case notRetraining => exact fun s port r hst => exec_retrainComplete_idle hst r

end Sys2Proof.Machine
end

section
/-! SUPPORT. Flits: acceptance, replay, and control messages (R165, R166, R169). -/

namespace Sys2Proof.Machine
open Sys2Proof

/-! ### A good flit in sequence -/

section
variable {x : Port} {h : Nat}

/-- An ACK that names no flit of the replay buffer releases none. -/
theorem took_unacked_unknown (hack : ∀ f ∈ x.unacked, f.seq ≠ bits h 14 12) : (x.took h).unacked = x.unacked := by
  refine if_neg ?_
  simpa using hack

/-- An ACK releases the flits up to the one that it names. -/
theorem took_unacked_released {before after : List Flit} {f : Flit} (hx : x.unacked = before ++ f :: after)
    (hbefore : ∀ g ∈ before, g.seq ≠ bits h 14 12) (hf : f.seq = bits h 14 12) : (x.took h).unacked = after := by
  have hany : x.unacked.any (fun f => f.seq = bits h 14 12) = true := by simp [hx, hf]
  have hdrop : x.unacked.dropWhile (fun f => f.seq ≠ bits h 14 12) = f :: after := by
    rw [hx, List.dropWhile_append_of_pos (by simpa using hbefore), List.dropWhile_cons_of_neg (by simp [hf])]
  exact (if_pos hany).trans (by rw [hdrop, List.drop_one, List.tail_cons])

end

/-- A link that counts the codewords of a flit that were not corrected. -/
def State.codewords (s : State) (l uncorr : Nat) : State :=
  (if l < 16 then s.bump .WEFT_PORT_FEC_UNCORR l 0 uncorr else s).linkFault l true uncorr

section
variable {s : State} {port : Fin 17} {hdr : W64} {payload : List Byte} {check : W64} {uncorr : Nat}

theorem exec_flitReceive_dead (h : s.linkAlive port.val = false) : exec (.flitReceive port hdr payload check uncorr) s = .next s :=
  congrArg Host.Outcome.next (if_pos (by simp [h]))

variable (h : s.linkAlive port.val = true)
include h

theorem exec_flitReceive_discards (hbad : 2 ≤ bits hdr.toNat 0 2 ∨ payload.length ≠ 496 ∨ uncorr ≠ 0
      ∨ crc64 (leBytes 8 hdr.toNat ++ payload) ≠ check.toNat ∨ bits hdr.toNat 2 12 ≠ ((s.codewords port.val uncorr).port port.val).rxNext) :
    exec (.flitReceive port hdr payload check uncorr) s = .next ((s.codewords port.val uncorr).sendFlit port.val
      (.retryReq ((s.codewords port.val uncorr).port port.val).rxNext)) := by
  refine congrArg Host.Outcome.next ((if_neg (by simp [h])).trans (if_pos ?_))
  simpa [State.codewords, or_assoc] using hbad

theorem exec_flitReceive_accepts (hkind : bits hdr.toNat 0 2 < 2) (hlen : payload.length = 496) (hfec : uncorr = 0)
    (hcrc : crc64 (leBytes 8 hdr.toNat ++ payload) = check.toNat)
    (hseq : bits hdr.toNat 2 12 = ((s.codewords port.val uncorr).port port.val).rxNext) :
    let u := s.codewords port.val uncorr
    let t := u.setPort port.val ((u.port port.val).took hdr.toNat)
    exec (.flitReceive port hdr payload check uncorr) s =
      .next (if bits hdr.toNat 0 2 = 0 then t.idleFlit port.val else t.pump port.val) := by
  refine congrArg Host.Outcome.next ((if_neg (by simp [h])).trans (if_neg ?_))
  have hgood : ¬ (2 ≤ bits hdr.toNat 0 2 ∨ payload.length ≠ 496 ∨ uncorr ≠ 0 ∨ crc64 (leBytes 8 hdr.toNat ++ payload) ≠ check.toNat
      ∨ bits hdr.toNat 2 12 ≠ ((s.codewords port.val uncorr).port port.val).rxNext) := by
    simp [Nat.not_le.mpr hkind, hlen, hfec, hcrc, hfec ▸ hseq]
  simpa [State.codewords, or_assoc] using hgood

end

/-! ### A control message that nothing waits before -/

section
variable {x : Port} {gated : Bool} {w : List Nat}

theorem Port.choose_empty (hq : x.queue = []) : x.choose gated w = none := by
  have hready : ∀ c, x.ready gated c = false := fun c => by simp [Port.ready, hq]
  simp [Port.choose, hready]

theorem Port.pump_empty {data : Bool} (hc : x.ctl = []) (hq : x.queue = []) (n : Nat) : Port.pump data gated w n x = ([], x) := by
  have hnext : x.next data gated w = none := by cases data <;> simp [Port.next, hc, Port.choose_empty hq]
  cases n with
  | zero => rfl
  | succ n => simp [Port.pump, hnext]

/-- A port that holds one control message, and nothing else, sends it in one flit where its replay buffer has room. -/
theorem Port.pump_ctl {data : Bool} {b : FlitBody} (hc : x.ctl = [b]) (hq : x.queue = []) (hun : x.unacked.length < 256) (n : Nat) :
    Port.pump data gated w (n + 1) x = ([(({ x with ctl := [] } : Port).push b).1], (({ x with ctl := [] } : Port).push b).2) := by
  have hnext : x.next data gated w = some (b, { x with ctl := [] }) := by simp only [Port.next, hc]
  have hrest : Port.pump data gated w n (({ x with ctl := [] } : Port).push b).2 = ([], (({ x with ctl := [] } : Port).push b).2) :=
    Port.pump_empty (x := (({ x with ctl := [] } : Port).push b).2) rfl hq n
  simp only [Port.pump, if_neg (Nat.not_le.mpr hun), hnext, hrest]

end

@[simp] theorem port_setPort (s : State) (l : Nat) (x : Port) : (s.setPort l x).port l = x := by
  simp [State.port, State.setPort, SMap.get_set]

theorem pump_ctl {s : State} {l : Nat} {x : Port} {b : FlitBody} (halive : s.linkAlive l = true) (hx : s.port l = x) (hc : x.ctl = [b])
    (hq : x.queue = []) (hun : x.unacked.length < 256) :
    let y := ({ x with ctl := [] } : Port).push b
    s.pump l = { s with ports := SMap.set {} s.ports l y.2, outs := s.outs ++ [Flit.out l y.2.ack y.1] } := by
  have hsends : (s.linkUp l || decide (s.linkState l = 2) || decide (s.linkState l = 5)) = true := halive
  simp only [State.pump, hx, if_pos hsends, Port.pump_ctl hc hq hun, List.map_cons, List.map_nil]

theorem sendFlit_alone {s : State} {l : Nat} (b : FlitBody) (halive : s.linkAlive l = true) (hc : (s.port l).ctl = [])
    (hq : (s.port l).queue = []) (hun : (s.port l).unacked.length < 256) :
    let x := s.port l
    s.sendFlit l b = { s with ports := SMap.set {} (SMap.set {} s.ports l { x with ctl := [b] }) l { (x.push b).2 with ctl := [] },
                              outs := s.outs ++ [Flit.out l x.ack (x.push b).1] } := by
  have hset : s.sendFlit l b = (s.setPort l { s.port l with ctl := [b] }).pump l := by rw [State.sendFlit, hc, List.nil_append]
  exact hset.trans (pump_ctl (x := { s.port l with ctl := [b] }) halive (port_setPort ..) rfl hq hun)

/-! ### The obligation -/

/-- Settles O16: a flit by its checks, a RETRY_REQ by the replay buffer, and a control message by the one flit that it leaves in. -/
theorem flitReceive : Obligations.FlitReceive := by
  unfold Obligations.FlitReceive
  refine ⟨?receives, ?replays, ?sends⟩
  case receives =>
    intro s port hdr payload check uncorr l h u x
    refine ⟨fun halive => ⟨fun hkind hlen hfec hcrc hseq => ?accepts, exec_flitReceive_discards halive⟩, exec_flitReceive_dead⟩
    have hexec := exec_flitReceive_accepts halive hkind hlen hfec hcrc hseq
    exact ⟨x.took h, fun hdata => hexec.trans (congrArg _ (if_pos hdata)), fun hctl => hexec.trans (congrArg _ (if_neg (ne_of_eq_of_ne hctl (by decide)))),
      rfl, rfl, rfl, rfl, rfl, rfl, took_unacked_unknown, fun _ _ _ => took_unacked_released⟩
  case replays =>
    exact fun s port seq => ⟨fun h => congrArg Host.Outcome.next (if_neg (by simp [h])), fun h => congrArg Host.Outcome.next (if_pos (by simp [h]))⟩
  case sends => exact fun s l b halive hc hq hun => ⟨sendFlit_alone b halive hc hq hun, rfl, rfl, rfl, rfl⟩

end Sys2Proof.Machine
end

section
/-! SUPPORT. Fabric time: its ticks, TIME messages, lock, the root's clock and the reference (R172, R173, R282 to R284, R424, R444). -/

namespace Sys2Proof.Machine
open Sys2Proof

/-! ### Ticks (R283, R284) -/

theorem reg_fabric_setTime (s : State) (t : Nat) : (s.setTime t).reg .TIME_FABRIC 0 0 = t % 2 ^ 64 := by
  rw [State.setTime, reg_setReg_of_ne _ _ (by decide) (by decide) (by decide) (by decide) (by simp), reg_setReg_same]
  rfl

theorem pick_setTime (s : State) (t : Nat) : (s.setTime t).pick = t % 2 ^ 64 / s.pickUnits % 2 ^ 64 := reg_setReg_same ..

theorem pickUnits_pos (s : State) : 0 < s.pickUnits := Nat.two_pow_pos _

/-- The first unit of the next pick is of the next pick. -/
theorem pick_setTime_next {s : State} (h : (s.pick + 1) * s.pickUnits < 2 ^ 64) :
    (s.setTime ((s.pick + 1) * s.pickUnits)).pick = s.pick + 1 := by
  have hpick : s.pick + 1 < 2 ^ 64 := Nat.lt_of_le_of_lt (Nat.le_mul_of_pos_right _ (pickUnits_pos s)) h
  rw [pick_setTime, Nat.mod_eq_of_lt h, Nat.mul_div_cancel _ (pickUnits_pos s), Nat.mod_eq_of_lt hpick]

theorem exec_pickBoundary_next {s : State} (h : s.ahead = 0) :
    exec .pickBoundary s = .next (s.setTime ((s.pick + 1) * s.pickUnits)).atBoundary := congrArg Host.Outcome.next (if_neg (by omega))

theorem exec_pickBoundary_holds {s : State} (h : 0 < s.ahead) : exec .pickBoundary s = .next { s with ahead := s.ahead - 2 * s.pickUnits } :=
  congrArg Host.Outcome.next (if_pos h)

/-! ### TIME messages (R172, R282) -/

section
variable {s : State} {port : Fin 16}

theorem exec_timeSend_sends (hup : s.linkUp port.val = true) (hroom : (s.port port.val).unacked.length < 256) :
    exec (.timeSend port) s = .next (s.now.2.sendFlit port.val (.time s.now.1 (s.port port.val).lastRx (s.fld TIME_STATUS.HOPS 0 0)
      (s.fld TIME_STATUS.FABRIC_LOCK 0 0 = 1) (s.reg .TIME_EPOCH 0 0))) :=
  congrArg Host.Outcome.next (if_neg (by simp [hup, hroom]))

theorem exec_timeSend_stays (h : s.linkUp port.val = false ∨ 256 ≤ (s.port port.val).unacked.length) : exec (.timeSend port) s = .next s :=
  congrArg Host.Outcome.next (if_pos (by simpa using h))

end

theorem ite_and_decide {α : Type} (a : Bool) (q : Prop) [Decidable q] (x y : α) :
    (if (a && decide q) = true then x else y) = if a = true ∧ q then x else y := if_congr (by simp) rfl rfl

/-- What a TIME message leaves but for the epoch and the exchange: its hops and lock, a conflict of roots, the upstream port, and its stamps. -/
def State.timeSeen (s : State) (l : Nat) (m : TimeMsg) : State :=
  let t1 := (s.setFld WEFT_PORT_TIME.HOPS l 0 m.hops.toNat).setFld WEFT_PORT_TIME.LOCK l 0 (b2n m.lock)
  let t2 := (if t1.actsRoot = true ∧ m.hops = 0 then t1.rootConflict l else t1).chooseUpstream
  t2.setPort l { t2.port l with last := some (m.t1.toNat, m.t2.toNat, m.t3.toNat), lastRx := some m.t2.toNat }

/-- The device follows the port's partner. -/
abbrev State.Follows (s : State) (l : Nat) : Prop := s.actsRoot = false ∧ s.fld WEFT_PORT_TIME.ROLE l 0 = 1

/-- Whether the device follows the port's partner, as the model asks it. -/
def State.follows (s : State) (l : Nat) : Bool := !s.actsRoot && s.fld WEFT_PORT_TIME.ROLE l 0 = 1

theorem follows_iff {s : State} {l : Nat} : s.follows l = true ↔ s.Follows l := by simp [State.follows, State.Follows]

/-- What a TIME message leaves but for the exchange that it completes: from the upstream port, the epoch. -/
def State.epochTaken (s : State) (l : Nat) (m : TimeMsg) : State := if s.follows l then s.setReg .TIME_EPOCH 0 0 m.epoch.toNat else s

theorem epochTaken_eq (s : State) (l : Nat) (m : TimeMsg) :
    s.epochTaken l m = if s.Follows l then s.setReg .TIME_EPOCH 0 0 m.epoch.toNat else s := if_congr follows_iff rfl rfl

/-- The rest of a TIME message, after the stamps `last` of the message before it. -/
def State.endTime (s : State) (l : Nat) (last : Option (Nat × Nat × Nat)) (m : TimeMsg) : State :=
  match last, m.t4 with
  | some (p1, p2, p3), some p4 =>
    let a : Int := (p2 : Int) - p1
    let b : Int := (p4.toNat : Int) - p3
    let u := (s.epochTaken l m).setFld WEFT_PORT_TIME.DELAY l 0 (min 65535 ((a + b) / 2).toNat)
    if s.follows l then u.exchange (a - b) else u
  | _, _ => s.epochTaken l m

theorem endTime_noExchange {last : Option (Nat × Nat × Nat)} {m : TimeMsg} (h : last = none ∨ m.t4 = none) (s : State) (l : Nat) :
    s.endTime l last m = s.epochTaken l m := by
  rcases h with h | h
  · simp only [State.endTime, h]
  · simp only [State.endTime, h]

theorem endTime_exchange {last : Option (Nat × Nat × Nat)} {m : TimeMsg} {p1 p2 p3 : Nat} {p4 : W64} (hlast : last = some (p1, p2, p3))
    (ht4 : m.t4 = some p4) (s : State) (l : Nat) :
    let a : Int := (p2 : Int) - p1
    let b : Int := (p4.toNat : Int) - p3
    let u := (s.epochTaken l m).setFld WEFT_PORT_TIME.DELAY l 0 (min 65535 ((a + b) / 2).toNat)
    s.endTime l last m = if s.follows l then u.exchange (a - b) else u := by
  simp only [State.endTime, hlast, ht4]

theorem exec_timeMsg_down {s : State} {port : Fin 16} (h : s.linkUp port.val = false) (m : TimeMsg) : exec (.timeMsg port m) s = .next s :=
  congrArg Host.Outcome.next (if_pos (by simp [h]))

theorem exec_timeMsg_up {s : State} {port : Fin 16} (h : s.linkUp port.val = true) (m : TimeMsg) :
    exec (.timeMsg port m) s = .next ((s.timeSeen port.val m).endTime port.val (s.port port.val).last m) := by
  refine congrArg Host.Outcome.next ((if_neg (by simp [h])).trans ?_)
  simp only [State.timeSeen, ← ite_and_decide]
  rfl

/-! ### Lock (R173, R284) -/

section
variable {s : State}

theorem loseLock_unlocked (h : s.fld TIME_STATUS.FABRIC_LOCK 0 0 = 0) : s.loseLock = { s with goodExchanges := 0 } := if_pos h

theorem loseLock_locked (h : s.fld TIME_STATUS.FABRIC_LOCK 0 0 = 1) : s.loseLock =
    (((({ s with goodExchanges := 0 } : State).setFld TIME_STATUS.FABRIC_LOCK 0 0 0).setFld TIME_STATUS.HOLDOVER 0 0 1).bump
      .TIME_LOCK_LOSS 0 0 1).alarm 0x0B :=
  if_neg (by rw [show ({ s with goodExchanges := 0 } : State).fld TIME_STATUS.FABRIC_LOCK 0 0 = 1 from h]; decide)

theorem exec_fabricLockLoss_root (h : s.actsRoot = true) : exec .fabricLockLoss s = .next s := congrArg Host.Outcome.next (if_pos h)

theorem exec_fabricLockLoss_loses (h : s.actsRoot = false) : exec .fabricLockLoss s = .next s.loseLock :=
  congrArg Host.Outcome.next (if_neg (by simp [h]))

theorem exec_upstreamLoss_chooses (h : s.fld WEFT_PORT_TIME.ROLE (s.fld TIME_STATUS.UPSTREAM 0 0) 0 = 1) : exec .upstreamLoss s = .next
    (({ s with goodExchanges := 0 } : State).setFld WEFT_PORT_TIME.HOPS (s.fld TIME_STATUS.UPSTREAM 0 0) 0 7).chooseUpstream :=
  congrArg Host.Outcome.next (if_pos h)

theorem exec_upstreamLoss_stays (h : s.fld WEFT_PORT_TIME.ROLE (s.fld TIME_STATUS.UPSTREAM 0 0) 0 ≠ 1) : exec .upstreamLoss s = .next s :=
  congrArg Host.Outcome.next (if_neg h)

/-! ### Corrections (R284) -/

variable {twice : Int}

theorem correct_steps (h : 2 * (s.pickUnits : Int) < twice) : s.correct twice =
    ({ s with ahead := 0 } : State).stepTime ((s.reg .TIME_FABRIC 0 0 + twice.toNat / 2) % 2 ^ 64) := if_pos h

theorem correct_holds (h : twice < -(2 * (s.pickUnits : Int))) : s.correct twice = { s with ahead := (-twice).toNat } :=
  (if_neg (by omega)).trans (if_pos (by simp [h]))

theorem correct_slews (hlo : -(2 * (s.pickUnits : Int)) ≤ twice) (hhi : twice ≤ 2 * (s.pickUnits : Int)) (ha : s.ahead = 0) :
    s.correct twice = s := (if_neg (Int.not_lt.mpr hhi)).trans (if_neg (by simp [Int.not_lt.mpr hlo, ha]))

end

/-! ### The root's clock and the pulses (R282, R444) -/

section
variable {s : State} {locked : Bool} {sec : W64} {sub : BitVec 33}

/-- The state of the IEEE 1588 clock is taken. -/
def State.ptpState (s : State) (locked : Bool) : State := s.setFld TIME_STATUS.PTP_LOCK 0 0 (b2n locked)

/-- Fabric time as the IEEE 1588 clock gives it: its reading less TIME_EPOCH. -/
def State.ptpTime (s : State) (sec : W64) (sub : BitVec 33) : Int := ((sec.toNat : Int) - s.reg .TIME_EPOCH 0 0) * secUnits + sub.toNat

theorem exec_ieee1588Message_notRoot (h : (s.ptpState locked).actsRoot = false) :
    exec (.ieee1588Message locked sec sub) s = .next (s.ptpState locked) := congrArg Host.Outcome.next (if_pos (by rw [← State.ptpState, h]; rfl))

variable (h : (s.ptpState locked).actsRoot = true)
include h

theorem exec_ieee1588Message_loses (hl : locked = false) : exec (.ieee1588Message locked sec sub) s = .next (s.ptpState locked).loseLock :=
  congrArg Host.Outcome.next ((if_neg (by rw [← State.ptpState, h]; decide)).trans (if_pos (by simp [hl])))

theorem exec_ieee1588Message_first (hl : locked = true) (hever : (s.ptpState locked).everLocked = false) :
    exec (.ieee1588Message locked sec sub) s =
      .next ((s.ptpState locked).declareLock ((s.ptpState locked).ptpTime sec sub % 2 ^ 64).toNat) :=
  congrArg Host.Outcome.next (((if_neg (by rw [← State.ptpState, h]; decide)).trans (if_neg (by simp [hl]))).trans
    (if_neg (by rw [← State.ptpState, hever]; decide)))

theorem exec_ieee1588Message_corrects (hl : locked = true) (hever : (s.ptpState locked).everLocked = true) :
    exec (.ieee1588Message locked sec sub) s = .next (((s.ptpState locked).correct
      (2 * ((s.ptpState locked).ptpTime sec sub - (s.ptpState locked).reg .TIME_FABRIC 0 0))).declareLock 0) :=
  congrArg Host.Outcome.next (((if_neg (by rw [← State.ptpState, h]; decide)).trans (if_neg (by simp [hl]))).trans (if_pos hever))

end

section
variable {s : State} {d : Int}

theorem exec_ppsIn_ignored (h : s.fld TIME_CFG.ROOT 0 0 = 0 ∨ s.fld TIME_STATUS.PTP_LOCK 0 0 = 0) : exec (.ppsIn d) s = .next s :=
  congrArg Host.Outcome.next (if_pos (by simpa using h))

variable (hroot : s.fld TIME_CFG.ROOT 0 0 = 1) (hptp : s.fld TIME_STATUS.PTP_LOCK 0 0 = 1)
include hroot hptp

theorem exec_ppsIn_corrects (hd : d.natAbs ≤ 8000) : exec (.ppsIn d) s = .next (s.correct (-2 * d)) :=
  congrArg Host.Outcome.next ((if_neg (by simp [hroot, hptp])).trans (if_pos hd))

theorem exec_ppsIn_alarm (hd : 8000 < d.natAbs) : exec (.ppsIn d) s = .next (s.alarm 0x0B) :=
  congrArg Host.Outcome.next ((if_neg (by simp [hroot, hptp])).trans (if_neg (Nat.not_le.mpr hd)))

end

/-! ### The obligation -/

/-- Settles O17: a tick by what the device is ahead, a message by its link and the exchange that it completes, and the clocks by what they
find. -/
theorem fabricTime : Obligations.FabricTime := by
  unfold Obligations.FabricTime
  refine ⟨?ticks, ⟨?send, ?message, ?upstream, ?lock⟩, ?ptp, ?correct, ?pps, ?reference⟩
  case ticks =>
    intro s
    exact ⟨fun ha hlt => ⟨exec_pickBoundary_next ha, pick_setTime_next hlt, (reg_fabric_setTime ..).trans (Nat.mod_eq_of_lt hlt)⟩,
      exec_pickBoundary_holds⟩
  case send => exact fun s port => ⟨exec_timeSend_sends, exec_timeSend_stays⟩
  case message =>
    intro s port m l t1 t2 t3 up t
    refine ⟨fun hup => ⟨fun h => ?alone, fun p1 p2 p3 p4 hlast ht4 => ?exchange⟩, fun h => exec_timeMsg_down h m⟩
    case alone => exact (exec_timeMsg_up hup m).trans (congrArg _ ((endTime_noExchange h _ _).trans (epochTaken_eq ..)))
    case exchange =>
      intro a b u
      have ended := (exec_timeMsg_up hup m).trans (congrArg Host.Outcome.next (endTime_exchange hlast ht4 _ _))
      rw [epochTaken_eq] at ended
      exact ⟨fun h => ended.trans (congrArg _ (if_pos (follows_iff.mpr h))),
        fun h => ended.trans (congrArg _ (if_neg (mt follows_iff.mp h)))⟩
  case upstream => exact fun s => ⟨exec_upstreamLoss_chooses, exec_upstreamLoss_stays⟩
  case lock =>
    intro s u
    exact ⟨exec_fabricLockLoss_root, fun h hl => (exec_fabricLockLoss_loses h).trans (congrArg _ (loseLock_unlocked hl)),
      fun h hl => (exec_fabricLockLoss_loses h).trans (congrArg _ (loseLock_locked hl))⟩
  case ptp =>
    exact fun s locked sec sub => ⟨exec_ieee1588Message_notRoot, exec_ieee1588Message_loses, exec_ieee1588Message_first,
      exec_ieee1588Message_corrects⟩
  case correct => exact fun s twice => ⟨correct_steps, correct_holds, correct_slews⟩
  case pps => exact fun s d => ⟨fun hr hp => ⟨exec_ppsIn_corrects hr hp, exec_ppsIn_alarm hr hp⟩, exec_ppsIn_ignored⟩
  case reference =>
    intro s
    exact ⟨rfl, fun h => congrArg Host.Outcome.next (if_pos h), fun h => congrArg Host.Outcome.next (if_neg h),
      fun h => congrArg Host.Outcome.next (if_pos h), fun h => congrArg Host.Outcome.next (if_neg h),
      fun h => congrArg Host.Outcome.next (if_neg h), fun h => congrArg Host.Outcome.next (if_pos h)⟩

end Sys2Proof.Machine
end

section
/-! SUPPORT. The HBM stacks and the on-chip SRAM: accesses, repairs, SRAM errors, the scrubber and the traffic generators (R292 to R309). -/

namespace Sys2Proof.Machine
open Sys2Proof

/-! ### The instructions of this part -/

theorem exec_laneRepairComplete {s : State} {st : Fin 16} {ch : Fin 32} : exec (.laneRepairComplete st ch) s = execLaneRepairComplete st ch s := rfl

theorem exec_softRepairComplete {s : State} {st : Fin 16} : exec (.softRepairComplete st) s = execSoftRepairComplete st s := rfl

theorem exec_sramSweep {s : State} {p : Fin 8} {e : SramError} : exec (.sramSweep p e) s = execSramSweep p e s := rfl

theorem exec_tgRunComplete {s : State} {st : Fin 16} {ch : Fin 32} {flips : List Flip} : exec (.tgRunComplete st ch flips) s = execTgRunComplete st ch flips s := rfl

/-! ### Accesses (R302, R303) -/

section
variable {s : State} {a : Agent} {w : Bool} {addr n : Nat} {r : HbmReq}

theorem request_refused (h : (s.hbmCheck (agentWho a) w addr n).1 ≠ .ok) :
    s.request a w addr n r =
      (s.hbmCheck (agentWho a) w addr n).2.answer a (s.hbmCheck (agentWho a) w addr n).1 [] := by
  unfold State.request
  generalize s.hbmCheck (agentWho a) w addr n = x at h ⊢
  obtain ⟨st, t⟩ := x
  cases st
  case ok => exact absurd rfl h
  all_goals rfl

theorem request_passed (h : (s.hbmCheck (agentWho a) w addr n).1 = .ok) :
    s.request a w addr n r = (s.hbmCheck (agentWho a) w addr n).2.takeReq r := by
  unfold State.request
  generalize s.hbmCheck (agentWho a) w addr n = x at h ⊢
  obtain ⟨st, t⟩ := x
  cases h
  rfl

theorem takeReq_waits (h : s.mustWait r = true) : s.takeReq r = { s with hbmWaiting := s.hbmWaiting ++ [r] } := if_pos h

theorem takeReq_serves (h : s.mustWait r = false) : s.takeReq r = s.serveReq r := if_neg (by simp [h])

theorem request_waits (h : (s.hbmCheck (agentWho a) w addr n).1 = .ok) (hw : (s.hbmCheck (agentWho a) w addr n).2.mustWait r = true) :
    s.request a w addr n r = { (s.hbmCheck (agentWho a) w addr n).2 with
      hbmWaiting := (s.hbmCheck (agentWho a) w addr n).2.hbmWaiting ++ [r] } :=
  (request_passed h).trans (takeReq_waits hw)

theorem request_served (h : (s.hbmCheck (agentWho a) w addr n).1 = .ok) (hw : (s.hbmCheck (agentWho a) w addr n).2.mustWait r = false) :
    s.request a w addr n r = (s.hbmCheck (agentWho a) w addr n).2.serveReq r :=
  (request_passed h).trans (takeReq_serves hw)

end

/-! ### Lane and row repairs, and the stack's own events (R292, R295, R309, R319) -/

section
variable {s : State} {st : Fin 16} {ch : Fin 32} {lane : Fin 74}

theorem exec_laneRepair_stays (h : s.fld HBM_REPAIR_CFG.LANE_LIMIT st.val 0 = 0
      ∨ s.laneCount st.val ch.val lane.val < s.fld HBM_REPAIR_CFG.LANE_LIMIT st.val 0 ∨ s.laneBusyOn st.val ch.val = true) :
    exec (.laneRepair st ch lane) s = .next s :=
  congrArg Host.Outcome.next (if_pos (by simpa [or_assoc] using h))

section
variable (hlimit : s.fld HBM_REPAIR_CFG.LANE_LIMIT st.val 0 ≠ 0)
  (hcount : s.fld HBM_REPAIR_CFG.LANE_LIMIT st.val 0 ≤ s.laneCount st.val ch.val lane.val) (hbusy : s.laneBusyOn st.val ch.val = false)
include hlimit hcount hbusy

theorem laneRepair_due : ¬ (s.fld HBM_REPAIR_CFG.LANE_LIMIT st.val 0 = 0
    || s.laneCount st.val ch.val lane.val < s.fld HBM_REPAIR_CFG.LANE_LIMIT st.val 0 || s.laneBusyOn st.val ch.val) = true := by
  simp [hlimit, hcount, hbusy]

theorem exec_laneRepair_begins (h : (s.freeSpare st.val ch.val).isSome = true) :
    exec (.laneRepair st ch lane) s = .next { s with laneBusy := s.laneBusy ++ [(st.val, ch.val, lane.val)] } :=
  congrArg Host.Outcome.next ((if_neg (laneRepair_due hlimit hcount hbusy)).trans (if_pos h))

theorem exec_laneRepair_known (h : s.freeSpare st.val ch.val = none) (hm : (st.val, ch.val, lane.val) ∈ s.exhaustedLanes) :
    exec (.laneRepair st ch lane) s = .next s :=
  congrArg Host.Outcome.next ((if_neg (laneRepair_due hlimit hcount hbusy)).trans ((if_neg (by simp [h])).trans (if_pos (by simpa using hm))))

theorem exec_laneRepair_exhausted (h : s.freeSpare st.val ch.val = none) (hm : (st.val, ch.val, lane.val) ∉ s.exhaustedLanes) :
    exec (.laneRepair st ch lane) s =
      .next (({ s with exhaustedLanes := (st.val, ch.val, lane.val) :: s.exhaustedLanes } : State).alarm 0x14) :=
  congrArg Host.Outcome.next ((if_neg (laneRepair_due hlimit hcount hbusy)).trans ((if_neg (by simp [h])).trans (if_neg (by simpa using hm))))

end

theorem exec_laneRepairComplete_none (h : s.laneBusy.find? (fun x => x.1 = st.val && x.2.1 = ch.val) = none) :
    exec (.laneRepairComplete st ch) s = .next s := by
  simp only [exec_laneRepairComplete, execLaneRepairComplete, h]

/-- The lane that a repair of lane `l` stands for: of a spare, the one that it replaces. -/
def State.repairedLane (s : State) (st ch l : Nat) : Nat :=
  if l = 72 then s.fld HBM_CH_STATUS.LANE_A st ch else if l = 73 then s.fld HBM_CH_STATUS.LANE_B st ch else l

/-- A lane's repair ends: the spare that took over is entered in `f`. -/
def State.laneRepaired (s : State) (st ch : Nat) (x : Nat × Nat × Nat) (f : Field) : State :=
  (((({ s with laneBusy := s.laneBusy.erase x } : State).setFld HBM_CH_STATUS.SPARES_USED st ch
    (s.fld HBM_CH_STATUS.SPARES_USED st ch + 1)).setFld f st ch (s.repairedLane st ch x.2.2)).bump .HBM_LANE_REPAIRS st 0 1).serveWaiting

theorem exec_laneRepairComplete_some {x : Nat × Nat × Nat} (h : s.laneBusy.find? (fun x => x.1 = st.val && x.2.1 = ch.val) = some x) :
    exec (.laneRepairComplete st ch) s = .next (s.laneRepaired st.val ch.val x
      (if s.freeSpare st.val ch.val = some 72 then HBM_CH_STATUS.LANE_A else HBM_CH_STATUS.LANE_B)) := by
  simp only [exec_laneRepairComplete, execLaneRepairComplete, h]
  rfl

theorem exec_softRepairComplete_none
    (h : s.repairing.find? (fun t => t.stack = st.val && !s.laneBusyOn t.stack t.ch && !s.tgRuns t.stack t.ch) = none) :
    exec (.softRepairComplete st) s = .next s := by
  simp only [exec_softRepairComplete, execSoftRepairComplete, h]

theorem exec_softRepairComplete_some {t : Track}
    (h : s.repairing.find? (fun t => t.stack = st.val && !s.laneBusyOn t.stack t.ch && !s.tgRuns t.stack t.ch) = some t) :
    let u := ({ s with repairing := s.repairing.erase t } : State).rewriteRow t
    exec (.softRepairComplete st) s = .next (((u.putRepair t 1).getD u).bump .HBM_SOFT_REPAIRS st.val 0 1).serveWaiting := by
  simp only [exec_softRepairComplete, execSoftRepairComplete, h]

end

/-! ### Errors of on-chip SRAM (R305, R306) -/

section
variable {rows cols : BitVec 16}

theorem sramEnd_clean (hr : failing rows = 0) (hc : failing cols = 0) : sramEnd rows cols = .clean := by simp only [sramEnd, hr, hc]

theorem sramEnd_corrected (hr : failing rows ≤ 1) (hc : failing cols ≤ 1) (h : failing rows + failing cols ≠ 0) :
    sramEnd rows cols = .corrected := by
  rcases Nat.le_one_iff_eq_zero_or_eq_one.mp hr with hr | hr
  · rcases Nat.le_one_iff_eq_zero_or_eq_one.mp hc with hc | hc
    · exact absurd (by rw [hr, hc]) h
    · simp only [sramEnd, hr, hc]
  · rcases Nat.le_one_iff_eq_zero_or_eq_one.mp hc with hc | hc
    · simp only [sramEnd, hr, hc]
    · simp only [sramEnd, hr, hc]

theorem sramEnd_uncorrectable (h : 2 ≤ failing rows ∨ 2 ≤ failing cols) : sramEnd rows cols = .uncorrectable := by
  unfold sramEnd
  split
  case h_5 => rfl
  all_goals omega

end

section
variable {s : State} {p : Nat} {t : Fin 4096}

/-- An uncorrectable block's count and alarm. -/
abbrev State.sramAlarm (s : State) (p : Nat) (x : SramPlace) : State := (s.sramCount p x .PART_SRAM_UE .DEV_CREEL_SRAM_UE).alarm 0x16

theorem sramLost_slot {x : SramPlace} (h : x = .accumulator t ∨ x = .sideStore t) :
    s.sramLost p x = if (s.slotOwner t.val).isSome then (s.sramAlarm p x).failSlot t.val else s := by
  rcases h with rfl | rfl
  · rfl
  · rfl

theorem sramLost_held_none {n : Nat} (h : s.heldPackets[n]? = none) : s.sramLost p (.held n) = s := by simp only [State.sramLost, h]

theorem sramLost_held_some {n : Nat} {x : Held} (h : s.heldPackets[n]? = some x) : s.sramLost p (.held n) =
    ({ s.sramAlarm p (.held n) with heldPackets := (s.sramAlarm p (.held n)).heldPackets.erase x } : State).reply x.pk .timeout := by
  simp only [State.sramLost, h]

end

section
variable {s : State} {p : Fin 8} {e : SramError}

theorem exec_sramSweep_clean (hr : failing e.rows = 0) (hc : failing e.cols = 0) : exec (.sramSweep p e) s = .next s := by
  simp only [exec_sramSweep, execSramSweep, sramEnd_clean hr hc]

theorem exec_sramSweep_corrected (hr : failing e.rows ≤ 1) (hc : failing e.cols ≤ 1) (h : failing e.rows + failing e.cols ≠ 0) :
    exec (.sramSweep p e) s = .next (s.sramCount p.val e.place .PART_SRAM_CE .DEV_CREEL_SRAM_CE) := by
  simp only [exec_sramSweep, execSramSweep, sramEnd_corrected hr hc h]

theorem exec_sramSweep_lost (h : 2 ≤ failing e.rows ∨ 2 ≤ failing e.cols) :
    exec (.sramSweep p e) s = .next (s.sramLost p.val e.place) := by
  simp only [exec_sramSweep, execSramSweep, sramEnd_uncorrectable h]

end

/-! ### The scrubber (R307) -/

section
variable {s : State} {st ch : Nat}

/-- The scrubber has nothing to read on a channel now. -/
abbrev State.ScrubIdle (s : State) (st ch : Nat) : Prop :=
  s.fld HBM_SCRUB_CFG.ENABLE st 0 = 0 ∨ 2 ≤ s.fld PWR_STATE.CURRENT 0 0 ∨ s.tgRuns st ch = true
    ∨ s.laneBusyOn st ch = true ∨ s.repairing.any (fun t => t.stack = st && t.ch = ch) = true

/-- The scrubber's position after the blocks that it has read on a channel. -/
def State.scrubStep (s : State) (st ch next : Nat) : State :=
  let t := ({ s with scrubPos := SMap.set 0 s.scrubPos (st * 32 + ch) (BitVec.ofNat 64 next) } : State)
  if ch = 0 then t.setReg .HBM_SCRUB_POS st 0 (scrubAddr st 0 0 next) else t

variable {stack : Fin 16} {chan : Fin 32} {d0 d1 : Damage}

theorem exec_scrubRead_idle (h : s.ScrubIdle stack.val chan.val) : exec (.scrubRead stack chan d0 d1) s = .next s :=
  congrArg Host.Outcome.next (if_pos (by simpa [State.ScrubIdle, or_assoc] using h))

theorem exec_scrubRead_reads (h : ¬ s.ScrubIdle stack.val chan.val) :
    let i := (SMap.get 0 s.scrubPos (stack.val * 32 + chan.val)).toNat
    let next := (i + 1) % 2 ^ 24
    let t := ((s.scrubBlock (scrubAddr stack.val chan.val 0 i) d0).scrubBlock (scrubAddr stack.val chan.val 1 i) d1).scrubStep
      stack.val chan.val next
    exec (.scrubRead stack chan d0 d1) s = .next (if next = 0 then
      { t.bump .HBM_SCRUB_PASSES stack.val 0 1 with tracks := t.tracks.filter (fun t => t.stack ≠ stack.val) } else t) :=
  congrArg Host.Outcome.next (if_neg (by simpa [State.ScrubIdle, or_assoc] using h))

end

/-! ### The traffic generators (R297, R299) -/

section
variable {s : State} {st ch w : Nat}

/-- A written STOP tells a run to stop. -/
def State.tgStopTaken (s : State) (st ch w : Nat) : State :=
  if HBM_TG_CTRL.STOP.of w = 1 && s.tgRuns st ch then { s with tgStopped := (st, ch) :: s.tgStopped } else s

theorem tgStopTaken_eq (s : State) (st ch w : Nat) : s.tgStopTaken st ch w =
    if HBM_TG_CTRL.STOP.of w = 1 ∧ s.tgRuns st ch = true then { s with tgStopped := (st, ch) :: s.tgStopped } else s :=
  if_congr (by simp) rfl rfl

/-- A run begins with its results clear. -/
def State.tgBegun (s : State) (st ch : Nat) : State :=
  { (((((s.setReg .HBM_TG_FAIL_LO st ch 0).setReg .HBM_TG_FAIL_HI st ch 0).setReg .HBM_TG_ERRORS st ch 0).setReg .HBM_TG_FIRST st ch 0).setReg
      .HBM_TG_STATUS st ch 1) with tgStopped := s.tgStopped.filter (fun x => x ≠ (st, ch)) }

/-- A START: the run begins, or the status of the check is its result. -/
def State.tgStarted (s : State) (st ch : Nat) : State :=
  match s.tgCheck st ch with
  | .ok => s.tgBegun st ch
  | e => s.setFld HBM_TG_STATUS.RESULT st ch e.code

theorem tgStarted_begins (h : s.tgCheck st ch = .ok) : s.tgStarted st ch = s.tgBegun st ch := by simp only [State.tgStarted, h]

theorem tgStarted_refused (h : s.tgCheck st ch ≠ .ok) :
    s.tgStarted st ch = s.setFld HBM_TG_STATUS.RESULT st ch (s.tgCheck st ch).code := by
  unfold State.tgStarted
  split
  case h_1 hok => exact absurd hok h
  case h_2 => rfl

theorem writeTg_noStart (h : HBM_TG_CTRL.START.of w ≠ 1 ∨ (s.writeMasked .HBM_TG_CTRL st ch w).tgRuns st ch = true) :
    s.writeTg st ch w = (s.writeMasked .HBM_TG_CTRL st ch w).tgStopTaken st ch w :=
  congrArg (State.tgStopTaken · st ch w) (if_neg (by rcases h with h | h <;> simp [h]))

theorem writeTg_start (hs : HBM_TG_CTRL.START.of w = 1) (hr : (s.writeMasked .HBM_TG_CTRL st ch w).tgRuns st ch = false) :
    s.writeTg st ch w = ((s.writeMasked .HBM_TG_CTRL st ch w).tgStarted st ch).tgStopTaken st ch w :=
  congrArg (State.tgStopTaken · st ch w) (if_pos (by simp [hs, hr]))

end

section
variable {s : State} {st : Fin 16} {ch : Fin 32} {flips : List Flip}

theorem exec_tgRunComplete_idle (h : s.tgRuns st.val ch.val = false) : exec (.tgRunComplete st ch flips) s = .next s := by
  simp only [exec_tgRunComplete, execTgRunComplete, h, Bool.false_eq_true, if_false]

theorem exec_tgRunComplete_goesOn (h : s.tgRuns st.val ch.val = true) (hd : s.tgDone st.val ch.val s.fresh.1 = none) :
    exec (.tgRunComplete st ch flips) s = .next s := by
  simp only [exec_tgRunComplete, execTgRunComplete, h, hd, if_true]

/-- A run that has tested `done` rows ends with result `e`. -/
def State.tgEnded (s : State) (st ch done : Nat) (flips : List Flip) (e : Status) : State :=
  let first := s.fld HBM_TG_RANGE.FIRST_ROW st ch
  let u := (s.fresh.2.zeroRows st ch (s.fld HBM_TG_CTRL.PC_MASK st ch) first
    (min (s.fld HBM_TG_RANGE.LAST_ROW st ch) (first + done - 1))).tgFound st ch (s.mismatches st ch done (flips.map Flip.place))
  (({ u with tgStopped := u.tgStopped.filter (fun x => x ≠ (st, ch)) } : State).setReg .HBM_TG_STATUS st ch (2 + e.code * 2 ^ 8)).serveWaiting

theorem exec_tgRunComplete_ends (h : s.tgRuns st.val ch.val = true) {done : Nat} (hd : s.tgDone st.val ch.val s.fresh.1 = some done) :
    exec (.tgRunComplete st ch flips) s = .next (s.tgEnded st.val ch.val done flips (if s.tgStopped.contains (st.val, ch.val) then .aborted
      else if s.mismatches st.val ch.val done (flips.map Flip.place) = [] then .ok else .busError)) := by
  simp only [exec_tgRunComplete, execTgRunComplete, h, hd, if_true]
  rfl

end

/-! ### The obligation -/

/-- Settles O40: an access by its check and what it must wait behind, a repair by the spares and what runs, an SRAM error by the checks that
fail and its place, the scrubber by what holds its channel, and a generator by its command, its check and how its run ended. -/
theorem hbmAccessAndRepair : Obligations.HbmAccessAndRepair := by
  unfold Obligations.HbmAccessAndRepair
  refine ⟨?access, ⟨?lane, ?laneEnd, ?soft, ?temp, ?rate⟩, ?sram, ?scrub, ?generator, ?runEnd⟩
  case access =>
    intro s a addr d
    refine ⟨fun n => ⟨?_, ?_, ?_⟩, fun b t => ⟨?_, ?_, fun h hw => ⟨?_, ?_⟩⟩⟩
    · exact fun h => congrArg Host.Outcome.next (request_refused h)
    · exact fun h hw => congrArg Host.Outcome.next (request_waits h hw)
    · exact fun h hw => congrArg Host.Outcome.next (request_served h hw)
    · exact fun h => congrArg Host.Outcome.next (request_refused h)
    · exact fun h hw => congrArg Host.Outcome.next (request_waits h hw)
    · rintro rfl
      exact congrArg Host.Outcome.next (request_served h hw)
    · rintro rfl
      exact congrArg Host.Outcome.next (request_served h hw)
  case lane =>
    exact fun s st ch lane => ⟨exec_laneRepair_stays, fun hl hc hb => ⟨exec_laneRepair_begins hl hc hb, exec_laneRepair_known hl hc hb,
      exec_laneRepair_exhausted hl hc hb⟩⟩
  case laneEnd =>
    rintro s st ch o ho
    refine ⟨?_, ?_⟩
    · rintro rfl
      exact exec_laneRepairComplete_none ho
    · rintro x rfl
      exact ⟨fun h => (exec_laneRepairComplete_some ho).trans (congrArg (Host.Outcome.next <| s.laneRepaired st.val ch.val x ·) (if_pos h)),
        fun h => (exec_laneRepairComplete_some ho).trans (congrArg (Host.Outcome.next <| s.laneRepaired st.val ch.val x ·) (if_neg h))⟩
  case soft =>
    rintro s st o ho
    refine ⟨?_, ?_⟩
    · rintro rfl
      exact exec_softRepairComplete_none ho
    · rintro t rfl
      exact exec_softRepairComplete_some ho
  case temp => exact fun s st t => ⟨fun h => congrArg Host.Outcome.next (if_neg h), fun h => congrArg Host.Outcome.next (if_pos h)⟩
  case rate =>
    intro s st
    exact ⟨fun h0 h => congrArg Host.Outcome.next (if_pos (by simpa using ⟨h0, h⟩)),
      fun h => congrArg Host.Outcome.next (if_neg (by simpa [or_iff_not_imp_left] using h))⟩
  case sram =>
    intro s p e r c count lost
    have hcount (part creel : RegName) (x : SramPlace) : count part creel x = s.sramCount p.val x part creel := by
      cases x with
      | accumulator t | sideStore t =>
        cases h : s.slotOwner t.val with
        | none => simp only [count, State.sramCount, h]
        | some y => simp only [count, State.sramCount, h]
      | held n =>
        cases h : s.heldPackets[n]? with
        | none => simp only [count, State.sramCount, h]
        | some x => simp only [count, State.sramCount, h]
      | bobbin | addressedBeam | beamLine | icache => rfl
    have hlost : lost = s.sramAlarm p.val e.place := congrArg (State.alarm · 0x16) (hcount ..)
    rw [hcount, hlost]
    refine ⟨exec_sramSweep_clean, exec_sramSweep_corrected, fun h => ?_⟩
    rw [exec_sramSweep_lost h]
    refine ⟨?_, fun l hl => ?_, fun t ht => ?_, fun n hn => ?_, fun n hn => ?_⟩
    · rintro (hb | hb)
      · rw [hb]
        rfl
      · rw [hb]
        rfl
    · rw [hl]
      rfl
    · rw [sramLost_slot ht]
      exact ⟨fun h => congrArg _ (if_neg (by simp [h])), fun h => congrArg _ (if_pos h)⟩
    · rw [hn]
      exact ⟨fun h => congrArg _ (sramLost_held_none h), fun x h => congrArg _ (sramLost_held_some h)⟩
    · rw [hn]
      rfl
  case scrub =>
    intro s st ch d0 d1
    exact ⟨exec_scrubRead_idle, fun h hn => (exec_scrubRead_reads h).trans (congrArg _ (if_neg hn)),
      fun h hn => (exec_scrubRead_reads h).trans (congrArg _ (if_pos hn))⟩
  case generator =>
    intro s st ch v w c hc
    have hexec : exec c s = .next (s.writeTg st.val ch.val w) := by
      rcases hc with ⟨rfl, rfl⟩ | ⟨rfl, rfl⟩
      · rfl
      · rfl
    rw [hexec]
    exact ⟨fun h => congrArg _ ((writeTg_noStart h).trans (tgStopTaken_eq ..)), fun hs hr =>
      ⟨fun h => congrArg _ ((writeTg_start hs hr).trans (by rw [tgStarted_begins h, tgStopTaken_eq]; rfl)),
        fun h => congrArg _ ((writeTg_start hs hr).trans (by rw [tgStarted_refused h, tgStopTaken_eq]))⟩⟩
  case runEnd =>
    intro s st ch flips
    refine ⟨exec_tgRunComplete_idle, exec_tgRunComplete_goesOn, fun hr done hd => ⟨fun h => ?_, fun h hbad => ?_, fun h hbad => ?_⟩⟩
    · rw [exec_tgRunComplete_ends hr hd, if_pos (by simpa using h)]
      rfl
    · rw [exec_tgRunComplete_ends hr hd, if_neg (by simpa using h), if_pos hbad]
      rfl
    · rw [exec_tgRunComplete_ends hr hd, if_neg (by simpa using h), if_neg hbad]
      rfl

end Sys2Proof.Machine
end
